-- ==== Sys2Proof/Word.lean ====
section
/-! DEFINITION. The word types of the FS-8200 and their plainest arithmetic: widths of R8, R10, R115 and the
sign extension of R10. Nothing here is specific to one instruction. -/

namespace Sys2Proof

/-- A scalar register or slot image: 64 bits (R115, R64). -/
abbrev W64 := BitVec 64

/-- A vector element, predicate, mask or PC: 32 bits (R30, R113, R115). -/
abbrev W32 := BitVec 32

/-- One byte of memory (R8). -/
abbrev Byte := BitVec 8

/-- `sign_extend64` of a 32-bit immediate (R10, R129). -/
def sext64 (x : W32) : W64 := x.signExtend 64

/-- `zero_extend64` of a 32-bit value (R10). -/
def zext64 (x : W32) : W64 := x.setWidth 64

/-- The low 32 bits of a scalar register. -/
def low32 (x : W64) : W32 := x.setWidth 32

/-- Bits [lo+n-1 : lo] of a number. -/
def fld (w lo n : Nat) : Nat := w / 2 ^ lo % 2 ^ n

/-- Bit i of a 32-bit mask, as a Bool. -/
def bitOn (m : W32) (i : Nat) : Bool := m.getLsbD i

/-- ceil(a / b) for b > 0. -/
def ceilDiv (a b : Nat) : Nat := (a + (b - 1)) / b

/-- The number of one bits of a 32-bit mask. -/
def popc32 (m : W32) : Nat := (List.range 32).countP (fun i => m.getLsbD i)

/-- All thirty-two lanes. -/
def allLanes : W32 := 0xFFFFFFFF#32

end Sys2Proof
end

