-- ==== Sys2Proof/Config.lean ====
section
/-! DEFINITION. The values the spec leaves open, as opaque constants: nothing can evaluate one, so a statement holds
for every value. Each is named in the assumption log. -/

namespace Sys2Proof.Config

/-- Clk that a variable-latency result, walk or acknowledgement takes, by free-value number (R258, R278: the figures
are guides, the order of landings is free). Log 5. -/
opaque latency : Nat → Nat

/-- A choice among outcomes that a rule allows as a closed list, by free-value number (R6). Log 6. -/
opaque choice : Nat → Nat

/-- Does free choice number n take its second alternative? -/
def flip (n : Nat) : Bool := choice n % 2 == 1

/-- The instance id that TRACE reports for a leaf of the top-level tree (R200): the spec states none. Log 6. -/
opaque noInstance : Nat

/-- The cause code recorded for a not-present page where it escalates as a fault (R377): R373 lists none. Log 12. -/
opaque notPresentCause : Nat

/-- The word that stands past constant 15 as the second half of b64 data (R66, R261): the spec names no constant 16. Log 10. -/
opaque pastConstants : BitVec 32

/-- The serial number of the part (R416): 16 bytes as a number. Log 7. -/
opaque serial : Nat
/-- The public key derived from the fused secret (R416): 1,312 bytes as a number. Log 7. -/
opaque publicKey : Nat
/-- SHA3-256 (R413, R416), of a byte string. Log 7. -/
opaque sha3 : List Byte → Nat
/-- The ML-DSA-44 signature of a digest under the identity key (R416): 2,420 bytes as a number. Log 7. -/
opaque sign : Nat → Nat
/-- The fused minimum version and key digest as bytes (R416). Log 7. -/
opaque fused : List Byte

/-- Byte i of the image body of the boot flash (R413): only its digest is used. Log 7. -/
opaque firmware : List Byte

end Sys2Proof.Config
end

