-- ==== Sys2Proof/Syntax.lean ====
section
/-! DEFINITION. The steps of the FS-8200 as one inductive type: the slot instructions of the five bundle slots
(R74, R126, R152, R175, R250, R272, R282, R291, R295, R302, R320, R333, R349) with their operands decoded, and the
events of the device (file 95), each with what names it. -/

namespace Sys2Proof

/-- A scalar register field s0 to s63 (R64). -/
abbrev SReg := Fin 64
/-- A predicate register field p0 to p7 (R64). -/
abbrev PReg := Fin 8
/-- A translation register a0 to a15 (R222). -/
abbrev AReg := Fin 16
/-- A matrix register m0 to m9 (R65). -/
abbrev MReg := Fin 10

/-- The guard of a slot: predicate number and negate bit (R62). -/
structure Guard where
  pg  : Fin 8
  neg : Bool
deriving DecidableEq, Repr

/-- The always guard: p0, not negated (R62). -/
def Guard.always : Guard := { pg := 0, neg := false }

/-- The roles of R310: shader, copy, matrix, vector. -/
inductive Role where
  | shader | copy | matrix | vector
deriving DecidableEq, Repr

/-- The direction of a matrix register view: codes 00 h, 01 v, 10 d, 11 w (R65, R113). -/
inductive Dir where
  | h | v | d | w
deriving DecidableEq, Repr

/-- A view of a matrix register that a field names (R65). -/
structure View where
  dir : Dir
  m   : MReg
  i   : Fin 32
deriving DecidableEq, Repr

/-- A vector source operand (R65): matrix codes 0-9 a view, 10 a broadcast scalar, 11 a pool entry, 12 a constant,
13 lane identity, 14 a role-queue pop. -/
inductive VSrc where
  | view (x : View)
  | bcast (i : Fin 32)
  | pool (i : Fin 32)
  | const (i : Fin 16)
  | lane (i : Fin 32)
  | qpop (q : Fin 4)
deriving DecidableEq, Repr

/-- The M-slot spaces that some instruction lists (R67, R250). -/
inductive Space where
  | g | s | a | c
deriving DecidableEq, Repr

/-- Access sizes b8, b16, b32, b64 (R250). -/
inductive Size where
  | b8 | b16 | b32 | b64
deriving DecidableEq, Repr

/-- Operands of MOVS (R134): scalar from scalar, workgroup scalar from scalar, scalar from workgroup scalar. -/
inductive MovsOp where
  | ss (sd sa : SReg)
  | ws (wd : Fin 32) (sa : SReg)
  | sw (sd : SReg) (wa : Fin 32)
deriving DecidableEq, Repr

/-- Operands of PMOV (R135). -/
inductive PmovOp where
  | pp (pd pa : PReg)
  | ps (pd : PReg) (sa : SReg)
  | sp (sd : SReg) (pa : PReg)
deriving DecidableEq, Repr

/-- The source of FMT (R136). -/
inductive FmtSrc where
  | imm (x : W32)
  | reg (sa : SReg)
deriving DecidableEq, Repr

/-- The two forms of VCVT (R164). -/
inductive CvtOp where
  | up (n : Fin 8)
  | dn (n : Fin 8) (vc : VSrc)
deriving DecidableEq, Repr

/-- The modes of VSHFL (R169); up and dn carry their filler operand. -/
inductive ShflMode where
  | idx | up (vc : VSrc) | dn (vc : VSrc) | xor | rot
deriving DecidableEq, Repr

/-- The range of CLEAN and INVAL (R271). -/
inductive RangeSel where
  | range (sa sb : SReg)
  | all
deriving DecidableEq, Repr

/-- COPY spaces (R272): sources .g .a .s, destinations .g .a .w .s. -/
inductive CSpace where
  | g | a | w | s
deriving DecidableEq, Repr

/-- Operands of MMA and MMAG (R282): scaled flags, latch, accumulate, descriptor registers, C bank, M-1, N-1, nb. -/
structure MmaOp where
  sa : Bool
  sw : Bool
  wl : Bool
  acc : Bool
  sA : SReg
  sW : SReg
  sF : SReg
  bank : Fin 8
  m1 : Fin 128
  n1 : Fin 128
  nb : Fin 1024
deriving DecidableEq, Repr

/-- Operands of ACCRD (R291). -/
structure AccrdOp where
  i32 : Bool
  reg : Bool
  mx  : Bool
  sx : SReg
  sy : SReg
  sz : SReg
  bank : Fin 8
  m1 : Fin 128
  n1 : Fin 128
  fmt : Fin 16
  mreg : Fin 16
deriving DecidableEq, Repr

/-- Operands of SORT and MERGE (R295). -/
structure SortOp where
  key : Fin 4
  desc : Bool
  vals : Bool
  sx : SReg
  sy : SReg
  sz : SReg
  src : Space
  dst : Space
  sem : Fin 64
  raise : Bool
deriving DecidableEq, Repr

/-- Operands of COPY (R272). -/
structure CopyOp where
  src : CSpace
  dst : CSpace
  sx : SReg
  sy : SReg
  sz : SReg
  ch : Fin 8
  sem : Fin 64
  raise : Bool
  remote : Bool
deriving DecidableEq, Repr

/-- The steps of the device. The first block is the slot instructions in the order of the opcode maps of R74; the
second block is the events of file 95. -/
inductive Instr where
  -- class C (R126)
  | nop
  | bra (g : Guard) (off : W32)
  | brc (g : Guard) (cond : Fin 13) (sa sb : SReg) (off : W32)
  | brv (g : Guard) (off : W32)
  | meet (g : Guard)
  | call (g : Guard) (link : SReg) (off : W32)
  | ret (g : Guard) (sa : SReg)
  | loop (g : Guard) (sa : SReg) (off : W32)
  | exit (g : Guard)
  | braReg (g : Guard) (sa : SReg)
  | callReg (g : Guard) (sd sa : SReg)
  | iadd (g : Guard) (sd sa sb : SReg)
  | isub (g : Guard) (sd sa sb : SReg)
  | imul (g : Guard) (sd sa sb : SReg)
  | imulh (g : Guard) (k : Fin 3) (sd sa sb : SReg)
  | imad (g : Guard) (sd sa sb sc : SReg)
  | ishl (g : Guard) (sd sa sb : SReg)
  | ishr (g : Guard) (sd sa sb : SReg)
  | isar (g : Guard) (sd sa sb : SReg)
  | iand (g : Guard) (sd sa sb : SReg)
  | ior (g : Guard) (sd sa sb : SReg)
  | ixor (g : Guard) (sd sa sb : SReg)
  | imin (g : Guard) (u : Bool) (sd sa sb : SReg)
  | imax (g : Guard) (u : Bool) (sd sa sb : SReg)
  | icmp (g : Guard) (cc : Fin 10) (pd : PReg) (sa sb : SReg)
  | isel (g : Guard) (sd sa sb : SReg) (pc : PReg)
  | movs (g : Guard) (o : MovsOp)
  | movxToScalar (g : Guard) (signed : Bool) (sd : SReg) (v : VSrc) (sa : SReg)
  | movxToVector (g : Guard) (v : View) (sd sa : SReg)
  | bfx (g : Guard) (signed : Bool) (sd sa sb : SReg)
  | bfi (g : Guard) (sd sa sb sc : SReg)
  | clz (g : Guard) (sd sa : SReg)
  | popc (g : Guard) (sd sa : SReg)
  | iaddImm (g : Guard) (sd sa : SReg) (imm : W32)
  | imulImm (g : Guard) (sd sa : SReg) (imm : W32)
  | ishlImm (g : Guard) (sd sa : SReg) (imm : W32)
  | ishrImm (g : Guard) (sd sa : SReg) (imm : W32)
  | isarImm (g : Guard) (sd sa : SReg) (imm : W32)
  | iandImm (g : Guard) (sd sa : SReg) (imm : W32)
  | iorImm (g : Guard) (sd sa : SReg) (imm : W32)
  | ixorImm (g : Guard) (sd sa : SReg) (imm : W32)
  | iminImm (g : Guard) (u : Bool) (sd sa : SReg) (imm : W32)
  | imaxImm (g : Guard) (u : Bool) (sd sa : SReg) (imm : W32)
  | icmpImm (g : Guard) (cc : Fin 10) (pd : PReg) (sa : SReg) (imm : W32)
  | movi (g : Guard) (k : Fin 3) (sd : SReg) (imm : W32)
  | lea (g : Guard) (n : Fin 5) (sd sa : SReg) (imm : W32)
  | fmt (g : Guard) (src : FmtSrc)
  | fmtrd (g : Guard) (sd : SReg)
  | pmov (g : Guard) (o : PmovOp)
  | pand (g : Guard) (pd pa pb : PReg)
  | por (g : Guard) (pd pa pb : PReg)
  | pnot (g : Guard) (pd pa : PReg)
  | sys (g : Guard) (sel : Fin 14) (sd : SReg)
  | trap (g : Guard) (code : BitVec 16)
  | eret (g : Guard)
  | rlbl (g : Guard) (off : W32)
  | quota (g : Guard) (recv : Fin 6) (n : W32)
  | yield (g : Guard)
  | waitc (g : Guard) (ctr : Fin 8) (n : W32)
  -- class V (R152)
  | vadd (g : Guard) (la : Fin 4) (vd : View) (va vb : VSrc)
  | vsub (g : Guard) (la : Fin 4) (vd : View) (va vb : VSrc)
  | vmul (g : Guard) (la : Fin 4) (vd : View) (va vb : VSrc)
  | vfma (g : Guard) (la : Fin 4) (neg : Fin 4) (vd : View) (va vb vc : VSrc)
  | vmin (g : Guard) (la : Fin 4) (vd : View) (va vb : VSrc)
  | vmax (g : Guard) (la : Fin 4) (vd : View) (va vb : VSrc)
  | vabs (g : Guard) (la : Fin 4) (vd : View) (va : VSrc)
  | vneg (g : Guard) (la : Fin 4) (vd : View) (va : VSrc)
  | vcmp (g : Guard) (cc : Fin 16) (pd : PReg) (va vb : VSrc)
  | vsel (g : Guard) (vd : View) (va vb : VSrc) (pc : PReg)
  | vmov (g : Guard) (vd : View) (va : VSrc)
  | vcvt (g : Guard) (o : CvtOp) (vd : View) (va : VSrc)
  | vexp2 (g : Guard) (vd : View) (va : VSrc)
  | vlog2 (g : Guard) (vd : View) (va : VSrc)
  | vrcp (g : Guard) (vd : View) (va : VSrc)
  | vrsq (g : Guard) (vd : View) (va : VSrc)
  | vsin (g : Guard) (vd : View) (va : VSrc)
  | vcos (g : Guard) (vd : View) (va : VSrc)
  | viadd (g : Guard) (k : Fin 3) (vd : View) (va vb : VSrc)
  | visub (g : Guard) (k : Fin 3) (vd : View) (va vb : VSrc)
  | vimul (g : Guard) (k : Fin 3) (vd : View) (va vb : VSrc)
  | vshl (g : Guard) (vd : View) (va vb : VSrc)
  | vshr (g : Guard) (ar : Bool) (vd : View) (va vb : VSrc)
  | vand (g : Guard) (vd : View) (va vb : VSrc)
  | vor (g : Guard) (vd : View) (va vb : VSrc)
  | vxor (g : Guard) (vd : View) (va vb : VSrc)
  | vdot4 (g : Guard) (vd : View) (va vb vc : VSrc)
  | vdot8 (g : Guard) (vd : View) (va vb vc : VSrc)
  | vscl (g : Guard) (div : Bool) (vd : View) (va vb : VSrc)
  | vqmx (g : Guard) (vd : View) (va : VSrc)
  | vred (g : Guard) (op : Fin 11) (vd : View) (va : VSrc)
  | vscan (g : Guard) (op : Fin 11) (vd : View) (va : VSrc)
  | vshfl (g : Guard) (mode : ShflMode) (vd : View) (va vb : VSrc)
  | vbcast (g : Guard) (lane : Option VSrc) (vd : View) (va : VSrc)
  | vballot (g : Guard) (sign : Bool) (vd : View) (va : VSrc)
  | vlane (g : Guard) (k : Fin 4) (vd : View)
  -- class M (R250)
  | ld (g : Guard) (sp : Space) (sz : Size) (sx : Bool) (vd : View) (an : AReg) (vo : VSrc) (disp : BitVec 16)
  | st (g : Guard) (sp : Space) (sz : Size) (vd : VSrc) (an : AReg) (vo : VSrc) (disp : BitVec 16)
  | ldx (g : Guard) (sp : Space) (sz : Size) (sx : Bool) (vd : View) (an : AReg) (vo : VSrc) (disp : BitVec 16)
  | stx (g : Guard) (sp : Space) (sz : Size) (vd : VSrc) (an : AReg) (vo : VSrc) (disp : BitVec 16)
  | atom (g : Guard) (shared : Bool) (b64 : Bool) (op : Fin 10) (vd : View) (an : AReg) (vo : VSrc) (disp : BitVec 16)
  | atomfAdd (g : Guard) (shared : Bool) (vd : VSrc) (an : AReg) (vo : VSrc) (disp : BitVec 16)
  | atomfAddX (g : Guard) (vd : VSrc) (an : AReg) (vo : VSrc) (disp : BitVec 16)
  | settle (g : Guard) (vd : View) (an : AReg) (vo : VSrc) (disp : BitVec 16)
  | fence (g : Guard)
  | xlate (g : Guard) (nf : Bool) (an : AReg) (sa : SReg)
  | probe (g : Guard) (sz : Size) (vd : View) (an : AReg) (vo : VSrc) (disp : BitVec 16)
  | pref (g : Guard) (l2 : Bool) (an : AReg) (vo : VSrc) (disp : BitVec 16)
  | clean (g : Guard) (r : RangeSel)
  | inval (g : Guard) (r : RangeSel)
  -- class E: array, copy, sort, order (R272, R282, R291, R295, R302)
  | mma (g : Guard) (o : MmaOp)
  | mmag (g : Guard) (o : MmaOp)
  | accz (g : Guard) (bank : Fin 8) (m1 n1 : Fin 128)
  | accrd (g : Guard) (o : AccrdOp)
  | mxld (g : Guard) (sw : Bool) (sW sF : SReg) (n1 : Fin 128) (nb : Fin 1024)
  | copy (g : Guard) (o : CopyOp)
  | sort (g : Guard) (o : SortOp)
  | merge (g : Guard) (o : SortOp)
  | ordw (g : Guard) (sR sQ : SReg) (m : Fin 16) (i : Fin 32)
  | ordd (g : Guard) (sR sQ : SReg)
  -- class E: queues (R320)
  | fork (g : Guard) (sL : SReg)
  | join (g : Guard)
  | spawn (g : Guard) (sL : SReg)
  | taskend (g : Guard)
  | launch (g : Guard) (sD sL : SReg)
  | qpushT (g : Guard) (sL : SReg) (n : Fin 64)
  | qpushRBuffer (g : Guard) (n : Fin 4) (sA : SReg)
  | qpushRRegister (g : Guard) (n : Fin 4) (m : Fin 16) (i : Fin 32)
  | qcfgRd (g : Guard) (sD : SReg) (sel : Fin 16)
  | qcfgRq (g : Guard) (n : Fin 4) (sC : SReg)
  | rget (g : Guard) (full : Bool) (sD : SReg) (ring : Fin 8) (sS : SReg)
  | rput (g : Guard) (ring : Fin 8) (sS : SReg)
  -- class E: tables (R333)
  | dictld (g : Guard) (sD sI : SReg) (n : Fin 256)
  | dictinv (g : Guard) (n : Fin 256)
  | tlbinv (g : Guard) (sV sB sR : SReg)
  | tlbinvRoot (g : Guard) (sR : SReg)
  | tlbinvAll (g : Guard)
  | tstld (g : Guard) (sD sI : SReg)
  | classWr (g : Guard) (sI sV : SReg)
  | classMv (g : Guard) (sQ sC : SReg)
  | classRd (g : Guard) (sD sI : SReg)
  -- class E: counters (R349)
  | bar (g : Guard)
  | barWeave (g : Guard)
  | barNet (g : Guard) (b : Fin 16) (sC : SReg)
  | semaddI (g : Guard) (n : Fin 64) (k : Fin 1024) (target : Option SReg)
  | semadd (g : Guard) (n : Fin 64) (sV : SReg) (target : Option SReg)
  | semwaitDec (g : Guard) (n : Fin 64) (k : Fin 1024)
  | semwaitGe (g : Guard) (n : Fin 64) (k : Fin 1024)
  | wpwait (g : Guard) (ch : Fin 8) (sV : SReg)
  | wpwaitRd (g : Guard) (sD : SReg) (ch : Fin 8)
  | stepend (g : Guard)
  | govrd (g : Guard) (sel : Fin 16) (sD sL : SReg)
  | cntrd (g : Guard) (sD : SReg) (sel : Fin 64)
  | cntclr (g : Guard) (n : Fin 16)
  | cntclrSnap (g : Guard)
  | cntclrRoll (g : Guard)
  | cntclrFree (g : Guard)
  | enrd (g : Guard) (sD : SReg) (sel : Fin 4)
  -- class E: rotator and shader engines (R175)
  | qrfeed (g : Guard) (bf16 log : Bool) (sx sy sz : SReg) (n : Fin 1024) (h : Fin 1024)
  | qrapplySt (g : Guard) (sx sy : SReg) (k n : Fin 1024)
  | qrapplyLog (g : Guard) (sx sy sz : SReg) (k h n : Fin 1024)
  | qrread (g : Guard) (blk : Fin 3) (toA : Bool) (sx : SReg) (m : Fin 16)
  | qrreadSt (g : Guard) (sx : SReg)
  | qrzero (g : Guard)
  | qrgainImm (g : Guard)
  | qrgainDef (g : Guard)
  | angout (g : Guard) (rad : Bool) (m : Fin 16) (i : Fin 32)
  | angin (g : Guard) (rad : Bool) (m : Fin 16) (i : Fin 32)
  | grot (g : Guard) (e : Fin 7) (sx sy : SReg) (p h : Fin 1024)
  | rast (g : Guard) (m : Fin 16) (sv sc st : SReg)
  | trace (g : Guard) (mO mI : Fin 16) (sr sf st : SReg)
  | texs (g : Guard) (mO mI : Fin 16) (sh sl : SReg)
  | texg (g : Guard) (ch : Fin 4) (mO mI : Fin 16) (sh : SReg)
  -- device events: boot and host port (R405 to R416)
  | resetBoot
  | registerWrite (off v : Nat)
  | hostBar2Access (off : Nat) (write : Option (List Byte)) (n : Nat)
  | doorbell (q : Fin 64) (tail : Nat)
  | cancel (low : Nat) (reason : Nat)
  | resumeToken (token : Nat)
  | debugStop (core gid : Nat)
  | debugStopComplete (core gid : Nat)
  | debugStep (core gid : Nat)
  | debugResume (core gid : Nat)
  | debugCancelFreezeEntry (core entry : Nat)
  | debugWrite (core gid : Nat) (off : Nat) (v : Byte)
  | attestPublicKey
  | attestReport (nonce : List Byte)
  | attestReportDone
  -- dispatcher and scheduler (R312 to R319, R380 to R387)
  | launchQueueTake (q : Fin 64)
  | unitDispatch (die : Nat)
  | preemption (core : Nat) (uid : Nat)
  | contextSave (core : Nat) (uid : Nat)
  | walkerStepStart (core : Nat)
  | stepWatchdog (core : Nat)
  | governorDecision (launch : Nat)
  | groupRetire (core gid : Nat)
  | launchSignal (launch : Nat)
  | forkOverflowRefill (launch : Nat)
  | bundleIssue (core gid slot : Nat)
  | dictCacheFill (core : Nat) (dslot idx : Nat)
  -- core pipelines and banks (R71, R117, R258, R396, R397)
  | resultLanding (core id : Nat)
  | bankWakeComplete (core : Nat) (gid : Option Nat) (bank : Nat)
  | sectorLanding (core id : Nat)
  | tlbWalkComplete (die id : Nat)
  | writeBackDeadline (core line : Nat)
  | insertedStallClk (core : Nat)
  | timingErrorReplay (core : Nat)       -- the core, plus 4,096 for an error in its multiplier array, 8,192 in its rotator array (R397)
  | nominalPeriodExpiry (die quad : Nat)
  | marginSettled (die quad : Nat)
  -- weaves, steps, barriers, semaphores (R49, R342, R353, R356, R350)
  | weaveBarrierRelease (weave : Nat)
  | tstTransferStart (weave core entry : Nat)
  | tstTransferLand (weave id : Nat)
  | stepCounterAdvance (weave : Nat)
  | barrierComplete (core uid gid : Nat)
  | netBarrierComplete (id : Nat)
  | semaphoreRaiseArrival (id : Nat)
  -- engines (R274, R289, R293, R193, R298, R303, R206)
  | copyProgress (core ch : Nat)
  | copyComplete (core ch : Nat)
  | copyPageFault (core ch : Nat)
  | arrayCommandComplete (core id : Nat)
  | accrdComplete (core id : Nat)
  | rotatorCommandComplete (core id : Nat)
  | sortComplete (engine id : Nat)
  | sortEngineFault (engine id : Nat)
  | ordwEnter (ounit id : Nat)
  | ordwComplete (ounit id : Nat)
  | shaderEngineComplete (core id : Nat)
  | roleQueueEntryReady (core q : Nat)
  | queueAccept (core id : Nat)
  -- power, sensors, links (R391 to R404, R15, R412)
  | quadJoinPool (die quad : Nat)
  | alarmClear (alarm : Fin 4)
  | sensorSample (core : Nat) (temp : Nat) (droop : Bool)
  | quadIdle (die quad : Nat)
  | quadPowerDown (die quad : Nat)
  | quadWakeRequest (die quad : Nat)
  | inrushGrant (die : Nat)
  | quadReady (die quad : Nat)
  | flitCrcRetry (boundary dir ch : Nat)
  | bridgeLaneFailure (boundary dir ch : Nat)
  | bridgeRetrainComplete (boundary dir ch : Nat)
  | podLaneFailure (port : Nat)
  | traceTranslationFault (core id : Nat)
  | leaseEnd (core line : Nat)
  -- events that carry nothing stand last
  | externalAlarm
  | currentAlarm
  | droopAlarm
  | temperatureAlarm
  | throttleHoldExpiry
  | serviceEntryPlace
deriving DecidableEq, Repr

end Sys2Proof
end

