-- ==== Sys2Proof/Decode.lean ====
section
/-! DEFINITION. The bundle encoding: the validation of R76 to R78 with its reject codes, the decoder from slot images to
instructions, delta slots (R68, R69), and the encoder, written from the tables of R64, R65, R74, R126, R152, R175,
R250, R272, R282, R291, R295, R302, R320, R333 and R349. -/

namespace Sys2Proof

/-- The slot classes: slot 0 C, slots 1 and 2 V, slot 3 M, slot 4 E (R58). -/
inductive Cls where
  | c | v | m | e
deriving DecidableEq, Repr

/-- The class of slot i (R58). -/
def Cls.ofSlot : Nat → Cls
  | 0 => .c | 1 => .v | 2 => .v | 3 => .m | _ => .e

/-- A number as a field of n values. -/
def fin (n : Nat) [NeZero n] (a : Nat) : Fin n := Fin.ofNat n a

/-- Bit i of a number. -/
def bitN (w i : Nat) : Bool := w / 2 ^ i % 2 == 1

/-- The first code of a list of checks (R76). -/
def firstCode : List (Option Nat) → Option Nat
  | [] => none
  | some c :: _ => some c
  | none :: r => firstCode r

/-- Code k unless b holds. -/
def need (b : Bool) (k : Nat) : Option Nat := if b then none else some k

/-- A reserved field: nonzero gives 0x08 (R76). -/
def ckZero (w lo n : Nat) : Option Nat := need (fld w lo n == 0) 0x08
/-- A 6-bit field used as a predicate (R64, R126). -/
def ckPred (w lo : Nat) : Option Nat := need (fld w (lo + 3) 3 == 0) 0x02
/-- A field with limits (R176, R321, R349). -/
def ckLim (w lo n a b : Nat) : Option Nat := need (a ≤ fld w lo n && fld w lo n ≤ b) 0x02
/-- A vector destination: matrix codes 0-9 (R65). -/
def ckDst (w lo : Nat) : Option Nat := need (fld w (lo + 5) 4 ≤ 9) 0x02
/-- A predicate in an 11-bit field (R64, R152). -/
def ckP11 (w lo : Nat) : Option Nat := need (fld w (lo + 3) 8 == 0) 0x02
/-- A vector source without pops: codes 0-13 (R65, R134, R251). -/
def ckSrcNoPop (w lo : Nat) : Option Nat :=
  let m := fld w (lo + 5) 4
  need (m ≤ 13 && (m ≤ 9 || fld w (lo + 9) 2 == 0) && (m != 12 || fld w lo 5 ≤ 15)) 0x02
/-- A vector source of a V slot: codes 0-14, pops on tiles only (R65, R153). -/
def ckSrc (iss : Role) (w lo : Nat) : Option Nat :=
  let m := fld w (lo + 5) 4
  if m == 14 then
    firstCode [need (fld w (lo + 9) 2 == 0 && fld w (lo + 2) 3 == 0) 0x02, need (iss != .shader) 0x04]
  else ckSrcNoPop w lo

/-- "Where" of the opcode maps (R74). -/
inductive Where where
  | all | sv | s | cmv | sc | scv | m | mv | c | cv | v
deriving DecidableEq, Repr

/-- May this issuer use the instruction? -/
def Where.ok : Where → Role → Bool
  | .all, _ => true
  | .sv, r => r == .shader || r == .vector
  | .s, r => r == .shader
  | .cmv, r => r != .shader
  | .sc, r => r == .shader || r == .copy
  | .scv, r => r != .matrix
  | .m, r => r == .matrix
  | .mv, r => r == .matrix || r == .vector
  | .c, r => r == .copy
  | .cv, r => r == .copy || r == .vector
  | .v, r => r == .vector

/-- The C opcode map (R74): where and whether privileged. -/
def mapC (op : Nat) : Option (Where × Bool) :=
  if op == 0x03 || op == 0x04 then some (.s, false)
  else if op ≤ 0x0A then some (.all, false)
  else if 0x10 ≤ op && op ≤ 0x1F then some (.all, false)
  else if op == 0x20 then some (.sv, false)
  else if 0x21 ≤ op && op ≤ 0x24 then some (.all, false)
  else if 0x30 ≤ op && op ≤ 0x3C then some (.all, false)
  else if op == 0x40 || op == 0x41 then some (.sv, false)
  else if 0x48 ≤ op && op ≤ 0x4B then some (.all, false)
  else if op == 0x50 || op == 0x51 then some (.all, false)
  else if op == 0x52 then some (.all, true)
  else if op == 0x53 || op == 0x54 then some (.cmv, false)
  else if op == 0x55 || op == 0x56 then some (.all, false)
  else none

/-- The V opcode map (R74). -/
def mapV (op : Nat) : Option (Where × Bool) :=
  if op == 0 then some (.all, false)
  else if op ≤ 0x0C || (0x10 ≤ op && op ≤ 0x15) || (0x20 ≤ op && op ≤ 0x27) || (0x30 ≤ op && op ≤ 0x33)
      || (0x40 ≤ op && op ≤ 0x45) then some (.sv, false)
  else none

/-- The M opcode map (R74). -/
def mapM (op : Nat) : Option (Where × Bool) :=
  if op == 0 then some (.all, false)
  else if op ≤ 0x07 || (0x10 ≤ op && op ≤ 0x15) then some (.scv, false)
  else none

/-- The E opcode map (R74). -/
def mapE (op : Nat) : Option (Where × Bool) :=
  if op == 0 then some (.all, false)
  else if op ≤ 0x03 then some (.m, false)
  else if op == 0x04 then some (.mv, false)
  else if op == 0x05 then some (.m, false)
  else if op == 0x06 || op == 0x10 || op == 0x11 then some (.sc, false)
  else if op == 0x12 || op == 0x13 then some (.s, false)
  else if 0x20 ≤ op && op ≤ 0x23 then some (.s, false)
  else if op == 0x24 || op == 0x26 then some (.sc, false)
  else if op == 0x25 then some (.scv, false)
  else if op == 0x27 || op == 0x28 then some (.cmv, false)
  else if 0x30 ≤ op && op ≤ 0x32 then some (.sc, true)
  else if op == 0x33 then some (.c, false)
  else if op == 0x34 then some (.s, true)
  else if 0x40 ≤ op && op ≤ 0x42 then some (.all, false)
  else if op == 0x43 || op == 0x44 then some (.cmv, false)
  else if op == 0x45 then some (.scv, false)
  else if 0x46 ≤ op && op ≤ 0x48 then some (.all, false)
  else if 0x50 ≤ op && op ≤ 0x54 then some (.m, false)
  else if op == 0x55 || op == 0x56 then some (.mv, false)
  else if op == 0x57 then some (.m, false)
  else if 0x60 ≤ op && op ≤ 0x63 then some (.s, false)
  else none

/-- The opcode map of a class (R74). -/
def opMap : Cls → Nat → Option (Where × Bool)
  | .c => mapC | .v => mapV | .m => mapM | .e => mapE

/-- What a C.R register field holds: reserved, scalar, predicate, workgroup scalar. -/
inductive RF where
  | z | s | p | w
deriving DecidableEq, Repr

/-- The check of a 6-bit register field (R64, R126). -/
def ckRF (w lo : Nat) : RF → Option Nat
  | .z => ckZero w lo 6
  | .s => none
  | .p => ckPred w lo
  | .w => need (fld w (lo + 5) 1 == 0) 0x02

/-- The register fields of a C.R instruction under sub, and the number of its sub values (R126). -/
def formCR (op sub : Nat) : RF × RF × RF × RF × Nat :=
  if op == 0x04 || op == 0x08 || op == 0x52 || op == 0x55 then (.z, .z, .z, .z, 1)
  else if op == 0x06 || op == 0x09 then (.z, .s, .z, .z, 1)
  else if op == 0x0A || op == 0x23 || op == 0x24 then (.s, .s, .z, .z, 1)
  else if op == 0x13 then (.s, .s, .s, .z, 3)
  else if op == 0x14 || op == 0x22 then (.s, .s, .s, .s, 1)
  else if op == 0x1B || op == 0x1C || op == 0x21 then (.s, .s, .s, .z, 2)
  else if op == 0x1D then (.p, .s, .s, .z, 10)
  else if op == 0x1E then (.s, .s, .s, .p, 1)
  else if op == 0x1F then
    if sub == 1 then (.w, .s, .z, .z, 3) else if sub == 2 then (.s, .w, .z, .z, 3) else (.s, .s, .z, .z, 3)
  else if op == 0x41 then (.s, .z, .z, .z, 1)
  else if op == 0x48 then
    if sub == 1 then (.p, .s, .z, .z, 3) else if sub == 2 then (.s, .p, .z, .z, 3) else (.p, .p, .z, .z, 3)
  else if op == 0x49 || op == 0x4A then (.p, .p, .p, .z, 1)
  else if op == 0x4B then (.p, .p, .z, .z, 1)
  else (.s, .s, .s, .z, 1)

/-- The checks of a class C slot after the opcode (R76, R126). -/
def checkC (iss : Role) (w : Nat) : Option Nat :=
  let op := fld w 0 8
  if op == 0 then ckZero w 8 56
  else if op == 0x01 || op == 0x02 || op == 0x03 || op == 0x05 || op == 0x07 || op == 0x53 then
    let cond := fld w 12 4
    firstCode [need (if op == 0x02 then cond ≤ 12 else cond == 0) 0x03,
      (if op == 0x02 then (if cond ≥ 10 then ckPred w 16 else none)
       else if op == 0x05 || op == 0x07 then none else ckZero w 16 6),
      (if op == 0x02 && cond ≤ 9 then none else ckZero w 22 6), ckZero w 28 4]
  else if 0x30 ≤ op && op ≤ 0x40 || op == 0x50 || op == 0x51 || op == 0x54 || op == 0x56 then
    let sub := fld w 24 4
    let subs := if op == 0x38 || op == 0x39 || op == 0x40 then 2 else if op == 0x3A then 10 else if op == 0x3B then 3
      else if op == 0x3C then 5 else if op == 0x50 then 14 else if op == 0x54 then 6 else if op == 0x56 then 8 else 1
    let sd : RF := if op == 0x3A then .p else if op ≤ 0x3C || op == 0x50 then .s else .z
    let sa : RF := if op ≤ 0x3A || op == 0x3C then .s else if op == 0x40 && sub == 1 then .s else .z
    firstCode [need (sub < subs) 0x03, ckRF w 12 sd, ckRF w 18 sa, ckZero w 28 4,
      (if op == 0x50 || (op == 0x40 && sub == 1) then ckZero w 32 32
       else if op == 0x51 then ckZero w 48 16
       else if op == 0x54 then ckLim w 32 32 1 10 else none)]
  else if op == 0x20 then
    let sub := fld w 36 4
    firstCode [need (sub < 3) 0x03, (if sub == 2 then ckDst w 24 else ckSrcNoPop w 24), ckZero w 35 1, ckZero w 40 24]
  else
    let sub := fld w 36 4
    let f := formCR op sub
    firstCode [need (sub < f.2.2.2.2) 0x03, need (op != 0x1F || sub == 0 || iss == .shader) 0x04, ckRF w 12 f.1,
      ckRF w 18 f.2.1, ckRF w 24 f.2.2.1, ckRF w 30 f.2.2.2.1, ckZero w 40 24]

/-- May a V instruction take this mod (R152)? -/
def modOk (op mod : Nat) : Bool :=
  if op == 0x04 || op == 0x09 || op == 0x0C then true
  else if (0x01 ≤ op && op ≤ 0x08) then mod % 4 == 0
  else if op == 0x20 || op == 0x21 || op == 0x22 then mod ≤ 2
  else if op == 0x24 || op == 0x32 || op == 0x43 || op == 0x44 then mod ≤ 1
  else if op == 0x40 || op == 0x41 then mod ≤ 10
  else if op == 0x42 then mod ≤ 4
  else if op == 0x45 then mod ≤ 3
  else mod == 0

/-- Does a V instruction use its vb field (R152)? -/
def usesVb (op mod : Nat) : Bool :=
  (0x01 ≤ op && op ≤ 0x06) || op == 0x09 || op == 0x0A || (0x20 ≤ op && op ≤ 0x27) || (0x30 ≤ op && op ≤ 0x32)
    || op == 0x42 || (op == 0x43 && mod == 1)

/-- Does a V instruction use its vc field as a vector operand (R152)? -/
def usesVc (op mod : Nat) : Bool :=
  op == 0x04 || (op == 0x0C && mod % 2 == 1) || op == 0x30 || op == 0x31 || (op == 0x42 && (mod == 1 || mod == 2))

/-- The checks of a class V slot after the opcode (R76, R152, R153). -/
def checkV (iss : Role) (w : Nat) : Option Nat :=
  let op := fld w 0 8
  let mod := fld w 56 4
  if op == 0 then firstCode [need (mod == 0) 0x03, ckZero w 8 56]
  else firstCode [need (modOk op mod) 0x03, (if op == 0x09 then ckP11 w 12 else ckDst w 12),
    (if op == 0x45 then ckZero w 23 11 else ckSrc iss w 23),
    (if usesVb op mod then ckSrc iss w 34 else ckZero w 34 11),
    (if op == 0x0A then ckP11 w 45 else if usesVc op mod then ckSrc iss w 45 else ckZero w 45 11), ckZero w 60 4]

/-- May this issuer name this M-slot space (R67)? -/
def spaceOk (iss : Role) (sp : Nat) : Bool :=
  match iss with
  | .shader => sp == 0 || sp == 1
  | .copy => sp == 0 || sp == 3
  | .matrix => false
  | .vector => sp == 0 || sp == 3 || sp == 4

/-- The checks of a class M slot after the opcode (R76, R250, R251). -/
def checkM (iss : Role) (w : Nat) : Option Nat :=
  let op := fld w 0 8
  let sp := fld w 38 3
  let size := fld w 41 3
  let sub := fld w 44 4
  let spaces (l : List Nat) : Option Nat := firstCode [need (l.contains sp) 0x02, need (spaceOk iss sp) 0x04]
  let i31 := fld w 12 5 == 31
  if op == 0 then ckZero w 8 56
  else if op == 0x01 || op == 0x03 then
    firstCode [need (size ≤ 3) 0x03, need (sub == 0 || (sub == 1 && size ≤ 1)) 0x03, ckDst w 12,
      need (!(size == 3 && i31)) 0x02, ckSrcNoPop w 23, spaces [0, 1, 3, 4]]
  else if op == 0x02 || op == 0x04 then
    firstCode [need (size ≤ 3) 0x03, need (sub == 0) 0x03, ckSrcNoPop w 12, need (!(size == 3 && i31)) 0x02,
      ckSrcNoPop w 23, spaces [0, 1, 3, 4]]
  else if op == 0x05 then
    let i := fld w 12 5
    firstCode [need (size == 2 || size == 3) 0x03, need (sub ≤ 9) 0x03, ckDst w 12, need (!(size == 3 && i31)) 0x02,
      need (!(sub == 9 && (if size == 2 then i > 30 else i > 28))) 0x02, ckSrcNoPop w 23, spaces [0, 1]]
  else if op == 0x06 then
    firstCode [need (size == 2) 0x03, need (sub ≤ 1) 0x03, ckSrcNoPop w 12, ckSrcNoPop w 23,
      spaces (if sub == 1 then [0] else [0, 1])]
  else if op == 0x07 then
    firstCode [need (size == 2) 0x03, need (sub == 0) 0x03, ckDst w 12, ckSrcNoPop w 23, spaces [0]]
  else if op == 0x10 then
    firstCode [need (size == 0) 0x03, need (sub == 0) 0x03, ckZero w 12 22, ckZero w 34 4, need (sp == 0) 0x02,
      ckZero w 48 16]
  else if op == 0x11 then
    firstCode [need (size == 0) 0x03, need (sub ≤ 1) 0x03, ckZero w 12 11, need (fld w 29 5 == 0) 0x02, need (sp == 0) 0x02,
      ckZero w 48 16]
  else if op == 0x12 then
    firstCode [need (size ≤ 3) 0x03, need (sub == 0) 0x03, ckDst w 12, need (!(size == 3 && i31)) 0x02, ckSrcNoPop w 23,
      spaces [0]]
  else if op == 0x13 then
    firstCode [need (size == 0) 0x03, need (sub ≤ 1) 0x03, ckZero w 12 11, ckSrcNoPop w 23, spaces [0]]
  else
    firstCode [need (size == 0) 0x03, need (sub ≤ 1) 0x03,
      (if sub == 1 then ckZero w 12 11 else need (fld w 18 5 == 0) 0x02),
      (if sub == 1 then ckZero w 23 11 else need (fld w 29 5 == 0) 0x02), ckZero w 34 4, need (sp == 0) 0x02, ckZero w 48 16]

/-- The destination formats of ACCRD (R291): codes of R94. -/
def accrdFmtOk (i32 reg mx : Bool) (f : Nat) : Bool :=
  if reg then f == 0 || f == 10
  else if i32 then !mx && (f == 10 || f == 0 || f == 1 || f == 2 || f == 8)
  else if mx then 3 ≤ f && f ≤ 8
  else f ≤ 8

/-- Element bits of a format code (R94). -/
def fmtBits (f : Nat) : Nat :=
  match f with
  | 0 => 32 | 1 => 16 | 2 => 16 | 3 => 8 | 4 => 8 | 5 => 6 | 6 => 6 | 7 => 4 | 8 => 8 | 9 => 4 | _ => 32

/-- A register number in a 10-bit field (R172). -/
def ckMReg (w lo : Nat) : List (Option Nat) := [need (fld w lo 4 ≤ 9) 0x02, ckZero w (lo + 4) 6]

/-- The checks of a class E slot after the opcode, under the header scope (R76 and the encoding tables). -/
def checkE (iss : Role) (scope w : Nat) : Option Nat :=
  let op := fld w 0 8
  let sub := fld w 12 4
  let sx := fld w 16 6
  let sy := fld w 22 6
  let sz := fld w 28 6
  let zx := ckZero w 16 6
  let zy := ckZero w 22 6
  let zz := ckZero w 28 6
  let zdx := ckZero w 34 10
  let zdy := ckZero w 44 10
  let zdz := ckZero w 54 10
  if op == 0 then ckZero w 8 56
  else if op == 0x01 || op == 0x02 then
    firstCode [need (sub < 8) 0x03, need (sx ≤ 62) 0x02, need (sub / 4 % 2 == 1 || sy ≤ 62) 0x02,
      ckZero w 52 2, need (fld w 54 10 != 0) 0x02]
  else if op == 0x03 then firstCode [need (sub == 0) 0x03, zx, zy, zz, ckZero w 51 3, zdz]
  else if op == 0x04 then
    let i32 := sub % 2 == 1
    let reg := sub / 2 % 2 == 1
    let mx := sub / 4 % 2 == 1
    let f := fld w 54 4
    let n := fld w 44 7 + 1
    firstCode [need (sub < 8) 0x03, need (!(reg && mx)) 0x02, (if reg then zy else none), (if mx then none else zz),
      need (!(reg && fld w 37 7 + 1 > 32)) 0x02,
      need (!(reg && n > 32) && (!mx || n % 32 == 0) && (fmtBits f != 6 || n % 4 == 0) && (f != 7 || n % 2 == 0)) 0x02,
      ckZero w 51 3, need (accrdFmtOk i32 reg mx f) 0x02,
      (if reg then need (fld w 58 4 ≤ 9) 0x02 else ckZero w 58 4), ckZero w 62 2]
  else if op == 0x05 then
    firstCode [need (sub < 2) 0x03, zx, need (sy ≤ 62) 0x02, zdx, ckZero w 51 3, need (fld w 54 10 != 0) 0x02]
  else if op == 0x06 then
    let src := sub % 4
    let dst := sub / 4
    let pair := if iss == .shader then (src == 0 || src == 2) && (dst == 0 || dst == 1 || dst == 3)
      else (src == 0 || src == 1) && dst ≤ 2
    firstCode [need (src != 3) 0x03, need pair 0x04, need (sz ≤ 62) 0x02,
      need (fld w 34 10 ≤ (if iss == .shader then 3 else 7)) 0x02,
      need (!bitN w 51 || (iss == .shader && dst == 1)) 0x04, ckZero w 52 2, zdz]
  else if op == 0x10 || op == 0x11 then
    let src := fld w 34 2
    let dst := fld w 36 2
    let ok (x : Nat) : Bool := x == 0 || (if iss == .shader then x == 2 else x == 1)
    firstCode [need (sx ≤ (if op == 0x10 then 62 else 60)) 0x02, need (sy ≤ 62) 0x02, need (src != 3) 0x02,
      need (ok src) 0x04, need (dst != 3) 0x02, need (ok dst) 0x04, ckZero w 38 6, ckZero w 51 3, zdz]
  else if op == 0x12 then
    firstCode ([need (sub == 0) 0x03, zz, need (fld w 34 4 ≤ 9) 0x02, ckZero w 43 1, zdy, zdz])
  else if op == 0x13 then firstCode [need (sub == 0) 0x03, zz, zdx, zdy, zdz]
  else if op == 0x20 || op == 0x22 then firstCode [need (sub == 0) 0x03, zx, zz, zdx, zdy, zdz]
  else if op == 0x21 || op == 0x23 then firstCode [need (sub == 0) 0x03, zx, zy, zz, zdx, zdy, zdz]
  else if op == 0x24 then firstCode [need (sub == 0) 0x03, zz, zdx, zdy, zdz]
  else if op == 0x25 then
    firstCode ([need (sub == 0 || sub == 1 || sub == 3) 0x03, need (sub != 1 || iss != .shader) 0x04,
      need (sub != 3 || iss == .vector) 0x04, (if sub == 1 then none else zx), (if sub == 0 then none else zy), zz,
      (if sub == 0 then ckZero w 40 4 else ckZero w 36 8)] ++
      (if sub == 3 then [need (fld w 44 4 ≤ 9) 0x02, ckZero w 53 1] else [zdy]) ++ [zdz])
  else if op == 0x26 then
    let sel := fld w 34 4
    if sub == 0 then
      firstCode [zy, zz, need (sel ≤ 13) 0x02, need (if sel ≤ 9 then iss == .shader else iss == .copy) 0x04,
        ckZero w 38 6, zdy, zdz]
    else firstCode [need (sub == 1) 0x03, need (iss == .copy) 0x04, zx, zz, ckZero w 36 8, zdy, zdz]
  else if op == 0x27 then firstCode [need (sub < 2) 0x03, zz, ckZero w 37 7, zdy, zdz]
  else if op == 0x28 then firstCode [need (sub == 0) 0x03, zx, zz, ckZero w 37 7, zdy, zdz]
  else if op == 0x30 then firstCode [need (sub == 0) 0x03, zz, ckZero w 42 2, zdy, zdz]
  else if op == 0x31 then firstCode [need (sub == 0) 0x03, zx, zy, zz, ckZero w 42 2, zdy, zdz]
  else if op == 0x32 then
    firstCode [need (sub < 3) 0x03, (if sub == 0 then none else zx), (if sub == 0 then none else zy),
      (if sub == 2 then zz else none), zdx, zdy, zdz]
  else if op == 0x33 then firstCode [need (sub == 0) 0x03, zz, zdx, zdy, zdz]
  else if op == 0x34 then firstCode [need (sub < 3) 0x03, zz, zdx, zdy, zdz]
  else if op == 0x40 then
    firstCode [need (sub < 3) 0x03, need (!(sub == 2 && (scope == 0 || scope == 5 || scope == 6))) 0x03,
      need (sub != 1 || iss != .shader) 0x04, (if sub == 2 then none else zx), zy, zz,
      (if sub == 2 then ckZero w 38 6 else zdx), zdy, zdz]
  else if op == 0x41 then
    firstCode [need (sub < 2) 0x03, (if sub == 1 then none else zx), (if bitN w 40 then none else zy), zz,
      ckZero w 41 3, (if sub == 1 then zdy else none), zdz]
  else if op == 0x42 then firstCode [need (sub < 2) 0x03, zx, zy, zz, ckZero w 40 4, zdz]
  else if op == 0x43 then firstCode [need (sub < 2) 0x03, zy, zz, ckZero w 37 7, zdy, zdz]
  else if op == 0x44 then firstCode [need (sub == 0) 0x03, zx, zy, zz, zdx, zdy, zdz]
  else if op == 0x45 then
    firstCode [need (sub == 0) 0x03, zz, need (fld w 34 4 ≤ 6) 0x02, ckZero w 38 6, zdy, zdz]
  else if op == 0x46 then
    let sel := fld w 34 6
    firstCode [need (sub == 0) 0x03, zy, zz, need (sel ≤ 4 || (8 ≤ sel && sel ≤ 22)) 0x02, ckZero w 40 4, zdy, zdz]
  else if op == 0x47 then
    firstCode [need (sub < 4) 0x03, zx, zy, zz, (if sub == 0 then need (fld w 34 4 ≤ 8) 0x02 else ckZero w 34 4),
      ckZero w 38 6, zdy, zdz]
  else if op == 0x48 then firstCode [need (sub == 0) 0x03, zy, zz, ckZero w 36 8, zdy, zdz]
  else if op == 0x50 then
    firstCode [need (sub < 4) 0x03, (if sub / 2 == 1 then none else zz), ckLim w 34 10 1 64, ckLim w 44 10 1 1023, zdz]
  else if op == 0x51 then
    firstCode [need (sub < 2) 0x03, (if sub == 1 then none else zz), ckLim w 34 10 1 64,
      (if sub == 0 then need (fld w 44 10 == 1) 0x03 else ckLim w 44 10 1 1023), ckLim w 54 10 1 64]
  else if op == 0x52 then
    firstCode ([need (sub < 7) 0x03, (if sub < 3 then zx else none), zy, zz] ++
      (if sub < 3 then ckMReg w 34 else [zdx]) ++ [zdy, zdz])
  else if op == 0x53 then firstCode [need (sub == 0) 0x03, zx, zy, zz, zdx, zdy, zdz]
  else if op == 0x54 then firstCode [need (sub < 2) 0x03, zx, zy, zz, zdx, zdy, zdz]
  else if op == 0x55 || op == 0x56 then
    firstCode [need (sub < 2) 0x03, zx, zy, zz, need (fld w 34 4 ≤ 9) 0x02, need (fld w 38 5 ≤ 30) 0x02, ckZero w 43 1,
      zdy, zdz]
  else if op == 0x57 then
    firstCode [need (sub < 7) 0x03, zz, need (1 ≤ fld w 34 10 && fld w 34 10 ≤ 64 && fld w 34 10 % 2 ^ sub == 0) 0x02,
      ckLim w 44 10 1 1023, zdz]
  else if op == 0x60 then firstCode ([need (sub == 0) 0x03, need (sx ≤ 61) 0x02] ++ ckMReg w 34 ++ [zdy, zdz])
  else if op == 0x61 then firstCode ([need (sub == 0) 0x03] ++ ckMReg w 34 ++ ckMReg w 44 ++ [zdz])
  else if op == 0x62 then firstCode ([need (sub == 0) 0x03, zz] ++ ckMReg w 34 ++ ckMReg w 44 ++ [zdz])
  else firstCode ([need (sub < 4) 0x03, zy, zz] ++ ckMReg w 34 ++ ckMReg w 44 ++ [zdz])

/-- The checks of one non-delta slot (R76): the reject code, or none. -/
def checkSlot (iss : Role) (priv : Bool) (scope : Nat) (cls : Cls) (w : Nat) : Option Nat :=
  match opMap cls (fld w 0 8) with
  | none => some 0x01
  | some (wh, pr) =>
    firstCode [need (wh.ok iss) 0x04, need (priv || !pr) 0x05,
      (match cls with
       | .c => checkC iss w
       | .v => checkV iss w
       | .m => checkM iss w
       | .e => checkE iss scope w)]

/-! ### Building instructions from slot images -/

/-- The guard of a slot image (R62). -/
def guardOf (w : Nat) : Guard := { pg := fin 8 (fld w 8 3), neg := bitN w 11 }

/-- A direction from its code (R65). -/
def dirOf (d : Nat) : Dir := if d == 0 then .h else if d == 1 then .v else if d == 2 then .d else .w

/-- A view from an 11-bit field (R65). -/
def viewOf (f : Nat) : View := { dir := dirOf (fld f 9 2), m := fin 10 (fld f 5 4), i := fin 32 (fld f 0 5) }

/-- A vector source from an 11-bit field (R65). -/
def srcOf (f : Nat) : VSrc :=
  let m := fld f 5 4
  let i := fld f 0 5
  if m ≤ 9 then .view (viewOf f) else if m == 10 then .bcast (fin 32 i) else if m == 11 then .pool (fin 32 i)
  else if m == 12 then .const (fin 16 i) else if m == 13 then .lane (fin 32 i) else .qpop (fin 4 i)

/-- An M-slot space from its code (R67). -/
def spaceOf (x : Nat) : Space := if x == 1 then .s else if x == 3 then .a else if x == 4 then .c else .g

/-- A size from its code (R250). -/
def sizeOf_ (x : Nat) : Size := if x == 0 then .b8 else if x == 1 then .b16 else if x == 2 then .b32 else .b64

/-- A COPY source space from sub[13:12] (R272). -/
def cSrcOf (x : Nat) : CSpace := if x == 1 then .a else if x == 2 then .s else .g

/-- A COPY destination space from sub[15:14] (R272). -/
def cDstOf (x : Nat) : CSpace := if x == 1 then .a else if x == 2 then .w else if x == 3 then .s else .g

/-- A sort space from its code (R295). -/
def sSpaceOf (x : Nat) : Space := if x == 1 then .a else if x == 2 then .s else .g

/-- The instruction of a class C image (R126). -/
def buildC (w : Nat) : Instr :=
  let g := guardOf w
  let op := fld w 0 8
  let sd : SReg := fin 64 (fld w 12 6)
  let sa : SReg := fin 64 (fld w 18 6)
  let sb : SReg := fin 64 (fld w 24 6)
  let sc : SReg := fin 64 (fld w 30 6)
  let sub := fld w 36 4
  let isub := fld w 24 4
  let x : W32 := BitVec.ofNat 32 (fld w 32 32)
  let pd : PReg := fin 8 (fld w 12 6)
  let pa : PReg := fin 8 (fld w 18 6)
  let pb : PReg := fin 8 (fld w 24 6)
  let bsa : SReg := fin 64 (fld w 16 6)
  if op == 0x01 then .bra g x
  else if op == 0x02 then .brc g (fin 13 (fld w 12 4)) bsa (fin 64 (fld w 22 6)) x
  else if op == 0x03 then .brv g x
  else if op == 0x04 then .meet g
  else if op == 0x05 then .call g bsa x
  else if op == 0x06 then .ret g sa
  else if op == 0x07 then .loop g bsa x
  else if op == 0x08 then .exit g
  else if op == 0x09 then .braReg g sa
  else if op == 0x0A then .callReg g sd sa
  else if op == 0x10 then .iadd g sd sa sb
  else if op == 0x11 then .isub g sd sa sb
  else if op == 0x12 then .imul g sd sa sb
  else if op == 0x13 then .imulh g (fin 3 sub) sd sa sb
  else if op == 0x14 then .imad g sd sa sb sc
  else if op == 0x15 then .ishl g sd sa sb
  else if op == 0x16 then .ishr g sd sa sb
  else if op == 0x17 then .isar g sd sa sb
  else if op == 0x18 then .iand g sd sa sb
  else if op == 0x19 then .ior g sd sa sb
  else if op == 0x1A then .ixor g sd sa sb
  else if op == 0x1B then .imin g (sub == 1) sd sa sb
  else if op == 0x1C then .imax g (sub == 1) sd sa sb
  else if op == 0x1D then .icmp g (fin 10 sub) pd sa sb
  else if op == 0x1E then .isel g sd sa sb (fin 8 (fld w 30 6))
  else if op == 0x1F then
    .movs g (if sub == 1 then .ws (fin 32 (fld w 12 6)) sa else if sub == 2 then .sw sd (fin 32 (fld w 18 6)) else .ss sd sa)
  else if op == 0x20 then
    if sub == 2 then .movxToVector g (viewOf (fld w 24 11)) sd sa
    else .movxToScalar g (sub == 1) sd (srcOf (fld w 24 11)) sa
  else if op == 0x21 then .bfx g (sub == 1) sd sa sb
  else if op == 0x22 then .bfi g sd sa sb sc
  else if op == 0x23 then .clz g sd sa
  else if op == 0x24 then .popc g sd sa
  else if op == 0x30 then .iaddImm g sd sa x
  else if op == 0x31 then .imulImm g sd sa x
  else if op == 0x32 then .ishlImm g sd sa x
  else if op == 0x33 then .ishrImm g sd sa x
  else if op == 0x34 then .isarImm g sd sa x
  else if op == 0x35 then .iandImm g sd sa x
  else if op == 0x36 then .iorImm g sd sa x
  else if op == 0x37 then .ixorImm g sd sa x
  else if op == 0x38 then .iminImm g (isub == 1) sd sa x
  else if op == 0x39 then .imaxImm g (isub == 1) sd sa x
  else if op == 0x3A then .icmpImm g (fin 10 isub) pd sa x
  else if op == 0x3B then .movi g (fin 3 isub) sd x
  else if op == 0x3C then .lea g (fin 5 isub) sd sa x
  else if op == 0x40 then .fmt g (if isub == 1 then .reg sa else .imm x)
  else if op == 0x41 then .fmtrd g sd
  else if op == 0x48 then .pmov g (if sub == 1 then .ps pd sa else if sub == 2 then .sp sd pa else .pp pd pa)
  else if op == 0x49 then .pand g pd pa pb
  else if op == 0x4A then .por g pd pa pb
  else if op == 0x4B then .pnot g pd pa
  else if op == 0x50 then .sys g (fin 14 isub) sd
  else if op == 0x51 then .trap g (BitVec.ofNat 16 (fld w 32 16))
  else if op == 0x52 then .eret g
  else if op == 0x53 then .rlbl g x
  else if op == 0x54 then .quota g (fin 6 isub) x
  else if op == 0x55 then .yield g
  else if op == 0x56 then .waitc g (fin 8 isub) x
  else .nop

/-- The instruction of a class V image (R152). -/
def buildV (w : Nat) : Instr :=
  let g := guardOf w
  let op := fld w 0 8
  let mod := fld w 56 4
  let la : Fin 4 := fin 4 (mod / 4)
  let vd := viewOf (fld w 12 11)
  let va := srcOf (fld w 23 11)
  let vb := srcOf (fld w 34 11)
  let vc := srcOf (fld w 45 11)
  if op == 0x01 then .vadd g la vd va vb
  else if op == 0x02 then .vsub g la vd va vb
  else if op == 0x03 then .vmul g la vd va vb
  else if op == 0x04 then .vfma g la (fin 4 mod) vd va vb vc
  else if op == 0x05 then .vmin g la vd va vb
  else if op == 0x06 then .vmax g la vd va vb
  else if op == 0x07 then .vabs g la vd va
  else if op == 0x08 then .vneg g la vd va
  else if op == 0x09 then .vcmp g (fin 16 mod) (fin 8 (fld w 12 11)) va vb
  else if op == 0x0A then .vsel g vd va vb (fin 8 (fld w 45 11))
  else if op == 0x0B then .vmov g vd va
  else if op == 0x0C then .vcvt g (if mod % 2 == 0 then .up (fin 8 (mod / 2)) else .dn (fin 8 (mod / 2)) vc) vd va
  else if op == 0x10 then .vexp2 g vd va
  else if op == 0x11 then .vlog2 g vd va
  else if op == 0x12 then .vrcp g vd va
  else if op == 0x13 then .vrsq g vd va
  else if op == 0x14 then .vsin g vd va
  else if op == 0x15 then .vcos g vd va
  else if op == 0x20 then .viadd g (fin 3 mod) vd va vb
  else if op == 0x21 then .visub g (fin 3 mod) vd va vb
  else if op == 0x22 then .vimul g (fin 3 mod) vd va vb
  else if op == 0x23 then .vshl g vd va vb
  else if op == 0x24 then .vshr g (mod == 1) vd va vb
  else if op == 0x25 then .vand g vd va vb
  else if op == 0x26 then .vor g vd va vb
  else if op == 0x27 then .vxor g vd va vb
  else if op == 0x30 then .vdot4 g vd va vb vc
  else if op == 0x31 then .vdot8 g vd va vb vc
  else if op == 0x32 then .vscl g (mod == 1) vd va vb
  else if op == 0x33 then .vqmx g vd va
  else if op == 0x40 then .vred g (fin 11 mod) vd va
  else if op == 0x41 then .vscan g (fin 11 mod) vd va
  else if op == 0x42 then
    .vshfl g (if mod == 0 then .idx else if mod == 1 then .up vc else if mod == 2 then .dn vc else if mod == 3 then .xor
      else .rot) vd va vb
  else if op == 0x43 then .vbcast g (if mod == 1 then some vb else none) vd va
  else if op == 0x44 then .vballot g (mod == 1) vd va
  else if op == 0x45 then .vlane g (fin 4 mod) vd
  else .nop

/-- The instruction of a class M image (R250). -/
def buildM (w : Nat) : Instr :=
  let g := guardOf w
  let op := fld w 0 8
  let vd := viewOf (fld w 12 11)
  let dt := srcOf (fld w 12 11)
  let vo := srcOf (fld w 23 11)
  let an : AReg := fin 16 (fld w 34 4)
  let sp := spaceOf (fld w 38 3)
  let sz := sizeOf_ (fld w 41 3)
  let sub := fld w 44 4
  let disp : BitVec 16 := BitVec.ofNat 16 (fld w 48 16)
  let sa : SReg := fin 64 (fld w 23 6)
  let sb : SReg := fin 64 (fld w 12 6)
  let rng : RangeSel := if sub == 1 then .all else .range sa sb
  if op == 0x01 then .ld g sp sz (sub == 1) vd an vo disp
  else if op == 0x02 then .st g sp sz dt an vo disp
  else if op == 0x03 then .ldx g sp sz (sub == 1) vd an vo disp
  else if op == 0x04 then .stx g sp sz dt an vo disp
  else if op == 0x05 then .atom g (sp == .s) (sz == .b64) (fin 10 sub) vd an vo disp
  else if op == 0x06 then
    if sub == 1 then .atomfAddX g dt an vo disp else .atomfAdd g (sp == .s) dt an vo disp
  else if op == 0x07 then .settle g vd an vo disp
  else if op == 0x10 then .fence g
  else if op == 0x11 then .xlate g (sub == 1) an sa
  else if op == 0x12 then .probe g sz vd an vo disp
  else if op == 0x13 then .pref g (sub == 1) an vo disp
  else if op == 0x14 then .clean g rng
  else if op == 0x15 then .inval g rng
  else .nop

/-- The instruction of a class E image. -/
def buildE (w : Nat) : Instr :=
  let g := guardOf w
  let op := fld w 0 8
  let sub := fld w 12 4
  let sx : SReg := fin 64 (fld w 16 6)
  let sy : SReg := fin 64 (fld w 22 6)
  let sz : SReg := fin 64 (fld w 28 6)
  let dx := fld w 34 10
  let dy := fld w 44 10
  let dz := fld w 54 10
  let mm : MmaOp :=
    { sa := sub % 2 == 1, sw := sub / 2 % 2 == 1, wl := sub / 4 % 2 == 1, acc := dy / 128 % 2 == 1, sA := sx, sW := sy,
      sF := sz, bank := fin 8 dx, m1 := fin 128 (dx / 8), n1 := fin 128 dy, nb := fin 1024 dz }
  let so : SortOp :=
    { key := fin 4 sub, desc := sub / 4 % 2 == 1, vals := sub / 8 % 2 == 1, sx := sx, sy := sy, sz := sz,
      src := sSpaceOf (dx % 4), dst := sSpaceOf (dx / 4 % 4), sem := fin 64 dy, raise := dy / 64 % 2 == 1 }
  let tgt : Option SReg := if dx / 64 % 2 == 1 then some sy else none
  if op == 0x01 then .mma g mm
  else if op == 0x02 then .mmag g mm
  else if op == 0x03 then .accz g (fin 8 dx) (fin 128 (dx / 8)) (fin 128 dy)
  else if op == 0x04 then
    .accrd g { i32 := sub % 2 == 1, reg := sub / 2 % 2 == 1, mx := sub / 4 % 2 == 1, sx := sx, sy := sy, sz := sz,
               bank := fin 8 dx, m1 := fin 128 (dx / 8), n1 := fin 128 dy, fmt := fin 16 dz, mreg := fin 16 (dz / 16) }
  else if op == 0x05 then .mxld g (sub == 1) sy sz (fin 128 dy) (fin 1024 dz)
  else if op == 0x06 then
    .copy g { src := cSrcOf (sub % 4), dst := cDstOf (sub / 4), sx := sx, sy := sy, sz := sz, ch := fin 8 dx,
              sem := fin 64 dy, raise := dy / 64 % 2 == 1, remote := dy / 128 % 2 == 1 }
  else if op == 0x10 then .sort g so
  else if op == 0x11 then .merge g so
  else if op == 0x12 then .ordw g sx sy (fin 16 dx) (fin 32 (dx / 16))
  else if op == 0x13 then .ordd g sx sy
  else if op == 0x20 then .fork g sy
  else if op == 0x21 then .join g
  else if op == 0x22 then .spawn g sy
  else if op == 0x23 then .taskend g
  else if op == 0x24 then .launch g sx sy
  else if op == 0x25 then
    if sub == 0 then .qpushT g sy (fin 64 dx)
    else if sub == 1 then .qpushRBuffer g (fin 4 dx) sx
    else .qpushRRegister g (fin 4 dx) (fin 16 dy) (fin 32 (dy / 16))
  else if op == 0x26 then if sub == 0 then .qcfgRd g sx (fin 16 dx) else .qcfgRq g (fin 4 dx) sy
  else if op == 0x27 then .rget g (sub == 1) sx (fin 8 dx) sy
  else if op == 0x28 then .rput g (fin 8 dx) sy
  else if op == 0x30 then .dictld g sx sy (fin 256 dx)
  else if op == 0x31 then .dictinv g (fin 256 dx)
  else if op == 0x32 then
    if sub == 0 then .tlbinv g sx sy sz else if sub == 1 then .tlbinvRoot g sz else .tlbinvAll g
  else if op == 0x33 then .tstld g sx sy
  else if op == 0x34 then if sub == 0 then .classWr g sx sy else if sub == 1 then .classMv g sx sy else .classRd g sx sy
  else if op == 0x40 then if sub == 0 then .bar g else if sub == 1 then .barWeave g else .barNet g (fin 16 dx) sx
  else if op == 0x41 then
    if sub == 0 then .semaddI g (fin 64 dx) (fin 1024 dy) tgt else .semadd g (fin 64 dx) sx tgt
  else if op == 0x42 then
    if sub == 0 then .semwaitDec g (fin 64 dx) (fin 1024 dy) else .semwaitGe g (fin 64 dx) (fin 1024 dy)
  else if op == 0x43 then if sub == 0 then .wpwait g (fin 8 dx) sx else .wpwaitRd g sx (fin 8 dx)
  else if op == 0x44 then .stepend g
  else if op == 0x45 then .govrd g (fin 16 dx) sx sy
  else if op == 0x46 then .cntrd g sx (fin 64 dx)
  else if op == 0x47 then
    if sub == 0 then .cntclr g (fin 16 dx) else if sub == 1 then .cntclrSnap g else if sub == 2 then .cntclrRoll g
    else .cntclrFree g
  else if op == 0x48 then .enrd g sx (fin 4 dx)
  else if op == 0x50 then .qrfeed g (sub % 2 == 1) (sub / 2 % 2 == 1) sx sy sz (fin 1024 dx) (fin 1024 dy)
  else if op == 0x51 then
    if sub == 0 then .qrapplySt g sx sy (fin 1024 dx) (fin 1024 dz)
    else .qrapplyLog g sx sy sz (fin 1024 dx) (fin 1024 dy) (fin 1024 dz)
  else if op == 0x52 then
    if sub == 3 then .qrreadSt g sx else .qrread g (fin 3 (sub % 4)) (sub / 4 % 2 == 1) sx (fin 16 dx)
  else if op == 0x53 then .qrzero g
  else if op == 0x54 then if sub == 0 then .qrgainImm g else .qrgainDef g
  else if op == 0x55 then .angout g (sub == 1) (fin 16 dx) (fin 32 (dx / 16))
  else if op == 0x56 then .angin g (sub == 1) (fin 16 dx) (fin 32 (dx / 16))
  else if op == 0x57 then .grot g (fin 7 sub) sx sy (fin 1024 dx) (fin 1024 dy)
  else if op == 0x60 then .rast g (fin 16 dx) sx sy sz
  else if op == 0x61 then .trace g (fin 16 dy) (fin 16 dx) sx sy sz
  else if op == 0x62 then .texs g (fin 16 dy) (fin 16 dx) sx sy
  else if op == 0x63 then .texg g (fin 4 sub) (fin 16 dy) (fin 16 dx) sx
  else .nop

/-- The instruction of a slot image of a class. -/
def buildSlot : Cls → Nat → Instr
  | .c => buildC | .v => buildV | .m => buildM | .e => buildE

/-- Decode one slot image for an issuer: the instruction, or the reject code of R77. -/
def decodeSlot (iss : Role) (priv : Bool) (scope : Nat) (cls : Cls) (w : Nat) : Except Nat Instr :=
  match checkSlot iss priv scope cls w with
  | some c => .error c
  | none => .ok (buildSlot cls w)

/-! ### Header, tail and bundle -/

/-- Slot i of a bundle image (R58). -/
def slotImg (b i : Nat) : Nat := fld b (32 + 64 * i) 64
/-- The header of a bundle image (R58). -/
def hdrImg (b : Nat) : Nat := fld b 0 32
/-- The tail of a bundle image (R58). -/
def tailImg (b : Nat) : Nat := fld b 352 32
/-- Header scope (R59). -/
def hdrScope (h : Nat) : Nat := fld h 16 3
/-- Stall count (R59). -/
def hdrStall (h : Nat) : Nat := fld h 5 4
/-- Energy weight (R59). -/
def hdrEnergy (h : Nat) : Nat := fld h 9 7
/-- Restart mark (R59). -/
def hdrMark (h : Nat) : Bool := bitN h 19

/-- The header checks (R77 codes 0x06, 0x0A). -/
def checkHdr (iss : Role) (h : Nat) : Option Nat :=
  firstCode [need (hdrScope h != 7 && fld h 20 12 == 0 && !(hdrMark h && iss == .shader)) 0x06,
    need (!(hdrMark h) || fld h 0 5 == 0) 0x0A]

/-- The tail checks (R60, R77 code 0x07). -/
def checkTail (iss : Role) (t : Nat) : Option Nat :=
  let g := fld t 16 8
  let b := fld t 14 2
  need (fld t 24 8 == 0 && (fld t 10 2 != 0 || fld t 0 10 == 0) &&
    (if fld t 12 2 == 0 then b == 0 && g == 0
     else if iss == .shader then b == 3 && g ≤ 1
     else (b == 0 && g ≤ 19) || (b == 1 && g ≤ 9) || (b == 2 && g ≤ 1))) 0x07

/-- The bits of a delta slot outside its class's increment fields are zero (R68, code 0x09). -/
def checkDelta (cls : Cls) (w : Nat) : Option Nat :=
  match cls with
  | .c => need (fld w 0 32 == 0) 0x09
  | .v => need (fld w 0 12 == 0 && fld w 17 6 == 0 && fld w 28 6 == 0 && fld w 39 6 == 0 && fld w 50 14 == 0) 0x09
  | .m => need (fld w 0 12 == 0 && fld w 17 6 == 0 && fld w 28 20 == 0) 0x09
  | .e => need (fld w 0 34 == 0) 0x09

/-- The R76 word. -/
def rejectWord (code wh idx op : Nat) : Nat := code + wh * 2 ^ 8 + idx * 2 ^ 16 + op * 2 ^ 32

/-- The checks of slots i and up of a bundle image. -/
def checkSlots (iss : Role) (priv : Bool) (idx b : Nat) : Nat → Nat → Option Nat
  | _, 0 => none
  | i, k + 1 =>
    let w := slotImg b i
    let delta := bitN (hdrImg b) i
    match (if delta then checkDelta (Cls.ofSlot i) w
           else checkSlot iss priv (hdrScope (hdrImg b)) (Cls.ofSlot i) w) with
    | some c => some (rejectWord c i idx (fld w 0 8))
    | none => checkSlots iss priv idx b (i + 1) k

/-- The checks of one bundle image in the order of R76: header, slots 0 to 4, tail. -/
def checkBundle (iss : Role) (priv : Bool) (idx b : Nat) : Option Nat :=
  match checkHdr iss (hdrImg b) with
  | some c => some (rejectWord c 5 idx 0)
  | none =>
    match checkSlots iss priv idx b 0 5 with
    | some w => some w
    | none =>
      match checkTail iss (tailImg b) with
      | some c => some (rejectWord c 6 idx 0)
      | none => none

/-- Replace the field [lo+n-1 : lo] of w by v modulo 2^n. -/
def putFld (w lo n v : Nat) : Nat := w - fld w lo n * 2 ^ lo + v % 2 ^ n * 2 ^ lo

/-- Add the increment field of d to the same field of w, wrapping (R68). -/
def addFld (d : Nat) (w : Nat) (p : Nat × Nat) : Nat := putFld w p.1 p.2 (fld w p.1 p.2 + fld d p.1 p.2)

/-- The increment fields of a class (R68). -/
def incFields : Cls → List (Nat × Nat)
  | .c => [(32, 32)]
  | .v => [(12, 5), (23, 5), (34, 5), (45, 5)]
  | .m => [(12, 5), (23, 5), (48, 16)]
  | .e => [(34, 10), (44, 10), (54, 10)]

/-- The effective slot of a delta slot d over its base (R68). -/
def effSlot (cls : Cls) (base d : Nat) : Nat := (incFields cls).foldl (addFld d) base

/-- Is a C opcode of format C.I (R126)? -/
def isCI (op : Nat) : Bool :=
  (0x30 ≤ op && op ≤ 0x3C) || op == 0x40 || op == 0x50 || op == 0x51 || op == 0x54 || op == 0x56

/-- Does a delta slot raise the illegal-bundle trap at issue (R69, R154, R174, R252)? An increment that makes a reserved vector
field of a class V base nonzero, or a reserved dx, dy or dz of a COPY or table instruction, does too: DESIGN CHOICE, log 65. -/
def deltaBad (iss : Role) (priv : Bool) (scope : Nat) (cls : Cls) (base d : Nat) : Bool :=
  base == 0 ||
  (match cls with
   | .c => !isCI (fld base 0 8)
   | .v => [(12, 17), (23, 28), (34, 39), (45, 50)].any (fun p => fld d p.1 5 != 0 && fld base p.2 4 ≥ 10)
             || (checkSlot iss priv scope cls (effSlot cls base d)).isSome
   | .m => fld base 0 8 == 0x11 || fld base 0 8 == 0x14 || fld base 0 8 == 0x15
             || [(12, 17), (23, 28)].any (fun p => fld d p.1 5 != 0 && fld base p.2 4 ≥ 10)
             || (checkSlot iss priv scope cls (effSlot cls base d)).isSome
   | .e => (checkSlot iss priv scope cls (effSlot cls base d)).isSome)

/-! ### The encoder -/

/-- The low twelve bits of a slot (R64). -/
def encHead (op : Nat) (g : Guard) : Nat := op + g.pg.val * 2 ^ 8 + g.neg.toNat * 2 ^ 11

/-- Format C.R (R64). -/
def encCR (op : Nat) (g : Guard) (sd sa sb sc sub : Nat) : Nat :=
  encHead op g + sd * 2 ^ 12 + sa * 2 ^ 18 + sb * 2 ^ 24 + sc * 2 ^ 30 + sub * 2 ^ 36
/-- Format C.I (R64). -/
def encCI (op : Nat) (g : Guard) (sd sa sub imm : Nat) : Nat :=
  encHead op g + sd * 2 ^ 12 + sa * 2 ^ 18 + sub * 2 ^ 24 + imm * 2 ^ 32
/-- Format C.B (R64). -/
def encCB (op : Nat) (g : Guard) (cond sa sb off : Nat) : Nat :=
  encHead op g + cond * 2 ^ 12 + sa * 2 ^ 16 + sb * 2 ^ 22 + off * 2 ^ 32
/-- Format V (R64). -/
def encV (op : Nat) (g : Guard) (vd va vb vc mod : Nat) : Nat :=
  encHead op g + vd * 2 ^ 12 + va * 2 ^ 23 + vb * 2 ^ 34 + vc * 2 ^ 45 + mod * 2 ^ 56
/-- Format M (R64). -/
def encM (op : Nat) (g : Guard) (vd vo an sp size sub disp : Nat) : Nat :=
  encHead op g + vd * 2 ^ 12 + vo * 2 ^ 23 + an * 2 ^ 34 + sp * 2 ^ 38 + size * 2 ^ 41 + sub * 2 ^ 44 + disp * 2 ^ 48
/-- Format E (R64). -/
def encE (op : Nat) (g : Guard) (sub sx sy sz dx dy dz : Nat) : Nat :=
  encHead op g + sub * 2 ^ 12 + sx * 2 ^ 16 + sy * 2 ^ 22 + sz * 2 ^ 28 + dx * 2 ^ 34 + dy * 2 ^ 44 + dz * 2 ^ 54

/-- A direction's code (R65). -/
def Dir.code : Dir → Nat
  | .h => 0 | .v => 1 | .d => 2 | .w => 3
/-- The 11-bit field of a view (R65). -/
def View.code (x : View) : Nat := x.i.val + x.m.val * 2 ^ 5 + x.dir.code * 2 ^ 9
/-- The 11-bit field of a source (R65). -/
def VSrc.code : VSrc → Nat
  | .view x => x.code
  | .bcast i => i.val + 10 * 2 ^ 5
  | .pool i => i.val + 11 * 2 ^ 5
  | .const i => i.val + 12 * 2 ^ 5
  | .lane i => i.val + 13 * 2 ^ 5
  | .qpop q => q.val + 14 * 2 ^ 5
/-- An M-slot space's code (R67). -/
def Space.code : Space → Nat
  | .g => 0 | .s => 1 | .a => 3 | .c => 4
/-- A size's code (R250). -/
def Size.code : Size → Nat
  | .b8 => 0 | .b16 => 1 | .b32 => 2 | .b64 => 3
/-- A size in bytes. -/
def Size.bytes : Size → Nat
  | .b8 => 1 | .b16 => 2 | .b32 => 4 | .b64 => 8
/-- A COPY source's code (R272). -/
def CSpace.srcCode : CSpace → Nat
  | .g => 0 | .a => 1 | .s => 2 | .w => 3
/-- A COPY destination's code (R272). -/
def CSpace.dstCode : CSpace → Nat
  | .g => 0 | .a => 1 | .w => 2 | .s => 3
/-- A sort space's code (R295). -/
def Space.sortCode : Space → Nat
  | .g => 0 | .a => 1 | .s => 2 | .c => 3

/-- dx, dy and sub of MMA and MMAG (R282). -/
def encMma (op : Nat) (g : Guard) (o : MmaOp) : Nat :=
  encE op g (o.sa.toNat + o.sw.toNat * 2 + o.wl.toNat * 4) o.sA.val o.sW.val o.sF.val (o.bank.val + o.m1.val * 8)
    (o.n1.val + o.acc.toNat * 128) o.nb.val
/-- SORT and MERGE (R295). -/
def encSort (op : Nat) (g : Guard) (o : SortOp) : Nat :=
  encE op g (o.key.val + o.desc.toNat * 4 + o.vals.toNat * 8) o.sx.val o.sy.val o.sz.val
    (o.src.sortCode + o.dst.sortCode * 4) (o.sem.val + o.raise.toNat * 64) 0
/-- The range operands of CLEAN and INVAL (R250). -/
def encRange (op : Nat) (g : Guard) : RangeSel → Nat
  | .range sa sb => encM op g sb.val sa.val 0 0 0 0 0
  | .all => encM op g 0 0 0 0 0 1 0

/-- The class and image of a slot instruction; none for an event. NOP is the image zero of every class. -/
def encode (i : Instr) : Option (Cls × Nat) :=
  match i with
  | .nop => some (.c, 0)
  | .bra g off => some (.c, encCB 0x01 g 0 0 0 off.toNat)
  | .brc g cond sa sb off => some (.c, encCB 0x02 g cond.val sa.val sb.val off.toNat)
  | .brv g off => some (.c, encCB 0x03 g 0 0 0 off.toNat)
  | .meet g => some (.c, encCR 0x04 g 0 0 0 0 0)
  | .call g link off => some (.c, encCB 0x05 g 0 link.val 0 off.toNat)
  | .ret g sa => some (.c, encCR 0x06 g 0 sa.val 0 0 0)
  | .loop g sa off => some (.c, encCB 0x07 g 0 sa.val 0 off.toNat)
  | .exit g => some (.c, encCR 0x08 g 0 0 0 0 0)
  | .braReg g sa => some (.c, encCR 0x09 g 0 sa.val 0 0 0)
  | .callReg g sd sa => some (.c, encCR 0x0A g sd.val sa.val 0 0 0)
  | .iadd g sd sa sb => some (.c, encCR 0x10 g sd.val sa.val sb.val 0 0)
  | .isub g sd sa sb => some (.c, encCR 0x11 g sd.val sa.val sb.val 0 0)
  | .imul g sd sa sb => some (.c, encCR 0x12 g sd.val sa.val sb.val 0 0)
  | .imulh g k sd sa sb => some (.c, encCR 0x13 g sd.val sa.val sb.val 0 k.val)
  | .imad g sd sa sb sc => some (.c, encCR 0x14 g sd.val sa.val sb.val sc.val 0)
  | .ishl g sd sa sb => some (.c, encCR 0x15 g sd.val sa.val sb.val 0 0)
  | .ishr g sd sa sb => some (.c, encCR 0x16 g sd.val sa.val sb.val 0 0)
  | .isar g sd sa sb => some (.c, encCR 0x17 g sd.val sa.val sb.val 0 0)
  | .iand g sd sa sb => some (.c, encCR 0x18 g sd.val sa.val sb.val 0 0)
  | .ior g sd sa sb => some (.c, encCR 0x19 g sd.val sa.val sb.val 0 0)
  | .ixor g sd sa sb => some (.c, encCR 0x1A g sd.val sa.val sb.val 0 0)
  | .imin g u sd sa sb => some (.c, encCR 0x1B g sd.val sa.val sb.val 0 u.toNat)
  | .imax g u sd sa sb => some (.c, encCR 0x1C g sd.val sa.val sb.val 0 u.toNat)
  | .icmp g cc pd sa sb => some (.c, encCR 0x1D g pd.val sa.val sb.val 0 cc.val)
  | .isel g sd sa sb pc => some (.c, encCR 0x1E g sd.val sa.val sb.val pc.val 0)
  | .movs g (.ss sd sa) => some (.c, encCR 0x1F g sd.val sa.val 0 0 0)
  | .movs g (.ws wd sa) => some (.c, encCR 0x1F g wd.val sa.val 0 0 1)
  | .movs g (.sw sd wa) => some (.c, encCR 0x1F g sd.val wa.val 0 0 2)
  | .movxToScalar g s sd v sa =>
    some (.c, encHead 0x20 g + sd.val * 2 ^ 12 + sa.val * 2 ^ 18 + v.code * 2 ^ 24 + s.toNat * 2 ^ 36)
  | .movxToVector g v sd sa =>
    some (.c, encHead 0x20 g + sd.val * 2 ^ 12 + sa.val * 2 ^ 18 + v.code * 2 ^ 24 + 2 * 2 ^ 36)
  | .bfx g s sd sa sb => some (.c, encCR 0x21 g sd.val sa.val sb.val 0 s.toNat)
  | .bfi g sd sa sb sc => some (.c, encCR 0x22 g sd.val sa.val sb.val sc.val 0)
  | .clz g sd sa => some (.c, encCR 0x23 g sd.val sa.val 0 0 0)
  | .popc g sd sa => some (.c, encCR 0x24 g sd.val sa.val 0 0 0)
  | .iaddImm g sd sa x => some (.c, encCI 0x30 g sd.val sa.val 0 x.toNat)
  | .imulImm g sd sa x => some (.c, encCI 0x31 g sd.val sa.val 0 x.toNat)
  | .ishlImm g sd sa x => some (.c, encCI 0x32 g sd.val sa.val 0 x.toNat)
  | .ishrImm g sd sa x => some (.c, encCI 0x33 g sd.val sa.val 0 x.toNat)
  | .isarImm g sd sa x => some (.c, encCI 0x34 g sd.val sa.val 0 x.toNat)
  | .iandImm g sd sa x => some (.c, encCI 0x35 g sd.val sa.val 0 x.toNat)
  | .iorImm g sd sa x => some (.c, encCI 0x36 g sd.val sa.val 0 x.toNat)
  | .ixorImm g sd sa x => some (.c, encCI 0x37 g sd.val sa.val 0 x.toNat)
  | .iminImm g u sd sa x => some (.c, encCI 0x38 g sd.val sa.val u.toNat x.toNat)
  | .imaxImm g u sd sa x => some (.c, encCI 0x39 g sd.val sa.val u.toNat x.toNat)
  | .icmpImm g cc pd sa x => some (.c, encCI 0x3A g pd.val sa.val cc.val x.toNat)
  | .movi g k sd x => some (.c, encCI 0x3B g sd.val 0 k.val x.toNat)
  | .lea g n sd sa x => some (.c, encCI 0x3C g sd.val sa.val n.val x.toNat)
  | .fmt g (.imm x) => some (.c, encCI 0x40 g 0 0 0 x.toNat)
  | .fmt g (.reg sa) => some (.c, encCI 0x40 g 0 sa.val 1 0)
  | .fmtrd g sd => some (.c, encCR 0x41 g sd.val 0 0 0 0)
  | .pmov g (.pp pd pa) => some (.c, encCR 0x48 g pd.val pa.val 0 0 0)
  | .pmov g (.ps pd sa) => some (.c, encCR 0x48 g pd.val sa.val 0 0 1)
  | .pmov g (.sp sd pa) => some (.c, encCR 0x48 g sd.val pa.val 0 0 2)
  | .pand g pd pa pb => some (.c, encCR 0x49 g pd.val pa.val pb.val 0 0)
  | .por g pd pa pb => some (.c, encCR 0x4A g pd.val pa.val pb.val 0 0)
  | .pnot g pd pa => some (.c, encCR 0x4B g pd.val pa.val 0 0 0)
  | .sys g sel sd => some (.c, encCI 0x50 g sd.val 0 sel.val 0)
  | .trap g code => some (.c, encCI 0x51 g 0 0 0 code.toNat)
  | .eret g => some (.c, encCR 0x52 g 0 0 0 0 0)
  | .rlbl g off => some (.c, encCB 0x53 g 0 0 0 off.toNat)
  | .quota g r n => some (.c, encCI 0x54 g 0 0 r.val n.toNat)
  | .yield g => some (.c, encCR 0x55 g 0 0 0 0 0)
  | .waitc g c n => some (.c, encCI 0x56 g 0 0 c.val n.toNat)
  | .vadd g la vd va vb => some (.v, encV 0x01 g vd.code va.code vb.code 0 (la.val * 4))
  | .vsub g la vd va vb => some (.v, encV 0x02 g vd.code va.code vb.code 0 (la.val * 4))
  | .vmul g la vd va vb => some (.v, encV 0x03 g vd.code va.code vb.code 0 (la.val * 4))
  | .vfma g la n vd va vb vc => some (.v, encV 0x04 g vd.code va.code vb.code vc.code (la.val * 4 + n.val))
  | .vmin g la vd va vb => some (.v, encV 0x05 g vd.code va.code vb.code 0 (la.val * 4))
  | .vmax g la vd va vb => some (.v, encV 0x06 g vd.code va.code vb.code 0 (la.val * 4))
  | .vabs g la vd va => some (.v, encV 0x07 g vd.code va.code 0 0 (la.val * 4))
  | .vneg g la vd va => some (.v, encV 0x08 g vd.code va.code 0 0 (la.val * 4))
  | .vcmp g cc pd va vb => some (.v, encV 0x09 g pd.val va.code vb.code 0 cc.val)
  | .vsel g vd va vb pc => some (.v, encV 0x0A g vd.code va.code vb.code pc.val 0)
  | .vmov g vd va => some (.v, encV 0x0B g vd.code va.code 0 0 0)
  | .vcvt g (.up n) vd va => some (.v, encV 0x0C g vd.code va.code 0 0 (n.val * 2))
  | .vcvt g (.dn n vc) vd va => some (.v, encV 0x0C g vd.code va.code 0 vc.code (n.val * 2 + 1))
  | .vexp2 g vd va => some (.v, encV 0x10 g vd.code va.code 0 0 0)
  | .vlog2 g vd va => some (.v, encV 0x11 g vd.code va.code 0 0 0)
  | .vrcp g vd va => some (.v, encV 0x12 g vd.code va.code 0 0 0)
  | .vrsq g vd va => some (.v, encV 0x13 g vd.code va.code 0 0 0)
  | .vsin g vd va => some (.v, encV 0x14 g vd.code va.code 0 0 0)
  | .vcos g vd va => some (.v, encV 0x15 g vd.code va.code 0 0 0)
  | .viadd g k vd va vb => some (.v, encV 0x20 g vd.code va.code vb.code 0 k.val)
  | .visub g k vd va vb => some (.v, encV 0x21 g vd.code va.code vb.code 0 k.val)
  | .vimul g k vd va vb => some (.v, encV 0x22 g vd.code va.code vb.code 0 k.val)
  | .vshl g vd va vb => some (.v, encV 0x23 g vd.code va.code vb.code 0 0)
  | .vshr g ar vd va vb => some (.v, encV 0x24 g vd.code va.code vb.code 0 ar.toNat)
  | .vand g vd va vb => some (.v, encV 0x25 g vd.code va.code vb.code 0 0)
  | .vor g vd va vb => some (.v, encV 0x26 g vd.code va.code vb.code 0 0)
  | .vxor g vd va vb => some (.v, encV 0x27 g vd.code va.code vb.code 0 0)
  | .vdot4 g vd va vb vc => some (.v, encV 0x30 g vd.code va.code vb.code vc.code 0)
  | .vdot8 g vd va vb vc => some (.v, encV 0x31 g vd.code va.code vb.code vc.code 0)
  | .vscl g d vd va vb => some (.v, encV 0x32 g vd.code va.code vb.code 0 d.toNat)
  | .vqmx g vd va => some (.v, encV 0x33 g vd.code va.code 0 0 0)
  | .vred g op vd va => some (.v, encV 0x40 g vd.code va.code 0 0 op.val)
  | .vscan g op vd va => some (.v, encV 0x41 g vd.code va.code 0 0 op.val)
  | .vshfl g .idx vd va vb => some (.v, encV 0x42 g vd.code va.code vb.code 0 0)
  | .vshfl g (.up vc) vd va vb => some (.v, encV 0x42 g vd.code va.code vb.code vc.code 1)
  | .vshfl g (.dn vc) vd va vb => some (.v, encV 0x42 g vd.code va.code vb.code vc.code 2)
  | .vshfl g .xor vd va vb => some (.v, encV 0x42 g vd.code va.code vb.code 0 3)
  | .vshfl g .rot vd va vb => some (.v, encV 0x42 g vd.code va.code vb.code 0 4)
  | .vbcast g none vd va => some (.v, encV 0x43 g vd.code va.code 0 0 0)
  | .vbcast g (some vb) vd va => some (.v, encV 0x43 g vd.code va.code vb.code 0 1)
  | .vballot g s vd va => some (.v, encV 0x44 g vd.code va.code 0 0 s.toNat)
  | .vlane g k vd => some (.v, encV 0x45 g vd.code 0 0 0 k.val)
  | .ld g sp sz sx vd an vo d => some (.m, encM 0x01 g vd.code vo.code an.val sp.code sz.code sx.toNat d.toNat)
  | .st g sp sz vd an vo d => some (.m, encM 0x02 g vd.code vo.code an.val sp.code sz.code 0 d.toNat)
  | .ldx g sp sz sx vd an vo d => some (.m, encM 0x03 g vd.code vo.code an.val sp.code sz.code sx.toNat d.toNat)
  | .stx g sp sz vd an vo d => some (.m, encM 0x04 g vd.code vo.code an.val sp.code sz.code 0 d.toNat)
  | .atom g sh b64 op vd an vo d =>
    some (.m, encM 0x05 g vd.code vo.code an.val sh.toNat (2 + b64.toNat) op.val d.toNat)
  | .atomfAdd g sh vd an vo d => some (.m, encM 0x06 g vd.code vo.code an.val sh.toNat 2 0 d.toNat)
  | .atomfAddX g vd an vo d => some (.m, encM 0x06 g vd.code vo.code an.val 0 2 1 d.toNat)
  | .settle g vd an vo d => some (.m, encM 0x07 g vd.code vo.code an.val 0 2 0 d.toNat)
  | .fence g => some (.m, encM 0x10 g 0 0 0 0 0 0 0)
  | .xlate g nf an sa => some (.m, encM 0x11 g 0 sa.val an.val 0 0 nf.toNat 0)
  | .probe g sz vd an vo d => some (.m, encM 0x12 g vd.code vo.code an.val 0 sz.code 0 d.toNat)
  | .pref g l2 an vo d => some (.m, encM 0x13 g 0 vo.code an.val 0 0 l2.toNat d.toNat)
  | .clean g r => some (.m, encRange 0x14 g r)
  | .inval g r => some (.m, encRange 0x15 g r)
  | .mma g o => some (.e, encMma 0x01 g o)
  | .mmag g o => some (.e, encMma 0x02 g o)
  | .accz g b m1 n1 => some (.e, encE 0x03 g 0 0 0 0 (b.val + m1.val * 8) n1.val 0)
  | .accrd g o =>
    some (.e, encE 0x04 g (o.i32.toNat + o.reg.toNat * 2 + o.mx.toNat * 4) o.sx.val o.sy.val o.sz.val
      (o.bank.val + o.m1.val * 8) o.n1.val (o.fmt.val + o.mreg.val * 16))
  | .mxld g sw sW sF n1 nb => some (.e, encE 0x05 g sw.toNat 0 sW.val sF.val 0 n1.val nb.val)
  | .copy g o =>
    some (.e, encE 0x06 g (o.src.srcCode + o.dst.dstCode * 4) o.sx.val o.sy.val o.sz.val o.ch.val
      (o.sem.val + o.raise.toNat * 64 + o.remote.toNat * 128) 0)
  | .sort g o => some (.e, encSort 0x10 g o)
  | .merge g o => some (.e, encSort 0x11 g o)
  | .ordw g sR sQ m i => some (.e, encE 0x12 g 0 sR.val sQ.val 0 (m.val + i.val * 16) 0 0)
  | .ordd g sR sQ => some (.e, encE 0x13 g 0 sR.val sQ.val 0 0 0 0)
  | .fork g sL => some (.e, encE 0x20 g 0 0 sL.val 0 0 0 0)
  | .join g => some (.e, encE 0x21 g 0 0 0 0 0 0 0)
  | .spawn g sL => some (.e, encE 0x22 g 0 0 sL.val 0 0 0 0)
  | .taskend g => some (.e, encE 0x23 g 0 0 0 0 0 0 0)
  | .launch g sD sL => some (.e, encE 0x24 g 0 sD.val sL.val 0 0 0 0)
  | .qpushT g sL n => some (.e, encE 0x25 g 0 0 sL.val 0 n.val 0 0)
  | .qpushRBuffer g n sA => some (.e, encE 0x25 g 1 sA.val 0 0 n.val 0 0)
  | .qpushRRegister g n m i => some (.e, encE 0x25 g 3 0 0 0 n.val (m.val + i.val * 16) 0)
  | .qcfgRd g sD sel => some (.e, encE 0x26 g 0 sD.val 0 0 sel.val 0 0)
  | .qcfgRq g n sC => some (.e, encE 0x26 g 1 0 sC.val 0 n.val 0 0)
  | .rget g f sD r sS => some (.e, encE 0x27 g f.toNat sD.val sS.val 0 r.val 0 0)
  | .rput g r sS => some (.e, encE 0x28 g 0 0 sS.val 0 r.val 0 0)
  | .dictld g sD sI n => some (.e, encE 0x30 g 0 sD.val sI.val 0 n.val 0 0)
  | .dictinv g n => some (.e, encE 0x31 g 0 0 0 0 n.val 0 0)
  | .tlbinv g sV sB sR => some (.e, encE 0x32 g 0 sV.val sB.val sR.val 0 0 0)
  | .tlbinvRoot g sR => some (.e, encE 0x32 g 1 0 0 sR.val 0 0 0)
  | .tlbinvAll g => some (.e, encE 0x32 g 2 0 0 0 0 0 0)
  | .tstld g sD sI => some (.e, encE 0x33 g 0 sD.val sI.val 0 0 0 0)
  | .classWr g sI sV => some (.e, encE 0x34 g 0 sI.val sV.val 0 0 0 0)
  | .classMv g sQ sC => some (.e, encE 0x34 g 1 sQ.val sC.val 0 0 0 0)
  | .classRd g sD sI => some (.e, encE 0x34 g 2 sD.val sI.val 0 0 0 0)
  | .bar g => some (.e, encE 0x40 g 0 0 0 0 0 0 0)
  | .barWeave g => some (.e, encE 0x40 g 1 0 0 0 0 0 0)
  | .barNet g b sC => some (.e, encE 0x40 g 2 sC.val 0 0 b.val 0 0)
  | .semaddI g n k t =>
    some (.e, encE 0x41 g 0 0 (t.elim 0 Fin.val) 0 (n.val + t.isSome.toNat * 64) k.val 0)
  | .semadd g n sV t => some (.e, encE 0x41 g 1 sV.val (t.elim 0 Fin.val) 0 (n.val + t.isSome.toNat * 64) 0 0)
  | .semwaitDec g n k => some (.e, encE 0x42 g 0 0 0 0 n.val k.val 0)
  | .semwaitGe g n k => some (.e, encE 0x42 g 1 0 0 0 n.val k.val 0)
  | .wpwait g ch sV => some (.e, encE 0x43 g 0 sV.val 0 0 ch.val 0 0)
  | .wpwaitRd g sD ch => some (.e, encE 0x43 g 1 sD.val 0 0 ch.val 0 0)
  | .stepend g => some (.e, encE 0x44 g 0 0 0 0 0 0 0)
  | .govrd g sel sD sL => some (.e, encE 0x45 g 0 sD.val sL.val 0 sel.val 0 0)
  | .cntrd g sD sel => some (.e, encE 0x46 g 0 sD.val 0 0 sel.val 0 0)
  | .cntclr g n => some (.e, encE 0x47 g 0 0 0 0 n.val 0 0)
  | .cntclrSnap g => some (.e, encE 0x47 g 1 0 0 0 0 0 0)
  | .cntclrRoll g => some (.e, encE 0x47 g 2 0 0 0 0 0 0)
  | .cntclrFree g => some (.e, encE 0x47 g 3 0 0 0 0 0 0)
  | .enrd g sD sel => some (.e, encE 0x48 g 0 sD.val 0 0 sel.val 0 0)
  | .qrfeed g b l sx sy sz n h => some (.e, encE 0x50 g (b.toNat + l.toNat * 2) sx.val sy.val sz.val n.val h.val 0)
  | .qrapplySt g sx sy k n => some (.e, encE 0x51 g 0 sx.val sy.val 0 k.val 1 n.val)
  | .qrapplyLog g sx sy sz k h n => some (.e, encE 0x51 g 1 sx.val sy.val sz.val k.val h.val n.val)
  | .qrread g b a sx m => some (.e, encE 0x52 g (b.val + a.toNat * 4) sx.val 0 0 m.val 0 0)
  | .qrreadSt g sx => some (.e, encE 0x52 g 3 sx.val 0 0 0 0 0)
  | .qrzero g => some (.e, encE 0x53 g 0 0 0 0 0 0 0)
  | .qrgainImm g => some (.e, encE 0x54 g 0 0 0 0 0 0 0)
  | .qrgainDef g => some (.e, encE 0x54 g 1 0 0 0 0 0 0)
  | .angout g r m i => some (.e, encE 0x55 g r.toNat 0 0 0 (m.val + i.val * 16) 0 0)
  | .angin g r m i => some (.e, encE 0x56 g r.toNat 0 0 0 (m.val + i.val * 16) 0 0)
  | .grot g e sx sy p h => some (.e, encE 0x57 g e.val sx.val sy.val 0 p.val h.val 0)
  | .rast g m sv sc st => some (.e, encE 0x60 g 0 sv.val sc.val st.val m.val 0 0)
  | .trace g mO mI sr sf st => some (.e, encE 0x61 g 0 sr.val sf.val st.val mI.val mO.val 0)
  | .texs g mO mI sh sl => some (.e, encE 0x62 g 0 sh.val sl.val 0 mI.val mO.val 0)
  | .texg g ch mO mI sh => some (.e, encE 0x63 g ch.val sh.val 0 0 mI.val mO.val 0)
  | _ => none

/-- Is the step a slot instruction (and not an event)? -/
def Instr.isSlot (i : Instr) : Bool := (encode i).isSome

/-- The slot a class stands in when an instruction is alone in its bundle: V instructions take slot 1 (R81). -/
def Cls.slot : Cls → Nat
  | .c => 0 | .v => 1 | .m => 3 | .e => 4

/-- The bundle image that holds one instruction alone, with header h and a zero tail. -/
def bundleOf (h : Nat) (i : Instr) : Nat :=
  match encode i with
  | some (cls, w) => h + w * 2 ^ (32 + 64 * cls.slot)
  | none => h

/-- The issuers, most privileged dictionary first tried. -/
def issuers : List Role := [.shader, .vector, .copy, .matrix]

/-- The first issuer for which a bundle image passes validation in a privileged dictionary. -/
def issuerOf (b : Nat) : Option Role := issuers.find? (fun r => (checkBundle r true 0xFFFF b).isNone)

/-- The instruction of a bundle image that holds exactly one non-NOP slot, or NOP when all are; none when the image is
rejected for every issuer or holds several instructions or deltas. -/
def soleInstr (b : Nat) : Option Instr :=
  if (issuerOf b).isNone || fld (hdrImg b) 0 5 != 0 then none
  else
    match (List.range 5).filter (fun i => slotImg b i != 0) with
    | [] => some .nop
    | [i] => some (buildSlot (Cls.ofSlot i) (slotImg b i))
    | _ => none

/-- The instruction that the decoder reads from the bits of a bundle image, numbered from the header's bit 0 (R58). -/
def decodeTableWord (nbits w : Nat) : Option Instr := soleInstr (w % 2 ^ nbits)

end Sys2Proof
end

