-- ==== Sys2Proof/Machine/Fp.lean ====
section
/-! DEFINITION. Number formats and exact arithmetic (R88 to R112): decoding an element, the one rounding of R96, the
conversions of R97 and R98, lane arithmetic (R102, R103), transcendentals (R162), block sums (R104 to R106), the exact
sum (R107 to R109), microscaling (R99) and angle words (R110 to R112). -/

namespace Sys2Proof.Machine

/-- A decoded element: a NaN with its code, an infinity, or (-1)^neg * m * 2^e (R89). -/
inductive FVal where
  | nan (neg : Bool) (low : Nat)
  | inf (neg : Bool)
  | fin (neg : Bool) (m : Nat) (e : Int)
deriving DecidableEq, Repr

/-- Exponent bits, mantissa bits and bias of a floating format code of R94 (R88). -/
def fpar (f : Nat) : Nat × Nat × Nat :=
  match f with
  | 0 => (8, 23, 127) | 1 => (5, 10, 15) | 2 => (8, 7, 127) | 3 => (4, 3, 7) | 4 => (5, 2, 15)
  | 5 => (3, 2, 3) | 6 => (2, 3, 1) | _ => (2, 1, 1)

/-- Does the format have infinities and IEEE NaN codes (R88)? -/
def fIeee (f : Nat) : Bool := f ≤ 2 || f == 4

/-- Is the code an integer format (R90)? -/
def fInt (f : Nat) : Bool := f == 8 || f == 9 || f == 10

/-- Two's complement value of n bits (R90). -/
def sint (n x : Nat) : Int := if x < 2 ^ (n - 1) then (x : Int) else (x : Int) - (2 ^ n : Nat)

/-- Element bits of a format code (R94). -/
def fBits (f : Nat) : Nat :=
  match f with
  | 0 => 32 | 1 => 16 | 2 => 16 | 3 => 8 | 4 => 8 | 5 => 6 | 6 => 6 | 7 => 4 | 8 => 8 | 9 => 4 | _ => 32

/-- Decode an element of a floating format (R88, R89). -/
def fdec (f x : Nat) : FVal :=
  let p := fpar f
  let eb := p.1
  let mb := p.2.1
  let mant := x % 2 ^ mb
  let ex := x / 2 ^ mb % 2 ^ eb
  let neg := x / 2 ^ (mb + eb) % 2 == 1
  if fIeee f && ex == 2 ^ eb - 1 then (if mant == 0 then .inf neg else .nan neg (mant % 8))
  else if f == 3 && ex == 15 && mant == 7 then .nan neg 1
  else if ex == 0 then .fin neg mant (1 - (p.2.2 : Int) - mb)
  else .fin neg (mant + 2 ^ mb) ((ex : Int) - p.2.2 - mb)

/-- The value of an element of any format: integers are exact values (R90). -/
def edec (f x : Nat) : FVal :=
  if fInt f then (let v := sint (fBits f) x; .fin (v < 0) v.natAbs 0) else fdec f x

/-- floor(log2(num/den)) for positive numbers. -/
def flog2 (num den : Nat) : Int :=
  let l : Int := (Nat.log2 num : Int) - Nat.log2 den
  if (if l ≥ 0 then den * 2 ^ l.toNat ≤ num else den ≤ num * 2 ^ (-l).toNat) then l else l - 1

/-- num/den * 2^e as a pair of naturals. -/
def scaleQ (num den : Nat) (e : Int) : Nat × Nat :=
  if e ≥ 0 then (num * 2 ^ e.toNat, den) else (num, den * 2 ^ (-e).toNat)

/-- Round n/d to an integer: modes 0 RNE, 1 RZ, 2 RU, 3 RD, for a value of sign neg (R96 step 3). -/
def rndInt (mode : Nat) (neg : Bool) (n d : Nat) : Nat :=
  let k := n / d
  let r := n % d
  let up := if mode == 0 then decide (2 * r > d) || (2 * r == d && k % 2 == 1)
    else if mode == 1 then false
    else if mode == 2 then r != 0 && !neg
    else r != 0 && neg
  if up then k + 1 else k

/-- The sign bit of a format. -/
def fsign (f : Nat) (neg : Bool) : Nat := if neg then 2 ^ (fBits f - 1) else 0

/-- The largest finite code of a format, without sign (R88). -/
def fmaxCode (f : Nat) : Nat :=
  match f with
  | 0 => 0x7F7FFFFF | 1 => 0x7BFF | 2 => 0x7F7F | 3 => 0x7E | 4 => 0x7B | 5 => 0x1F | 6 => 0x1F | _ => 0x7

/-- The infinity code of a format, without sign (R88). -/
def finfCode (f : Nat) : Nat := match f with | 0 => 0x7F800000 | 1 => 0x7C00 | 2 => 0x7F80 | _ => 0x7C

/-- A finite overflow (R96 step 5, R97). -/
def foverflow (f mode : Nat) (sat neg : Bool) : Nat :=
  fsign f neg +
  (if mode == 1 || (mode == 2 && neg) || (mode == 3 && !neg) || sat then fmaxCode f
   else if fIeee f then finfCode f
   else if f == 3 then 0x7F else fmaxCode f)

/-- Round (-1)^neg * num/den * 2^e, num > 0, into a floating format (R96). -/
def roundQ (f mode : Nat) (sat neg : Bool) (num den : Nat) (e : Int) : Nat :=
  let p := fpar f
  let mb := p.2.1
  let emin : Int := 1 - p.2.2
  let ex := max (flog2 num den + e) emin
  let q := ex - mb
  let nd := scaleQ num den (e - q)
  let k := rndInt mode neg nd.1 nd.2
  let kq : Nat × Int := if k ≥ 2 ^ (mb + 1) then (k / 2, q + 1) else (k, q)
  let code := if kq.1 < 2 ^ mb then kq.1 else kq.1 - 2 ^ mb + (kq.2 + mb + p.2.2).toNat * 2 ^ mb
  if code > fmaxCode f then foverflow f mode sat neg else fsign f neg + code

/-- Round a decoded value into a format; zero keeps its sign (R96 step 6). -/
def roundV (f mode : Nat) (sat : Bool) (neg : Bool) (m : Nat) (e : Int) : Nat :=
  if m == 0 then fsign f neg else roundQ f mode sat neg m 1 e

/-- A NaN that the device generates, in a format with a quiet bit (R100). -/
def genNan (f cause : Nat) : Nat := (match f with | 1 => 0x7E00 | 2 => 0x7FC0 | _ => 0x7FC00000) + cause

/-- A NaN code made quiet (R102). -/
def quiet (f x : Nat) : Nat := x ||| (match f with | 1 => 0x0200 | 2 => 0x0040 | _ => 0x00400000)

/-- Round a value to an integer format with clamping (R96, R97). -/
def roundToInt (f mode : Nat) (neg : Bool) (m : Nat) (e : Int) : Nat :=
  let nd := scaleQ m 1 e
  let k := rndInt mode neg nd.1 nd.2
  let hi := 2 ^ (fBits f - 1)
  if neg then (if k > hi then hi else (2 ^ fBits f - k) % 2 ^ fBits f) else (if k ≥ hi then hi - 1 else k)

/-- Convert any element to FP32 (R97, R98): exact but for INT32, which rounds under the mode. -/
def toF32 (f mode : Nat) (x : Nat) : Nat :=
  if f == 0 then (match fdec 0 x with | .nan _ _ => quiet 0 x | _ => x)
  else match edec f x with
  | .nan neg low => fsign 0 neg + (if f == 1 || f == 2 then 0x7FC00000 + low else genNan 0 1)
  | .inf neg => fsign 0 neg + finfCode 0
  | .fin neg m e => roundV 0 mode false neg m e

/-- Convert an FP32 code to an element format (R97, R98). -/
def fromF32 (f mode : Nat) (sat : Bool) (x : Nat) : Nat :=
  match fdec 0 x with
  | .nan neg low =>
    if f == 0 then quiet 0 x
    else if f == 1 then fsign 1 neg + 0x7E00 + low
    else if f == 2 then fsign 2 neg + 0x7FC0 + low
    else if f == 4 then fsign 4 neg + 0x7E
    else if f == 3 then fsign 3 neg + 0x7F
    else 0
  | .inf neg =>
    if fInt f then (if neg then 2 ^ (fBits f - 1) else 2 ^ (fBits f - 1) - 1)
    else if fIeee f then fsign f neg + finfCode f
    else if f == 3 then fsign 3 neg + (if sat then 0x7E else 0x7F)
    else fsign f neg + fmaxCode f
  | .fin neg m e => if fInt f then roundToInt f mode neg m e else roundV f mode sat neg m e

/-- Convert between any two element formats as R97 gives: through FP32, but integers directly to integers and INT32
directly to a narrower float. -/
def convert (src dst mode : Nat) (sat : Bool) (x : Nat) : Nat :=
  if fInt src then
    (let v := sint (fBits src) x
     if fInt dst then roundToInt dst mode (v < 0) v.natAbs 0
     else roundV dst mode sat (v < 0) v.natAbs 0)
  else fromF32 dst mode sat (toF32 src 0 x)

/-- A decoded finite value as an integer at exponent e0 ≤ e. -/
def atExp (neg : Bool) (m : Nat) (e e0 : Int) : Int :=
  let v : Int := (m * 2 ^ (e - e0).toNat : Nat)
  if neg then -v else v

/-- Round an exact integer multiple of 2^e; an exact zero takes sign zneg. -/
def roundI (f mode : Nat) (sat zneg : Bool) (v : Int) (e : Int) : Nat :=
  if v == 0 then fsign f zneg else roundQ f mode sat (v < 0) v.natAbs 1 e

/-- Exact sum of two non-NaN values, rounded once (R102, R103). -/
def faddV (f mode : Nat) (sat : Bool) (a b : FVal) : Nat :=
  match a, b with
  | .inf n1, .inf n2 => if n1 == n2 then fsign f n1 + finfCode f else genNan f 3
  | .inf n1, _ => fsign f n1 + finfCode f
  | _, .inf n2 => fsign f n2 + finfCode f
  | .fin n1 m1 e1, .fin n2 m2 e2 =>
    let e := min e1 e2
    let zneg := if m1 == 0 && m2 == 0 && n1 == n2 then n1 else mode == 3
    roundI f mode sat zneg (atExp n1 m1 e1 e + atExp n2 m2 e2 e) e
  | .nan _ _, _ => genNan f 3
  | _, .nan _ _ => genNan f 3

/-- Exact product of two non-NaN values: the value, or none for zero times infinity. -/
def fmulV (a b : FVal) : Option FVal :=
  match a, b with
  | .inf n1, .inf n2 => some (.inf (n1 != n2))
  | .inf n1, .fin n2 m _ => if m == 0 then none else some (.inf (n1 != n2))
  | .fin n1 m _, .inf n2 => if m == 0 then none else some (.inf (n1 != n2))
  | .fin n1 m1 e1, .fin n2 m2 e2 => some (.fin (n1 != n2) (m1 * m2) (e1 + e2))
  | x, .nan _ _ => some x
  | .nan n l, _ => some (.nan n l)

/-- A decoded value negated. -/
def FVal.flip (b : Bool) : FVal → FVal
  | .nan n l => .nan n l
  | .inf n => .inf (n != b)
  | .fin n m e => .fin (n != b) m e

/-- Is a decoded value a NaN? -/
def FVal.isNan : FVal → Bool
  | .nan _ _ => true
  | _ => false

/-- The first NaN of a list of operand codes, made quiet (R102). -/
def firstNan (f : Nat) (l : List Nat) : Option Nat := (l.find? (fun x => (fdec f x).isNan)).map (quiet f)

/-- a + b under R102. -/
def fadd (f mode : Nat) (sat : Bool) (a b : Nat) : Nat :=
  match firstNan f [a, b] with
  | some n => n
  | none => faddV f mode sat (fdec f a) (fdec f b)

/-- a - b under R102: a NaN operand keeps its sign. -/
def fsub (f mode : Nat) (sat : Bool) (a b : Nat) : Nat :=
  match firstNan f [a, b] with
  | some n => n
  | none => faddV f mode sat (fdec f a) ((fdec f b).flip true)

/-- Round a non-NaN value. -/
def roundF (f mode : Nat) (sat : Bool) : FVal → Nat
  | .nan _ _ => genNan f 4
  | .inf n => fsign f n + finfCode f
  | .fin n m e => roundV f mode sat n m e

/-- a * b under R102. -/
def fmul (f mode : Nat) (sat : Bool) (a b : Nat) : Nat :=
  match firstNan f [a, b] with
  | some n => n
  | none => match fmulV (fdec f a) (fdec f b) with
    | none => genNan f 4
    | some v => roundF f mode sat v

/-- sp*(a*b) + sc*c, exact before one rounding (R159). -/
def ffma (f mode : Nat) (sat np nc : Bool) (a b c : Nat) : Nat :=
  match firstNan f [a, b, c] with
  | some n => n
  | none => match fmulV (fdec f a) (fdec f b) with
    | none => genNan f 4
    | some v => faddV f mode sat (v.flip np) ((fdec f c).flip nc)

/-- A total order key of a finite or infinite code: -0 below +0 (R159). -/
def fkey (f x : Nat) : Int :=
  let s := 2 ^ (fBits f - 1)
  if x ≥ s then -((x - s : Nat) : Int) - 1 else (x : Int)

/-- VMIN and VMAX (R159). -/
def fminmax (f : Nat) (mx : Bool) (a b : Nat) : Nat :=
  match firstNan f [a, b] with
  | some n => n
  | none => if (if mx then fkey f b > fkey f a else fkey f b < fkey f a) then b else a

/-- Compare two codes: none when either is NaN; -0 equals +0 (R161). -/
def fcmp (f a b : Nat) : Option Ordering :=
  match fdec f a, fdec f b with
  | .nan _ _, _ => none
  | _, .nan _ _ => none
  | x, y =>
    let z (v : FVal) : Bool := match v with | .fin _ m _ => m == 0 | _ => false
    if z x && z y then some .eq
    else some (compare (fkey f a) (fkey f b))

/-! ### Transcendentals: fixed point with 640 fraction bits -/

/-- Fraction bits of the fixed-point evaluation. -/
def fixP : Nat := 640
/-- pi * 2^640, rounded down. -/
def piFix : Nat := 0x3243f6a8885a308d313198a2e03707344a4093822299f31d0082efa98ec4e6c89452821e638d01377be5466cf34e90c6cc0ac29b7c97c50dd3f84d5b5b54709179216d5d98979fb1bd1310ba698dfb5ac
/-- ln 2 * 2^640, rounded down. -/
def ln2Fix : Nat := 0xb17217f7d1cf79abc9e3b39803f2f6af40f343267298b62d8a0d175b8baafa2be7b876206debac98559552fb4afa1b10ed2eae35c138214427573b291169b8253e96ca16224ae8c51acbda11317c387e

/-- Integer square root of n, bit by bit from bit k - 1 (structural). -/
def isqrtGo (n : Nat) : Nat → Nat → Nat
  | 0, r => r
  | k + 1, r => if (r + 2 ^ k) * (r + 2 ^ k) ≤ n then isqrtGo n k (r + 2 ^ k) else isqrtGo n k r

/-- floor(sqrt n). -/
def isqrt (n : Nat) : Nat := isqrtGo n (Nat.log2 n / 2 + 1) 0

/-- exp(y) for a fixed-point y in [0, 1): the series to 128 terms. -/
def expFix (y : Nat) : Nat :=
  ((List.range 128).foldl (fun (p : Nat × Nat) i => (p.1 + p.2, p.2 * y / 2 ^ fixP / (i + 1))) (0, 2 ^ fixP)).1

/-- ln(n/d) for 1 ≤ n/d < 2, by 2 atanh((n-d)/(n+d)), 220 terms. -/
def lnFix (n d : Nat) : Nat :=
  let z := (n - d) * 2 ^ fixP / (n + d)
  let z2 := z * z / 2 ^ fixP
  2 * ((List.range 220).foldl (fun (p : Nat × Nat) i => (p.1 + p.2 / (2 * i + 1), p.2 * z2 / 2 ^ fixP)) (0, z)).1

/-- sin(t) for a fixed-point t in [0, 2): 64 terms of the series. -/
def sinFix (t : Nat) : Nat :=
  let t2 := t * t / 2 ^ fixP
  let r := (List.range 64).foldl
    (fun (p : Int × Nat) i =>
      (if i % 2 == 0 then p.1 + p.2 else p.1 - p.2, p.2 * t2 / 2 ^ fixP / ((2 * i + 2) * (2 * i + 3)))) ((0 : Int), t)
  r.1.toNat

/-- Round a fixed-point approximation y of an irrational result: the true value lies strictly between grid points and
midpoints, so half a unit more decides every direction alike (log 9). -/
def roundFix (mode : Nat) (sat neg : Bool) (y : Nat) : Nat := roundQ 0 mode sat neg (2 * y + 1) 1 (-(fixP : Int) - 1)

/-- VEXP2 (R162). -/
def fexp2 (mode : Nat) (sat : Bool) (x : Nat) : Nat :=
  match fdec 0 x with
  | .nan _ _ => quiet 0 x
  | .inf n => if n then 0 else finfCode 0
  | .fin n m e =>
    if m == 0 then 0x3F800000
    else if flog2 m 1 + e ≥ 9 then (if n then roundQ 0 mode sat false 1 1 (-1000) else roundQ 0 mode sat false 1 1 1000)
    else
      let fx := scaleQ m 1 (e + fixP)
      let v : Int := if n then -((fx.1 / fx.2 : Nat) : Int) else ((fx.1 / fx.2 : Nat) : Int)
      let k := v / (2 ^ fixP : Nat)
      let fr := (v % (2 ^ fixP : Nat)).toNat
      if fr == 0 then roundQ 0 mode sat false 1 1 k
      else roundQ 0 mode sat false (2 * expFix (fr * ln2Fix / 2 ^ fixP) + 1) 1 (k - fixP - 1)

/-- VLOG2 (R162). -/
def flog2F (mode : Nat) (sat : Bool) (x : Nat) : Nat :=
  match fdec 0 x with
  | .nan _ _ => quiet 0 x
  | .inf n => if n then genNan 0 7 else finfCode 0
  | .fin n m e =>
    if m == 0 then 0xFF800000
    else if n then genNan 0 7
    else
      let l := Nat.log2 m
      let k : Int := l + e
      if m == 2 ^ l then (if k == 0 then 0 else roundQ 0 mode sat (k < 0) k.natAbs 1 0)
      else
        let fr := lnFix m (2 ^ l) * 2 ^ fixP / ln2Fix
        let v : Int := k * (2 ^ fixP : Nat) + fr
        if v ≥ 0 then roundFix mode sat false v.toNat else roundFix mode sat true (v.natAbs - 1)

/-- VRCP (R162). -/
def frcp (mode : Nat) (sat : Bool) (x : Nat) : Nat :=
  match fdec 0 x with
  | .nan _ _ => quiet 0 x
  | .inf n => fsign 0 n
  | .fin n m e => if m == 0 then fsign 0 n + finfCode 0 else roundQ 0 mode sat n 1 m (-e)

/-- VRSQ (R162). -/
def frsq (mode : Nat) (sat : Bool) (x : Nat) : Nat :=
  match fdec 0 x with
  | .nan _ _ => quiet 0 x
  | .inf n => if n then genNan 0 7 else 0
  | .fin n m e =>
    if m == 0 then fsign 0 n + finfCode 0
    else if n then genNan 0 7
    else
      let m' := if e % 2 == 0 then m else 2 * m
      let h : Int := if e % 2 == 0 then e / 2 else (e - 1) / 2
      let r := isqrt m'
      if r * r == m' then roundQ 0 mode sat false 1 r (-h)
      else roundQ 0 mode sat false (2 * isqrt (2 ^ (2 * fixP) / m') + 1) 1 (-(fixP : Int) - 1 - h)

/-- sin(pi a) of a in half-turns reduced to fixed point: a mod 2 as a fraction of 2^640. -/
def halfTurns (neg : Bool) (m : Nat) (e : Int) : Nat :=
  let fx := scaleQ m 1 (e + fixP)
  let r := fx.1 / fx.2 % 2 ^ (fixP + 1)
  if neg then (2 ^ (fixP + 1) - r) % 2 ^ (fixP + 1) else r

/-- sin(pi u) for u in [0, 2) at 640 bits: sign and magnitude. -/
def sinTurn (u : Nat) : Bool × Nat :=
  let one := 2 ^ fixP
  let neg := u ≥ one
  let v := if neg then u - one else u
  let w := if 2 * v > one then one - v else v
  (neg, sinFix (w * piFix / one))

/-- VSIN (R162). -/
def fsin (mode : Nat) (sat : Bool) (x : Nat) : Nat :=
  match fdec 0 x with
  | .nan _ _ => quiet 0 x
  | .inf _ => genNan 0 7
  | .fin n m e =>
    let u := halfTurns n m e
    if u % 2 ^ fixP == 0 then fsign 0 n
    else if u == 2 ^ (fixP - 1) then 0x3F800000
    else if u == 3 * 2 ^ (fixP - 1) then 0xBF800000
    else let r := sinTurn u; roundFix mode sat r.1 r.2

/-- VCOS (R162). -/
def fcos (mode : Nat) (sat : Bool) (x : Nat) : Nat :=
  match fdec 0 x with
  | .nan _ _ => quiet 0 x
  | .inf _ => genNan 0 7
  | .fin n m e =>
    let u := (halfTurns n m e + 2 ^ (fixP - 1)) % 2 ^ (fixP + 1)
    if m == 0 then 0x3F800000
    else if u % 2 ^ fixP == 0 then 0
    else if u == 2 ^ (fixP - 1) then 0x3F800000
    else if u == 3 * 2 ^ (fixP - 1) then 0xBF800000
    else if flog2 m 1 + e < -40 then roundQ 0 mode sat false (2 ^ 60 - 1) 1 (-60)
    else let r := sinTurn u; roundFix mode sat r.1 r.2

/-! ### Elements in lanes and memory (R93) -/

/-- Elements per lane (R164). -/
def perLane (f : Nat) : Nat := match fBits f with | 32 => 1 | 16 => 2 | 4 => 8 | _ => 4
/-- Bits between elements in a lane (R93). -/
def laneStep (f : Nat) : Nat := 32 / perLane f
/-- Element i of a lane (R93). -/
def laneElt (f x i : Nat) : Nat := x / 2 ^ (laneStep f * i) % 2 ^ fBits f
/-- Replace element i of a lane; a 6-bit format clears the two bits above it (R93, R164). -/
def putElt (f x i v : Nat) : Nat :=
  let st := laneStep f
  x - (x / 2 ^ (st * i) % 2 ^ st) * 2 ^ (st * i) + v * 2 ^ (st * i)
/-- Element i of packed bytes held as one number (R93). -/
def memElt (f x i : Nat) : Nat := x / 2 ^ (fBits f * i) % 2 ^ fBits f

/-! ### Block sums (R104 to R106) and packed dots (R167) -/

/-- What a list of exact products comes to: a NaN cause, an infinity, or an exact sum at 2^e with its zero sign. -/
inductive PSum where
  | nan (cause : Nat)
  | inf (neg : Bool)
  | sum (v : Int) (e : Int) (allNegZero : Bool)
deriving DecidableEq, Repr

/-- Sum products exactly (R105, R167): the cases in their order. -/
def sumProducts (l : List (FVal × FVal)) : PSum :=
  if l.any (fun p => p.1.isNan || p.2.isNan) then .nan 1
  else
    let ps := l.map (fun p => fmulV p.1 p.2)
    if ps.any Option.isNone then .nan 4
    else
      let vs := ps.filterMap id
      let hasInf (n : Bool) : Bool := vs.any (fun v => v == .inf n)
      if hasInf true && hasInf false then .nan 3
      else if hasInf true then .inf true
      else if hasInf false then .inf false
      else
        let e0 := vs.foldl (fun a v => match v with | .fin _ m e => if m == 0 then a else min a e | _ => a) (0 : Int)
        .sum (vs.foldl (fun a v => match v with | .fin n m e => if m == 0 then a else a + atExp n m e e0 | _ => a) 0) e0
          (vs.all (fun v => match v with | .fin n m _ => n && m == 0 | _ => false))

/-- c + Q with one rounding (R104 step 3, R105, R167): the accumulator first. -/
def accum (mode : Nat) (sat : Bool) (c : Nat) (q : PSum) : Nat :=
  match fdec 0 c with
  | .nan _ _ => quiet 0 c
  | cv =>
    match q with
    | .nan k => genNan 0 k
    | .inf n => faddV 0 mode sat cv (.inf n)
    | .sum v e nz => faddV 0 mode sat cv (.fin (if v == 0 then nz else v < 0) v.natAbs e)

/-- One block of a matrix product (R104 to R106): scales as codes, elements decoded. NaN c is unchanged. -/
def blockAcc (c sa sb : Nat) (l : List (FVal × FVal)) : Nat :=
  match fdec 0 c with
  | .nan _ _ => c
  | _ =>
    if sa == 0xFF || sb == 0xFF then genNan 0 2
    else match sumProducts l with
      | .sum v e nz => accum 0 false c (.sum v (e + ((sa : Int) - 127) + ((sb : Int) - 127)) nz)
      | q => accum 0 false c q

/-- Element value of a matrix operand: INT8 on the floating path is i * 2^-6 (R92, R106). -/
def mxVal (f x : Nat) : FVal :=
  if f == 8 then (let v := sint 8 x; .fin (v < 0) v.natAbs (-6)) else fdec f x

/-- emax of an element format (R99). -/
def emaxOf (f : Nat) : Int := match f with | 3 => 8 | 4 => 15 | 5 => 4 | 6 => 2 | 7 => 2 | _ => 0

/-- Round lane value x / 2^E into an element format with saturate on; MXINT8 in units of 2^-6 (R99). -/
def mxElt (f mode : Nat) (x : Nat) (E : Int) : Nat :=
  match fdec 0 x with
  | .fin n m e =>
    if f == 8 then roundToInt 8 mode n m (e - E + 6)
    else roundV f mode true n m (e - E)
  | _ => 0

/-- Quantise lanes to one MX block: the scale and the elements (R99). -/
def mxBlock (f mode : Nat) (l : List Nat) : Nat × List Nat :=
  if l.any (fun x => match fdec 0 x with | .fin _ _ _ => false | _ => true) then (0xFF, l.map (fun _ => 0))
  else
    let m := l.foldl (fun a x => max a (x % 2 ^ 31)) 0
    match fdec 0 m with
    | .fin _ mm e =>
      if mm == 0 then (0, l.map (fun x => if f == 8 then 0 else fsign f (x ≥ 2 ^ 31)))
      else
        let E := max (flog2 mm 1 + e - emaxOf f) (-127)
        ((E + 127).toNat, l.map (fun x => mxElt f mode x E))
    | _ => (0xFF, [])

/-! ### Exact sums (R107 to R109) -/

/-- An exact add into (u, w, nan, +inf, -inf) (R108). -/
def exactAdd (u : Nat) (w : Int) (nan pinf ninf : Bool) (x : Nat) : Nat × Int × Bool × Bool × Bool :=
  match fdec 0 x with
  | .nan _ _ => (u, w, true, pinf, ninf)
  | .inf n => if n then (u, w, nan, pinf, true) else (u, w, nan, true, ninf)
  | .fin n m e =>
    let v := atExp n m e (-149)
    let s : Int := u + v
    if s ≥ (2 ^ 320 : Nat) then ((s - (2 ^ 320 : Nat)).toNat, w + 1, nan, pinf, ninf)
    else if s < 0 then ((s + (2 ^ 320 : Nat)).toNat, w - 1, nan, pinf, ninf)
    else (s.toNat, w, nan, pinf, ninf)

/-- The settled value (R109). -/
def exactSettle (u : Nat) (w : Int) (nan pinf ninf : Bool) : Nat :=
  if nan then genNan 0 1
  else if pinf && ninf then genNan 0 3
  else if pinf then finfCode 0
  else if ninf then 0xFF800000
  else roundI 0 0 false false (w * (2 ^ 320 : Nat) + u) (-149)

/-! ### Angle words (R110 to R112) -/

/-- A(i) (R111). -/
def angA : List Nat :=
  [53972150818, 31861621080, 16834805542, 8545610155, 4289387961, 2146785007,
   1073654455, 536859990, 268434091, 134217557, 67108843, 33554429,
   16777216, 8388608, 4194304, 2097152, 1048576, 524288,
   262144, 131072, 65536, 32768, 16384, 8192]
/-- H, P and T (R111). -/
def angH : Int := 107944301636
/-- pi * 2^36, rounded (R111). -/
def angP : Int := 215888603272
/-- 2 pi * 2^36, rounded (R111). -/
def angT : Int := 431777206545
/-- The identity word (R182). -/
def angId : Nat := 0x04000000

/-- Is an angle word malformed (R110)? -/
def angBad (w : Nat) : Bool := w / 2 ^ 27 != 0 || (w / 2 ^ 26 % 2 == 1 && w % 2 ^ 26 != 0)

/-- Bring theta into (-P, P]: at most four turns (R111). -/
def angWrap : Nat → Int → Int
  | 0, t => t
  | k + 1, t => if t > angP then angWrap k (t - angT) else if t ≤ -angP then angWrap k (t + angT) else t

/-- The radian view of an angle word (R111). -/
def angRad (w : Nat) : Nat :=
  if angBad w then genNan 0 5
  else if w / 2 ^ 26 % 2 == 1 then 0
  else
    let t := (List.range 24).foldl
      (fun (t : Int) i => if w / 2 ^ i % 2 == 0 then t + (angA.getD i 0 : Nat) else t - (angA.getD i 0 : Nat))
      ((w / 2 ^ 24 % 4 : Nat) * angH)
    roundI 0 0 false false (angWrap 8 t) (-36)

/-- An FP32 angle as an angle word (R112). -/
def angOf (x : Nat) : Nat :=
  match fdec 0 x with
  | .nan _ _ => angId
  | .inf _ => angId
  | .fin n m e =>
    -- t and 2 pi at 640 fraction bits; r in (-pi, pi]
    let fx := scaleQ m 1 (e + fixP)
    let two := 2 * piFix
    let k := (fx.1 / fx.2) / two
    -- 2 pi k to the precision of the reduction: t carries at most 128 integer bits
    let r0 : Int := ((fx.1 / fx.2 : Nat) : Int) - (k * two : Nat)
    let r1 := if r0 > piFix then r0 - two else r0
    let r := if n then -r1 else r1
    let z := (let q := rndInt 0 (r < 0) r.natAbs (2 ^ (fixP - 36)); if r < 0 then -(q : Int) else (q : Int))
    let a := z.natAbs
    let h := angH.toNat
    let nn : Int := if 2 * a ≤ h then 0 else if 2 * a ≤ 3 * h then 1 else 2
    let nq : Int := if z < 0 then -nn else nn
    let go := (List.range 24).foldl
      (fun (p : Int × Nat) i =>
        if p.1 < 0 then (p.1 + (angA.getD i 0 : Nat), p.2 + 2 ^ i) else (p.1 - (angA.getD i 0 : Nat), p.2))
      (z - nq * angH, 0)
    (nq % 4).toNat * 2 ^ 24 + go.2

end Sys2Proof.Machine
end

