-- ==== Sys2Proof/Machine/Map.lean ====
section
/-! DEFINITION. Sparse data by key: lists of key and value pairs with strictly rising keys. `sget` and `sset` keep a
default value out of the list, so equal contents are equal lists; `kget` and `kset` hold records that may be absent. -/

namespace Sys2Proof.Machine

/-- A sparse table with keys strictly rising. -/
abbrev Sparse (α : Type) := List (Nat × α)

/-- The value at key k, d where none is listed. -/
def sget {α : Type} (d : α) (k : Nat) : Sparse α → α
  | [] => d
  | (k', v) :: r => if k = k' then v else if k < k' then d else sget d k r

/-- Store v at key k; the default d is never listed. -/
def sset {α : Type} [DecidableEq α] (d : α) (k : Nat) (v : α) : Sparse α → Sparse α
  | [] => if v = d then [] else [(k, v)]
  | (k', v') :: r =>
    if k < k' then (if v = d then (k', v') :: r else (k, v) :: (k', v') :: r)
    else if k = k' then (if v = d then r else (k, v) :: r)
    else (k', v') :: sset d k v r

/-- Drop every key in [lo, lo+n). -/
def sdrop {α : Type} (lo n : Nat) (m : Sparse α) : Sparse α :=
  m.filter (fun p => p.1 < lo || lo + n ≤ p.1)

/-- The record at key k, if any. -/
def kget {α : Type} (k : Nat) : Sparse α → Option α
  | [] => none
  | (k', v) :: r => if k = k' then some v else if k < k' then none else kget k r

/-- Put a record at key k. -/
def kset {α : Type} (k : Nat) (v : α) : Sparse α → Sparse α
  | [] => [(k, v)]
  | (k', v') :: r =>
    if k < k' then (k, v) :: (k', v') :: r
    else if k = k' then (k, v) :: r
    else (k', v') :: kset k v r

/-- Remove the record at key k. -/
def kdel {α : Type} (k : Nat) (m : Sparse α) : Sparse α := m.filter (fun p => p.1 != k)

/-- Change the record at key k, where there is one. -/
def kmod {α : Type} (k : Nat) (f : α → α) (m : Sparse α) : Sparse α :=
  match kget k m with
  | some v => kset k (f v) m
  | none => m

/-- Keys strictly rising. -/
def srising {α : Type} : Sparse α → Bool
  | [] => true
  | [_] => true
  | (k, _) :: (k', v') :: r => decide (k < k') && srising ((k', v') :: r)

/-- The canonical form of a sparse table with default d: keys strictly rising and no entry equal to d. -/
def swf {α : Type} [DecidableEq α] (d : α) (m : Sparse α) : Bool :=
  srising m && m.all (fun p => decide (p.2 ≠ d))

/-- Set element i of a list, leaving it alone past its end. -/
def lset {α : Type} (i : Nat) (v : α) (l : List α) : List α := l.set i v

/-- Element i of a list, or d. -/
def lget {α : Type} (d : α) (i : Nat) (l : List α) : α := l.getD i d

/-- Insert by a strict order, after equal elements: stable. -/
def linsert {α : Type} (lt : α → α → Bool) (x : α) : List α → List α
  | [] => [x]
  | y :: r => if lt x y then x :: y :: r else y :: linsert lt x r

/-- Stable insertion sort. -/
def lsort {α : Type} (lt : α → α → Bool) (l : List α) : List α :=
  l.foldl (fun acc x => linsert lt x acc) []

/-- The least element of a list of numbers, or none. -/
def lmin (l : List Nat) : Option Nat :=
  l.foldl (fun acc x => match acc with | none => some x | some y => some (min x y)) none

end Sys2Proof.Machine
end

