-- ==== Sys2Proof/Machine/State.lean ====
section
/-! DEFINITION. The state of the package as plain data: what the inventories of the spec name (R115, R116, R207, R279,
R307, R329, R348, R370, R391, R407), the queues of pending work, and the model's own bookkeeping, which the assumption
log names. -/

namespace Sys2Proof.Machine

/-- No step of this model ends in a fault: every condition the spec calls a fault is a trap entry, an escalation or a
suspension, and so a next state. No definition raises the one constructor. Safe. -/
inductive Fault where
  | noSuchCore
deriving DecidableEq, Repr

/-- Reasons for having no meaning. The dispatch table would raise it for an instruction that is not modelled; none is left,
and no definition raises it. Safe. -/
inductive Refusal where
  | notModelled (mnemonic : String)
deriving DecidableEq, Repr

/-- The power states of a register or scratch bank (R117). -/
inductive BankSt where
  | bright | dim | dark
deriving DecidableEq, Repr

/-- One bank: its state, the clk in which a wake in progress completes, and its dirty flag (R117, R124). A waking bank
is held as dim with `wakeAt`. -/
structure Bank where
  st     : BankSt
  wakeAt : Option Nat
  dirty  : Bool
deriving DecidableEq, Repr

/-- A bank at group or launch start: DARK and clean (R115, R116). -/
def Bank.start : Bank := { st := .dark, wakeAt := none, dirty := false }

/-- Why a PC slot or role group does not issue. -/
inductive Wait where
  | none                       -- nothing
  | untilClk (c : Nat)         -- until the core's clk count reaches c
  | barrier                    -- the workgroup or gang barrier (R34, R353)
  | groupBar                   -- the two PC slots of a group (R353)
  | net (id : Nat)             -- a network barrier record (R356)
  | weave                      -- the weave barrier and communication phase (R354)
  | stepEnd                    -- the other role groups' STEPEND (R357)
  | page (token : Nat)         -- suspended on a not-present page (R219, R379)
  | drain (va acc slot : Nat)  -- to be suspended on the page of va once counter 0 is zero (R32): access, PC slot
  | stopped                    -- escalated (R378)
  | debug                      -- stopped by a debugger (R388)
  | saving                     -- stopped for a pre-emption or a JOIN (R380, R36)
  | ack (id : Nat)             -- a command that holds its stream until its effect is complete
deriving DecidableEq, Repr

/-- A PC slot (R30, R386): PC, mask, depth, `fmt` copy, the five delta bases, the first clk count of R71 at which the
next bundle issues, and what it waits for. -/
structure PcSlot where
  pc    : W32
  mask  : W32
  depth : Nat
  fmt   : W32
  bases : List Nat
  next  : Nat
  wait  : Wait
  kept  : Wait                            -- the wait that a handler's entry put aside (model's own)
  skip  : Bool                            -- YIELD: not in the next round (R150)
deriving DecidableEq, Repr

/-- An empty PC slot (R115). -/
def PcSlot.empty : PcSlot :=
  { pc := 0, mask := 0, depth := 0, fmt := 0, bases := [0, 0, 0, 0, 0], next := 0, wait := .none, kept := .none, skip := false }

/-- A per-lane fault record (R256, R386): kind 1 alignment, 2 range, 3 permission. -/
structure LaneRec where
  kind  : Nat
  later : Nat
  pc    : W32
  addr  : W64
deriving DecidableEq, Repr

/-- A fault or trap to be taken (R373, R374): cause, slot, field, detail words. -/
structure TrapInfo where
  cause : Nat
  slot  : Nat
  field : Nat
  d0    : Nat
  d1    : Nat
  d2    : Nat
  pc    : Option W32                      -- PC of the bundle when it is not the stream's next one (class A)
  strm  : Nat                             -- PC slot whose next bundle it waits for (class A and N, R68, R371)
deriving DecidableEq, Repr

/-- One write to registers of a group: what a result lands in (R71, R114). -/
inductive Wr where
  | s (r : Nat) (v : W64)                 -- a scalar register
  | p (r : Nat) (mask val : W32)          -- lanes of a predicate
  | m (key : Nat) (v : W32)               -- element 1024 m + 32 r + c of the matrix registers
  | w (r : Nat) (v : W64)                 -- a workgroup scalar
  | a (r : Nat) (v : BitVec 192)          -- a translation register
  | b (key : Nat) (v : Byte)              -- a byte of a scratch buffer: bank * 65,536 + offset
deriving DecidableEq, Repr

/-- A fixed-latency result in flight (R71): the pipe clk in which it lands, the pipe clk of its issue, its group and
slot, and what it writes. -/
structure InFlight where
  id     : Nat
  due    : Nat
  issued : Int                            -- in the freeze store: from the freeze, so not above 0 (R71, R376)
  gid    : Nat
  gix    : Nat                            -- group index or role-group number (R35, R54)
  slot   : Nat
  writes : List Wr
  dest   : Option Nat                     -- operand code of the view that a vector result goes to (R65, R386)
deriving DecidableEq, Repr

/-- A variable-latency landing (R258): a memory sector or a scalar answer; `due` is a clk count, `bad` marks an
uncorrectable error with its physical address and the PC of the load (R260), `ctr` the counter that falls. -/
structure Sector where
  id     : Nat
  due    : Nat
  gid    : Nat
  writes : List Wr
  pc     : W32
  pa     : Nat
  bad    : Bool
  ctr    : Option Nat
  slots  : Nat                            -- request slots it holds (R277)
  arr    : Nat                            -- clk of its arrival: results held for one wake land in this order (R119)
  fixed  : Bool                           -- a fixed-latency result or a store that waits for a wake (R117, R119)
  wall   : Nat                            -- ticks of the bridge still to come once `due` is reached (R13, R17)
  tick   : Nat                            -- the tick at which they are over
deriving DecidableEq, Repr

/-- A ray of TRACE: origin, direction, tmin and tmax as FP32 codes (R199). -/
structure Ray where
  o : List Nat
  d : List Nat
  tmin : Nat
  tmax : Nat
deriving DecidableEq, Repr

/-- A hit of TRACE: t, id, instance id, h3, h4 and status (R200). -/
structure Hit where
  t : Nat
  id : Nat
  inst : Nat
  a : Nat
  b : Nat
  status : Nat
deriving DecidableEq, Repr

/-- A node that a stopped traversal has yet to finish (R200, R201): the levels left below it, its tree, instance id and ray,
its bytes and the next child to visit. -/
structure TraceFrame where
  depth : Nat
  top   : Bool
  inst  : Nat
  ray   : Ray
  node  : List Byte
  next  : Nat
deriving DecidableEq, Repr

/-- How far the traversal of a lane has come: its best hit, the nodes it has yet to finish, innermost first (none: the root is
yet to be visited), and what it has ended in, its six words and whether it is pending. -/
structure TraceLane where
  j      : Nat
  best   : Option Hit
  frames : List TraceFrame
  out    : Option (List Nat × Bool)
deriving DecidableEq, Repr

/-- A parked traversal of TRACE (R201): token, root and flags, the rays of its lanes (eight words each), the lanes that
are pending, what the program has reported for each lane and its traversal has not used yet, and how far each lane has come. -/
structure Parked where
  token   : Nat
  root    : Nat
  flags   : Nat
  rays    : List (Nat × List W32)
  pending : W32
  reports : List (Nat × List (List W32))
  prog    : List TraceLane
deriving DecidableEq, Repr

/-- The caller of an inline child (R37): the group state that TASKEND returns to. -/
structure InlineFrame where
  slot0  : PcSlot
  slot1  : PcSlot
  dict   : Nat
  seg    : Nat
  pool   : Sparse W32
  top    : Nat
  unitIx : Nat                            -- unit of the child's grid that runs
  launch : Nat                            -- launch of the caller
deriving DecidableEq, Repr

/-- A command accepted by an engine: kind and operands, what it captured at issue, when it begins and completes. -/
structure Cmd where
  id    : Nat
  op    : Instr
  core  : Nat                             -- core that issued it
  gcore : Nat                             -- core of its group, which a save and restore move (R300, R305)
  gid   : Nat
  slot  : Nat                             -- PC slot that issued it (R68)
  args  : List Nat                        -- captured scalars
  act   : W32
  scope : Nat
  launch : Nat
  root  : Nat                             -- root of the page tables, privilege, launch identifier and base of the shared window
  priv  : Bool                            -- of its issuer: it runs on where its group has retired (R143; model's own)
  ident : Nat
  base  : Nat
  start : Nat
  due   : Nat
  bad   : Bool                            -- stopped, discarded or faulted
  data  : List W32                        -- captured vector operands
  page  : Option Nat                      -- TRACE: the page its traversal waits for (R200)
  ran   : Bool                            -- its effect has been applied (model's own)
  wall  : Nat                             -- ticks of the bridge still to come once `due` is reached: no throttle stretches them (R13, R17)
  tick  : Nat                             -- the tick at which they are over
  part  : Option (Nat × Nat)              -- COPY that waits behind another unit's command: the row and column it had reached (R276, R387)
  drop  : List Wr                         -- registers that a debugger has written since: its results leave them (R389)
deriving DecidableEq, Repr

/-- A group of a workgroup, or a role group of a gang (R29, R39, R115). -/
structure Group where
  uid      : Nat                          -- the unit it belongs to
  gix      : Nat                          -- group index or role-group number (R145 sel 0)
  role     : Role
  launch   : Nat
  sregs    : Sparse W64                   -- s0-s63
  pregs    : Sparse W32                   -- p1-p7
  aregs    : Sparse (BitVec 192)          -- a0-a15
  mat      : Sparse W32                   -- element (r, c) of m at 1024 m + 32 r + c
  banks    : List Bank                    -- one per bank of the budget
  badBanks : List Nat                     -- register banks with an uncorrectable error (R373)
  slot0    : PcSlot
  slot1    : PcSlot
  rlbl     : W32
  stackTop : Nat                          -- T (R140)
  inline   : List InlineFrame             -- the callers of the inline children it runs, innermost first
  inlineDepth : Nat                       -- the inline depth register (R37)
  inlineLimit : Nat
  ctrs     : List Nat                     -- outstanding counters 0-6 (R151)
  faultMask : W32
  laneRecs : Sparse LaneRec
  inHandler : Bool
  serving  : Bool                         -- the handler serves a class N fault (R371, model's own)
  dict     : Nat                          -- dictionary slot of the stream
  seg      : Nat                          -- code segment VA
  pool     : Sparse W32                   -- immediate pool (R330)
  deferred : List TrapInfo                -- class N faults, oldest first (R371)
  dataErr  : Option (W32 × Nat)           -- first load with an uncorrectable sector (R260)
  parked   : List Parked
  traces   : List Cmd                     -- TRACE commands put aside by a save (R380)
  halt     : Wait                         -- stops the whole group: page, stopped, debug, saving
  ended    : Bool                         -- EXIT or TASKEND has ended it
  stepDone : Bool                         -- has executed STEPEND for the step
  weaveArr : Bool                         -- has executed bar.weave for the superstep
  joined   : Bool                         -- has executed JOIN (R36)
  far      : List Bool                    -- per PC slot: accesses that leave the package since its last fence for them (R267, model's own)
  resume   : Nat                          -- resume PC written by a class A event
  privBase : Nat                          -- base of its private segment (R313)
deriving DecidableEq, Repr

/-- A copy channel (R274): its commands, write pointer, command number and place in the running command. -/
structure Channel where
  q       : List Cmd
  wp      : Nat
  cmdNo   : Nat                           -- number of the running command
  running : Bool
  row     : Nat
  col     : Nat
  nextAt  : Nat                           -- clk of the next progress
  stopped : Bool
  page    : Option Nat                    -- waits for this resume token
  held    : List Byte                     -- source bytes read with the unit of the last one written (R233)
  src     : Option (Nat × Nat × Nat)      -- the source page it has translated: page number, leaf, size (R226)
  dst     : Option (Nat × Nat × Nat)      -- the destination page
  sent    : Bool                          -- its remote raise is on its way (R13, R275)
  wall    : Nat                           -- ticks of the bridge before its next bytes, once `nextAt` is reached (R13, R17)
  tick    : Nat                           -- the tick at which they are over
deriving DecidableEq, Repr

/-- A copy channel at launch start (R348). -/
def Channel.start : Channel :=
  { q := [], wp := 0, cmdNo := 0, running := false, row := 0, col := 0, nextAt := 0, stopped := false, page := none,
    held := [], src := none, dst := none, sent := false, wall := 0, tick := 0 }

/-- An L1 or write-back line of 128 bytes (R207, R248): its bytes, dirty bytes, first-write clk and lease end. -/
structure Line where
  data  : List Byte
  dirty : List Bool
  since : Option Nat
  lease : Nat
  writers : List Nat                      -- launches that its dirty bytes are writes of (R52)
deriving DecidableEq, Repr

/-- A leaf or table entry held by a TLB (R226): under its page-table root, and in a core's TLB tagged by launch. -/
structure TlbEntry where
  launch : Nat                            -- 0 in a die's TLB
  root  : Nat
  vpage : Nat                             -- VA of the page
  size  : Nat                             -- 0, 1, 2: 64 KiB, 2 MiB, 1 GiB
  leaf  : Nat                             -- the 64-bit entry
deriving DecidableEq, Repr

/-- Why a translation fails (R219). -/
inductive XFault where
  | notPresent
  | malformed (level : Nat)
  | unmapped (pa : Nat)
  | data (pa : Nat)                       -- an uncorrectable error in a table entry (R207)
deriving DecidableEq, Repr

/-- What a walk ended in: a fault, or, where a TLBINV overtook it, a leaf that is not installed (R219, R347). -/
inductive WalkRes where
  | fault (f : XFault)
  | leaf (e size : Nat)
deriving DecidableEq, Repr

/-- The answer of a walk, kept until the party that asked for it has used it. -/
structure WalkFault where
  who  : Nat                              -- the party: a stream as group * 2 + PC slot, a copy channel as 2^40 + channel
  root : Nat
  va   : Nat                              -- at 64 KiB granularity
  f    : WalkRes
deriving DecidableEq, Repr

/-- A walk in progress or waiting at a die (R226). -/
structure Walk where
  id   : Nat
  reqs : List (Nat × Nat)                 -- who asks for the page: core and party
  root : Nat
  va   : Nat
  due  : Nat                              -- ticks
  stale : Bool                            -- a TLBINV reached the die after it began (R347)
deriving DecidableEq, Repr

/-- A reservation entry (R210): command, buffer (1 W, 2 A, 3 C), bank, mode (0 R, 1 W, 2 S). -/
structure Resv where
  cmd  : Nat
  buf  : Nat
  bank : Nat
  mode : Nat
deriving DecidableEq, Repr

/-- A row of the rotator (R177): 64 mantissas (or k), exponent, gain count. -/
structure Row where
  m : List Int
  e : Int
  g : Nat
deriving DecidableEq, Repr

/-- The rotator state of a tile (R184). -/
structure Rotator where
  rows     : List Row                     -- row r holds columns r to 63
  angles   : Sparse W32                   -- default the identity word
  deferred : Bool
  sticky   : Bool
  fed      : Nat
  firstBad : Nat
  dirty    : Bool
deriving DecidableEq, Repr

/-- The weight latch (R279, R288). -/
structure Latch where
  valid  : Bool
  fmt    : Nat
  scaled : Bool
  n1     : Nat
  nb     : Nat
  rows   : List (List Byte)
  scales : List (List Byte)
deriving DecidableEq, Repr

/-- A role queue of a gang (R307, R311): descriptor, head, poppable count and the clk at which reserved entries become
poppable, oldest first. -/
structure RoleQueue where
  desc  : Nat
  head  : Nat
  count : Nat
  coming : List (Nat × Nat × List Byte)   -- (clk, pushing group, bytes of the entry)
  freed : Nat × Nat                       -- (clk, entries popped in it): reusable from the next clk (R327)
deriving DecidableEq, Repr

/-- One TST transfer entry (R340). -/
structure TstEntry where
  at_  : Nat
  src  : Nat
  dst  : Nat
  bytes : Nat
  die  : Nat
  x : Nat
  y : Nat
  w : Nat
  h : Nat
deriving DecidableEq, Repr

/-- The TST store of a tile (R329, R339): how many directory rows are in use, the rows (first, count, L) and the entries; of the 64
rows and 512 entries those that are not listed are zero. -/
structure TstStore where
  used    : Nat
  dir     : List (Nat × Nat × Nat)
  entries : List TstEntry
deriving DecidableEq, Repr

/-- A unit of work resident on a core: a workgroup or a gang (R33, R39). -/
structure WUnit where
  launch   : Nat
  index    : Nat                          -- unit index in the grid
  gang     : Bool
  gids     : List Nat
  wregs    : Sparse W64                   -- w0-w31 (R116)
  arrived  : W32                          -- barrier word (R355)
  phase    : Bool
  barDue   : Option Nat                   -- clk in which a complete phase releases
  children : Nat                          -- child count (R307)
  shBase   : Nat                          -- shared window, in 16 KiB units (R212)
  shUnits  : Nat
  shBytes  : Nat
  shSt     : List Nat                     -- states of its shared units at its save (R125)
  t0       : Nat                          -- dispatch tick (R317)
  tq       : Nat                          -- ns from which it aged when it last waited (R316)
  preempt  : Bool                         -- a pre-emption has been requested
  forWhom  : Option (Nat × Nat)           -- the waiting unit that it is pre-empted for: launch and index (R317; model's own)
  joining  : Bool                         -- every group has executed JOIN (R36)
  home     : Nat                          -- key that its children name
  gpos     : Nat                          -- gang position in a weave (R313)
  bound    : Bool                         -- R351 binds it to this core
  weave    : Option Nat
  rings    : List Nat                     -- ring descriptors
  phases   : List Nat                     -- 64 phase bits per ring (R326)
  flips    : List (Nat × Nat)             -- phase bits flipped in the clk given: ring * 64 + slot (R326)
  queues   : List RoleQueue
  stepN    : Nat                          -- walker: step number
  idx      : List Nat
  stepClk  : Nat
  stepping : Bool                         -- between the start and the end of a step
  stepDue  : Option Nat                   -- clk in which the next step may start
  govHold  : Bool                         -- held for the governor's decision
  tst      : TstStore
  rotSaved : Bool                         -- its image holds rotator state (R124; model's own)
  latchTail : List Byte                   -- latch bytes that its image has no place for (log 74; model's own)
deriving DecidableEq, Repr

/-- A tile or a shader core with everything it holds (R20, R22, R116, R207, R279, R348). -/
structure Core where
  clk     : Nat                           -- clk count since reset (R145 sel 7, log 34)
  pclk    : Nat                           -- clk counts of R71, frozen under R72
  eclk    : Nat                           -- engine clk, frozen in stall clk (R396)
  edge    : Nat                           -- tick of its next clk
  rr      : List Nat                      -- round-robin place per partition (R54)
  issued  : List Nat                      -- partitions that issued in this clk
  issuing : Bool                          -- streams may issue in this clk: it is neither a stall nor a replay clk (R396, R397)
  groups  : Sparse Group
  units   : Sparse WUnit
  left    : Option (WUnit × List (Nat × Group)) -- the unit that retired last, as it left, until another starts (R423, model's own record)
  inflight : List InFlight
  sectors : List Sector
  badBuf  : List Nat                      -- 8-byte units of the buffers with an uncorrectable error, as key/8 (R207)
  badL1   : List Nat                      -- 8-byte units of the core's own copies with one, as PA/8
  scratch : Sparse Bank                   -- banks: W 0-79, A 80-119, C 120-127, shared 128-133; default start
  buf     : Sparse Byte                   -- contents: 65,536 per bank, in the same order
  lines   : Sparse Line                   -- L1 or write-back path, by PA/128
  sems    : Sparse Nat                    -- semaphores 0-63
  waiters : List (Nat × Nat × Nat × W32)  -- (semaphore, group, PC slot, PC) in order of arrival (R351)
  chans   : Sparse Channel
  tlb     : List TlbEntry
  walkF   : List WalkFault
  dcache  : Sparse (List Byte)            -- dictionary cache: slot * 65536 + index
  dwait   : List (Nat × Nat × Nat)        -- fills in progress: key, due clk, and the tick at which their way over the bridge is over
  arrayQ  : List Cmd
  drainQ  : List Cmd
  rotQ    : List Cmd
  gfxQ    : List Cmd
  arrayB  : Nat                           -- b(n)+S(n) of the array queue (R289), in eclk
  drainB  : Nat
  rotB    : Nat
  lastMxld : Option Latch                 -- descriptor of the most recently accepted MXLD (R285)
  gather  : Option (Nat × W32 × Nat)      -- MMAG in its hold: group, PC, engine clk at which its list is read (R287, R290)
  resv    : List Resv
  latch   : Latch
  rot     : Rotator
  freeze  : List InFlight                 -- freeze store: `due` holds the remaining clk (R376)
  frozen  : Option Nat                    -- role group in a handler, or 255 for a stopped gang
  frozenClk : Nat                         -- pipe clk of the freeze (R376)
  energy  : List Nat                      -- the charges of the last 1,024 clk, newest first (R363)
  esum    : Nat
  carry   : Nat                           -- c of R393
  wakes   : Nat                           -- charge of the wakes started in this clk
  weight  : Nat                           -- weights of the bundles issued in this clk
  stalls  : Nat                           -- inserted stall bundles (R363)
  replays : Nat                           -- timing-error replays (R364)
  redo    : Sparse Nat                    -- issue paths that execute a bundle again in this clk: its replays in succession (R398)
  hits    : Sparse Nat                    -- those that will, after the replay clk
  replayLeft : Nat                        -- clk to come up to that one, which is the last of them (R397)
  perf    : Sparse Nat                    -- performance counters 0-7
  perfClk : Sparse Nat                    -- what each has counted in this clk (R369)
  temp    : Nat                           -- temperature band (R402)
  droops  : List Bool                     -- the last 100 samples
  accepts : List (Nat × Nat × Nat × Nat)  -- queue acceptances: (launch, group, due clk, status register + 1 or 0)
deriving DecidableEq, Repr

/-- A role record of an LPB (R310). -/
structure RoleRec where
  seg    : Nat
  entry  : Nat
  budget : Nat
  count  : Nat
  role   : Nat
  dict   : Nat
deriving DecidableEq, Repr

/-- The fields of a validated LPB (R308, R309). -/
structure Lpb where
  va : Nat
  pa : Nat
  kind : Nat
  prio : Nat
  cls : Nat
  scoreboard : Bool
  recordMode : Bool
  spill : Bool
  inlineLimit : Nat
  msix : Bool
  vector : Nat
  grid : Nat
  ident : Nat
  root : Nat
  param : Nat
  sigVa : Nat
  sigVal : Nat
  privBase : Nat
  privBytes : Nat
  stackBytes : Nat
  ovfVa : Nat
  ovfEntries : Nat
  shBytes : Nat
  topbVa : Nat
  edgeVa : Nat
  quadsW : Nat
  quadsH : Nat
  dies : Nat
  waitCount : Nat
  roles : List RoleRec
  rings : List Nat
  queues : List Nat
deriving DecidableEq, Repr

/-- The fields of a validated TOPB (R336), with its drop table (R338). -/
structure Topb where
  levels : Nat
  restart : Bool
  recomp : Nat
  governed : Bool
  trips : List Nat
  entries : List Nat
  bases : List Nat
  strides : List (List Int)
  outBase : Nat
  outBytes : Nat
  drop : List Nat
  period : Nat
  deadline : Nat
deriving DecidableEq, Repr

/-- One edge of an edge region list (R346). -/
structure Edge where
  consumer : Nat
  scope : Nat
  regions : List (Nat × Nat)
deriving DecidableEq, Repr

/-- A unit that was pre-empted or joined and waits to be restored (R315, R317, R36): the gangs of a weave one by one.
`groups` holds, under the key that their counter-4 commands carry meanwhile, what no image holds. -/
structure Saved where
  index : Nat
  t0    : Nat
  cores : List Nat                        -- where it was saved from
  bound : Bool                            -- R351: only these cores
  joined : Bool                           -- waits for its children (R36)
  units : List WUnit
  groups : List (Nat × Group)
  chans : List (Sparse Channel)           -- stopped channels, per unit (R381)
  freezes : List (List InFlight)          -- freeze stores, per unit (R376)
  weave : Option (Nat × Nat)              -- step counter and width in tiles of a weave
deriving DecidableEq, Repr

/-- A launch (R315, R359): its LPB, TOPB and counters. -/
structure Launch where
  lpb     : Lpb
  topb    : Option Topb
  edges   : List Edge
  level   : Nat
  queue   : Nat                           -- launch-queue number, 64 for a device-issued launch
  t0      : Nat
  nextUnit : Nat
  back    : List Nat                      -- units dispatched to a quad that closed before they started: they wait again (R345)
  retired : Nat
  lastStep : Option Nat                   -- step counter of its last weave that has retired (R437, model's own record)
  target  : Nat
  waits   : Nat
  saved   : List Saved
  parent  : Option Nat                    -- FORK child: the parent unit's home key
  forkDie : Option Nat                    -- its entry stands in this die's fork queue
  inOvf   : Bool                          -- its entry stands in the overflow area
  spawnOf : Option Nat                    -- SPAWN: counted in this launch
  issuer  : Nat                           -- VA of the issuer's LPB (s54)
  started : Bool
  queued  : Bool                          -- holds its task-queue or fork-queue entries
  ending  : Bool                          -- retired counter has reached its target
  cancel  : Option (List Nat × Nat × Nat) -- cancelled, while array, drain or rotator commands run on: every launch that ends with it (none
                                          -- for one that ends with another), the reason, its units that had not retired (R390)
  weave   : Option Nat
  governor : Bool
deriving DecidableEq, Repr

/-- A TST transfer in flight (R342). -/
structure Transfer where
  id    : Nat
  core  : Nat
  entry : TstEntry
  dests : List Nat
  clks  : Nat                             -- clk of the reference tile at which its clk parts end
  wall  : Nat                             -- ticks of its bridge crossings
  land  : Option Nat                      -- tick of its landing, once its clk parts have ended
  data  : List Byte
deriving DecidableEq, Repr

/-- A weave (R48, R49). -/
structure Weave where
  launch : Nat
  tiles  : List Nat                       -- cores, ascending
  origins : List (Nat × Nat × Nat)        -- (die, x, y) per weave die
  w      : Nat                            -- tiles wide and high
  h      : Nat
  step   : Nat                            -- step counter
  arrived : List Nat                      -- tiles that have arrived
  comm   : Option Nat                     -- clk 0 of the communication phase, in clk of the first tile
  lastLand : Nat                          -- tick of the last landing
  len    : Nat                            -- L of the phase
  flying : List Transfer
  toStart : List (Nat × Nat × Nat)        -- (offset clk, core, entry index)
deriving DecidableEq, Repr

/-- A network barrier record (R356). -/
structure NetBar where
  launch : Nat
  scope  : Nat
  inst   : Nat
  b      : Nat
  count  : Nat
  arrived : List (Nat × Nat × Nat)        -- (core, group, PC slot)
  dies   : List Nat
  due    : Option Nat                     -- tick of completion
deriving DecidableEq, Repr

/-- A frame governor (R360, R361). -/
structure Gov where
  frame   : Nat
  start   : Nat
  stepAt  : Nat                           -- start of the current step, ns
  endAt   : Nat                           -- launch-wide end of the step, ns
  longest : Nat
  m       : Nat
  misses  : Nat
  last    : Nat
  begun   : Bool
  ends    : List Nat                      -- units that have ended the current step
  step    : Nat                           -- step whose end is awaited
  due     : Option Nat                    -- tick of the decision
deriving DecidableEq, Repr

/-- A statistics set (R365). -/
structure Stats where
  prims : Nat
  culled : Nat
  samples : Nat
  snap : Option (Nat × Nat × Nat)
deriving DecidableEq, Repr

/-- An exact-sum line (R107). -/
structure ExactLine where
  u : Nat
  w : Int
  nan : Bool
  pinf : Bool
  ninf : Bool
deriving DecidableEq, Repr

/-- An entered entry of an ordered region (R303). -/
structure OrdEntry where
  q : Nat
  mask : Nat
  cmd : Nat
deriving DecidableEq, Repr

/-- A region state of an order unit (R303). -/
structure Region where
  launch : Nat
  r : Nat
  e : Nat
  window : List OrdEntry
deriving DecidableEq, Repr

/-- An order unit (R279): regions, commands waiting to enter, commands that have entered and wait. -/
structure OrderUnit where
  regions : List Region
  toEnter : List Cmd
  entered : List Cmd
deriving DecidableEq, Repr

/-- A quad's power and margin (R391). -/
inductive QPower where
  | on | hold (end_ : Nat) | off | waking (ready : Nat)
deriving DecidableEq, Repr

/-- Margin of a quad: nominal, reduced, or moving to one of them at a tick (R398). -/
inductive Margin where
  | nominal | reduced | toNominal (at_ : Nat) | toReduced (at_ : Nat)
deriving DecidableEq, Repr

/-- A quad (R391). -/
structure Quad where
  power  : QPower
  cls    : Nat
  margin : Margin
  nominalUntil : Option Nat               -- end of the 10 ms period
  moving : Option (Nat × Option Nat)      -- class.mv: target pool and the tick of its join
  first  : Bool                           -- its first unit has started
deriving DecidableEq, Repr

/-- A launch queue's descriptor registers (R407). -/
structure LQueue where
  base : Nat
  n : Nat
  enable : Bool
  fed : Bool
  error : Bool
  head : Nat
  tail : Nat
  void : List Nat                         -- indexes of standing entries that a cancellation has dropped (R307, R390)
deriving DecidableEq, Repr

/-- A launch queue at reset: disabled (R307). -/
def LQueue.start : LQueue :=
  { base := 0, n := 0, enable := false, fed := false, error := false, head := 0, tail := 0, void := [] }

/-- A trap vector (R370). -/
structure TrapVec where
  dict : Nat
  enable : Bool
  entry : Nat
deriving DecidableEq, Repr

/-- A service-queue entry (R379). -/
structure Service where
  kind : Nat
  cause : Nat
  die : Nat
  core : Nat
  gid : Nat
  slot : Nat
  ident : Nat
  va : Nat
  access : Nat
  token : Nat
deriving DecidableEq, Repr

/-- An installed dictionary (R334). -/
structure Dict where
  va : Nat
  frames : List Nat                       -- physical address of each 256 bytes of the image
  count : Nat
  segLen : Nat
  tile : Bool
  role : Nat
  priv : Bool
  pool : List W32
deriving DecidableEq, Repr

/-- A row of the operating class table (R344). -/
structure ClassRow where
  granted : Bool
  mhz : Nat
  mv : Nat
  grant : Nat
  profile : Nat
  k : Nat
deriving DecidableEq, Repr

/-- What the board and the die set are (R1, R3, R415): the model's own record of what boot finds. -/
structure Board where
  form : Nat
  fwVersion : Nat
  fwMin : Nat
  fwGood : Bool                           -- the signature verifies (R413)
  pkg : Nat                               -- package number (R411)
  columns : List Nat                      -- failed physical columns of tensor dies 0-7
  shaders : List Nat                      -- failed shader cores, as die*256+core
  channels : List Nat                     -- working channels of boundaries 0-12 at boot
  stackL : List Nat                       -- L of stacks 0-15 (R415)
  lpddr : Nat                             -- bytes fitted
  cxl : List Nat                          -- bytes fitted per port
  pods : Sparse (Nat × Nat)               -- HBM4E and LPDDR6 bytes of other packages of the pod; unlisted: 1 TiB, none (log 8)
  power : Nat                             -- power limit, W
  rows : List ClassRow                    -- board configuration of the class table
  quadCls : List Nat                      -- pools of shader quads, then tensor quads: class per die
  serviced : Nat
deriving DecidableEq, Repr

/-- The fast throttle (R399, R400). -/
inductive Throttle where
  | off | held | holding (end_ : Nat)
deriving DecidableEq, Repr

/-- What an issue in progress knows: the stream, its bundle's header, tail and length, and what was latched (R71). -/
structure Cur where
  core : Nat
  gid  : Nat
  slot : Nat
  hdr  : Nat
  tail : Nat
  len  : Nat
  idx  : Nat                              -- dictionary index, 0xFFFF for a literal (R78)
  imgs : List Nat                         -- effective images of the five slots (R68); empty for a lone instruction
  views : List (Nat × Nat)                -- slots with the operand codes of the views that their results go to (R386)
  hand : Option (Nat × Nat)               -- QUOTA's hand-over, receiver and banks, to be made after the tail (R149)
  pops : List (Nat × List W32)            -- rows popped: slot*4 + queue, elements (R156)
deriving DecidableEq, Repr

/-- A remote semaphore raise in transit (R350). -/
structure Raise where
  id : Nat
  core : Nat
  n : Nat
  a : Nat
  due : Nat                               -- tick at which its clk parts end
  wall : Nat                              -- ticks of the bridge still to come then (R13, R17)
  tick : Nat                              -- the tick at which they are over
deriving DecidableEq, Repr

/-- A unit that the dispatcher has chosen for cores whose quads are not all ON (R403, R404). -/
structure Pend where
  launch : Nat
  index : Nat
  saved : Option Saved
  cores : List Nat
deriving DecidableEq, Repr

/-- A suspended party: what a resume token names (R379). -/
inductive Party where
  | group (core gid slot : Nat)
  | chan (core ch : Nat)
  | sort (engine id : Nat)
  | gfx (core id : Nat)
deriving DecidableEq, Repr

/-- A bridge channel that is not whole (R15): failed lanes and the tick at which retraining ends. -/
structure BridgeCh where
  failed : Nat
  until_ : Option Nat
deriving DecidableEq, Repr

/-- A debugger step or stop under way (R388). -/
structure DebugStop where
  core : Nat
  gid : Nat
  stepping : Bool
  reported : Bool
deriving DecidableEq, Repr

/-- The state of the package. -/
structure State where
  now     : Nat                           -- wall time in ticks of 1/4,048 ns
  bootAt  : Nat                           -- tick of the last boot (R145 sels 7 and 8)
  agenda  : List Instr                    -- events of this instant, in order
  inputs  : Sparse Instr                  -- what the outside world will do, by tick (model's own)
  hostWrites : Sparse (List (Nat × Byte)) -- what host processors will write to their own memory, by tick: PA, byte (R244; model's own)
  cur     : Cur
  free    : Nat                           -- counter of free values (model's own)
  fresh   : Nat                           -- counter of identifiers (model's own)
  cores   : Sparse Core                   -- key die*256 + index; cores that were ever powered or sampled
  mem     : List Host.Cell                -- physical memory at its homes
  badMem  : List Nat                      -- 32-byte sectors with an uncorrectable error, as PA/32
  badL2   : List Nat                      -- 8-byte units of home slices with one, as PA/8
  hostL2  : Sparse (List Byte)            -- copies of host lines in home slices (R244)
  exact   : Sparse ExactLine              -- open exact-sum lines, by PA of the word
  dieTlb  : Sparse (List TlbEntry)        -- leaves, per die
  dieTab  : Sparse (List TlbEntry)        -- table entries, per die: size 1 an L1 entry, 2 an L2 entry (R226)
  walks   : Sparse (List Walk)            -- per die: up to 32 running, the rest waiting
  launches : Sparse Launch                -- every launch in the task or fork queues
  past    : Sparse Launch                 -- the last that has ended under each launch identifier, with its counts (R423, model's own record)
  weaves  : Sparse Weave
  nets    : Sparse NetBar
  raises  : List Raise
  sortQ   : Sparse (List Cmd)             -- sort engines, by raster die index*32 + quad
  sortPage : Sparse Nat                   -- engines that wait for a resume token
  sortPos : Sparse (Nat × Nat)            -- of the running MERGE: records written, and how many of them run A gave (R299)
  orders  : Sparse OrderUnit
  govs    : Sparse Gov                    -- by launch
  stats   : Sparse Stats                  -- by launch identifier
  lostEv  : Nat
  ovf     : Sparse (List Nat)             -- per launch: launches whose entries stand in its overflow area
  ovfHead : Sparse Nat
  decs    : List Nat                      -- wait-count decrements for consumers not yet placed, by LPB VA
  tokens  : Sparse Party
  dicts   : Sparse Dict
  segs    : Sparse Nat                    -- loader's record: code segment VA placed with a dictionary slot (model's own, log 14)
  pending : List Pend                     -- units chosen for cores whose quads wake (R404)
  classes : List ClassRow
  ptrs    : Sparse Nat                    -- placement pointers: class*2 + kind
  quads   : Sparse Quad                   -- die*64 + quad
  inrush  : Sparse (List Nat)             -- per die: quads waiting
  inrushAt : Sparse Nat                   -- per die: tick at which the arbiter is free again
  throttle : Throttle
  alarms  : List Bool                     -- external, current, droop, temperature
  bridge  : Sparse BridgeCh               -- boundary*128 + dir*64 + ch
  podLanes : Sparse Nat                   -- failed lanes per pod port
  podMask : List Nat                      -- packages that cannot be reached (R412)
  -- management registers (R407)
  bootstat : Nat
  ident   : Nat
  winbase : Nat
  degrade : List Byte
  lqs     : Sparse LQueue
  vectors : List TrapVec
  svcBase : Nat
  svcCount : Nat
  svcHead : Nat
  svcTail : Nat
  svcHeld : List Service
  resumeReg : Nat
  cancelReg : Nat
  thrhold : Nat
  curlim  : Nat
  drooplim : Nat
  templim : Nat
  almcount : Nat
  perfsel : Sparse Nat                    -- per core: the 64-bit register
  dbgTarget : Nat
  dbgCmd  : Nat
  dbg     : List DebugStop
  mailbox : Sparse Byte
  attest  : Option (Nat × List Byte)      -- a running report: tick of its end, nonce
  msix    : List Nat                      -- messages raised, oldest first
  msixTab : Sparse Nat                    -- MSI-X table: 8-byte words, the mask of a vector inverted (R405, log 80)
  msixPend : List Nat                     -- pending-bit array: vectors raised while masked (R405)
  hostData : List Byte                    -- data of the last host read
  pushWait : List (Nat × Nat × Nat × Nat) -- QPUSH.t held for a full queue: (launch queue, core, group, LPB PA)
  bootCount : Nat
  board   : Board
deriving DecidableEq, Repr

/-- A tile's rotator at start: zero rows, identity angles, immediate gain (R116, R184). -/
def Rotator.start : Rotator :=
  { rows := [], angles := [], deferred := false, sticky := false, fed := 0, firstBad := 0xFFFF, dirty := false }

/-- An empty weight latch (R279). -/
def Latch.start : Latch := { valid := false, fmt := 0, scaled := false, n1 := 0, nb := 0, rows := [], scales := [] }

/-- A core as its quad powers up: every bank DARK, caches empty (R403, R404, R116). -/
def Core.start (edge : Nat) : Core :=
  { clk := 0, pclk := 0, eclk := 0, edge := edge, rr := [0, 0, 0, 0], issued := [], issuing := false, groups := [], units := [], left := none,
    inflight := [], sectors := [], badBuf := [], badL1 := [], scratch := [], buf := [], lines := [], sems := [], waiters := [],
    chans := [], tlb := [], walkF := [], dcache := [], dwait := [], arrayQ := [], drainQ := [],
    rotQ := [], gfxQ := [], arrayB := 0, drainB := 0, rotB := 0, lastMxld := none, gather := none, resv := [],
    latch := Latch.start, rot := Rotator.start, freeze := [], frozen := none, frozenClk := 0, energy := [],
    esum := 0, carry := 0, wakes := 0, weight := 0, stalls := 0, replays := 0, redo := [], hits := [], replayLeft := 0,
    perf := [], perfClk := [], temp := 0, droops := [], accepts := [] }

/-- The board that boot finds in this model (log 8): a whole FS-8200-P, firmware that verifies. -/
def Board.default : Board :=
  { form := 0, fwVersion := 1, fwMin := 1, fwGood := true, pkg := 0, columns := [0, 0, 0, 0, 0, 0, 0, 0],
    shaders := [], channels := [48, 48, 48, 48, 48, 48, 48, 48, 48, 48, 48, 48, 48],
    stackL := [0, 0, 0, 0, 0, 0, 0, 0, 0, 0, 0, 0, 0, 0, 0, 0], lpddr := 0, cxl := [0, 0, 0, 0], pods := [], power := 5200,
    rows := [{ granted := true, mhz := 550, mv := 0, grant := 4600, profile := 614400, k := 14 },
             { granted := true, mhz := 800, mv := 0, grant := 4600, profile := 614400, k := 14 },
             { granted := true, mhz := 1000, mv := 0, grant := 4600, profile := 614400, k := 14 },
             { granted := true, mhz := 1150, mv := 0, grant := 5200, profile := 614400, k := 14 }],
    quadCls := [2, 2, 2, 2, 2, 2, 2, 2, 2, 2], serviced := 0 }

/-- No issue in progress. -/
def Cur.none : Cur := { core := 0, gid := 0, slot := 0, hdr := 0, tail := 0, len := 2, idx := 0xFFFF, imgs := [], views := [], hand := Option.none, pops := [] }

/-- A quad as reset and boot leave it (R391). -/
def Quad.start (cls : Nat) : Quad :=
  { power := .off, cls := cls, margin := .nominal, nominalUntil := none, moving := none, first := false }
/-- The quads of the package at reset, in the pool of class 2 (R391; the pool is firmware's: log 8). -/
def State.resetQuads : Sparse Quad :=
  (List.range 10).flatMap (fun d => (List.range (if d == 2 || d == 7 then 32 else 36)).map (fun q => (d * 64 + q, Quad.start 2)))

/-- The package right after reset (R413, R307, R348, R370, R391, R407): BOOTSTAT 0, everything empty, the boot
sequence about to run. -/
def State.reset : State :=
  { now := 0, bootAt := 0, agenda := [.resetBoot], inputs := [], hostWrites := [], cur := Cur.none, free := 0, fresh := 1, cores := [], mem := [],
    badMem := [], badL2 := [], hostL2 := [], exact := [], dieTlb := [], dieTab := [], walks := [], launches := [], past := [], weaves := [], nets := [],
    raises := [], sortQ := [], sortPage := [], sortPos := [], orders := [], govs := [], stats := [], lostEv := 0,
    ovf := [], ovfHead := [], decs := [], tokens := [], dicts := [], segs := [], pending := [], classes := [], ptrs := [],
    quads := State.resetQuads, inrush := [], inrushAt := [], throttle := .off, alarms := [false, false, false, false],
    bridge := [], podLanes := [], podMask := [], bootstat := 0, ident := 0, winbase := 0, degrade := List.replicate 64 0, lqs := [],
    vectors := [], svcBase := 0, svcCount := 0, svcHead := 0, svcTail := 0, svcHeld := [], resumeReg := 0,
    cancelReg := 0, thrhold := 100, curlim := 0, drooplim := 12, templim := 105, almcount := 0, perfsel := [],
    dbgTarget := 0, dbgCmd := 0, dbg := [], mailbox := [], attest := none, msix := [], msixTab := [], msixPend := [], hostData := [],
    pushWait := [], bootCount := 0, board := Board.default }

end Sys2Proof.Machine
end

