-- ==== Sys2Proof/Machine/Base.lean ====
section
/-! DEFINITION. Places and clocks of the package (R11, R13, R19, R26), access to cores and groups, the register
accessors (R65, R66, R113, R115, R127), bank states (R117 to R119), and how a result is sent on its way (R71). -/

namespace Sys2Proof.Machine

/-! ### Places (R11, R12, R13, R19) -/

/-- Is a die a raster die (R11)? -/
def rasterDie (d : Nat) : Bool := d == 2 || d == 7
/-- Kind index of a die (R11). -/
def kindIx (d : Nat) : Nat := if d == 2 then 0 else if d == 7 then 1 else d - (if d > 7 then 2 else if d > 2 then 1 else 0)
/-- The die of tensor die i (R11, R214). -/
def tensorDie (i : Nat) : Nat := [0, 1, 3, 4, 5, 6, 8, 9].getD i 0
/-- Cores of a die (R18, R21). -/
def dieCores (d : Nat) : Nat := if rasterDie d then 128 else 144
/-- Quads of a die (R18, R21). -/
def dieQuads (d : Nat) : Nat := if rasterDie d then 32 else 36
/-- The die of a core key. -/
def coreDie (c : Nat) : Nat := c / 256
/-- The index of a core key in its die. -/
def coreIx (c : Nat) : Nat := c % 256
/-- Is a core a shader core? -/
def isShader (c : Nat) : Bool := rasterDie (coreDie c)
/-- Quad number in the die (R19, R21). -/
def coreQuad (c : Nat) : Nat :=
  let i := coreIx c
  if isShader c then i / 4 else (i / 12 / 2) * 6 + i % 12 / 2
/-- Key of a core's quad. -/
def quadKey (c : Nat) : Nat := coreDie c * 64 + coreQuad c
/-- Absolute difference. -/
def adiff (a b : Nat) : Nat := (a - b) + (b - a)
/-- Bridge crossings between dies (R13). -/
def crossings (a b : Nat) : Nat := adiff (a % 5) (b % 5) + adiff (a / 5) (b / 5)
/-- Mesh hops between tiles of one die (R19). -/
def hops (a b : Nat) : Nat := adiff (a % 12) (b % 12) + adiff (a / 12) (b / 12)

/-- Mesh hops of a route between two cores: on one die the distance; across dies the hops to the edge that faces the
first die of the route and from the edge entered (R342). The spec does not say which edges of the mesh of cores face which
neighbouring die, nor where a shader core lies in its die: column 11 faces the next die column, row 11 faces die row 1, and a
core of index i stands at (i mod 12, i div 12) on either kind of die. DESIGN CHOICE, log 63. -/
def routeHops (ca cb : Nat) : Nat :=
  let da := coreDie ca
  let db := coreDie cb
  let a := coreIx ca
  let b := coreIx cb
  if da == db then hops a b
  else
    let ax := a % 12
    let ay := a / 12
    let dc := da % 5 != db % 5
    -- leaving: along the row first, else across rows
    let out := if dc then (if db % 5 > da % 5 then 11 - ax else ax) else (if db / 5 > da / 5 then 11 - ay else ay)
    -- the tile at which traffic enters the destination die
    let rowCross := da / 5 != db / 5
    let exitX := if db % 5 > da % 5 then 11 else 0
    let enter : Nat × Nat :=
      if rowCross then
        (if dc then (if db % 5 > da % 5 then 0 else 11) else ax, if db / 5 > da / 5 then 0 else 11)
      else (if exitX == 11 then 0 else 11, ay)
    out + adiff enter.1 (b % 12) + adiff enter.2 (b / 12)

/-- The boundaries of the route between two dies, with their directions: 0 toward the higher die number (R12, R13). -/
def routeOf (a b : Nat) : List (Nat × Nat) :=
  let r := a / 5
  let lo := min (a % 5) (b % 5)
  let dir := if a % 5 < b % 5 then 0 else 1
  (List.range (adiff (a % 5) (b % 5))).map (fun i => ((if r = 0 then 0 else 4) + lo + i, dir)) ++
    (if r = b / 5 then [] else [(8 + b % 5, if r < b / 5 then 0 else 1)])

/-! ### Time (R9, R26, R391, R400) -/

/-- Ticks per ns. -/
def tickNs : Nat := 4048
/-- Ticks of one clk at a class (R344 clocks: 550, 800, 1,000, 1,150 MHz). -/
def clsTicks (c : Nat) : Nat := match c with | 0 => 7360 | 1 => 5060 | 2 => 4048 | _ => 3520
/-- Wall time since boot, in ns (R145 sel 8): the dispatcher time of R316. -/
def State.ns (s : State) : Nat := (s.now - s.bootAt) / tickNs
/-- The operating class of a core's quad. -/
def State.clsOf (s : State) (c : Nat) : Nat := ((kget (quadKey c) s.quads).map Quad.cls).getD 2
/-- Ticks of one clk of a core now: four times as long under the fast throttle (R399). -/
def State.period (s : State) (c : Nat) : Nat :=
  clsTicks (s.clsOf c) * (if s.throttle == .off then 1 else 4)

/-- The edge that follows a tick: the edges of a clock of period p are the multiples of p, so that the cores of one class have
their edges in common (R399, log 34). -/
def nextEdge (p t : Nat) : Nat := (t / p + 1) * p

/-! ### Access -/

/-- The core of a key, or a core at its start. -/
def State.core (s : State) (c : Nat) : Core := (kget c s.cores).getD (Core.start 0)
/-- Change the core of a key, where it exists. -/
def State.modCore (s : State) (c : Nat) (f : Core → Core) : State := { s with cores := kmod c f s.cores }

/-- A group with nothing in it. -/
def Group.start : Group :=
  { uid := 0, gix := 0, role := .shader, launch := 0, sregs := [], pregs := [], aregs := [], mat := [], banks := [], badBanks := [],
    slot0 := PcSlot.empty, slot1 := PcSlot.empty, rlbl := 0, stackTop := 0, inline := [], inlineDepth := 0, inlineLimit := 0,
    ctrs := [0, 0, 0, 0, 0, 0, 0], faultMask := 0, laneRecs := [], inHandler := false, serving := false, dict := 0, seg := 0, pool := [],
    deferred := [], dataErr := none, parked := [], traces := [], halt := .none, ended := false, stepDone := false, weaveArr := false, joined := false,
    far := [false, false], resume := 0, privBase := 0 }

/-- A group of a core. -/
def Core.group (c : Core) (g : Nat) : Group := (kget g c.groups).getD Group.start
/-- Change a group of a core. -/
def Core.modGroup (c : Core) (g : Nat) (f : Group → Group) : Core := { c with groups := kmod g f c.groups }
/-- A group of the package. -/
def State.group (s : State) (c g : Nat) : Group := (s.core c).group g
/-- Change a group of the package. -/
def State.modGroup (s : State) (c g : Nat) (f : Group → Group) : State := s.modCore c (fun k => k.modGroup g f)

/-- Group keys of this size and above name groups of saved units (R300, R305): their counter 4 and deferred faults stay
with the launch meanwhile. -/
def ghostBase : Nat := 2 ^ 32
/-- Change a group, resident or saved. -/
def State.modAny (s : State) (c g : Nat) (f : Group → Group) : State :=
  if g < ghostBase then s.modGroup c g f
  else
    let sv (v : Saved) : Saved := { v with groups := v.groups.map (fun q => if q.1 == g then (q.1, f q.2) else q) }
    { s with launches := s.launches.map (fun p => (p.1, { p.2 with saved := p.2.saved.map sv })),
             pending := s.pending.map (fun p => { p with saved := p.saved.map sv }) }

/-- The issuing core. -/
def State.curCore (s : State) : Core := s.core s.cur.core
/-- The issuing group. -/
def State.curGrp (s : State) : Group := s.group s.cur.core s.cur.gid
/-- Change the issuing core. -/
def State.modC (s : State) (f : Core → Core) : State := s.modCore s.cur.core f
/-- Change the issuing group. -/
def State.modG (s : State) (f : Group → Group) : State := s.modGroup s.cur.core s.cur.gid f

/-- A PC slot of a group. -/
def Group.slot (g : Group) (i : Nat) : PcSlot := if i = 0 then g.slot0 else g.slot1
/-- Replace a PC slot of a group. -/
def Group.setSlot (g : Group) (i : Nat) (p : PcSlot) : Group := if i = 0 then { g with slot0 := p } else { g with slot1 := p }
/-- Change a PC slot of a group. -/
def Group.modSlot (g : Group) (i : Nat) (f : PcSlot → PcSlot) : Group := g.setSlot i (f (g.slot i))
/-- The issuing PC slot. -/
def State.curSlot (s : State) : PcSlot := s.curGrp.slot s.cur.slot
/-- Change the issuing PC slot. -/
def State.modS (s : State) (f : PcSlot → PcSlot) : State := s.modG (fun g => g.modSlot s.cur.slot f)

/-- The unit record of a group. -/
def emptyUnit : WUnit :=
  { launch := 0, index := 0, gang := false, gids := [], wregs := [], arrived := 0, phase := false, barDue := none,
    children := 0, shBase := 0, shUnits := 0, shBytes := 0, shSt := [], t0 := 0, tq := 0, preempt := false, forWhom := none, joining := false, home := 0, gpos := 0, bound := false, weave := none,
    rings := [], phases := [], flips := [], queues := [], stepN := 0, idx := [], stepClk := 0, stepping := false, stepDue := none,
    govHold := false, tst := { used := 0, dir := [], entries := [] }, rotSaved := false, latchTail := [] }
/-- A unit of a core. -/
def Core.unit (c : Core) (u : Nat) : WUnit := (kget u c.units).getD emptyUnit
/-- Change a unit of a core. -/
def Core.modUnit (c : Core) (u : Nat) (f : WUnit → WUnit) : Core := { c with units := kmod u f c.units }
/-- The issuing unit. -/
def State.curUnit (s : State) : WUnit := s.curCore.unit s.curGrp.uid
/-- Change the issuing unit. -/
def State.modU (s : State) (f : WUnit → WUnit) : State := s.modC (fun c => c.modUnit s.curGrp.uid f)
/-- The issuing launch. -/
def State.curLaunch (s : State) : Option Launch := kget s.curGrp.launch s.launches
/-- Change a launch. -/
def State.modLaunch (s : State) (l : Nat) (f : Launch → Launch) : State := { s with launches := kmod l f s.launches }
/-- The LPB of a launch, all zero when the launch is unknown. -/
def emptyLpb : Lpb :=
  { va := 0, pa := 0, kind := 0, prio := 0, cls := 2, scoreboard := false, recordMode := false, spill := false, inlineLimit := 0,
    msix := false, vector := 0, grid := 1, ident := 0, root := 0, param := 0, sigVa := 0, sigVal := 0, privBase := 0,
    privBytes := 0, stackBytes := 0, ovfVa := 0, ovfEntries := 0, shBytes := 0, topbVa := 0, edgeVa := 0, quadsW := 0,
    quadsH := 0, dies := 1, waitCount := 0, roles := [], rings := [], queues := [] }
/-- The LPB of a launch key. -/
def State.lpbOf (s : State) (l : Nat) : Lpb := ((kget l s.launches).map Launch.lpb).getD emptyLpb
/-- The issuing LPB. -/
def State.lpb (s : State) : Lpb := s.lpbOf s.curGrp.launch
/-- The launch that a group started for: under an inline child, that of the forking group, in whose private segment the child
runs (R37). -/
def Group.homeLaunch (g : Group) : Nat := (g.inline.getLast?.map InlineFrame.launch).getD g.launch
/-- The LPB that lays out the private segment of the issuing group. -/
def State.homeLpb (s : State) : Lpb := s.lpbOf s.curGrp.homeLaunch

/-- A fresh identifier. -/
def State.newId (s : State) : Nat × State := (s.fresh, { s with fresh := s.fresh + 1 })
/-- The next free value (log 5, log 6). -/
def State.draw (s : State) : Nat × State := (s.free, { s with free := s.free + 1 })
/-- Put events at the front of the agenda. -/
def State.sched (s : State) (l : List Instr) : State := { s with agenda := l ++ s.agenda }
/-- Word i of the MSI-X table (R405): two words a vector, address, then data and control, whose lowest bit masks the vector and is set
at reset. PRESUMED from PCI Express, log 80. -/
def State.msixWord (s : State) (i : Nat) : Nat := if i % 2 == 1 then sget 0 i s.msixTab ^^^ 2 ^ 32 else sget 0 i s.msixTab
/-- Is a vector masked? -/
def State.msixMasked (s : State) (v : Nat) : Bool := bitN (s.msixWord (2 * v + 1)) 32
/-- Raise an MSI-X vector (R409); of a masked one the message waits in the pending-bit array (R405). -/
def State.raiseMsix (s : State) (v : Nat) : State :=
  { s with msix := s.msix ++ [v], msixPend := if s.msixMasked v && !(s.msixPend.contains v) then s.msixPend ++ [v] else s.msixPend }

/-! ### Registers (R65, R66, R113, R127) -/

/-- A scalar register of a group. -/
def Group.sreg (g : Group) (r : Nat) : W64 := sget 0 r g.sregs
/-- A predicate register: p0 reads all-ones (R115). -/
def Group.preg (g : Group) (r : Nat) : W32 := if r = 0 then allLanes else sget 0 r g.pregs
/-- A value as `fmt` holds it: bits [31:11] are reserved, discard writes and read as zero (R7, R94). -/
def fmtReg (x : W32) : W32 := x &&& 0x7FF
/-- A translation register. -/
def Group.areg (g : Group) (r : Nat) : BitVec 192 := sget 0 r g.aregs
/-- The register budget in banks. -/
def Group.budget (g : Group) : Nat := g.banks.length
/-- A scalar register of the issuing group. -/
def State.sr (s : State) (r : Nat) : W64 := s.curGrp.sreg r
/-- A predicate of the issuing group. -/
def State.pr (s : State) (r : Nat) : W32 := s.curGrp.preg r
/-- The active mask of the issuing stream: all lanes on a tile (R62). -/
def State.active (s : State) : W32 := if s.curGrp.role = .shader then s.curSlot.mask else allLanes
/-- The guard value per lane (R62). -/
def State.guardMask (s : State) (g : Guard) : W32 := if g.neg then ~~~(s.pr g.pg.val) else s.pr g.pg.val
/-- The lanes in which a slot acts: active mask and guard (R62). -/
def State.act (s : State) (g : Guard) : W32 := s.active &&& s.guardMask g

/-- The element of lane j of a view: row and column (R113). -/
def viewRC (dir : Dir) (i j : Nat) : Nat × Nat :=
  match dir with
  | .h => (i, j)
  | .v => (j, i)
  | .d => (j, (j + i) % 32)
  | .w => (j, (i + 32 - j) % 32)
/-- The key of element (r, c) of register m. -/
def elemKey (m r c : Nat) : Nat := m * 1024 + r * 32 + c
/-- The key of lane j of a view (R113). -/
def vkey (x : View) (j : Nat) : Nat :=
  let rc := viewRC x.dir x.i.val j
  elemKey x.m.val rc.1 rc.2
/-- The view one index on, for b64 data (R257). -/
def vnext (x : View) (k : Nat) : View := { x with i := fin 32 (x.i.val + k) }

/-- The constants of R66. -/
def constOf (i : Nat) : W32 :=
  match i with
  | 0 => 0x00000000#32 | 1 => 0x3F800000#32 | 2 => 0xBF800000#32 | 3 => 0x3F000000#32 | 4 => 0x40000000#32
  | 5 => 0x3FB8AA3B#32 | 6 => 0x3F317218#32 | 7 => 0x40490FDB#32 | 8 => 0x7F800000#32 | 9 => 0xFF800000#32
  | 10 => 0x7F7FFFFF#32 | 11 => 0x00000001#32 | 12 => 0xFFFFFFFF#32 | 13 => 0x80000000#32 | 14 => 0x3F3504F3#32
  | _ => 0x3EA2F983#32

/-- An element of a group's matrix registers. -/
def Group.elem (g : Group) (k : Nat) : W32 := sget 0 k g.mat

/-- Lane j of a source operand of slot n (R65). -/
def State.src (s : State) (n : Nat) (x : VSrc) (j : Nat) : W32 :=
  match x with
  | .view v => s.curGrp.elem (vkey v j)
  | .bcast i => low32 (s.sr i.val)
  | .pool i => sget 0 i.val s.curGrp.pool
  | .const i => constOf i.val
  | .lane i => BitVec.ofNat 32 (j + i.val)
  | .qpop q => (((s.cur.pops.find? (fun p => p.1 == n * 4 + q.val)).map Prod.snd).getD []).getD j 0

/-- The 32 lanes of a source operand. -/
def State.row (s : State) (n : Nat) (x : VSrc) : List W32 := (List.range 32).map (s.src n x)

/-- A source one index on (b64 data, R257, R261); past constant 15 see `State.srcHi`. -/
def srcNext (x : VSrc) : VSrc :=
  match x with
  | .view v => .view (vnext v 1)
  | .bcast i => .bcast (fin 32 (i.val + 1))
  | .pool i => .pool (fin 32 (i.val + 1))
  | .const i => .const (fin 16 (i.val + 1))
  | .lane i => .lane (fin 32 (i.val + 1))
  | .qpop q => .qpop q

/-- The second operand of b64 data, one index on (R261): past constant 15 there is no constant, and the value is open (log 10). -/
def State.srcHi (s : State) (n : Nat) (x : VSrc) (j : Nat) : W32 :=
  match x with
  | .const i => if i.val = 15 then Config.pastConstants else constOf (i.val + 1)
  | x => s.src n (srcNext x) j

/-- Writes of a function of the lane to the acting lanes of a view (R155). -/
def viewWrites (x : View) (act : W32) (f : Nat → W32) : List Wr :=
  ((List.range 32).filter (bitOn act)).map (fun j => Wr.m (vkey x j) (f j))

/-! ### Banks (R117 to R119) -/

/-- Element i of the bank list. -/
def Group.bank (g : Group) (i : Nat) : Bank := g.banks.getD i Bank.start
/-- Replace a bank. -/
def Group.setBank (g : Group) (i : Nat) (b : Bank) : Group := { g with banks := g.banks.set i b }
/-- The state of a bank for a reader: waking counts as not BRIGHT (R117). -/
def Bank.ready (b : Bank) : Bool := b.st == .bright && b.wakeAt.isNone

/-- Start the wake of a bank at clk t with the given latency; nothing if BRIGHT or waking (R117). -/
def Bank.wake (b : Bank) (t lat : Nat) : Bank :=
  if b.st == .bright || b.wakeAt.isSome then b
  else { st := .dim, wakeAt := some (t + lat), dirty := b.dirty || b.st == .dark }

/-- Does a wake start? -/
def Bank.sleeps (b : Bank) : Bool := b.st != .bright && b.wakeAt.isNone

/-- Wake register bank i of group g at the core's clk: 6 clk, charge 8 (R117, R393). -/
def Core.wakeReg (c : Core) (g i : Nat) : Core :=
  if ((c.group g).bank i).sleeps && i < (c.group g).budget then
    { (c.modGroup g (fun k => k.setBank i ((k.bank i).wake c.clk 6))) with wakes := c.wakes + 8 }
  else c

/-- Scratch bank i of a core: W 0-79, A 80-119, C 120-127, shared 128-133. -/
def Core.sbank (c : Core) (i : Nat) : Bank := sget Bank.start i c.scratch
/-- Replace a scratch bank. -/
def Core.setSbank (c : Core) (i : Nat) (b : Bank) : Core := { c with scratch := sset Bank.start i b c.scratch }
/-- Wake a scratch bank: 40 clk, charge 64 (R117, R393). -/
def Core.wakeScratch (c : Core) (i : Nat) : Core :=
  if (c.sbank i).sleeps then { (c.setSbank i ((c.sbank i).wake c.clk 40)) with wakes := c.wakes + 64 } else c

/-- First bank of a buffer: 1 W, 2 A, 3 C, 4 shared. -/
def bufBase (b : Nat) : Nat := match b with | 1 => 0 | 2 => 80 | 3 => 120 | _ => 128
/-- Bytes of a buffer (R207). -/
def bufSize (b : Nat) : Nat := match b with | 1 => 5242880 | 2 => 2621440 | 3 => 524288 | _ => 393216
/-- Key of a byte of a buffer. -/
def bufKey (b off : Nat) : Nat := bufBase b * 65536 + off
/-- A byte of a buffer. -/
def Core.bufByte (c : Core) (b off : Nat) : Byte := sget 0 (bufKey b off) c.buf
/-- n bytes of a buffer from an offset. -/
def Core.bufRead (c : Core) (b off n : Nat) : List Byte := (List.range n).map (fun i => c.bufByte b (off + i))
/-- Little-endian number of bytes (R8). -/
def leNat : List Byte → Nat
  | [] => 0
  | b :: r => b.toNat + 256 * leNat r
/-- n little-endian bytes of a number (R8). -/
def leBytes : Nat → Nat → List Byte
  | 0, _ => []
  | n + 1, v => BitVec.ofNat 8 v :: leBytes n (v / 256)

/-- Write one byte of a buffer, waking its bank (R117): contents of a waking bank are already in place. -/
def Core.bufPut (c : Core) (b off : Nat) (v : Byte) : Core :=
  let i := bufBase b + off / 65536
  let c := c.wakeScratch i
  { (c.setSbank i { c.sbank i with dirty := true }) with buf := sset 0 (bufKey b off) v c.buf }
/-- Write bytes of a buffer in ascending order. -/
def Core.bufWrite (c : Core) (b : Nat) : Nat → List Byte → Core
  | _, [] => c
  | off, v :: r => Core.bufWrite (c.bufPut b off v) b (off + 1) r
/-- A number of n bytes in a buffer. -/
def Core.bufNat (c : Core) (b off n : Nat) : Nat := leNat (c.bufRead b off n)

/-- The tail action of a bank (R118). -/
def Bank.action (b : Bank) (a t lat : Nat) : Bank :=
  if a == 1 then (if b.st == .dark then b else { b with st := .dim, wakeAt := none })
  else if a == 2 then Bank.start
  else if a == 3 then b.wake t lat
  else b

/-! ### Results (R71) -/

/-- Apply one write to a group's registers; matrix writes wake their bank (R117), p0 discards (R127). -/
def Core.land1 (c : Core) (g : Nat) (w : Wr) : Core :=
  match w with
  | .s r v => c.modGroup g (fun k => { k with sregs := sset 0 r v k.sregs })
  | .p r m v =>
    if r = 0 then c
    else c.modGroup g (fun k => { k with pregs := sset 0 r ((sget 0 r k.pregs &&& ~~~m) ||| (v &&& m)) k.pregs })
  | .m key v =>
    let i := key / 1024
    if i < (c.group g).budget then
      (c.wakeReg g i).modGroup g (fun k =>
        { k with mat := sset 0 key v k.mat, banks := k.banks.set i { k.bank i with dirty := true } })
    else c
  | .w r v => c.modUnit (c.group g).uid (fun u => { u with wregs := sset 0 r v u.wregs })
  | .a r v => c.modGroup g (fun k => { k with aregs := sset 0 r v k.aregs })
  | .b key v =>
    let c := c.wakeScratch (key / 65536)
    { (c.setSbank (key / 65536) { c.sbank (key / 65536) with dirty := true }) with buf := sset 0 key v c.buf }

/-- Apply writes in order. -/
def Core.land (c : Core) (g : Nat) (ws : List Wr) : Core := ws.foldl (fun c w => c.land1 g w) c

/-- Is a write one of an element of view x? -/
def Wr.within (x : View) (w : Wr) : Bool := match w with | .m k _ => (List.range 32).any (fun j => vkey x j == k) | _ => false
/-- The operand code of the view that the result of slot n goes to: of the views of that slot the one that holds what it writes. -/
def Cur.destOf (c : Cur) (n : Nat) (ws : List Wr) : Option Nat :=
  (c.views.find? (fun p => p.1 == n && ws.all (Wr.within (viewOf p.2)))).map Prod.snd
/-- Send a fixed-latency result of slot n with latency lam on its way (R71). -/
def State.emit (s : State) (n lam : Nat) (ws : List Wr) : State :=
  if ws.isEmpty then s
  else
    { (s.modC (fun c => { c with inflight := c.inflight ++
        [{ id := s.fresh, due := c.pclk + lam, issued := c.pclk, gid := s.cur.gid, gix := s.curGrp.gix, slot := n, writes := ws,
           dest := s.cur.destOf n ws }] }))
      with fresh := s.fresh + 1 }

/-- A variable-latency landing of the issuing group, at a free time at least `lat` clk and then `wall` ticks of the bridge on (R13, R17,
R258, log 5). -/
def State.later (s : State) (lat wall : Nat) (ctr : Option Nat) (pa nslots : Nat) (bad : Bool) (ws : List Wr) : State :=
  let extra := Config.latency s.free
  { (s.modC (fun c => { c with sectors := c.sectors ++
      [{ id := s.fresh, due := c.clk + lat + extra, gid := s.cur.gid, writes := ws, pc := s.curSlot.pc - BitVec.ofNat 32 s.cur.len, pa := pa,
         bad := bad, ctr := ctr, slots := nslots, arr := c.clk + lat + extra, fixed := false, wall := wall, tick := 0 }] }))
    with fresh := s.fresh + 1, free := s.free + 1 }

/-- The channel of a boundary in a direction that traffic uses: which of those that are not disabled is free (R15, log 6). -/
def State.linkCh (s : State) (b dir : Nat) : Nat :=
  let up := (List.range 48).filter (fun ch =>
    match kget (b * 128 + dir * 64 + ch) s.bridge with | some x => x.failed ≤ 4 | none => true)
  up.getD (Config.choice (2 ^ 40 + s.free * 32 + b * 2 + dir) % max 1 up.length) 0
/-- Ticks that traffic from die a to die b waits for channels of its route that retrain (R15). -/
def State.linkWait (s : State) (a b : Nat) : Nat :=
  if s.bridge.isEmpty then 0
  else (routeOf a b).foldl (fun w p =>
    match (kget (p.1 * 128 + p.2 * 64 + s.linkCh p.1 p.2) s.bridge).bind BridgeCh.until_ with
    | some t => max w (t - s.now)
    | none => w) 0
/-- Ticks of the way from die a to die b and back: 20 ns for each boundary in each direction, after channels that retrain (R13, R15). -/
def State.roundTrip (s : State) (a b : Nat) : Nat := 40 * tickNs * crossings a b + max (s.linkWait a b) (s.linkWait b a)
/-- Hold a request slot of core c for each of some sectors of group g until it is served, at a free time after its ticks of the bridge
(R277, log 5): what lands writes nothing and lowers no counter. -/
def State.holdSlots (s : State) (c g : Nat) : List (Nat × Nat) → State
  | [] => s
  | (sec, far) :: r =>
    let due := (s.core c).clk + 1 + Config.latency s.free
    State.holdSlots { (s.modCore c (fun k => { k with sectors := k.sectors ++
      [{ id := s.fresh, due := due, gid := g, writes := [], pc := 0, pa := sec * 32, bad := false, ctr := none, slots := 1,
         arr := due, fixed := false, wall := far, tick := 0 }] })) with fresh := s.fresh + 1, free := s.free + 1 } c g r

/-- Scratch banks that n bytes of a buffer from an offset lie in. -/
def spanBanks (b off n : Nat) : List Nat :=
  if n = 0 then [] else (List.range ((off % 65536 + n + 65535) / 65536)).map (fun i => bufBase b + off / 65536 + i)
/-- Store bytes into a buffer of core c for group g: at once where every bank is BRIGHT; else the banks wake, and the store lands
as the last wake completes (R117). -/
def State.bufStore (s : State) (c g b off : Nat) (v : List Byte) : State :=
  let k := s.core c
  let bs := (spanBanks b off v.length).filter (fun i => !(k.sbank i).ready)
  if bs.isEmpty then s.modCore c (fun k => k.bufWrite b off v)
  else
    let w := bs.foldl Core.wakeScratch k
    let due := bs.foldl (fun a i => max a ((w.sbank i).wakeAt.getD 0)) (k.clk + 1)
    { (s.modCore c (fun _ => { w with sectors := w.sectors ++
        [{ id := s.fresh, due := due, gid := g,
           writes := ((List.range v.length).zip v).map (fun p => Wr.b (bufKey b (off + p.1)) p.2), pc := 0, pa := 0, bad := false,
           ctr := none, slots := 0, arr := k.clk, fixed := true, wall := 0, tick := 0 }] })) with fresh := s.fresh + 1 }

/-- Change outstanding counter n of a group (R151). -/
def Group.modCtr (g : Group) (n : Nat) (f : Nat → Nat) : Group := { g with ctrs := g.ctrs.set n (f (g.ctrs.getD n 0)) }
/-- Raise a counter of the issuing group. -/
def State.ctrUp (s : State) (n k : Nat) : State := s.modG (fun g => g.modCtr n (· + k))

/-- A performance event of a core: every counter that selects it rises (R369). -/
def State.bump (s : State) (c ev n : Nat) : State :=
  let sel := sget 0 c s.perfsel
  if sel = 0 then s
  else
    let up (p : Sparse Nat) (i : Nat) : Sparse Nat :=
      if fld sel (4 * i) 4 == ev then sset 0 i ((sget 0 i p + n) % 2 ^ 48) p else p
    s.modCore c (fun k => { k with perf := (List.range 8).foldl up k.perf, perfClk := (List.range 8).foldl up k.perfClk })
/-- An event that counts clk and not occurrences: a clk in which it holds counts once (R369 events 9, 10 and 14, log 70). -/
def State.bumpClk (s : State) (c ev : Nat) : State :=
  if (List.range 8).any (fun i => fld (sget 0 c s.perfsel) (4 * i) 4 == ev && sget 0 i (s.core c).perfClk != 0) then s else s.bump c ev 1

/-- Hold the issuing stream until the clk count has risen by n. -/
def State.waitClk (s : State) (n : Nat) : State :=
  let t := s.curCore.clk + n
  s.modS (fun p => { p with wait := .untilClk t })

end Sys2Proof.Machine
end

