-- ==== Sys2Proof/Machine/Mem.lean ====
section
/-! DEFINITION. Device memory: regions and homes (R213 to R215), page tables, swizzle and TLBs (R217 to R226), memory at
its home with exact-sum lines (R216), and the L1 or write-back path of a core (R207, R248, R261). -/

namespace Sys2Proof.Machine

/-! ### Regions (R213, R415) -/

/-- The end C of the HBM4E region (R415). -/
def State.hbmEnd (s : State) : Nat := 2 ^ 40 - (s.board.stackL.foldl max 0) * 2 ^ 35

/-- Is an address in the region of pod packages: 512 packages of 4 TiB each (R213)? -/
def podRegion (pa : Nat) : Bool := 2 ^ 51 ≤ pa && pa < 2 ^ 51 + 512 * 2 ^ 42
/-- The package of a pod address. -/
def podPkg (pa : Nat) : Nat := (pa - 2 ^ 51) / 2 ^ 42
/-- The offset of a pod address in its package. -/
def podOff (pa : Nat) : Nat := (pa - 2 ^ 51) % 2 ^ 42

/-- The region of an address by its home code, whatever is fitted (R213). -/
def regionOf (pa : Nat) : Option Nat :=
  if pa < 2 ^ 40 then some 0
  else if 2 ^ 41 ≤ pa && pa < 2 ^ 41 + 2 ^ 40 then some 1
  else if 2 ^ 44 ≤ pa && pa < 2 ^ 44 + 4 * 2 ^ 41 then some 1
  else if 2 ^ 48 ≤ pa && pa < 2 ^ 49 then some 2
  else if podRegion pa then some 3
  else none

/-- A pod address that names this package is served locally (R213). -/
def State.canon (s : State) (pa : Nat) : Nat :=
  if 2 ^ 51 ≤ pa && podPkg pa == s.board.pkg then podOff pa else pa

/-- Does an offset of a package lie in what it has fitted: HBM4E up to hbm, second tier up to lp (R213)? -/
def fitted (hbm lp o : Nat) : Bool := o < min hbm (2 ^ 40) || (2 ^ 41 ≤ o && o - 2 ^ 41 < min lp (2 ^ 40))

/-- Does an address exist: within a region, the capacity fitted there, and a package that can be reached (R213, R412)? What
another package of the pod has fitted the board says (log 8). -/
def State.mapped (s : State) (pa : Nat) : Bool :=
  if pa < 2 ^ 44 then fitted s.hbmEnd s.board.lpddr pa
  else if pa < 2 ^ 44 + 4 * 2 ^ 41 then (pa - 2 ^ 44) % 2 ^ 41 < s.board.cxl.getD ((pa - 2 ^ 44) / 2 ^ 41) 0
  else if 2 ^ 48 ≤ pa && pa < 2 ^ 49 then true
  else if podRegion pa then
    (if podPkg pa == s.board.pkg then fitted s.hbmEnd s.board.lpddr (podOff pa)
     else !(s.podMask.contains (podPkg pa)) &&
       (let c := sget (2 ^ 40, 0) (podPkg pa) s.board.pods
        fitted c.1 c.2 (podOff pa)))
  else false

/-- Home slice of a line: package, none for the issuing one, die and slice number (R214, R215). A pod address has its slice in its own
package. -/
def homeSlice (pa : Nat) : Option Nat × Nat × Nat :=
  let own (o : Nat) : Nat × Nat :=
    if o < 2 ^ 40 then (tensorDie (fld o 8 4 / 2), fld o 8 4 % 2 * 192 + 3 * fld o 12 6 + o / 2 ^ 18 % 3)
    else if o < 2 ^ 44 then ((if fld o 12 1 == 0 then 2 else 7), fld o 7 25 % 384)
    else if o < 2 ^ 48 then ((if (o - 2 ^ 44) / 2 ^ 41 / 2 == 0 then 2 else 7), fld o 7 25 % 384)
    else (2, fld o 7 25 % 384)
  if podRegion pa then (some (podPkg pa), own (podOff pa)) else (none, own pa)

/-! ### Memory at its home -/

/-- A byte of memory at its home: what nothing has written reads as 0 (log 2). -/
def State.byte (s : State) (pa : Nat) : Byte := sget 0 (s.canon pa) s.mem
/-- n bytes of memory at their homes. -/
def State.bytes (s : State) (pa n : Nat) : List Byte := (List.range n).map (fun i => s.byte (pa + i))
/-- A little-endian number of memory (R8). -/
def State.nat (s : State) (pa n : Nat) : Nat := leNat (s.bytes pa n)
/-- Store one byte at its home. -/
def State.putByte (s : State) (pa : Nat) (v : Byte) : State := { s with mem := sset 0 (s.canon pa) v s.mem }
/-- Store bytes at their homes, keeping copies of host lines in step (R244). -/
def State.putBytes (s : State) : Nat → List Byte → State
  | _, [] => s
  | pa, v :: r =>
    let s := s.putByte pa v
    let s := { s with hostL2 := kmod (pa / 128) (fun l => l.set (pa % 128) v) s.hostL2 }
    State.putBytes s (pa + 1) r

/-- The exact-sum words of [pa, pa+n) that have an open line. -/
def State.openWords (s : State) (pa n : Nat) : List Nat :=
  (s.exact.filter (fun p => p.1 < pa + n && pa < p.1 + 4)).map Prod.fst
/-- Does a 128-byte line hold an open exact-sum word (R266)? -/
def State.lineOpen (s : State) (line : Nat) : Bool := s.exact.any (fun p => p.1 / 128 == line)
/-- Settle one word: the value goes to its home and the line closes (R109, R216). -/
def State.settle1 (s : State) (w : Nat) : State :=
  match kget w s.exact with
  | none => s
  | some e =>
    { (s.putBytes w (leBytes 4 (exactSettle e.u e.w e.nan e.pinf e.ninf))) with exact := kdel w s.exact }
/-- Settle every open word that [pa, pa+n) touches (R216). -/
def State.settleRange (s : State) (pa n : Nat) : State :=
  (s.openWords (s.canon pa) n).foldl State.settle1 s
/-- A plain store at the home: open lines settle first (R216). -/
def State.homeWrite (s : State) (pa : Nat) (v : List Byte) : State := (s.settleRange pa v.length).putBytes pa v
/-- A copy of a host line in its home slice (R244). A slice holds 1,024 lines (R207): where it is full the first one listed makes
room (log 3). -/
def State.keepHost (s : State) (line : Nat) (l : List Byte) : State :=
  let same := s.hostL2.filter (fun p => homeSlice (p.1 * 128) == homeSlice (line * 128))
  let t := match same with
    | p :: _ => if 1024 ≤ same.length then kdel p.1 s.hostL2 else s.hostL2
    | [] => s.hostL2
  { s with hostL2 := kset line l t }
/-- A plain read at the home slice with a memory type: host lines may be copied there unless uncached (R244). -/
def State.homeRead (s : State) (pa n ty : Nat) : List Byte × State :=
  let s := s.settleRange pa n
  if regionOf pa == some 2 && ty != 2 then
    match kget (pa / 128) s.hostL2 with
    | some l => ((List.range n).map (fun i => l.getD (pa % 128 + i) 0), s)
    | none =>
      let l := s.bytes (pa / 128 * 128) 128
      ((List.range n).map (fun i => l.getD (pa % 128 + i) 0), s.keepHost (pa / 128) l)
  else (s.bytes pa n, s)
/-- Does an address have its home outside the package: host memory, or another package's (R213, R267)? -/
def State.farHome (s : State) (pa : Nat) : Bool := let h := regionOf (s.canon pa); h == some 2 || h == some 3
/-- Ticks of the way from a die to an address's home slice and back; the pod fabric's time is free (R13, R15, R267). -/
def State.homeTicks (s : State) (die pa : Nat) : Nat :=
  let h := homeSlice (s.canon pa)
  if h.1.isSome then 0 else s.roundTrip die h.2.1
/-- The issuing stream has sent an access that leaves the package, if the address does: a FENCE of pod or system scope waits for
it (R267). -/
def State.markFar (s : State) (pa : Nat) : State :=
  if s.farHome pa then s.modG (fun g => { g with far := g.far.set s.cur.slot true }) else s
/-- Units of u bytes with an uncorrectable error that [a, a+n) touches: the address of the first. -/
def badUnit (u a n : Nat) (l : List Nat) : Option Nat := (l.find? (fun k => k * u < a + n && a < k * u + u)).map (· * u)
/-- Does [pa, pa+n) touch an uncorrectable sector of memory, or an uncorrectable unit of its home slice (R207)? -/
def State.badAt (s : State) (pa n : Nat) : Option Nat :=
  (badUnit 32 (s.canon pa) n s.badMem).orElse (fun _ => badUnit 8 (s.canon pa) n s.badL2)
/-- The same as core c reads it: from its own copy, where it holds one, or at the home. -/
def State.badFor (s : State) (c pa n : Nat) : Option Nat :=
  if (kget (s.canon pa / 128) (s.core c).lines).isSome then badUnit 8 (s.canon pa) n (s.core c).badL1 else s.badAt pa n
/-- Does [off, off+n) of a buffer touch an uncorrectable unit (R207)? The offset of the first. -/
def Core.badBytes (c : Core) (b off n : Nat) : Option Nat := (badUnit 8 (bufKey b off) n c.badBuf).map (· - bufBase b * 65536)

/-! ### L1 and write-back paths (R207, R248, R261, R266) -/

/-- The banks of a shader core that serve as its L1: those that hold no unit of any window (R212). -/
def Core.l1Banks (c : Core) : Nat :=
  (List.range 6).countP (fun b => !(c.units.any (fun p => p.2.shBase < 4 * b + 4 && 4 * b < p.2.shBase + p.2.shUnits)))
/-- Is there an L1 (R212)? Tiles always have their path. -/
def Core.hasL1 (c : Core) (shader : Bool) : Bool := !shader || c.l1Banks != 0
/-- Lines that a core's path holds at most: 512 per bank of an L1, 64 of a tile (R207, R212). -/
def Core.lineRoom (c : Core) (shader : Bool) : Nat := if shader then 512 * c.l1Banks else 64

/-- Does an access act in the core's own path: type 00, at core or group scope (log 3)? -/
def State.ownPath (s : State) (c scope ty : Nat) : Bool :=
  ty == 0 && (scope == 0 || scope == 6) && (s.core c).hasL1 (isShader c)

/-- Write the dirty bytes of one line of a core to its home, leaving the line clean (R248). -/
def State.cleanLine (s : State) (c k : Nat) : State :=
  match kget k (s.core c).lines with
  | none => s
  | some l =>
    let s := (List.range 128).foldl
      (fun s i => if l.dirty.getD i false then s.homeWrite (k * 128 + i) [l.data.getD i 0] else s) s
    s.modCore c (fun d => { d with lines := kset k { l with dirty := List.replicate 128 false, since := none, writers := [] } d.lines })
/-- Write a line back and drop the copy. -/
def State.dropLine (s : State) (c k : Nat) : State :=
  (s.cleanLine c k).modCore c (fun d => { d with lines := kdel k d.lines })
/-- Write back every dirty line of a core. -/
def State.cleanAll (s : State) (c : Nat) : State :=
  ((s.core c).lines.map Prod.fst).foldl (fun s k => s.cleanLine c k) s
/-- Write back every dirty line of a core and drop every copy: what a fence above core scope does here (log 3). -/
def State.flush (s : State) (c : Nat) : State :=
  ((s.core c).lines.map Prod.fst).foldl (fun s k => s.dropLine c k) s
/-- The fence of a scope by a core (R238): group and core scope order nothing more than program order does. -/
def State.fenceAt (s : State) (c scope : Nat) : State := if 1 ≤ scope && scope ≤ 5 then s.flush c else s
/-- Drop a line from every core, written back first (R266). -/
def State.dropEverywhere (s : State) (k : Nat) : State :=
  (s.cores.map Prod.fst).foldl (fun s c => if ((kget k (s.core c).lines).isSome) then s.dropLine c k else s) s

/-- The 8-byte units of a line that its home gives with an uncorrectable error, as PA/8 (R207). -/
def State.badUnits (s : State) (k : Nat) : List Nat := ((List.range 16).map (k * 16 + ·)).filter (fun u => (s.badAt (u * 8) 8).isSome)
/-- A line comes from its home into a core's path with the errors of its sectors there (R207, R260). -/
def State.noteBad (s : State) (c k : Nat) : State :=
  s.modCore c (fun d => { d with badL1 := d.badL1.filter (fun u => u / 16 != k) ++ s.badUnits k })
/-- Put a line into a core's path; where the path is full, the first one listed makes room (R207, R212, log 3). -/
def State.addLine (s : State) (c k : Nat) (l : Line) : State :=
  let s := s.modCore c (fun d => { d with lines := kset k l d.lines })
  if (s.core c).lines.length ≤ (s.core c).lineRoom (isShader c) then s
  else match ((s.core c).lines.map Prod.fst).filter (· != k) with
    | [] => s
    | k' :: _ => s.dropLine c k'
/-- An L1 that has lost banks to a window gives up the lines it no longer holds (R212). -/
def State.trimLines (s : State) (c : Nat) : State :=
  ((s.core c).lines.map Prod.fst).foldl
    (fun s k => if (s.core c).lines.length ≤ (s.core c).lineRoom (isShader c) then s else s.dropLine c k) s

/-- A read of n bytes at the home by a core: what its own path still has to write home is read there, and a copy in an L1 goes, so
that no later read is older than this one (R232). -/
def State.readHome (s : State) (c pa n ty : Nat) : List Byte × State :=
  match kget (pa / 128) (s.core c).lines with
  | none => s.homeRead pa n ty
  | some l =>
    if isShader c then (s.dropLine c (pa / 128)).homeRead pa n ty
    else
      let h := s.homeRead pa n ty
      ((List.range n).map (fun i => if l.dirty.getD (pa % 128 + i) false then l.data.getD (pa % 128 + i) 0 else h.1.getD i 0), h.2)
/-- Read n bytes (within one line) for a core: from its L1 or at the home. -/
def State.loadG (s : State) (c launch pa0 n scope ty : Nat) : List Byte × State :=
  let pa := s.canon pa0
  let k := pa / 128
  if s.ownPath c scope ty && isShader c && !(s.lineOpen k) then
    match kget k (s.core c).lines with
    | some l => ((List.range n).map (fun i => l.data.getD (pa % 128 + i) 0), s.bump c 5 1)
    | none =>
      let r := (s.bump c 6 1).homeRead (k * 128) 128 ty
      let l : Line := { data := r.1, dirty := List.replicate 128 false, since := none, lease := (s.core c).clk + 4096, writers := [] }
      let _ := launch
      ((List.range n).map (fun i => l.data.getD (pa % 128 + i) 0), ((r.2.noteBad c k).addLine c k l))
  else s.readHome c pa n ty

/-- Read n bytes for a core, line by line (R198, R274). -/
def State.loadSpan (s : State) (c launch pa n scope ty : Nat) : List Byte × State :=
  (List.range ((pa % 128 + n + 127) / 128)).foldl (fun a i =>
    let lo := if i = 0 then pa else (pa / 128 + i) * 128
    let r := a.2.loadG c launch lo (min (pa + n) ((pa / 128 + i + 1) * 128) - lo) scope ty
    (a.1 ++ r.1, r.2)) ([], s)

/-- Write bytes of a line's data at an offset, marking them dirty or clean. -/
def Line.put (l : Line) (off : Nat) (v : List Byte) (d : Bool) : Line :=
  (List.range v.length).foldl
    (fun l i => { l with data := l.data.set (off + i) (v.getD i 0), dirty := l.dirty.set (off + i) d }) l

/-- Store bytes (within one line) for a core: into its own path or at the home (R261). A shader core's L1 counts the hit or the miss
(R369). -/
def State.storeG (s : State) (c launch pa0 : Nat) (v : List Byte) (scope ty : Nat) : State :=
  let pa := s.canon pa0
  let k := pa / 128
  if s.ownPath c scope ty && !(s.lineOpen k) then
    let clk := (s.core c).clk
    let base : Line × State :=
      match kget k (s.core c).lines with
      | some l => (l, if isShader c then s.bump c 5 1 else s)
      | none =>
        let r := if isShader c then (((s.bump c 6 1).noteBad c k).homeRead (k * 128) 128 ty) else (List.replicate 128 0, s)
        ({ data := r.1, dirty := List.replicate 128 false, since := none, lease := clk + 4096, writers := [] }, r.2)
    let l := { base.1.put (pa % 128) v true with
      since := (match base.1.since with | none => some clk | some t => some t),
      writers := if base.1.writers.contains launch then base.1.writers else base.1.writers ++ [launch] }
    base.2.addLine c k l
  else
    let s := s.homeWrite pa v
    s.modCore c (fun d => { d with lines := kmod k (fun l => l.put (pa % 128) v false) d.lines })

/-- Before an atomic or an uncached act at the home: the core's own copy of the line goes home (R234). -/
def State.beforeAtomic (s : State) (c pa : Nat) : State :=
  let k := s.canon pa / 128
  if (kget k (s.core c).lines).isSome then s.dropLine c k else s

/-! ### Page tables (R217 to R221) -/

/-- Page size codes in bytes: 64 KiB, 2 MiB, 1 GiB. -/
def pageBytes (sz : Nat) : Nat := match sz with | 0 => 2 ^ 16 | 1 => 2 ^ 21 | _ => 2 ^ 30

/-- Exchange two fields of n bits. -/
def xchg (o a b n : Nat) : Nat := putFld (putFld o a n (fld o b n)) b n (fld o a n)
/-- XOR field b of n bits into field a. -/
def xorFld (o a b n : Nat) : Nat := putFld o a n (fld o a n ^^^ fld o b n)
/-- The swizzle of a page offset (R221). -/
def swz (code o : Nat) : Nat :=
  match code with
  | 0 => o
  | 1 => xchg o 8 12 4
  | 2 => xchg o 8 16 4
  | 3 => xchg o 8 20 4
  | 4 => xchg o 8 24 4
  | 5 => xorFld o 8 12 4
  | 6 => xorFld o 8 16 4
  | 7 => xorFld o 8 20 4
  | 8 => xorFld o 8 24 4
  | 9 => xchg o 12 16 4
  | 10 => xorFld o 12 16 4
  | 11 => xchg o 12 18 6
  | 12 => xorFld o 12 18 6
  | 13 => putFld (xorFld o 8 16 4) 12 4 (fld o 12 4 ^^^ fld o 20 4)
  | 14 => putFld o 8 4 (fld o 11 1 + fld o 10 1 * 2 + fld o 9 1 * 4 + fld o 8 1 * 8)
  | _ => xchg o 8 12 2
/-- The least page size code of a swizzle (R221). -/
def swzLeast (code : Nat) : Nat :=
  if code == 2 || code == 6 || code == 9 || code == 10 then 1
  else if code == 3 || code == 4 || code == 7 || code == 8 || code == 11 || code == 12 || code == 13 then 2
  else 0

/-- The frame of a leaf (R218). -/
def leafFrame (e : Nat) : Nat := fld e 16 36 * 2 ^ 16
/-- Memory type, home and swizzle of a leaf. -/
def leafType (e : Nat) : Nat := fld e 6 2
/-- Home code of a leaf. -/
def leafHome (e : Nat) : Nat := fld e 8 2
/-- Swizzle of a leaf. -/
def leafSwz (e : Nat) : Nat := fld e 10 4

/-- The checks of a leaf at a page size (R219). -/
def State.leafCheck (s : State) (e size level : Nat) : Except XFault (Nat × Nat) :=
  let fr := leafFrame e
  if fld e 14 2 != 0 || fld e 52 12 != 0 || leafType e == 3 || fr % pageBytes size != 0
      || size < swzLeast (leafSwz e) then .error (.malformed level)
  else match regionOf fr with
    | none => .error (.unmapped fr)
    | some h =>
      if h != leafHome e then .error (.malformed level)
      else if s.mapped fr then .ok (e, size) else .error (.unmapped fr)

/-- A table entry as a plain read at its home gives it: settled (R216, R240), or its uncorrectable error, which goes to the party that
asks for the page (R207; log 77). -/
def State.tabWord (s : State) (pa : Nat) : Except XFault Nat :=
  match s.badAt pa 8 with
  | some b => .error (.data b)
  | none => .ok ((s.settleRange pa 8).nat pa 8)

/-- Table entry checks and the next table's address (R218, R219). -/
def State.tableCheck (s : State) (e align level : Nat) : Except XFault Nat :=
  let pa := fld e 8 44 * 2 ^ 8
  if fld e 2 6 != 0 || fld e 52 12 != 0 || pa % align != 0 then .error (.malformed level)
  else if s.mapped pa then .ok pa else .error (.unmapped pa)

/-- A walk from the L1 entry on (R217, R219). -/
def State.walkL1 (s : State) (e1 va : Nat) : Except XFault (Nat × Nat) :=
  if e1 % 2 == 0 then .error .notPresent
  else if bitN e1 1 then s.leafCheck e1 1 1
  else match s.tableCheck e1 256 1 with
  | .error f => .error f
  | .ok t0 =>
    match s.tabWord (t0 + 8 * fld va 16 5) with
    | .error f => .error f
    | .ok e0 =>
      if e0 % 2 == 0 then .error .notPresent
      else if !(bitN e0 1) then .error (.malformed 0)
      else s.leafCheck e0 0 0

/-- A walk from the L2 entry on (R217, R219). -/
def State.walkL2 (s : State) (e2 va : Nat) : Except XFault (Nat × Nat) :=
  if e2 % 2 == 0 then .error .notPresent
  else if bitN e2 1 then s.leafCheck e2 2 2
  else match s.tableCheck e2 4096 2 with
  | .error f => .error f
  | .ok t1 =>
    match s.tabWord (t1 + 8 * fld va 21 9) with
    | .error f => .error f
    | .ok e1 => s.walkL1 e1 va

/-- The walk of a virtual address from a root: the leaf and its page size code, or the first fault (R217, R219). -/
def State.walk (s : State) (root va : Nat) : Except XFault (Nat × Nat) :=
  if !(s.mapped root) then .error (.unmapped root)
  else match s.tabWord (root + 8 * fld va 43 13) with
  | .error f => .error f
  | .ok e3 =>
    if e3 % 2 == 0 then .error .notPresent
    else if bitN e3 1 then .error (.malformed 3)
    else match s.tableCheck e3 65536 3 with
    | .error f => .error f
    | .ok t2 =>
      match s.tabWord (t2 + 8 * fld va 30 13) with
      | .error f => .error f
      | .ok e2 => s.walkL2 e2 va

/-- A table entry that a die's TLB holds for an address: level 1 or 2 (R226). -/
def State.tabHeld (s : State) (die root va level : Nat) : Option Nat :=
  (((kget die s.dieTab).getD []).find? (fun e =>
    e.root == root && e.size == level && va / pageBytes level == e.vpage / pageBytes level)).map TlbEntry.leaf

/-- The walk of a die's walker: from the lowest table entry that the die's TLB holds (R226). -/
def State.walkFrom (s : State) (die root va : Nat) : Except XFault (Nat × Nat) :=
  match s.tabHeld die root va 1 with
  | some e1 => s.walkL1 e1 va
  | none =>
    match s.tabHeld die root va 2 with
    | some e2 => s.walkL2 e2 va
    | none => s.walk root va

/-- A walk reads its table entries plainly at their home slices: open exact-sum words of them settle (R216, R218, R240). -/
def State.settleWalk (s : State) (die root va : Nat) : State :=
  let table (e : Nat) : Bool := bitN e 0 && !(bitN e 1)
  let next (e k : Nat) : Nat := fld e 8 44 * 2 ^ 8 + 8 * k
  let from1 (s : State) (e1 : Nat) : State := if table e1 then s.settleRange (next e1 (fld va 16 5)) 8 else s
  let from2 (s : State) (e2 : Nat) : State :=
    if table e2 then (let p := next e2 (fld va 21 9); let s := s.settleRange p 8; from1 s (s.nat p 8)) else s
  if s.exact.isEmpty then s
  else match s.tabHeld die root va 1 with
    | some e1 => from1 s e1
    | none =>
      match s.tabHeld die root va 2 with
      | some e2 => from2 s e2
      | none =>
        let p3 := root + 8 * fld va 43 13
        let s := s.settleRange p3 8
        let e3 := s.nat p3 8
        if table e3 then (let p := next e3 (fld va 30 13); let s := s.settleRange p 8; from2 s (s.nat p 8)) else s

/-- Where the table entries lie that the walk of a die's walker reads (R217, R226). -/
def State.walkReads (s : State) (die root va : Nat) : List Nat :=
  let table (e : Nat) : Bool := bitN e 0 && !(bitN e 1)
  let next (e k : Nat) : Nat := fld e 8 44 * 2 ^ 8 + 8 * k
  let from1 (e1 : Nat) : List Nat := if table e1 then [next e1 (fld va 16 5)] else []
  let from2 (e2 : Nat) : List Nat := if table e2 then (let p := next e2 (fld va 21 9); p :: from1 (s.nat p 8)) else []
  match s.tabHeld die root va 1 with
  | some e1 => from1 e1
  | none =>
    match s.tabHeld die root va 2 with
    | some e2 => from2 e2
    | none =>
      let p3 := root + 8 * fld va 43 13
      p3 :: (if table (s.nat p3 8) then (let p := next (s.nat p3 8) (fld va 30 13); p :: from2 (s.nat p 8)) else [])

/-- The table entries through which that walk goes, as the die's TLB holds them (R226). -/
def State.tabsOf (s : State) (die root va : Nat) : List TlbEntry :=
  let e2 := (s.tabHeld die root va 2).getD
    (s.nat (fld (s.nat (root + 8 * fld va 43 13) 8) 8 44 * 2 ^ 8 + 8 * fld va 30 13) 8)
  let e1 := (s.tabHeld die root va 1).getD (s.nat (fld e2 8 44 * 2 ^ 8 + 8 * fld va 21 9) 8)
  let entry (level e : Nat) : TlbEntry := { launch := 0, root := root, vpage := va / 2 ^ 16 * 2 ^ 16 / pageBytes level * pageBytes level, size := level, leaf := e }
  let low : List TlbEntry := if bitN e1 1 then [] else [entry 1 e1]
  if (s.tabHeld die root va 1).isSome then low
  else if bitN e2 1 then [] else entry 2 e2 :: low

/-- The physical address of va through a leaf (R220). -/
def leafPa (leaf size va : Nat) : Nat := leafFrame leaf + swz (leafSwz leaf) (va % pageBytes size)

/-- Look a page up in a TLB (R226). -/
def tlbFind (t : List TlbEntry) (root va : Nat) : Option (Nat × Nat) :=
  (t.find? (fun e => e.root == root && va / pageBytes e.size == e.vpage / pageBytes e.size)).map
    (fun e => (e.leaf, e.size))

/-- Look a page up in a core's TLB for a launch (R226). -/
def tlbOwn (t : List TlbEntry) (tag root va : Nat) : Option (Nat × Nat) := tlbFind (t.filter (fun e => e.launch == tag)) root va
/-- A TLB with one more leaf, the oldest making room (R226). -/
def tlbAdd (cap : Nat) (t : List TlbEntry) (e : TlbEntry) : List TlbEntry :=
  let l := t.filter (fun x => x != e) ++ [e]
  l.drop (l.length - cap)

/-- The issuing stream as a party of walks. -/
def State.me (s : State) : Nat := s.cur.gid * 2 + s.cur.slot
/-- The launch of a party of a core, the tag of its core-TLB entries (R226): of the stream's group, or of the channel's command. -/
def State.tagOf (s : State) (who c : Nat) : Nat :=
  if who < 2 ^ 40 then (s.group c (who / 2)).launch
  else ((((kget (who - 2 ^ 40) (s.core c).chans).map Channel.q).getD []).head?.map Cmd.launch).getD 0
/-- A lookup for a party of a core: the core's TLB, the die's, the answer of a walk that it asked for; none when a walk is needed. -/
def State.lookupBy (s : State) (who c root va : Nat) : Option (Except XFault (Nat × Nat)) :=
  match tlbOwn (s.core c).tlb (s.tagOf who c) root va with
  | some r => some (.ok r)
  | none =>
    match tlbFind ((kget (coreDie c) s.dieTlb).getD []) root va with
    | some r => some (.ok r)
    | none =>
      ((s.core c).walkF.find? (fun w => w.who == who && w.root == root && w.va / 2 ^ 16 == va / 2 ^ 16)).map
        (fun w => match w.f with | .fault f => .error f | .leaf e size => .ok (e, size))
/-- A lookup for the issuing stream. -/
def State.lookup (s : State) (c root va : Nat) : Option (Except XFault (Nat × Nat)) := s.lookupBy s.me c root va

/-- A translation made at once, for engines and signal words (log 11): by the core's TLB, under any launch's tag, its die's, or a walk. -/
def State.xlatNow (s : State) (c root va : Nat) : Except XFault (Nat × Nat) :=
  match tlbFind (s.core c).tlb root va with
  | some r => .ok r
  | none =>
    match tlbFind ((kget (coreDie c) s.dieTlb).getD []) root va with
    | some r => .ok r
    | none => s.walkFrom (coreDie c) root va

/-- Ask the die's walkers for a page: once per party, and one walk for all that ask for it together (R226). It takes a free time beside
the way of its reads over the bridge (R13, log 5). A walk that a TLBINV
has overtaken serves only those that had asked before (R347). -/
def State.askWalkBy (s : State) (who c root va : Nat) : State :=
  let die := coreDie c
  let l := (kget die s.walks).getD []
  let page (w : Walk) : Bool := w.root == root && w.va / 2 ^ 16 == va / 2 ^ 16
  if l.any (fun w => page w && w.reqs.contains (c, who)) then s
  else
    let s := s.bump c 8 1
    if l.any (fun w => page w && !w.stale) then
      { s with walks := kset die (l.map (fun w => if page w && !w.stale then { w with reqs := w.reqs ++ [(c, who)] } else w)) s.walks }
    else
      let w : Walk := { id := s.fresh, reqs := [(c, who)], root := root, va := va,
                        due := s.now + (1 + Config.latency s.free) * tickNs
                          + (s.walkReads die root va).foldl (fun a p => a + s.homeTicks die p) 0, stale := false }
      { s with walks := kset die (l ++ [w]) s.walks, fresh := s.fresh + 1, free := s.free + 1 }
/-- Ask for a page for the issuing stream. -/
def State.askWalk (s : State) (c root va : Nat) : State := s.askWalkBy s.me c root va
/-- A core-TLB miss that the die's TLB serves counts as the miss that it is, and fills the core's TLB (R226, R369): once per 64 KiB of
a bundle's lanes. -/
def State.noteMisses (s : State) (c root : Nat) (vas : List Nat) : State :=
  let tag := s.tagOf s.me c
  ((vas.map (· / 2 ^ 16)).eraseDups).foldl (fun s p =>
    if (tlbOwn (s.core c).tlb tag root (p * 2 ^ 16)).isSome then s
    else
      let s := s.bump c 8 1
      match tlbFind ((kget (coreDie c) s.dieTlb).getD []) root (p * 2 ^ 16) with
      | some (leaf, size) =>
        s.modCore c (fun k => { k with tlb := tlbAdd 1024 k.tlb { launch := tag, root := root, vpage := p * 2 ^ 16, size := size, leaf := leaf } })
      | none => s) s

/-- Forget the answers of a party's ended walks for a page: each is read once. -/
def State.takeWalkBy (s : State) (who c root va : Nat) : State :=
  s.modCore c (fun k => { k with walkF := k.walkF.filter (fun w => !(w.who == who && w.root == root && w.va / 2 ^ 16 == va / 2 ^ 16)) })
/-- Forget the answers of the issuing stream's ended walks for a page. -/
def State.takeWalkF (s : State) (c root va : Nat) : State := s.takeWalkBy s.me c root va
/-- Forget the uninstalled leaves that a stream has used: its bundle has issued (R347). -/
def Core.endServed (k : Core) (who : Nat) : Core :=
  if k.walkF.isEmpty then k
  else { k with walkF := k.walkF.filter (fun w => !(w.who == who && (match w.f with | .leaf _ _ => true | .fault _ => false))) }

/-- Access kinds of a leaf or translation register: read, write, execute (R219). -/
inductive Acc where
  | r | w | x | rw
deriving DecidableEq, Repr

/-- Does a leaf permit an access from a stream whose dictionary is privileged or not (R219)? -/
def permits (bits : Nat) (a : Acc) (priv : Bool) : Bool :=
  (match a with
   | .r => bitN bits 0
   | .w => bitN bits 1
   | .x => bitN bits 2
   | .rw => bitN bits 0 && bitN bits 1) && (priv || !bitN bits 3)

/-- R, W, X, S of a leaf as four bits. -/
def leafPerm (e : Nat) : Nat := fld e 2 4

/-- Settle what a plain read of [va, va+n) of virtual memory settles: open exact-sum words that it touches, and those of the tables
it goes through (R216, R246). -/
def State.settleV (s : State) (c root va n : Nat) : State :=
  if s.exact.isEmpty then s
  else (List.range n).foldl (fun s i =>
    let a := (va + i) % 2 ^ 56
    let s := s.settleWalk (coreDie c) root a
    match s.xlatNow c root a with
    | .ok (leaf, size) => s.settleRange (leafPa leaf size a) 1
    | .error _ => s) s
/-- Read n bytes of virtual memory at once through the tables, at package scope (descriptors, LPBs): none on any
fault. Pages are taken byte by byte. What the read settles, `settleV` has settled before. -/
def State.readV (s : State) (c root : Nat) (priv : Bool) (va n : Nat) : Option (List Byte) :=
  (List.range n).foldr (fun i acc =>
    match acc with
    | none => none
    | some l =>
      match s.xlatNow c root ((va + i) % 2 ^ 56) with
      | .ok (leaf, size) =>
        if permits (leafPerm leaf) .r priv then
          let pa := leafPa leaf size ((va + i) % 2 ^ 56)
          if (s.badAt pa 1).isSome then none else some ((s.homeRead pa 1 (leafType leaf)).1.getD 0 0 :: l)
        else none
      | .error _ => none) (some [])

/-- The first not-present page of [va, va+n), if any. -/
def State.missing (s : State) (c root va n : Nat) : Option Nat :=
  ((List.range ((va % 2 ^ 16 + n + 65535) / 2 ^ 16)).map (fun i => (va / 2 ^ 16 + i) * 2 ^ 16)).find?
    (fun p => match s.xlatNow c root p with | .error .notPresent => true | _ => false)

/-- Store bytes of virtual memory at the home, at package scope: none on any fault. -/
def State.writeV (s : State) (c root : Nat) (priv : Bool) : Nat → List Byte → Option State
  | _, [] => some s
  | va, v :: r =>
    let s := s.settleWalk (coreDie c) root (va % 2 ^ 56)
    match s.xlatNow c root (va % 2 ^ 56) with
    | .ok (leaf, size) =>
      if permits (leafPerm leaf) .w priv then
        State.writeV (s.homeWrite (leafPa leaf size (va % 2 ^ 56)) [v]) c root priv (va + 1) r
      else none
    | .error _ => none

end Sys2Proof.Machine
end

