-- ==== Sys2Proof/Machine/Flags.lean ====
section
/-! DEFINITION. The conditions: condition codes of ICMP and BRC (R130), predicate tests, and the lane conditions of
VCMP (R161). The device has no flag register; predicates are its only condition state (R129). -/

namespace Sys2Proof.Machine

/-- Condition codes 0-9 on two scalars (R130). -/
def condHolds (c : Nat) (a b : W64) : Bool :=
  match c with
  | 0 => a == b
  | 1 => a != b
  | 2 => a.slt b
  | 3 => a.sle b
  | 4 => b.slt a
  | 5 => b.sle a
  | 6 => a.ult b
  | 7 => a.ule b
  | 8 => b.ult a
  | _ => b.ule a

/-- Condition codes 10-12: .any, .all, .none of a predicate over the active lanes (R130). -/
def predHolds (c : Nat) (p active : W32) : Bool :=
  match c with
  | 10 => p &&& active != 0
  | 11 => p &&& active == active
  | _ => p &&& active == 0

/-- A lane condition of VCMP: 0-7 floating under format f, element 0 of the lane, 8-15 integer (R161). -/
def vcmpHolds (cond f : Nat) (a b : W32) : Bool :=
  let x := a.toNat % 2 ^ fBits f
  let y := b.toNat % 2 ^ fBits f
  match cond with
  | 0 => fcmp f x y == some .eq
  | 1 => fcmp f x y != some .eq
  | 2 => fcmp f x y == some .lt
  | 3 => fcmp f x y == some .lt || fcmp f x y == some .eq
  | 4 => fcmp f x y == some .gt
  | 5 => fcmp f x y == some .gt || fcmp f x y == some .eq
  | 6 => (fcmp f x y).isNone
  | 7 => (fcmp f x y).isSome
  | 8 => a == b
  | 9 => a != b
  | 10 => a.slt b
  | 11 => a.sle b
  | 12 => b.slt a
  | 13 => b.sle a
  | 14 => a.ult b
  | _ => b.ule a

/-- Lanes where f holds, as a mask. -/
def maskOf (f : Nat → Bool) : W32 := BitVec.ofNat 32 ((List.range 32).foldl (fun a j => if f j then a + 2 ^ j else a) 0)

/-! ### Fields of `fmt` (R94) -/

/-- Lane arithmetic. -/
def fmtLane (f : W32) : Nat := fld f.toNat 0 2
/-- Element format. -/
def fmtElt (f : W32) : Nat := fld f.toNat 2 4
/-- Scale handling. -/
def fmtScale (f : W32) : Nat := fld f.toNat 6 2
/-- Rounding. -/
def fmtRnd (f : W32) : Nat := fld f.toNat 8 2
/-- Saturate. -/
def fmtSat (f : W32) : Bool := bitN f.toNat 10

end Sys2Proof.Machine
end

