-- ==== Sys2Proof/Machine/Operands.lean ====
section
/-! DEFINITION. What each slot instruction reads and writes (R65, R113, R126, R152, R172, R250), for the checks of R372
that do not depend on its meaning: register budget, dark reads, formats, pops, wakes and the checking scoreboard. -/

namespace Sys2Proof.Machine

/-- The registers of a slot instruction: guard; vector sources with their record field (R374); views it writes and
reads; whole matrix registers of E slots; scalars and predicates read and written; the fixed latency of its result, 0
for none. -/
structure OpInfo where
  guard : Guard := Guard.always
  srcs : List (Nat × VSrc) := []
  dsts : List (Nat × View) := []
  rdsts : List (Nat × View) := []
  mrd : List (Nat × Nat) := []
  mwr : List (Nat × Nat) := []
  sr : List Nat := []
  sw : List Nat := []
  pr : List Nat := []
  pw : List Nat := []
  lam : Nat := 0

/-- Views vd, vd+1 of an access size. -/
def sizedViews (sz : Size) (x : View) : List (Nat × View) := if sz == .b64 then [(1, x), (1, vnext x 1)] else [(1, x)]
/-- Data operands of an access size. -/
def sizedSrcs (sz : Size) (x : VSrc) : List (Nat × VSrc) := if sz == .b64 then [(1, x), (1, srcNext x)] else [(1, x)]
/-- The row view of a matrix register (R302, R189). -/
def rowView (m i : Nat) : View := { dir := .h, m := fin 10 m, i := fin 32 i }
/-- Base register of a buffer or shared space. -/
def baseReg (sp : Space) (an : AReg) : List Nat := if sp == .g then [] else [an.val]

/-- What an instruction reads and writes. -/
def opInfo (i : Instr) : OpInfo :=
  match i with
  | .bra g _ | .brv g _ | .meet g | .exit g | .eret g | .yield g | .waitc g _ _ | .trap g _ | .quota g _ _ | .rlbl g _ =>
    { guard := g }
  | .brc g cond sa sb _ =>
    if cond.val ≥ 10 then { guard := g, pr := [sa.val % 8] } else { guard := g, sr := [sa.val, sb.val] }
  | .call g link _ => { guard := g, sw := [link.val], lam := 1 }
  | .ret g sa | .braReg g sa => { guard := g, sr := [sa.val] }
  | .loop g sa _ => { guard := g, sr := [sa.val], sw := [sa.val], lam := 1 }
  | .callReg g sd sa => { guard := g, sr := [sa.val], sw := [sd.val], lam := 1 }
  | .iadd g sd sa sb | .isub g sd sa sb | .ishl g sd sa sb | .ishr g sd sa sb | .isar g sd sa sb | .iand g sd sa sb
  | .ior g sd sa sb | .ixor g sd sa sb | .imin g _ sd sa sb | .imax g _ sd sa sb | .bfx g _ sd sa sb =>
    { guard := g, sr := [sa.val, sb.val], sw := [sd.val], lam := 1 }
  | .imul g sd sa sb | .imulh g _ sd sa sb => { guard := g, sr := [sa.val, sb.val], sw := [sd.val], lam := 3 }
  | .imad g sd sa sb sc => { guard := g, sr := [sa.val, sb.val, sc.val], sw := [sd.val], lam := 3 }
  | .icmp g _ pd sa sb => { guard := g, sr := [sa.val, sb.val], pw := [pd.val], lam := 1 }
  | .isel g sd sa sb pc => { guard := g, sr := [sa.val, sb.val], pr := [pc.val], sw := [sd.val], lam := 1 }
  | .movs g (.ss sd sa) => { guard := g, sr := [sa.val], sw := [sd.val], lam := 1 }
  | .movs g (.ws _ sa) => { guard := g, sr := [sa.val], lam := 2 }
  | .movs g (.sw sd _) => { guard := g, sw := [sd.val], lam := 2 }
  | .movxToScalar g _ sd v sa => { guard := g, srcs := [(3, v)], sr := [sa.val], sw := [sd.val], lam := 3 }
  | .movxToVector g v sd sa => { guard := g, dsts := [(3, v)], sr := [sd.val, sa.val], lam := 2 }
  | .bfi g sd sa sb sc => { guard := g, sr := [sa.val, sb.val, sc.val], sw := [sd.val], lam := 1 }
  | .clz g sd sa | .popc g sd sa | .iaddImm g sd sa _ | .ishlImm g sd sa _ | .ishrImm g sd sa _ | .isarImm g sd sa _
  | .iandImm g sd sa _ | .iorImm g sd sa _ | .ixorImm g sd sa _ | .iminImm g _ sd sa _ | .imaxImm g _ sd sa _
  | .lea g _ sd sa _ => { guard := g, sr := [sa.val], sw := [sd.val], lam := 1 }
  | .imulImm g sd sa _ => { guard := g, sr := [sa.val], sw := [sd.val], lam := 3 }
  | .icmpImm g _ pd sa _ => { guard := g, sr := [sa.val], pw := [pd.val], lam := 1 }
  | .movi g k sd _ => { guard := g, sr := if k == 2 then [sd.val] else [], sw := [sd.val], lam := 1 }
  | .fmt g (.imm _) => { guard := g }
  | .fmt g (.reg sa) => { guard := g, sr := [sa.val] }
  | .fmtrd g sd | .sys g _ sd => { guard := g, sw := [sd.val], lam := 1 }
  | .pmov g (.pp pd pa) | .pnot g pd pa => { guard := g, pr := [pa.val], pw := [pd.val], lam := 1 }
  | .pmov g (.ps pd sa) => { guard := g, sr := [sa.val], pw := [pd.val], lam := 1 }
  | .pmov g (.sp sd pa) => { guard := g, pr := [pa.val], sw := [sd.val], lam := 1 }
  | .pand g pd pa pb | .por g pd pa pb => { guard := g, pr := [pa.val, pb.val], pw := [pd.val], lam := 1 }
  | .vadd g _ vd va vb | .vsub g _ vd va vb | .vmul g _ vd va vb | .vmin g _ vd va vb | .vmax g _ vd va vb
  | .vimul g _ vd va vb | .vscl g _ vd va vb => { guard := g, dsts := [(1, vd)], srcs := [(2, va), (3, vb)], lam := 4 }
  | .vfma g _ _ vd va vb vc => { guard := g, dsts := [(1, vd)], srcs := [(2, va), (3, vb), (4, vc)], lam := 4 }
  | .vdot4 g vd va vb vc | .vdot8 g vd va vb vc =>
    { guard := g, dsts := [(1, vd)], srcs := [(2, va), (3, vb), (4, vc)], lam := 5 }
  | .vabs g _ vd va | .vneg g _ vd va | .vmov g vd va | .vballot g _ vd va =>
    { guard := g, dsts := [(1, vd)], srcs := [(2, va)], lam := 2 }
  | .vcmp g _ pd va vb => { guard := g, srcs := [(2, va), (3, vb)], pw := [pd.val], lam := 2 }
  | .vsel g vd va vb pc => { guard := g, dsts := [(1, vd)], srcs := [(2, va), (3, vb)], pr := [pc.val], lam := 2 }
  | .vcvt g (.up _) vd va => { guard := g, dsts := [(1, vd)], srcs := [(2, va)], lam := 4 }
  | .vcvt g (.dn _ vc) vd va => { guard := g, dsts := [(1, vd)], srcs := [(2, va), (4, vc)], lam := 4 }
  | .vexp2 g vd va | .vlog2 g vd va | .vrcp g vd va | .vrsq g vd va =>
    { guard := g, dsts := [(1, vd)], srcs := [(2, va)], lam := 8 }
  | .vsin g vd va | .vcos g vd va => { guard := g, dsts := [(1, vd)], srcs := [(2, va)], lam := 10 }
  | .viadd g _ vd va vb | .visub g _ vd va vb | .vshl g vd va vb | .vshr g _ vd va vb | .vand g vd va vb
  | .vor g vd va vb | .vxor g vd va vb => { guard := g, dsts := [(1, vd)], srcs := [(2, va), (3, vb)], lam := 2 }
  | .vqmx g vd va => { guard := g, dsts := [(1, vd)], srcs := [(2, va)], lam := 6 }
  | .vred g op vd va | .vscan g op vd va =>
    { guard := g, dsts := [(1, vd)], srcs := [(2, va)], lam := if op.val < 3 then 10 else 4 }
  | .vshfl g (.up vc) vd va vb | .vshfl g (.dn vc) vd va vb =>
    { guard := g, dsts := [(1, vd)], srcs := [(2, va), (3, vb), (4, vc)], lam := 3 }
  | .vshfl g _ vd va vb => { guard := g, dsts := [(1, vd)], srcs := [(2, va), (3, vb)], lam := 3 }
  | .vbcast g none vd va => { guard := g, dsts := [(1, vd)], srcs := [(2, va)], lam := 3 }
  | .vbcast g (some vb) vd va => { guard := g, dsts := [(1, vd)], srcs := [(2, va), (3, vb)], lam := 3 }
  | .vlane g _ vd => { guard := g, dsts := [(1, vd)], lam := 2 }
  | .ld g sp sz _ vd an vo _ | .ldx g sp sz _ vd an vo _ =>
    { guard := g, dsts := sizedViews sz vd, srcs := [(2, vo)], sr := baseReg sp an,
      lam := if sp == .a || sp == .c then 8 else 0 }
  | .st g sp sz vd an vo _ | .stx g sp sz vd an vo _ =>
    { guard := g, srcs := sizedSrcs sz vd ++ [(2, vo)], sr := baseReg sp an }
  | .atom g sh b64 op vd an vo _ =>
    let n := if b64 then (if op.val == 9 then 4 else 2) else (if op.val == 9 then 2 else 1)
    let v := (List.range n).map (fun k => (1, vnext vd k))
    { guard := g, dsts := if b64 then [(1, vd), (1, vnext vd 1)] else [(1, vd)], rdsts := v, srcs := [(2, vo)],
      sr := if sh then [an.val] else [] }
  | .atomfAdd g sh vd an vo _ => { guard := g, srcs := [(1, vd), (2, vo)], sr := if sh then [an.val] else [] }
  | .atomfAddX g vd _ vo _ => { guard := g, srcs := [(1, vd), (2, vo)] }
  | .settle g vd _ vo _ => { guard := g, dsts := [(1, vd)], srcs := [(2, vo)] }
  | .probe g _ vd _ vo _ => { guard := g, dsts := [(1, vd)], srcs := [(2, vo)] }
  | .pref g _ _ vo _ => { guard := g, srcs := [(2, vo)] }
  | .xlate g _ _ sa => { guard := g, sr := [sa.val] }
  | .clean g (.range sa sb) | .inval g (.range sa sb) => { guard := g, sr := [sa.val, sb.val] }
  | .clean g .all | .inval g .all | .fence g => { guard := g }
  | .mma g o | .mmag g o =>
    { guard := g, sr := [o.sA.val, o.sA.val + 1, o.sF.val] ++ (if o.wl then [] else [o.sW.val, o.sW.val + 1]) }
  | .accz g _ _ _ => { guard := g }
  | .accrd g o =>
    { guard := g, sr := [o.sx.val] ++ (if o.reg then [] else [o.sy.val]) ++ (if o.mx then [o.sz.val] else []),
      mwr := if o.reg then [(6, o.mreg.val)] else [] }
  | .mxld g _ sW sF _ _ => { guard := g, sr := [sW.val, sW.val + 1, sF.val] }
  | .copy g o => { guard := g, sr := [o.sx.val, o.sy.val, o.sz.val, o.sz.val + 1] }
  | .sort g o =>
    { guard := g, sr := [o.sx.val, o.sy.val, o.sz.val] ++ (if o.vals then [o.sx.val + 1, o.sy.val + 1] else []) }
  | .merge g o =>
    { guard := g, sr := [o.sx.val, o.sx.val + 2, o.sy.val, o.sz.val] ++
        (if o.vals then [o.sx.val + 1, o.sx.val + 3, o.sy.val + 1] else []) }
  | .ordw g sR sQ m i => { guard := g, sr := [sR.val, sQ.val], rdsts := [(1, rowView m.val i.val)] }
  | .ordd g sR sQ => { guard := g, sr := [sR.val, sQ.val] }
  | .fork g sL | .spawn g sL | .qpushT g sL _ => { guard := g, sr := [sL.val] }
  | .launch g sD sL => { guard := g, sr := [sL.val], sw := [sD.val] }
  | .join g | .taskend g | .bar g | .barWeave g | .stepend g | .cntclr g _ | .cntclrSnap g | .cntclrRoll g
  | .cntclrFree g | .tlbinvAll g | .dictinv g _ | .semwaitDec g _ _ | .semwaitGe g _ _ | .qrzero g | .qrgainImm g
  | .qrgainDef g => { guard := g }
  | .qpushRBuffer g _ sA => { guard := g, sr := [sA.val] }
  | .qpushRRegister g _ m i => { guard := g, rdsts := [(5, rowView m.val i.val)] }
  | .qcfgRd g sD _ => { guard := g, sw := [sD.val], lam := 2 }
  | .qcfgRq g _ sC => { guard := g, sr := [sC.val] }
  | .rget g _ sD _ sS => { guard := g, sr := [sS.val], sw := [sD.val], lam := 1 }
  | .rput g _ sS => { guard := g, sr := [sS.val] }
  | .dictld g sD sI _ | .tstld g sD sI => { guard := g, sr := [sI.val], sw := [sD.val] }
  | .tlbinv g a b c => { guard := g, sr := [a.val, b.val, c.val] }
  | .tlbinvRoot g c => { guard := g, sr := [c.val] }
  | .classWr g a b | .classMv g a b => { guard := g, sr := [a.val, b.val] }
  | .classRd g sD b => { guard := g, sr := [b.val], sw := [sD.val] }
  | .barNet g _ sC => { guard := g, sr := [sC.val] }
  | .semaddI g _ _ t => { guard := g, sr := t.elim [] (fun r => [r.val]) }
  | .semadd g _ sV t => { guard := g, sr := sV.val :: t.elim [] (fun r => [r.val]) }
  | .wpwait g _ sV => { guard := g, sr := [sV.val] }
  | .wpwaitRd g sD _ => { guard := g, sw := [sD.val], lam := 2 }
  | .govrd g _ sD sL => { guard := g, sr := [sL.val], sw := [sD.val] }
  | .cntrd g sD _ => { guard := g, sw := [sD.val], lam := 2 }
  | .enrd g sD _ => { guard := g, sw := [sD.val], lam := 2 }
  | .qrfeed g _ lg sx sy sz _ _ => { guard := g, sr := [sx.val, sy.val] ++ (if lg then [sz.val] else []) }
  | .qrapplySt g sx sy _ _ => { guard := g, sr := [sx.val, sy.val] }
  | .qrapplyLog g sx sy sz _ _ _ => { guard := g, sr := [sx.val, sy.val, sz.val] }
  | .qrread g _ a sx m => if a then { guard := g, sr := [sx.val] } else { guard := g, mwr := [(1, m.val)] }
  | .qrreadSt g sx => { guard := g, sw := [sx.val] }
  | .angout g _ m _ => { guard := g, mwr := [(1, m.val)] }
  | .angin g _ m _ => { guard := g, mrd := [(1, m.val)] }
  | .grot g _ sx sy _ _ => { guard := g, sr := [sx.val, sy.val] }
  | .rast g m sv sc st => { guard := g, sr := [sv.val, sv.val + 1, sv.val + 2, sc.val, st.val], sw := [st.val], mwr := [(1, m.val)] }
  | .trace g mO mI sr sf st => { guard := g, sr := [sr.val, sf.val, st.val], sw := [st.val], mrd := [(1, mI.val)], mwr := [(5, mO.val)] }
  | .texs g mO mI sh sl => { guard := g, sr := [sh.val, sl.val], mrd := [(1, mI.val)], mwr := [(5, mO.val)] }
  | .texg g _ mO mI sh => { guard := g, sr := [sh.val], mrd := [(1, mI.val)], mwr := [(5, mO.val)] }
  | _ => {}

/-- Views read, with their record fields: sources, read destinations, whole registers. -/
def OpInfo.readViews (o : OpInfo) : List (Nat × View) :=
  o.srcs.filterMap (fun p => match p.2 with | .view x => some (p.1, x) | _ => none) ++ o.rdsts

/-- Scalar registers read, those that a broadcast operand names among them (R65, R73). -/
def OpInfo.scalars (o : OpInfo) : List Nat :=
  o.sr ++ o.srcs.filterMap (fun p => match p.2 with | .bcast i => some i.val | _ => none)

/-- Registers read: field and number (R121). -/
def OpInfo.readRegs (o : OpInfo) : List (Nat × Nat) := o.readViews.map (fun p => (p.1, p.2.m.val)) ++ o.mrd
/-- Registers written: field and number. -/
def OpInfo.writeRegs (o : OpInfo) : List (Nat × Nat) := o.dsts.map (fun p => (p.1, p.2.m.val)) ++ o.mwr
/-- Queues popped (R156). -/
def OpInfo.pops (o : OpInfo) : List Nat :=
  (o.srcs.filterMap (fun p => match p.2 with | .qpop q => some q.val | _ => none)).eraseDups

/-- The lowest operand field that pops queue n (R121). -/
def OpInfo.popField (o : OpInfo) (n : Nat) : Nat :=
  ((o.srcs.find? (fun p => match p.2 with | .qpop q => q.val == n | _ => false)).map Prod.fst).getD 0

/-- The `fmt` fields a V-slot instruction uses: lane arithmetic, element format with its accepted codes, scale
handling (R158). -/
def fmtUse (i : Instr) : Bool × Option (List Nat) × Bool :=
  let all := [0, 1, 2, 3, 4, 5, 6, 7, 8, 9, 10]
  match i with
  | .vadd _ la _ _ _ | .vsub _ la _ _ _ | .vmul _ la _ _ _ | .vfma _ la _ _ _ _ _ | .vmin _ la _ _ _
  | .vmax _ la _ _ _ | .vabs _ la _ _ | .vneg _ la _ _ => (la == 0, none, false)
  | .vcmp _ c _ _ _ => (c.val < 8, none, false)
  | .vcvt _ _ _ _ => (false, some all, false)
  | .vscl _ _ _ _ _ => (false, some all, true)
  | .vqmx _ _ _ => (false, some [3, 4, 5, 6, 7, 8], true)
  | .vdot4 _ _ _ _ _ => (false, some [3, 4, 5, 6, 8], false)
  | .vdot8 _ _ _ _ _ => (false, some [7, 9], false)
  | _ => (false, none, false)

/-- The `fmt` field at fault, if any: 0 lane arithmetic, 1 element format, 2 scale handling (R95, R158). -/
def fmtFault (i : Instr) (f : W32) : Option Nat :=
  let u := fmtUse i
  if u.1 && fmtLane f == 3 then some 0
  else match u.2.1 with
    | some l => if !(l.contains (fmtElt f)) then some 1 else if u.2.2 && fmtScale f ≥ 2 then some 2 else none
    | none => if u.2.2 && fmtScale f ≥ 2 then some 2 else none

end Sys2Proof.Machine
end

