-- ==== Sys2Proof/Machine/Ops.lean ====
section
/-! DEFINITION. The shared operations on streams: virtual memory through a core's own path, the service queue (R379),
suspension (R219), trap entry with the tile freeze (R374 to R376), escalation (R378) and the return (R377). -/

namespace Sys2Proof.Machine

/-! ### Streams -/

/-- The role byte of R310 and R330. -/
def roleCode : Role → Nat
  | .shader => 1 | .copy => 2 | .matrix => 3 | .vector => 4
/-- A role from its byte (R310). -/
def roleOf (n : Nat) : Role := if n == 2 then .copy else if n == 3 then .matrix else if n == 4 then .vector else .shader

/-- The dictionary that the issuing stream fetches through. -/
def State.curDict (s : State) : Option Dict := kget s.curGrp.dict s.dicts
/-- Is the issuing stream's dictionary privileged (R219, R330)? -/
def State.priv (s : State) : Bool := (s.curDict.map Dict.priv).getD false
/-- The page-table root of the issuing launch. -/
def State.root (s : State) : Nat := s.lpb.root
/-- Is the issuing core a shader core? -/
def State.onShader (s : State) : Bool := isShader s.cur.core
/-- The stream number of a trap record or service entry: PC slot on a shader core, role-group number on a tile. -/
def State.streamNo (s : State) : Nat := if s.onShader then s.cur.slot else s.curGrp.gix
/-- The header scope of the bundle in issue (R59). -/
def State.scope (s : State) : Nat := hdrScope s.cur.hdr
/-- A group of the issuing core that may issue at all. -/
def Group.running (g : Group) : Bool := g.halt == .none && !g.ended

/-! ### Virtual memory through the core's own path, at core scope -/

/-- Store bytes at core scope through the tables: none on any fault, with nothing stored. -/
def State.storeOwn (s : State) (c launch root : Nat) (priv : Bool) : Nat → List Byte → Option State
  | _, [] => some s
  | va, v :: r =>
    let s := s.settleWalk (coreDie c) root (va % 2 ^ 56)
    match s.xlatNow c root (va % 2 ^ 56) with
    | .ok (leaf, size) =>
      if permits (leafPerm leaf) .w priv then
        State.storeOwn ((s.storeG c launch (leafPa leaf size (va % 2 ^ 56)) [v] 0 (leafType leaf)).markFar (leafPa leaf size (va % 2 ^ 56)))
          c launch root priv (va + 1) r
      else none
    | .error _ => none

/-- Why an access of one byte fails: cause code, D0, D1 and whether the page is absent (R219, R373). -/
structure AccFault where
  cause : Nat
  d0 : Nat
  d1 : Nat
  absent : Bool
deriving DecidableEq, Repr

/-- The fault of a failed translation (R219, R373). A not-present page has no cause code: its code is open (log 12). -/
def XFault.acc (va : Nat) : XFault → AccFault
  | .notPresent => { cause := Config.notPresentCause, d0 := va, d1 := 0, absent := true }
  | .malformed l => { cause := 0x12, d0 := va, d1 := l, absent := false }
  | .unmapped pa => { cause := 0x13, d0 := va, d1 := pa, absent := false }
  | .data pa => { cause := 0x14, d0 := 0, d1 := pa, absent := false }

/-- The trap of a failed translation of va by slot n of the bundle at pc, other than of a page that is not present (R219, R373). -/
def XFault.trap (n va pc : Nat) (f : XFault) : TrapInfo :=
  let a := f.acc va
  { cause := a.cause, slot := n, field := 0, d0 := if a.cause == 0x14 then pc else a.d0, d1 := a.d1, d2 := 0, pc := none, strm := 0 }

/-- Load bytes at core scope through the tables: the bytes, or the first fault. -/
def State.loadOwn (s : State) (c launch root : Nat) (priv : Bool) : Nat → Nat → Except AccFault (List Byte × State)
  | _, 0 => .ok ([], s)
  | va, n + 1 =>
    let s := s.settleWalk (coreDie c) root (va % 2 ^ 56)
    match s.xlatNow c root (va % 2 ^ 56) with
    | .error f => .error (f.acc va)
    | .ok (leaf, size) =>
      if permits (leafPerm leaf) .r priv then
        let pa := leafPa leaf size (va % 2 ^ 56)
        match s.badFor c pa 1 with
        | some b => .error { cause := 0x14, d0 := s.curSlot.pc.toNat, d1 := b, absent := false }
        | none =>
          let r := s.loadG c launch pa 1 0 (leafType leaf)
          match State.loadOwn r.2 c launch root priv (va + 1) n with
          | .ok q => .ok (r.1 ++ q.1, q.2)
          | .error f => .error f
      else .error { cause := 0x09, d0 := 0, d1 := 3, absent := false }

/-- A lookup of every 64 KiB page of [va, va+n) for the issuing core: the pages with their outcomes. -/
def State.lookups (s : State) (va n : Nat) : List (Nat × Option (Except XFault (Nat × Nat))) :=
  (List.range ((va % 2 ^ 16 + n + 65535) / 2 ^ 16)).map (fun i =>
    let p := if i = 0 then va % 2 ^ 56 else (va / 2 ^ 16 + i) * 2 ^ 16 % 2 ^ 56
    (p, s.lookup s.cur.core s.root p))

/-! ### The service queue (R379, R409) -/

/-- An entry arises: it is held until SERVICE_ENTRY_PLACE finds a free place (R379). -/
def State.service (s : State) (e : Service) : State :=
  { s with svcHeld := s.svcHeld ++ [e], agenda := s.agenda ++ [.serviceEntryPlace] }

/-- A service entry that concerns the issuing stream. -/
def State.streamEntry (s : State) (kind cause va access token : Nat) : Service :=
  { kind := kind, cause := cause, die := coreDie s.cur.core, core := coreIx s.cur.core, gid := s.cur.gid,
    slot := if s.onShader then s.cur.slot else 0, ident := s.lpb.ident, va := va, access := access, token := token }

/-- The bits of an access in a service entry (R379). -/
def Acc.code : Acc → Nat
  | .r => 1 | .w => 2 | .x => 4 | .rw => 3

/-- A group whose counter 0 is zero is suspended on the page it stopped for: a service entry of kind 1 with a resume token
arises (R32, R219, R379). -/
def State.drainedPage (s : State) (core gid : Nat) : State :=
  let g := s.group core gid
  match g.halt with
  | .drain va acc slot =>
    if g.ctrs.getD 0 0 != 0 then s
    else
      let e : Service :=
        { kind := 1, cause := 0, die := coreDie core, core := coreIx core, gid := gid, slot := if isShader core then slot else 0,
          ident := (s.lpbOf g.launch).ident, va := va, access := acc, token := s.fresh }
      ({ (s.modGroup core gid (fun g => { g with halt := .page s.fresh })) with
          fresh := s.fresh + 1, tokens := kset s.fresh (.group core gid slot) s.tokens }).service e
  | _ => s
/-- Stop the issuing group for a not-present page with its bundle unissued: it is suspended as soon as its outstanding sectors have
drained (R32, R219). -/
def State.suspendPage (s : State) (va : Nat) (a : Acc) : State :=
  ((s.takeWalkF s.cur.core s.root va).modG (fun g => { g with halt := .drain va a.code s.cur.slot })).drainedPage s.cur.core s.cur.gid

/-! ### The trap record (R374, R386) -/

/-- A PC-slot record of 16 bytes (R386). -/
def pcRecord (p : PcSlot) : List Byte :=
  leBytes 4 p.pc.toNat ++ leBytes 4 p.mask.toNat ++ [BitVec.ofNat 8 p.depth, if p.mask == 0 then 0 else 1]
    ++ List.replicate 6 0
/-- The delta bases of a PC slot, 40 bytes. -/
def basesBytes (p : PcSlot) : List Byte := (List.range 5).flatMap (fun i => leBytes 8 (p.bases.getD i 0))
/-- A per-lane record of 16 bytes (R386). -/
def laneBytes (r : Option LaneRec) : List Byte :=
  match r with
  | none => List.replicate 16 0
  | some l => [BitVec.ofNat 8 l.kind, BitVec.ofNat 8 l.later, 0, 0] ++ leBytes 4 l.pc.toNat ++ leBytes 8 l.addr.toNat
/-- The 32 per-lane records. -/
def Group.laneImage (g : Group) : List Byte := (List.range 32).flatMap (fun j => laneBytes (kget j g.laneRecs))

/-- The trap record of the issuing stream (R374). -/
def State.trapRecord (s : State) (t : TrapInfo) : List Byte :=
  let g := s.curGrp
  let pc := (t.pc.getD (g.slot s.cur.slot).pc).toNat
  [BitVec.ofNat 8 t.cause, BitVec.ofNat 8 t.slot, BitVec.ofNat 8 t.field, BitVec.ofNat 8 s.streamNo] ++ leBytes 4 pc
    ++ leBytes 8 t.d0 ++ leBytes 8 t.d1 ++ leBytes 8 t.d2 ++ pcRecord g.slot0 ++ pcRecord g.slot1
    ++ leBytes 4 g.slot0.fmt.toNat ++ leBytes 4 g.slot1.fmt.toNat ++ basesBytes g.slot0 ++ basesBytes g.slot1
    ++ leBytes 4 g.faultMask.toNat ++ leBytes 4 g.dict ++ List.replicate 96 0 ++ g.laneImage

/-- A trap with no detail words. -/
def trapOf (cause slot field d0 d1 d2 : Nat) : TrapInfo :=
  { cause := cause, slot := slot, field := field, d0 := d0, d1 := d1, d2 := d2, pc := none, strm := 0 }

/-! ### Freeze (R376) -/

/-- A frozen result of a handler that was itself stopped: its slot number is 8 or more (model's own). -/
def InFlight.nested (f : InFlight) : Bool := 8 ≤ f.slot
/-- Freeze a tile: every fixed-latency result in flight goes to the freeze store with its remaining clk (R376). A result that has come and
waits for its bank's wake (R119) is none of them and lands in the handler: DESIGN CHOICE, log 83. -/
def Core.freezeAll (c : Core) (who : Nat) : Core :=
  { c with freeze := c.freeze ++ c.inflight.map (fun f =>
             { f with due := f.due - c.pclk, issued := f.issued - c.pclk, slot := if c.frozen.isSome then f.slot % 8 + 8 else f.slot }),
           inflight := [], frozen := some who, frozenClk := if c.frozen.isNone then c.pclk else c.frozenClk }

/-- Does an entry of the freeze store count down from the next bundle on: in a handler, only its own? -/
def Core.counts (c : Core) (f : InFlight) : Bool := c.frozen.isNone || f.nested
/-- The first resumed bundle issues: entries count down from this clk (R376). -/
def Core.thaw (c : Core) : Core :=
  { c with inflight := c.inflight ++ (c.freeze.filter c.counts).map (fun f => { f with due := f.due + c.pclk, issued := f.issued + c.pclk }),
           freeze := c.freeze.filter (fun f => !(c.counts f)) }

/-! ### Escalation and entry (R375, R378) -/

/-- Escalate an event of the issuing stream: its group is stopped, on a tile the whole gang is frozen, a service entry
of kind 2 arises and the fault vector is raised (R378). -/
def State.escalate (s : State) (t : TrapInfo) : State :=
  let s := s.modG (fun g => { g with halt := .stopped })
  let s := if s.onShader then s else s.modC (fun c => c.freezeAll 255)
  (s.raiseMsix 0).service (s.streamEntry 2 t.cause t.d0 0 0)

/-- The trap vector of a role (R370). -/
def State.vector (s : State) (r : Role) : TrapVec :=
  s.vectors.getD (roleCode r - 1) { dict := 0, enable := false, entry := 0 }

/-- The vector of the issuing stream where a handler can be entered: enabled, naming a dictionary installed for the
stream's core kind and role, the stream not in a handler, the trap area within the private bytes (R375, R378). -/
def State.handler (s : State) : Option TrapVec :=
  let g := s.curGrp
  let v := s.vector g.role
  let ok := match kget v.dict s.dicts with
    | some d => d.tile == (g.role != .shader) && d.role == roleCode g.role
    | none => false
  if v.enable && ok && !g.inHandler && s.homeLpb.stackBytes + 768 ≤ s.homeLpb.privBytes then some v else none

/-- The VA of a group's trap area (R375). -/
def State.trapArea (s : State) : Nat := (s.curGrp.privBase + s.homeLpb.stackBytes) % 2 ^ 56

/-- The latest landing of a group's fixed-latency results. -/
def Core.lastDue (c : Core) (gid : Nat) : Nat :=
  (c.inflight.filter (fun f => f.gid == gid)).foldl (fun a f => max a f.due) 0

/-- The group state at the first bundle of a handler (R375): PC slot 0 at the entry with all lanes and depth 0, slot 1
empty, delta bases NOP, the handler's dictionary (for its code segment see log 14). The waits of the slots are put aside. -/
def Group.enterHandler (g : Group) (v : TrapVec) (next : Nat) : Group :=
  { g with
    slot0 := { pc := BitVec.ofNat 32 v.entry, mask := allLanes, depth := 0, fmt := g.slot0.fmt,
               bases := [0, 0, 0, 0, 0], next := next, wait := .none, kept := g.slot0.wait, skip := false },
    slot1 := { PcSlot.empty with fmt := g.slot1.fmt, next := next, kept := g.slot1.wait },
    inHandler := true, serving := false, dict := v.dict }

/-- Take a fault or trap at the issuing stream (R375, R376, R378): the tile freezes, the record is written to the trap
area as a core-scope store, and the handler starts; or the event is escalated. -/
def State.takeTrap (s : State) (t : TrapInfo) : State :=
  match s.handler with
  | none => s.escalate t
  | some v =>
    match s.storeOwn s.cur.core s.curGrp.launch s.root s.priv s.trapArea (s.trapRecord t) with
    | none => s.escalate t
    | some s' =>
      if s.onShader then
        s'.modG (fun g => g.enterHandler v (max (s.curCore.pclk + 1) (s.curCore.lastDue s.cur.gid)))
      else
        (s'.modC (fun c => c.freezeAll s.cur.gid)).modG (fun g => g.enterHandler v (s.curCore.pclk + 1))

/-! ### Return (R377) -/

/-- A little-endian field of a byte image. -/
def imgNat (b : List Byte) (off n : Nat) : Nat := leNat ((b.drop off).take n)

/-- A PC slot restored from a trap record: its record at `off`, `fmt` and bases; the wait put aside at entry returns. -/
def PcSlot.fromRecord (p : PcSlot) (b : List Byte) (off fo bo next : Nat) : PcSlot :=
  { pc := BitVec.ofNat 32 (imgNat b off 4), mask := BitVec.ofNat 32 (imgNat b (off + 4) 4), depth := imgNat b (off + 8) 1,
    fmt := fmtReg (BitVec.ofNat 32 (imgNat b fo 4)), bases := (List.range 5).map (fun i => imgNat b (bo + 8 * i) 8), next := next,
    wait := p.kept, kept := .none, skip := false }

/-- The stack limit of a group: records of 80 bytes in the stack part of its private segment, at most 255 (R31, R139). An inline
child runs on the forking group's stack (R37). -/
def State.stackLimit (s : State) : Nat := min (s.homeLpb.stackBytes / 80) 255

/-- Why a trap record may not be returned through: 0 odd PC, 1 overlapping masks, 2 depth, 3 dictionary slot (R377). -/
def State.badReturn (s : State) (b : List Byte) : Option (Nat × Nat) :=
  let pc0 := imgNat b 32 4
  let pc1 := imgNat b 48 4
  let m := BitVec.ofNat 32 (imgNat b 36 4) &&& BitVec.ofNat 32 (imgNat b 52 4)
  let dep := max (imgNat b 40 1) (imgNat b 56 1)
  let own := s.lpb.roles.any (fun r => r.role == roleCode s.curGrp.role && r.dict == imgNat b 156 1)
  if pc0 % 2 == 1 then some (0, pc0)
  else if pc1 % 2 == 1 then some (0, pc1)
  else if m != 0 then some (1, m.toNat)
  else if dep > s.stackLimit then some (2, dep)
  else if !own then some (3, imgNat b 156 1)
  else none

/-- The group restored from a trap record (R377). -/
def Group.fromRecord (g : Group) (b : List Byte) (next : Nat) : Group :=
  let fm : W32 := BitVec.ofNat 32 (imgNat b 152 4)
  { g with
    slot0 := g.slot0.fromRecord b 32 64 72 next, slot1 := g.slot1.fromRecord b 48 68 112 next, faultMask := fm,
    laneRecs := g.laneRecs.filter (fun p => bitOn fm p.1), dict := imgNat b 156 1, inHandler := false, serving := false }

/-- On a tile the other role groups keep the distance to their next bundles that they had at the freeze (R376). -/
def Core.unfreeze (c : Core) (gid next : Nat) : Core :=
  { c with frozen := none,
           groups := c.groups.map (fun p =>
             if p.1 == gid then p
             else (p.1, p.2.modSlot 0 (fun q => { q with next := next + (q.next - c.frozenClk) }))) }

/-- Does a copy-channel or sort-engine fault of a unit of work still wait to be served? -/
def Group.pends (g : Group) (cause d0 : Nat) : Bool := g.deferred.any (fun t => t.cause == cause && t.d0 == d0)

/-- The stopped channels and MERGE commands of a group resume once their fault has been served (R276, R299). -/
def State.resumeEngines (s : State) (c g : Nat) : State :=
  let gr := s.group c g
  let s := s.modCore c (fun k => { k with chans := k.chans.map (fun p =>
    match p.2.q with
    | q :: _ =>
      if p.2.stopped && q.gid == g && !(gr.pends 0x18 (p.1 + q.args.getD 4 0 % 256 * 2 ^ 8)) then
        (p.1, { p.2 with stopped := false, nextAt := k.clk + 1 })
      else (p.1, { p.2 with q := p.2.q.map (fun x =>
        if x.bad && x.gid == g && !(gr.pends 0x18 (p.1 + x.args.getD 4 0 % 256 * 2 ^ 8)) then { x with bad := false } else x) })
    | [] => p) })
  { s with sortQ := s.sortQ.map (fun p =>
      match p.2 with
      | q :: r =>
        if q.bad && q.gcore == c && q.gid == g && !(gr.pends 0x1B (p.1 / 32 + p.1 % 32 * 2 ^ 8 + q.id % 2 ^ 16 * 2 ^ 16)) then
          (p.1, { q with bad := false, due := s.now + tickNs } :: r)
        else p
      | [] => p) }

/-- Return from a handler (R377): read the record, check it, restore the stream; every failure escalates. -/
def State.returnFrom (s : State) : State :=
  match s.loadOwn s.cur.core s.curGrp.launch s.root s.priv s.trapArea 768 with
  | .error f => s.escalate (trapOf f.cause 0 0 f.d0 f.d1 0)
  | .ok (b, s') =>
    match s.badReturn b with
    | some (d0, d1) => s.escalate (trapOf 0x26 0 0 d0 d1 0)
    | none =>
      let next := s.curSlot.next + Config.latency s'.free
      let s' := { s' with free := s'.free + 1 }
      let s' := (s'.modG (fun g => g.fromRecord b next)).resumeEngines s.cur.core s.cur.gid
      if s.onShader then s' else s'.modC (fun c => c.unfreeze s.cur.gid next)

end Sys2Proof.Machine
end

