-- ==== Sys2Proof/Machine/Issue.lean ====
section
/-! DEFINITION. Issue of a bundle (R54, R61, R71, R72, R372): the checks in their order, holds and wakes (R119, R120),
the checking scoreboard (R73, R128), what every issue does, and its tail. The meanings of the slot instructions come in
as three functions: the checks of the slots, their holds, and their effects. -/

namespace Sys2Proof.Machine

/-- What the checks of a slot end in: nothing, a fault or trap, a suspension on a page, or walks still wanted. -/
inductive Chk where
  | ok
  | trap (t : TrapInfo)
  | suspend (va : Nat) (a : Acc)
  | walk (vas : List Nat)
deriving DecidableEq, Repr

/-- The first result that is not ok. -/
def Chk.orElse : Chk → Chk → Chk
  | .ok, c => c
  | c, _ => c
/-- The first of a list of checks that is not ok. -/
def Chk.first (l : List Chk) : Chk := l.foldl Chk.orElse .ok
/-- A trap when b holds. -/
def Chk.when (b : Bool) (t : TrapInfo) : Chk := if b then .trap t else .ok

/-- A slot of the bundle in issue: its number and instruction. -/
abbrev SlotI := Nat × Instr

/-- The checks of an access to [va, va+n) of the stream's virtual memory by slot n0: walks that are wanted, then the
first fault in address order (R219, R225). A permission fault here has no lane: it is a memory-access fault of kind 3. -/
def State.rangeChk (s : State) (slot va n : Nat) (a : Acc) : Chk :=
  let l := s.lookups va n
  match l.filterMap (fun p => if p.2.isNone then some p.1 else none) with
  | p :: r => .walk (p :: r)
  | [] =>
    Chk.first (l.map (fun p => match p.2 with
      | some (.error .notPresent) => .suspend p.1 a
      | some (.error f) => .trap (f.trap slot p.1 s.curSlot.pc.toNat)
      | some (.ok (leaf, _)) => .when (!(permits (leafPerm leaf) a s.priv)) (trapOf 0x09 slot 0 0 3 p.1)
      | none => .ok))

/-! ### Role-queue rows (R156, R311, R327) -/

/-- Source format of a role-queue descriptor. -/
def rqSrc (d : Nat) : Nat := fld d 24 4
/-- Sink format. -/
def rqSink (d : Nat) : Nat := fld d 28 4
/-- Depth. -/
def rqDepth (d : Nat) : Nat := fld d 32 6 + 1
/-- A offset. -/
def rqOff (d : Nat) : Nat := fld d 0 22
/-- Is the descriptor valid? -/
def rqValid (d : Nat) : Bool := bitN d 63
/-- Entry bytes. -/
def rqBytes (d : Nat) : Nat := 4 * fmtBits (rqSrc d)
/-- A offset of entry e. -/
def rqEntry (d e : Nat) : Nat := rqOff d + (e % rqDepth d) * rqBytes d
/-- Role queue n of a unit. -/
def WUnit.rq (u : WUnit) (n : Nat) : RoleQueue :=
  u.queues.getD n { desc := 0, head := 0, count := 0, coming := [], freed := (0, 0) }
/-- Change role queue n of the issuing unit. -/
def State.modQ (s : State) (n : Nat) (f : RoleQueue → RoleQueue) : State :=
  s.modU (fun u => { u with queues := u.queues.set n (f (u.rq n)) })

/-- The 32 elements of an entry, converted to the sink format (R327). -/
def Core.rqRow (c : Core) (d e : Nat) : List W32 :=
  let w := c.bufNat 2 (rqEntry d e) (rqBytes d)
  (List.range 32).map (fun j => BitVec.ofNat 32 (convert (rqSrc d) (rqSink d) 0 true (memElt (rqSrc d) w j)))

/-- The pops of a bundle in slot order: (slot, queue). -/
def popsOf (l : List SlotI) : List (Nat × Nat) := l.flatMap (fun p => (opInfo p.2).pops.map (fun q => (p.1, q)))

/-- How many slots of a bundle before slot n pop queue q: their rows stand before its own (R156). -/
def popsBefore (l : List SlotI) (n q : Nat) : Nat := ((popsOf l).filter (fun p => p.2 == q && p.1 < n)).length
/-- A offset of the row that slot n of a bundle pops from queue q. -/
def State.popRow (s : State) (l : List SlotI) (n q : Nat) : Nat :=
  rqEntry (s.curUnit.rq q).desc ((s.curUnit.rq q).head + popsBefore l n q)
/-- The scratch banks that a bundle's pops read. -/
def State.popBanks (s : State) (l : List SlotI) : List Nat :=
  (popsOf l).flatMap (fun p => spanBanks 2 (s.popRow l p.1 p.2) (rqBytes (s.curUnit.rq p.2).desc))

/-- The bank kind of the dark-read fault (R373) and bank number of a scratch-bank index. -/
def bankKind (i : Nat) : Nat × Nat :=
  if i < 80 then (1, i) else if i < 120 then (2, i - 80) else if i < 128 then (3, i - 120) else (4, i - 128)
/-- The dark-read trap of a bank (R121, R373). -/
def darkTrap (slot field kind bank : Nat) : TrapInfo := trapOf 0x03 slot field (kind + bank * 2 ^ 8) 0 0
/-- A dark-read trap on the first DARK bank of a list of scratch banks that is not waking. -/
def State.darkScratch (s : State) (slot field : Nat) (banks : List Nat) : Chk :=
  match banks.find? (fun i => (s.curCore.sbank i).st == .dark && (s.curCore.sbank i).wakeAt.isNone) with
  | some i => .trap (darkTrap slot field (bankKind i).1 (bankKind i).2)
  | none => .ok

/-- The check of a slot's pop of a queue in bundle l: an invalid queue (R328), a DARK bank under the row (R122), each under the lowest
operand field that names the queue (R121). -/
def State.popCheck (s : State) (l : List SlotI) (p : SlotI) (n : Nat) : Chk :=
  let q := s.curUnit.rq n
  let op := ((encode p.2).map (fun e => fld e.2 0 8)).getD 0
  let at_ := s.popRow l p.1 n
  if !(rqValid q.desc) then .trap (trapOf 0x1F p.1 0 n op 0)
  else if q.count ≤ popsBefore l p.1 n then .ok
  else (s.darkScratch p.1 ((opInfo p.2).popField n) (spanBanks 2 at_ (rqBytes q.desc))).orElse
    (match s.curCore.badBytes 2 at_ (rqBytes q.desc) with
     | some o => .trap (trapOf 0x14 p.1 ((opInfo p.2).popField n) s.curSlot.pc.toNat o 0)
     | none => .ok)
/-- An uncorrectable error in a register bank that a slot reads: the data-error fault, with the bank (R373). -/
def State.bankError (s : State) (p : SlotI) : Chk :=
  match (opInfo p.2).readRegs.find? (fun r => s.curGrp.badBanks.contains r.2) with
  | some r => .trap (trapOf 0x14 p.1 r.1 s.curSlot.pc.toNat r.2 0)
  | none => .ok
/-- The checks of the pops of a slot of bundle l. -/
def State.popChecks (s : State) (l : List SlotI) (p : SlotI) : Chk := Chk.first ((opInfo p.2).pops.map (s.popCheck l p))

/-- Are the rows that a bundle pops all there (R156)? -/
def State.popsReady (s : State) (l : List SlotI) : Bool :=
  (List.range 4).all (fun q => ((popsOf l).filter (fun p => p.2 == q)).length ≤ (s.curUnit.rq q).count)

/-- Pop one row for slot n from queue q (R156, R327). -/
def State.pop1 (s : State) (p : Nat × Nat) : State :=
  let q := s.curUnit.rq p.2
  let row := s.curCore.rqRow q.desc q.head
  let clk := s.curCore.clk
  let s := s.modQ p.2 (fun q => { q with
    head := (q.head + 1) % rqDepth q.desc, count := q.count - 1,
    freed := (clk, (if q.freed.1 == clk then q.freed.2 else 0) + 1) })
  { s with cur := { s.cur with pops := s.cur.pops ++ [(p.1 * 4 + p.2, row)] } }

/-! ### Items 2 to 6 of R372 -/

/-- An instruction as item 2 checks it: the bank count of an effective QUOTA is no case of R69 and R78, and the quota fault answers
for it (R126, R149). -/
def forCheck (i : Instr) : Instr :=
  match i with
  | .quota g recv _ => .quota g recv 1
  | i => i
/-- Item 2: the bundle's validity for the stream that issues it (R76 to R78). -/
def State.illegal (s : State) (l : List SlotI) : Option TrapInfo :=
  let iss := s.curGrp.role
  let word (c wh op : Nat) : TrapInfo := trapOf 0x01 wh 0 (rejectWord c wh s.cur.idx op) 0 0
  match checkHdr iss s.cur.hdr with
  | some c => some (word c 5 0)
  | none =>
    match l.findSome? (fun p => match encode (forCheck p.2) with
      | some (cls, w) => (checkSlot iss s.priv s.scope cls w).map (fun c => word c p.1 (fld w 0 8))
      | none => none) with
    | some t => some t
    | none => (checkTail iss s.cur.tail).map (fun c => word c 6 0)

/-- Item 3: ERET in a stream that runs no handler (R147). -/
def State.privilege (s : State) (l : List SlotI) : Option TrapInfo :=
  l.findSome? (fun p => match p.2 with
    | .eret g => if s.act g != 0 && !s.curGrp.inHandler then some (trapOf 0x06 p.1 0 0 0 0) else none
    | _ => none)

/-- The register with the lowest field among those that fail a test: (field, register). -/
def lowestField (l : List (Nat × Nat)) : Option (Nat × Nat) :=
  l.foldl (fun a x => match a with | none => some x | some y => if x.1 < y.1 then some x else some y) none

/-- Item 4: registers and tail banks at or above the budget (R29, R61). -/
def State.overBudget (s : State) (l : List SlotI) : Option TrapInfo :=
  let b := s.curGrp.budget
  match l.findSome? (fun p =>
      let o := opInfo p.2
      (lowestField ((o.readRegs ++ o.writeRegs).filter (fun r => b ≤ r.2))).map
        (fun r => trapOf 0x02 p.1 r.1 r.2 b 0)) with
  | some t => some t
  | none =>
    if fld s.cur.tail 10 2 == 0 then none
    else ((List.range 10).find? (fun i => bitN s.cur.tail i && b ≤ i)).map (fun i => trapOf 0x02 6 7 i b 0)

/-- Item 5: registers read in DARK banks (R121). -/
def State.darkRead (s : State) (l : List SlotI) : Option TrapInfo :=
  l.findSome? (fun p =>
    (lowestField ((opInfo p.2).readRegs.filter (fun r =>
      (s.curGrp.bank r.2).st == .dark && (s.curGrp.bank r.2).wakeAt.isNone))).map
        (fun r => darkTrap p.1 r.1 0 r.2))

/-- Item 6: the format fault (R95, R158). -/
def State.formatFault (s : State) (l : List SlotI) : Option TrapInfo :=
  l.findSome? (fun p => (fmtFault p.2 s.curSlot.fmt).map
    (fun k => trapOf 0x04 p.1 0 s.curSlot.fmt.toNat k 0))

/-- Items 2 to 6 in order. -/
def State.precheck (s : State) (l : List SlotI) : Option TrapInfo :=
  [s.illegal l, s.privilege l, s.overBudget l, s.darkRead l, s.formatFault l].findSome? id

/-! ### Holds (item 8) -/

/-- Does the slot act in some lane, or as a whole (R62)? -/
def State.acts (s : State) (i : Instr) : Bool := s.act (opInfo i).guard != 0

/-- Register banks a bundle reads. -/
def readBanks (l : List SlotI) : List Nat := l.flatMap (fun p => (opInfo p.2).readRegs.map Prod.snd)
/-- Register banks that fixed-latency results of the bundle write, with their latencies. -/
def State.writeBanks (s : State) (l : List SlotI) : List (Nat × Nat) :=
  l.flatMap (fun p =>
    let o := opInfo p.2
    if o.lam = 0 || !s.acts p.2 then [] else o.dsts.map (fun d => (d.2.m.val, o.lam)))

/-- Wake the register banks that the bundle reads or its fixed-latency results land in (R119, R120). -/
def State.wakeBanks (s : State) (l : List SlotI) : State :=
  let bs := readBanks l ++ (s.writeBanks l).map Prod.fst
  s.modC (fun c => bs.foldl (fun c i => c.wakeReg s.cur.gid i) c)
/-- Wake scratch banks. -/
def State.wakeScratchL (s : State) (bs : List Nat) : State := s.modC (fun c => bs.foldl Core.wakeScratch c)

/-- A register bank that holds the bundle back for its wake, if any (R119, R120). -/
def State.wakeHold (s : State) (l : List SlotI) : Option Nat :=
  let g := s.curGrp
  let clk := s.curCore.clk
  let late (i lam : Nat) : Bool := match (g.bank i).wakeAt with
    | some w => clk + lam < w
    | none => (g.bank i).st != .bright && lam < 6
  match (readBanks l).find? (fun i => !(g.bank i).ready) with
  | some i => some i
  | none => ((s.writeBanks l).find? (fun p => late p.1 p.2)).map Prod.fst

/-- The scratch banks that a tail's scratch action names (R60). -/
def tailScratch (t : Nat) : List Nat :=
  if fld t 12 2 == 0 then []
  else
    let b := fld t 14 2 + 1
    let n := if b == 1 then 80 else if b == 2 then 40 else if b == 3 then 8 else 6
    ((List.range 4).map (fun i => 4 * fld t 16 8 + i)).filterMap (fun i => if i < n then some (bufBase b + i) else none)

/-- Does a reservation name a scratch bank (R210)? -/
def Core.reserved (c : Core) (i : Nat) : Bool := c.resv.any (fun r => bufBase r.buf + r.bank == i)

/-- Does the tail name a scratch bank that a reservation holds (R61)? -/
def State.tailHeld (s : State) : Bool := (tailScratch s.cur.tail).any s.curCore.reserved
/-- The holds that belong to the bundle as a whole: its tail's reserved banks (R61), its pops (R156). -/
def State.bundleHold (s : State) (l : List SlotI) : Bool := s.tailHeld || !s.popsReady l

/-! ### The checking scoreboard (item 9, R73, R128) -/

/-- Keys of matrix elements that a bundle reads or writes through a slot. -/
def OpInfo.keys (o : OpInfo) : List Nat :=
  (o.readViews.map Prod.snd ++ o.dsts.map Prod.snd).flatMap (fun x => (List.range 32).map (vkey x))
/-- Workgroup scalars a slot names (R134). -/
def wNames : Instr → List Nat
  | .movs _ (.ws wd _) => [wd.val]
  | .movs _ (.sw _ wa) => [wa.val]
  | _ => []

/-- The element that MOVX into a vector writes: lane s(sa)[4:0], acting or not (R128, R134). -/
def State.movxKey (s : State) (v : View) (sa : SReg) : Nat := vkey v (fld (s.sr sa.val).toNat 0 5)
/-- Keys of the matrix elements that a slot reads or writes through its views. -/
def State.touched (s : State) (i : Instr) : List Nat :=
  match i with
  | .movxToVector _ v _ sa => [s.movxKey v sa]
  | _ => (opInfo i).keys
/-- Elements of rows r to r + n - 1 of register m in the lanes of a mask. -/
def rowKeys (m r n : Nat) (act : W32) : List Nat :=
  (List.range n).flatMap (fun k => ((List.range 32).filter (bitOn act)).map (elemKey m (r + k)))
/-- Elements that the register result of an E slot writes (R187, R189, R197, R201, R205, R292). -/
def resultKeys (act : W32) (i : Instr) : List Nat :=
  match i with
  | .accrd _ o => if o.reg then (List.range (o.m1.val + 1)).flatMap (fun k => (List.range (o.n1.val + 1)).map (elemKey o.mreg.val k)) else []
  | .qrread _ _ false _ m => rowKeys m.val 0 32 allLanes
  | .angout _ _ m k => rowKeys m.val k.val 2 allLanes
  | .rast _ m _ _ _ => rowKeys m.val 0 3 allLanes
  | .trace _ mO _ _ _ _ => rowKeys mO.val 0 6 act
  | .texs _ mO _ _ _ | .texg _ _ mO _ _ => rowKeys mO.val 0 4 act
  | _ => []
/-- Keys of the matrix elements that a slot writes where it acts (R62, R128). -/
def State.destKeys (s : State) (i : Instr) : List Nat :=
  match i with
  | .movxToVector _ v _ sa => [s.movxKey v sa]
  | _ =>
    let act := s.act (opInfo i).guard
    (opInfo i).dsts.flatMap (fun d => ((List.range 32).filter (bitOn act)).map (vkey d.2)) ++ resultKeys act i

/-- Does a result in flight touch what a slot reads or writes? The register, if so. A VCMP into p0 is a result in flight as into any
other predicate, though its write is discarded: the spec does not say. DESIGN CHOICE, log 66. -/
def hitBy (o : OpInfo) (ws : List Nat) (keys : List Nat) (w : Wr) : Option Nat :=
  match w with
  | .s r _ => if (o.scalars ++ o.sw).contains r then some r else none
  | .p r m _ => if m != 0 && ((o.guard.pg.val :: o.pr) ++ o.pw).contains r then some r else none
  | .m k _ => if keys.contains k || ((o.mrd ++ o.mwr).map Prod.snd).contains (k / 1024) then some (k / 1024) else none
  | .w r _ => if ws.contains r then some r else none
  | .a _ _ | .b _ _ => none

/-- A common destination of two slots where both act: its register (R128). -/
def State.collide (s : State) (a b : Instr) : Option Nat :=
  let x := opInfo a
  let y := opInfo b
  if !(s.acts a) || !(s.acts b) then none
  else
    match x.sw.find? (y.sw.contains ·) with
    | some r => some r
    | none =>
      let pm (i : Instr) : W32 := match i with | .vcmp g _ _ _ _ => s.act g | _ => s.active
      match x.pw.find? (fun r => r != 0 && y.pw.contains r && pm a &&& pm b != 0) with
      | some r => some r
      | none =>
        let ky := s.destKeys b
        ((s.destKeys a).find? (ky.contains ·)).map (· / 1024)

/-- The first pair of a list for which f answers. -/
def pairs {α β : Type} (f : α → α → Option β) : List α → Option β
  | [] => none
  | a :: r => match r.findSome? (f a) with | some b => some b | none => pairs f r

/-- The writes of fixed-latency results of the issuing group that are in flight: those that wait for a wake, and at the first bundle
after a handler those of the freeze store, among them (R73, R119, R376). -/
def State.flying (s : State) : List Wr :=
  ((s.curCore.inflight ++ s.curCore.freeze.filter s.curCore.counts).filter (fun f => f.gid == s.cur.gid)).flatMap InFlight.writes
    ++ (s.curCore.sectors.filter (fun f => f.gid == s.cur.gid && f.fixed)).flatMap Sector.writes
/-- Item 9: the stall-count trap (R73), with the scratch banks that would still be woken. Where several of the three cases hold at
once the spec does not say which the record names: here the first of result in flight, wake, collision. Nor does it say whether a slot
reads or writes where its guard lets it act nowhere: in the first case it counts, whatever its guard. DESIGN CHOICE, log 66. -/
def State.stallTrap (s : State) (l : List SlotI) (asleep : List Nat) : Option TrapInfo :=
  if !s.lpb.scoreboard then none
  else
    let fl := s.flying
    match l.findSome? (fun p =>
        let o := opInfo p.2
        let keys := s.touched p.2
        (fl.findSome? (hitBy o (wNames p.2) keys)).map (fun r => trapOf 0x05 p.1 0 0 r 0)) with
    | some t => some t
    | none =>
      match (s.wakeHold l).orElse (fun _ => asleep.head?.map (fun i => (bankKind i).2)) with
      | some i => some (trapOf 0x05 7 0 1 i 0)
      | none => (pairs (fun a b => s.collide a.2 b.2) l).map (fun r => trapOf 0x05 7 0 2 r 0)

/-! ### Issue -/

/-- The images of the five slots (R68). -/
def imagesOf (l : List SlotI) : List Nat :=
  (List.range 5).map (fun n => ((l.find? (fun p => p.1 == n)).bind (fun p => (encode p.2).map Prod.snd)).getD 0)

/-- The images of the five slots of the bundle in issue, with every bit that a delta left in them (R68). -/
def Cur.images (c : Cur) (l : List SlotI) : List Nat := if c.imgs.isEmpty then imagesOf l else c.imgs

/-- The issue path of a stream: the partition of its group on a shader core, its role group on a tile (R22, R54). -/
def State.path (s : State) : Nat := if s.onShader then s.cur.gid % 4 else s.cur.gid

/-- A core in a clk in which a stream of path p issues: results kept by a freeze count down again, the header's energy weight is
charged (R54, R59, R376). On a shader core the round-robin place moves past the issuing slot. -/
def Core.enter (k : Core) (p weight turn : Nat) (shader : Bool) : Core :=
  { k.thaw with issued := k.issued ++ [p], weight := k.weight + weight, rr := if shader then k.rr.set p turn else k.rr }
/-- The stream's group as its bundle issues: the PC at the successor, the next issue after the stall count, the images of this
bundle as delta bases; a restart mark records the PC and clears the bases (R59, R68, R70, R71). -/
def Group.moveOn (g : Group) (c : Cur) (now : Nat) (l : List SlotI) : Group :=
  let p := g.slot c.slot
  ({ g with rlbl := if hdrMark c.hdr then p.pc else g.rlbl }).setSlot c.slot
    { p with pc := p.pc + BitVec.ofNat 32 c.len, next := now + 1 + hdrStall c.hdr,
             bases := if hdrMark c.hdr then [0, 0, 0, 0, 0] else c.images l }
/-- The stream moves to its successor (R54, R71). -/
def State.moveOn (s : State) (l : List SlotI) : State :=
  let c := s.cur
  ((s.wakeBanks l).modC (fun k => k.enter s.path (hdrEnergy c.hdr) (c.gid / 4 * 2 + c.slot + 1) s.onShader)).modG
    (fun g => g.moveOn c s.curCore.pclk l)
/-- The views that the slots of a bundle write results to (R386). -/
def viewsOf (l : List SlotI) : List (Nat × Nat) := l.flatMap (fun p => (opInfo p.2).dsts.map (fun d => (p.1, d.2.code)))
/-- What every issue does before its slots act (R54, R59, R68, R71, R376): the stream moves on, events are counted (R369), rows
are popped (R156). -/
def State.start (s : State) (l : List SlotI) : State :=
  let c := s.cur
  let vs := (l.filter (fun p => (p.1 == 1 || p.1 == 2) && s.acts p.2)).length
  let ms := (l.filter (fun p => p.1 == 3 && s.acts p.2)).length
  let s := (((s.moveOn l).bump c.core 2 1).bump c.core 3 vs).bump c.core 4 ms
  (popsOf l).foldl State.pop1 { s with cur := { s.cur with pops := [], hand := none, views := viewsOf l } }

/-- The bank actions of a tail (R61, R118, R122). -/
def State.tailActs (s : State) : State :=
  let t := s.cur.tail
  let a := fld t 10 2
  let sa := fld t 12 2
  s.modC (fun c =>
    let clk := c.clk
    let c := if a == 0 then c else (List.range 10).foldl (fun c i =>
      if bitN t i && i < (c.group s.cur.gid).budget then
        (let c := if a == 3 && ((c.group s.cur.gid).bank i).sleeps then { c with wakes := c.wakes + 8 } else c
         let c := c.modGroup s.cur.gid (fun g => g.setBank i ((g.bank i).action a clk 6))
         if a == 2 then c.modGroup s.cur.gid (fun g => { g with mat := sdrop (1024 * i) 1024 g.mat }) else c)
      else c) c
    if sa == 0 then c else (tailScratch t).foldl (fun c i =>
      let own := i < 128 || (let u := c.unit (c.group s.cur.gid).uid
        u.shBase ≤ 4 * (i - 128) && 4 * (i - 128) + 4 ≤ u.shBase + u.shUnits)
      if own then
        (let c := if sa == 3 && (c.sbank i).sleeps then { c with wakes := c.wakes + 64 } else c
         let c := c.setSbank i ((c.sbank i).action sa clk 40)
         if sa == 2 then { c with buf := sdrop (65536 * i) 65536 c.buf } else c)
      else c) c)

/-- Is a deferred trap due at the next bundle of PC slot i: a software trap, or a class N fault that its engine reported, unless the
handler still serves one before it (R371)? -/
def Group.isDue (g : Group) (i : Nat) (t : TrapInfo) : Bool := t.strm == i && (t.pc.isSome || !(g.inHandler && g.serving))
/-- The deferred trap that the issuing stream's next bundle takes, if any (R371, R372 item 1). -/
def State.dueTrap (s : State) : Option TrapInfo := s.curGrp.deferred.find? (s.curGrp.isDue s.cur.slot)
/-- A deferred trap of the stream is served: it leaves the list and is taken; while a handler serves a class N fault, later ones wait
(R371). -/
def State.serveDeferred (s : State) (t : TrapInfo) : State :=
  ((s.modG (fun g => { g with deferred := g.deferred.erase t })).takeTrap t).modG (fun g => { g with serving := g.inHandler && t.pc.isNone })

/-- The hand-over of a QUOTA in the bundle: the last banks of the giver join the receiver, DARK (R123, R149). -/
def State.handOver (s : State) : State :=
  match s.cur.hand with
  | none => s
  | some (recv, k) =>
    let b := s.curGrp.budget
    (({ s with cur := { s.cur with hand := none } }).modG (fun g =>
      { g with banks := g.banks.take (b - k), mat := sdrop (1024 * (b - k)) (1024 * k) g.mat })).modGroup
        s.cur.core recv (fun g => { g with banks := g.banks ++ List.replicate k Bank.start })

/-- After the slots: tail actions, the hand-over of a QUOTA, then on a shader core the software trap of this bundle (R61, R146,
R149, R375). -/
def State.finish (s : State) : State :=
  let s := s.tailActs.handOver
  let s := { s with cur := { s.cur with pops := [], hand := none, imgs := [], views := [] } }
  if s.onShader then
    match s.dueTrap with
    | some t => if t.pc.isSome then s.serveDeferred t else s
    | none => s
  else s

/-- What raising a fault settles: the ended walk that it reports is forgotten, and the recorded data error that it reports is cleared
(R226, R260): another fault leaves that error pending. -/
def State.onTrap (s : State) (t : TrapInfo) : State :=
  if t.cause == 0x12 || t.cause == 0x13 then s.takeWalkF s.cur.core s.root t.d0
  else if t.cause == 0x1E then s.modC (fun c => { c with walkF := c.walkF.filter (fun w => w.who != s.me) })
  else if t.cause == 0x14 then
    (s.modC (fun c => { c with walkF := c.walkF.filter (fun w => !(w.who == s.me && w.f == .fault (.data t.d1))) })).modG
      (fun g => { g with dataErr := if g.dataErr.any (fun e => e.1.toNat == t.d0 && e.2 == t.d1) then none else g.dataErr })
  else s

/-- The meaning of a slot instruction: its own checks (R372 item 7), its holds with what they do meanwhile (item 8), the
scratch banks whose states it waits for (R120, R122), and its effect. -/
structure Sem where
  chk : State → Chk := fun _ => .ok
  hold : State → Bool × State := fun s => (false, s)
  banks : State → List Nat := fun _ => []
  eff : State → State

/-- The meaning of instruction i in slot n of bundle l: its pops are checked whatever the guard (R156), and the rest of it acts only where the
guard lets the slot act (R62). -/
def Sem.gated (l : List SlotI) (n : Nat) (i : Instr) (m : Sem) : Sem :=
  { chk := fun s => (s.popChecks l (n, i)).orElse (if s.acts i then (s.bankError (n, i)).orElse (m.chk s) else .ok)
    hold := fun s => if s.acts i then m.hold s else (false, s)
    banks := fun s => if s.acts i then m.banks s else []
    eff := fun s => if s.acts i then m.eff s else s }

/-- The clk that a bundle is held for a tail's reserved bank counts as held by the reservation table (R369). -/
def State.noteTail (s : State) : State := if s.tailHeld then s.bumpClk s.cur.core 9 else s
/-- Issue a bundle whose slots other than NOP are l, under the meaning m of its slots together (R372): the checks, then the holds,
then the stall-count trap. While rows that it pops are missing nothing after that hold is looked at (R157). -/
def State.issueWith (s : State) (l : List SlotI) (m : Sem) : State :=
  match s.dueTrap with
  | some t => s.serveDeferred t
  | none =>
    match s.precheck l with
    | some t => s.takeTrap t
    | none =>
      match m.chk s with
      | .trap t => (s.onTrap t).takeTrap t
      | .suspend va a => s.suspendPage va a
      | .walk vas => vas.foldl (fun s va => s.askWalk s.cur.core s.root va) s
      | .ok =>
        if !s.popsReady l then (m.hold s).2.noteTail
        else
          let sb := s.lpb.scoreboard
          let bs := s.popBanks l ++ m.banks s
          let asleep := bs.filter (fun i => !(s.curCore.sbank i).ready)
          let h := m.hold s
          let w := if sb then h.2 else (h.2.wakeBanks l).wakeScratchL bs
          let wk := !sb && (!asleep.isEmpty || (w.wakeHold l).isSome)
          if h.1 || s.tailHeld || wk then (if wk then w.bumpClk s.cur.core 10 else w).noteTail
          else match s.stallTrap l asleep with
            | some t => s.takeTrap t
            | none => (m.eff (h.2.start l)).finish

/-- The slot at which an instruction issues when it is alone (R58, R81). -/
def soloSlot (i : Instr) : Nat := match encode i with | some (cls, _) => cls.slot | none => 0

/-- The slots of a bundle that holds one instruction alone. -/
def soloSlots (i : Instr) : List SlotI := if i = .nop then [] else [(soloSlot i, i)]

/-- The outcome of a step that goes on. -/
abbrev Out := Host.Outcome State Fault Refusal

/-- Issue a bundle that holds one instruction alone, by the stream and with the header and tail in `cur`. -/
def State.issueSolo (s : State) (i : Instr) (m : Sem) : Out := .next (s.issueWith (soloSlots i) (m.gated (soloSlots i) (soloSlot i) i))

end Sys2Proof.Machine
end

