-- ==== Sys2Proof/Machine/Sync.lean ====
section
/-! DEFINITION. Shared synchronisation: raises of semaphores (R350, R351), arrivals at the barriers of units (R34, R353,
R355), at the weave barrier (R354) and at the end of a step (R357, R361). -/

namespace Sys2Proof.Machine

/-! ### Who tries to issue (R54) -/

/-- May PC slot `slot` of group gid issue now (R54, R376): its core runs it, it is live, waits for nothing, and its path has
not issued in this clk? -/
def State.mayIssue (s : State) (core gid slot : Nat) : Bool :=
  let k := s.core core
  let g := k.group gid
  let p := g.slot slot
  (kget gid k.groups).isSome && g.running && p.mask != 0 && p.wait == .none && p.next ≤ k.pclk && slot < 2
    && (match k.frozen with | some w => w == gid | none => true)
    && !(k.issued.contains (if isShader core then gid % 4 else gid))
/-- PC slots of a core that may issue now: (group, slot). -/
def State.ready (s : State) (c : Nat) : List (Nat × Nat) :=
  (s.core c).groups.flatMap (fun p => ((List.range 2).filter (fun i => s.mayIssue c p.1 i)).map (fun i => (p.1, i)))
/-- The distance of a PC slot from the round-robin place of its partition. -/
def Core.turn (k : Core) (x : Nat × Nat) : Nat := (x.1 / 4 * 2 + x.2 + 24 - k.rr.getD (x.1 % 4) 0 % 24) % 24
/-- The streams of a core in the order in which they try to issue: on a shader core round robin in each partition, on a tile in
ascending role-group number. -/
def State.issueEvents (s : State) (c : Nat) : List Instr :=
  let k := s.core c
  let l := s.ready c
  let l := if isShader c then
      (List.range 4).flatMap (fun p => lsort (fun a b => k.turn a < k.turn b) (l.filter (fun x => x.1 % 4 == p)))
    else lsort (fun a b => (k.group a.1).gix < (k.group b.1).gix) l
  l.map (fun x => Instr.bundleIssue c x.1 x.2)
/-- Is core c within a clk in which streams may issue: one whose edge has come, and no stall or replay clk? -/
def State.inClk (s : State) (c : Nat) : Bool := (s.core c).issuing && s.now < (s.core c).edge
/-- Groups of core c that were freed within its clk try to issue in it too, each in its turn among those that have yet to try (R49,
R353, R354, R357). -/
def State.relist (s : State) (c : Nat) (freed : List Nat) : State :=
  if !(s.inClk c) then s
  else
    let own : Instr → Bool | .bundleIssue d _ _ => d == c | _ => false
    let new : Instr → Bool | .bundleIssue _ g _ => freed.contains g | _ => false
    { s with agenda := s.agenda.filter (fun i => !(own i)) ++ (s.issueEvents c).filter (fun i => s.agenda.contains i || new i) }

/-! ### Cores (R350, R414) -/

/-- Does a core exist and report: its die holds it, its quad is listed and it has not failed? -/
def State.reports (s : State) (c : Nat) : Bool :=
  coreDie c < 10 && coreIx c < dieCores (coreDie c) && (kget (quadKey c) s.quads).isSome && !(s.board.shaders.contains c)

/-- The launch that a launch's units count in: a SPAWN is part of its issuer's (R322). -/
def State.countsIn (s : State) (l : Nat) : Nat := ((kget l s.launches).bind Launch.spawnOf).getD l

/-! ### Semaphores (R350) -/

/-- The value of a semaphore. -/
def Core.sem (c : Core) (n : Nat) : Nat := sget 0 n c.sems
/-- A saturating raise (R350). -/
def Core.semAdd (c : Core) (n a : Nat) : Core := { c with sems := sset 0 n (min (2 ^ 32 - 1) (c.sem n + a)) c.sems }
/-- Does a core exist on its die (R18, R21)? -/
def coreExists (c : Nat) : Bool := coreDie c < 10 && coreIx c < dieCores (coreDie c)
/-- Is a waiter still in its place: its group has not ended, and either stands aside (in a handler, stopped, suspended) or its slot
stands at the bundle that waits (R351)? -/
def Core.waits (c : Core) (w : Nat × Nat × Nat × W32) : Bool :=
  match kget w.2.1 c.groups with
  | none => false
  | some g => !g.ended && (g.inHandler || g.halt != .none || ((g.slot w.2.2.1).mask != 0 && (g.slot w.2.2.1).pc == w.2.2.2))
/-- The waiters of a core that are still in their places. -/
def Core.live (c : Core) : List (Nat × Nat × Nat × W32) := c.waiters.filter c.waits
/-- The head waiter of a semaphore is examined in the clk in which the semaphore changes (R351): it tries to issue, where it has not
yet to try in this clk. -/
def State.semServe (s : State) (c n : Nat) : State :=
  let k := s.core c
  if !(s.inClk c) then s
  else match k.live.find? (fun w => w.1 == n) with
    | none => s
    | some w =>
      let i := Instr.bundleIssue c w.2.1 w.2.2.1
      if s.agenda.contains i then s else s.sched [i]
/-- Raise a semaphore of a core, whether or not its quad was ever ON, and examine the head waiter (R348, R350, R351). -/
def State.semAdd (s : State) (c n a : Nat) : State :=
  if (kget c s.cores).isSome || !(coreExists c) then (s.modCore c (fun k => k.semAdd n a)).semServe c n
  else { s with cores := kset c ((Core.start 0).semAdd n a) s.cores }

/-- Clk of the transit of a raise between two cores (R350): 4 clk and 2 per hop between tiles of a die, 24 clk between
shader cores of a die, 4 clk and 2 per hop on each die otherwise. -/
def transitClk (a b : Nat) : Nat :=
  if coreDie a == coreDie b then (if isShader a then 24 else 4 + 2 * hops (coreIx a) (coreIx b)) else 4 + 2 * routeHops a b
/-- Ticks of the bridge of a raise between two cores: 20 ns a crossing (R13, R350). -/
def transitWall (a b : Nat) : Nat := 20 * crossings (coreDie a) (coreDie b) * tickNs

/-- Send a raise to a core (R350): to the own core it leaves the send stage two clk after the issue (R397); otherwise it takes the
clk of its transit, then its crossings and a free delay (R13, R17, log 5), and waits until the bridge channel that it uses has retrained (R15). -/
def State.sendRaise (s : State) (c n a : Nat) : State :=
  if c == s.cur.core then
    { s with raises := s.raises ++ [{ id := s.fresh, core := c, n := n, a := a, due := s.now + 2 * s.period c, wall := 0, tick := 0 }], fresh := s.fresh + 1 }
  else
    { s with raises := s.raises ++ [{ id := s.fresh, core := c, n := n, a := a,
                                      due := s.now + transitClk s.cur.core c * s.period s.cur.core,
                                      wall := transitWall s.cur.core c + s.linkWait (coreDie s.cur.core) (coreDie c)
                                        + Config.latency s.free * tickNs, tick := 0 }],
             fresh := s.fresh + 1, free := s.free + 1 }

/-! ### Barriers of a unit (R34, R353 to R355) -/

/-- Does a slot wait at the barrier of its unit? -/
def PcSlot.atBar (p : PcSlot) : Bool := p.mask != 0 && p.wait == .barrier
/-- Has a group arrived: it has ended, or every live slot waits (R34, R353)? -/
def Group.arrivedBar (g : Group) : Bool :=
  g.ended || ((g.slot0.atBar || g.slot1.atBar) && (g.slot0.mask == 0 || g.slot0.atBar) && (g.slot1.mask == 0 || g.slot1.atBar))

/-- Take the arrivals of a unit's groups into its barrier word; a complete phase releases 2 clk on (R353, R355). -/
def State.barCheck (s : State) (c uid : Nat) : State :=
  let k := s.core c
  let u := k.unit uid
  let arr := u.gids.foldl (fun (m : W32) g =>
    let gr := k.group g
    if gr.arrivedBar then m ||| BitVec.ofNat 32 (2 ^ gr.gix) else m) u.arrived
  let all := u.gids.all (fun g => bitOn arr (k.group g).gix)
  let any := u.gids.any (fun g => !(k.group g).ended)
  let due := if all && any && u.barDue.isNone then some (k.clk + 2) else u.barDue
  s.modCore c (fun k => k.modUnit uid (fun u => { u with arrived := arr, barDue := due }))

/-- The two PC slots of a group at a barrier of group scope: complete 2 clk after the last live slot (R353). -/
def State.groupBarCheck (s : State) (c g : Nat) : State :=
  let k := s.core c
  let gr := k.group g
  let at_ (p : PcSlot) : Bool := p.wait == .groupBar
  if (at_ gr.slot0 || at_ gr.slot1) && (gr.slot0.mask == 0 || at_ gr.slot0) && (gr.slot1.mask == 0 || at_ gr.slot1) then
    let f (p : PcSlot) : PcSlot := if at_ p then { p with wait := .untilClk (k.clk + 2) } else p
    s.modGroup c g (fun gr => { gr with slot0 := f gr.slot0, slot1 := f gr.slot1 })
  else s

/-! ### The end of a step and the weave barrier (R354, R357) -/

/-- Tiles of a weave launch, 1 for other launches (R309, R318). -/
def Lpb.tiles (l : Lpb) : Nat := if l.kind == 2 then l.quadsW * l.quadsH * 4 * l.dies else 1

/-- Gangs of a launch whose role groups have all ended while their unit has not retired: resident, saved or chosen for cores. -/
def State.endedGangs (s : State) (launch : Nat) : Nat :=
  let gone (v : Saved) : Nat := v.units.countP (fun u => u.gang && u.launch == launch && v.groups.all (fun p => !(u.gids.contains p.1) || p.2.ended))
  s.cores.foldl (fun n p => n + p.2.units.countP (fun q => q.2.gang && q.2.launch == launch && q.2.gids.all (fun g => (p.2.group g).ended))) 0
    + ((((kget launch s.launches).map Launch.saved).getD []) ++ s.pending.filterMap Pend.saved).foldl (fun n v => n + gone v) 0
/-- The launch-wide end of a governed step, once some gang has ended it by STEPEND and every other has too, or has ended, retired or not:
the governor decides 8 clk on (R143, R360, R361). -/
def State.govCheck (s : State) (launch ticks : Nat) : State :=
  match kget launch s.govs, kget launch s.launches with
  | some g, some x =>
    if g.due.isNone && !g.ends.isEmpty && (x.lpb.grid - x.retired) * x.lpb.tiles ≤ g.ends.length + s.endedGangs launch then
      { s with govs := kset launch { g with endAt := s.ns, due := some (s.now + 8 * ticks) } s.govs }
    else s
  | _, _ => s

/-- A gang has executed STEPEND for its step (R357): the next step may start 4 clk on, or, in a governed launch, after
the governor's decision, 8 clk after the launch-wide step end (R361). A gang whose role groups have all ended counts as having ended
every later step (R143). -/
def State.stepCheck (s : State) (c uid : Nat) : State :=
  let k := s.core c
  let u := k.unit uid
  if u.gang && u.gids.all (fun g => (k.group g).ended) then s.govCheck u.launch (s.period c)
  else if u.gang && u.stepping && u.gids.all (fun g => (k.group g).ended || (k.group g).stepDone) then
    match kget u.launch s.govs with
    | none => s.modCore c (fun k => k.modUnit uid (fun u => { u with stepping := false, stepDue := some (k.clk + 4) }))
    | some g =>
      let s := s.modCore c (fun k => k.modUnit uid (fun u => { u with stepping := false, govHold := true }))
      let key := c * 65536 + uid
      let ends := if g.ends.contains key then g.ends else g.ends ++ [key]
      ({ s with govs := kset u.launch { g with ends := ends, step := u.stepN } s.govs }).govCheck u.launch (s.period c)
  else s

/-- A quad is asked to run at nominal margin, which takes at most 2 µs (R398, log 5). One whose supply still moves down runs at nominal
margin yet, with replay disarmed, and stays there. -/
def State.askNominal (s : State) (q : Nat) : State :=
  match (kget q s.quads).map Quad.margin with
  | some .nominal | some (.toNominal _) | none => s
  | some (.toReduced _) => { s with quads := kmod q (fun x => { x with margin := .nominal }) s.quads }
  | some .reduced =>
    { s with quads := kmod q (fun x => { x with margin := .toNominal (s.now + Config.latency s.free % 2000 * tickNs) }) s.quads,
             free := s.free + 1 }
/-- A tile whose role groups have all executed `bar.weave` or ended arrives at the weave barrier (R354), once its
reservation table is empty (R343). With its arrival the barrier may release in this clk. -/
def State.weaveCheck (s : State) (c uid : Nat) : State :=
  let k := s.core c
  let u := k.unit uid
  match u.weave with
  | none => s
  | some w =>
    if k.resv.isEmpty && u.gids.all (fun g => (k.group g).ended || (k.group g).weaveArr) then
      let new := match kget w s.weaves with | some x => !(x.arrived.contains c) && x.comm.isNone | none => false
      if new then
        { (s.askNominal (quadKey c)) with
          weaves := kmod w (fun x => { x with arrived := x.arrived ++ [c] }) s.weaves }.sched [.weaveBarrierRelease w]
      else s
    else s

/-- The completion time of a network barrier in clk (R356): quad, die, package and pod. -/
def netClk (scope : Nat) : Nat := if scope == 1 then 20 else if scope == 2 then 60 else 400
/-- A group arrives at network barrier `id` once every live slot waits there; at the count the phase completes (R34,
R356). -/
def State.netArrive (s : State) (c g id : Nat) : State :=
  let gr := s.group c g
  let at_ (p : PcSlot) : Bool := p.mask != 0 && p.wait == .net id
  match kget id s.nets with
  | none => s
  | some n =>
    if !((at_ gr.slot0 || at_ gr.slot1) && (gr.slot0.mask == 0 || at_ gr.slot0) && (gr.slot1.mask == 0 || at_ gr.slot1))
        || n.due.isSome || n.arrived.contains (c, g, 0) then s
    else
      let arr := n.arrived ++ [(c, g, 0)]
      let due := if arr.length ≥ n.count then some (s.now + netClk n.scope * s.period c) else none
      { s with nets := kset id { n with arrived := arr, due := due } s.nets }
/-- The network barriers that the slots of a group wait at. -/
def State.netCheck (s : State) (c g : Nat) : State :=
  let gr := s.group c g
  [gr.slot0, gr.slot1].foldl (fun s p => match p.wait with | .net id => s.netArrive c g id | _ => s) s

/-- Everything that the end, arrival or change of a group may complete for its unit. -/
def State.unitCheck (s : State) (c g : Nat) : State :=
  let uid := (s.group c g).uid
  ((((s.groupBarCheck c g).netCheck c g).barCheck c uid).stepCheck c uid).weaveCheck c uid

/-! ### The registers of a starting unit (R313), and inline children (R37) -/

/-- s48 to s55 of a starting group (R313). -/
def startRegs (l : Lpb) (index num priv issuer : Nat) (r : Sparse W64) : Sparse W64 :=
  let put (i v : Nat) (r : Sparse W64) : Sparse W64 := sset 0 i (BitVec.ofNat 64 v) r
  put 48 l.param (put 49 index (put 50 num (put 51 l.grid (put 52 priv (put 53 l.ident (put 54 issuer (put 55 0 r)))))))

/-- Groups of a unit (R310). -/
def Lpb.groups (l : Lpb) : Nat := l.roles.foldl (fun a r => if r.role == 0 then a else a + r.count) 0
/-- The private segment base of a group (R313). -/
def Lpb.privOf (l : Lpb) (index gpos num : Nat) : Nat :=
  (l.privBase + l.privBytes * ((index * l.tiles + gpos) * l.groups + num)) % 2 ^ 64

/-- Start unit i of an inline child in the issuing group (R37): its kernel's dictionary and segment, PC slot 0 at its entry
with every lane, slot 1 empty (log 15). It starts as a stream, with NOP delta bases, and the stall count of the FORK's or TASKEND's bundle
does not delay it: DESIGN CHOICE, log 82. The copies of `fmt` stay as they are (R115); the depth register rises as the child is
entered. -/
def State.inlineStart (s : State) (child i : Nat) (f : InlineFrame) : State :=
  let l := s.lpbOf child
  let r := l.roles.headD { seg := 0, entry := 0, budget := 1, count := 1, role := 1, dict := 0 }
  let iss := ((kget child s.launches).map Launch.issuer).getD 0
  let pool := ((kget r.dict s.dicts).map Dict.pool).getD []
  let next := s.curCore.pclk + 1
  s.modG (fun g => { g with
    launch := child, dict := r.dict, seg := r.seg, inline := { f with unitIx := i } :: g.inline.drop (if i = 0 then 0 else 1),
    inlineDepth := (if i = 0 then min 15 (g.inlineDepth + 1) else g.inlineDepth),
    pool := ((List.range 32).zip pool).foldl (fun p x => sset 0 x.1 x.2 p) [],
    sregs := startRegs l i 0 (l.privOf i 0 0) iss g.sregs,
    slot0 := { PcSlot.empty with pc := BitVec.ofNat 32 r.entry, mask := allLanes, fmt := g.slot0.fmt, next := next },
    slot1 := { PcSlot.empty with fmt := g.slot1.fmt } })

/-- TASKEND of an inline child (R37, R323): the next unit of the child's grid, or the return to the forking group, with
the depth register lowered, counter 6 lowered, the child launch gone, and every register as the child left it, `fmt` among them. The
caller's delta bases return, and the stall count of the TASKEND's bundle does not delay it: DESIGN CHOICE, log 82. The
child's retirement acts as a fence at package scope (R239). -/
def State.inlineReturn (s : State) : State :=
  match s.curGrp.inline with
  | [] => s
  | f :: r =>
    if f.unitIx + 1 < s.lpb.grid then s.inlineStart s.curGrp.launch (f.unitIx + 1) f
    else
      let child := s.curGrp.launch
      let next := s.curCore.pclk + 1
      let s := s.modG (fun g => { (g.modCtr 6 (· - 1)) with
        launch := f.launch, dict := f.dict, seg := f.seg, inline := r, inlineDepth := g.inlineDepth - 1, stackTop := f.top, pool := f.pool,
        slot0 := { f.slot0 with next := max f.slot0.next next, fmt := g.slot0.fmt },
        slot1 := { f.slot1 with next := max f.slot1.next next, fmt := g.slot1.fmt } })
      { (s.flush s.cur.core) with launches := kdel child s.launches }

end Sys2Proof.Machine
end

