-- ==== Sys2Proof/Machine/Control.lean ====
section
/-! DEFINITION. Branches, divergence and the reconvergence stack (R137 to R144), traps, restart labels, QUOTA, YIELD and
WAITC (R123, R146 to R151). -/

namespace Sys2Proof.Machine

/-! ### Branches (R137, R138) -/

/-- The PC of the bundle in issue: its successor has been set. -/
def State.bundlePc (s : State) : W32 := s.curSlot.pc - BitVec.ofNat 32 s.cur.len
/-- A label target (R137). -/
def State.labelOf (s : State) (off : W32) : W32 := s.bundlePc + 2 * off
/-- A register target (R137). -/
def State.regTarget (s : State) (sa : SReg) : W32 := low32 (s.sr sa.val) &&& 0xFFFFFFFE
/-- Take a branch that costs k clk (R137). -/
def State.jump (s : State) (t : W32) (k : Nat) : State := s.modS (fun p => { p with pc := t, next := p.next + k })

/-- BRA (R137). -/
def effBra (off : W32) (s : State) : State := s.jump (s.labelOf off) 1
/-- BRC (R130, R137). -/
def effBrc (cond : Fin 13) (sa sb : SReg) (off : W32) (s : State) : State :=
  let b := if cond.val < 10 then condHolds cond.val (s.sr sa.val) (s.sr sb.val)
    else predHolds cond.val (s.pr (sa.val % 8)) s.active
  if b then s.jump (s.labelOf off) 1 else s
/-- LOOP (R137). -/
def effLoop (sa : SReg) (off : W32) (s : State) : State :=
  let v := s.sr sa.val - 1
  let s' := s.emit 0 1 [.s sa.val v]
  if v != 0 then s'.jump (s.labelOf off) 1 else s'
/-- CALL (R137). -/
def effCall (link : SReg) (off : W32) (s : State) : State :=
  (s.emit 0 1 [.s link.val (zext64 s.curSlot.pc)]).jump (s.labelOf off) 1
/-- RET (R137). -/
def effRet (sa : SReg) (s : State) : State := s.jump (s.regTarget sa) 2
/-- BRA through a register (R137). -/
def effBraReg (sa : SReg) (s : State) : State := s.jump (s.regTarget sa) 2
/-- CALL through a register (R137). -/
def effCallReg (sd sa : SReg) (s : State) : State :=
  (s.emit 0 1 [.s sd.val (zext64 s.curSlot.pc)]).jump (s.regTarget sa) 2

/-! ### The reconvergence stack (R140, R144) -/

/-- A record of the reconvergence stack as its 80 bytes (R140). -/
abbrev Rec := List Byte
/-- U of a record. -/
def recU (r : Rec) : W32 := BitVec.ofNat 32 (imgNat r 0 4)
/-- A of a record. -/
def recA (r : Rec) : W32 := BitVec.ofNat 32 (imgNat r 4 4)
/-- F of a record. -/
def recF (r : Rec) : W32 := fmtReg (BitVec.ofNat 32 (imgNat r 8 4))
/-- meetpc of a record. -/
def recMeet (r : Rec) : W32 := BitVec.ofNat 32 (imgNat r 12 4)
/-- Word 16 of a record. -/
def recWord (r : Rec) : Nat := imgNat r 16 4
/-- Parent of a record. -/
def recParent (r : Rec) : Nat := fld (recWord r) 16 8
/-- Live bit of a record. -/
def recLive (r : Rec) : Bool := bitN (recWord r) 24
/-- Does a record hold a spilled path? -/
def recSpill (r : Rec) : Bool := bitN (recWord r) 0
/-- Replace n bytes of a record. -/
def recPut (r : Rec) (off n v : Nat) : Rec := r.take off ++ leBytes n v ++ r.drop (off + n)

/-- A record that MEET or refill refuses at position k (R144). -/
def recBad (r : Rec) (k : Nat) : Bool :=
  fld (recWord r) 8 8 != k || !recLive r || k ≤ recParent r || fld (recWord r) 1 7 != 0 || fld (recWord r) 25 7 != 0
    || imgNat r 28 4 != 0 || imgNat r 72 8 != 0

/-- The record that BRV pushes: number k, diverging mask, `fmt`, parent, and a spilled path if any (R139, R140). -/
def recNew (k : Nat) (u f : W32) (parent : Nat) (spill : Option (W32 × W32 × List Nat)) : Rec :=
  leBytes 4 u.toNat ++ leBytes 4 0 ++ leBytes 4 f.toNat ++ leBytes 4 0
    ++ leBytes 4 (spill.isSome.toNat + k * 2 ^ 8 + parent * 2 ^ 16 + 2 ^ 24)
    ++ (match spill with
        | some (m, pc, b) => leBytes 4 m.toNat ++ leBytes 4 pc.toNat ++ leBytes 4 0 ++ (List.range 5).flatMap (fun i => leBytes 8 (b.getD i 0))
        | none => List.replicate 52 0)
    ++ leBytes 8 0

/-- VA of record k of the issuing group. -/
def State.recVa (s : State) (k : Nat) : Nat := (s.curGrp.privBase + 80 * (k - 1)) % 2 ^ 56
/-- Read record k, at core scope (R240). -/
def State.getRec (s : State) (k : Nat) : Rec :=
  match s.loadOwn s.cur.core s.curGrp.launch s.root s.priv (s.recVa k) 80 with
  | .ok (b, _) => b
  | .error _ => List.replicate 80 0
/-- Write record k, at core scope (R240). -/
def State.putRec (s : State) (k : Nat) (r : Rec) : State :=
  (s.storeOwn s.cur.core s.curGrp.launch s.root s.priv (s.recVa k) r).getD s
/-- Settle what the read of record k settles (R216). -/
def State.settleRec (s : State) (k : Nat) : State := s.settleV s.cur.core s.root (s.recVa k) 80
/-- An uncorrectable error in record k: the data-error fault (R207, R373). -/
def State.recErr (s : State) (k : Nat) : Chk :=
  match s.loadOwn s.cur.core s.curGrp.launch s.root s.priv (s.recVa k) 80 with
  | .ok _ => .ok
  | .error f => .when (f.cause == 0x14) (trapOf 0x14 0 0 f.d0 f.d1 0)
/-- The access check of the records 1 to k. -/
def State.recChk (s : State) (k : Nat) : Chk :=
  if k = 0 then .ok else s.rangeChk 0 (s.curGrp.privBase % 2 ^ 56) (80 * k) .rw

/-- Lower the stack top past records that are not live, from T down (R140). -/
def State.settleTop (s : State) : Nat → State
  | 0 => s.modG (fun g => { g with stackTop := 0 })
  | k + 1 =>
    let s := s.settleRec (k + 1)
    if recLive (s.getRec (k + 1)) then s.modG (fun g => { g with stackTop := k + 1 }) else State.settleTop s k
/-- Pop record k (R140). -/
def State.popRec (s : State) (k : Nat) : State :=
  let s := s.settleRec k
  let r := s.getRec k
  let s := s.putRec k (recPut r 16 4 (putFld (recWord r) 24 1 0))
  s.settleTop s.curGrp.stackTop

/-- The stack top of the caller of an inline child: its records are not the child's (R37). -/
def State.stackBase (s : State) : Nat := (s.curGrp.inline.head?.map InlineFrame.top).getD 0
/-- The highest-numbered live record with a spilled path, from k down (R142). -/
def State.findSpill (s : State) : Nat → Option Nat
  | 0 => none
  | k + 1 =>
    if k + 1 ≤ s.stackBase then none
    else let r := s.getRec (k + 1); if recLive r && recSpill r then some (k + 1) else State.findSpill s k

/-- The records that the search for a spilled path reads: from the top down to the one it takes, or all (R142). -/
def State.seenBy (s : State) : List Nat :=
  let k := max (s.stackBase + 1) ((s.findSpill s.curGrp.stackTop).getD 0)
  (List.range (s.curGrp.stackTop + 1 - k)).map (fun i => s.curGrp.stackTop - i)
/-- Refill the freed slot of the issuing stream (R142): it becomes eligible when the record's read returns. -/
def State.refill (s : State) : State :=
  let s := s.seenBy.foldl State.settleRec s
  match s.findSpill s.curGrp.stackTop with
  | none => s.modG (fun g => g.setSlot s.cur.slot { PcSlot.empty with fmt := (g.slot s.cur.slot).fmt, kept := (g.slot s.cur.slot).kept })
  | some k =>
    let r := s.getRec k
    let s := s.putRec k (recPut r 16 4 (putFld (recWord r) 0 1 0))
    let lat := Config.latency s.free
    { (s.modS (fun p => { p with
        mask := BitVec.ofNat 32 (imgNat r 20 4), pc := BitVec.ofNat 32 (imgNat r 24 4), depth := k, fmt := recF r,
        bases := (List.range 5).map (fun i => imgNat r (32 + 8 * i) 8), next := p.next + lat, wait := .none }))
      with free := s.free + 1 }

/-- The record that a refill would take must be sound (R144); d is the depth that the fault reports. -/
def State.refillChk (s : State) (d : Nat) : Chk :=
  (Chk.first (s.seenBy.map s.recErr)).orElse (match s.findSpill s.curGrp.stackTop with
    | some k => .when (recBad (s.getRec k) k) (trapOf 0x0A 0 0 d k 0)
    | none => .ok)

/-! ### BRV, MEET and EXIT (R139, R141 to R143) -/

/-- The taken lanes of a BRV (R139). -/
def State.taken (s : State) (g : Guard) : W32 := s.act g
/-- Checks of BRV: the stack limit, and the access to the record it pushes. -/
def chkBrv (g : Guard) (s : State) : Chk :=
  if s.taken g == 0 || s.taken g == s.active then .ok
  else if s.stackLimit ≤ s.curGrp.stackTop then .trap (trapOf 0x0A 0 0 s.curSlot.depth 0 0)
  else s.rangeChk 0 (s.recVa (s.curGrp.stackTop + 1)) 80 .w
/-- BRV (R139). -/
def effBrv (g : Guard) (off : W32) (s : State) : State :=
  let tk := s.taken g
  let m := s.active
  let t := s.labelOf off
  if tk == 0 then s
  else if tk == m then s.jump t 1
  else
    let k := s.curGrp.stackTop + 1
    let me := s.curSlot
    let o := 1 - s.cur.slot
    let free := (s.curGrp.slot o).mask == 0
    let r := recNew k m me.fmt me.depth (if free then none else some (tk, t, me.bases))
    let s := s.putRec k r
    let soon := s.curCore.pclk + 2
    s.modG (fun gr =>
      let gr := { gr with stackTop := k }
      let gr := gr.setSlot s.cur.slot { me with mask := m &&& ~~~tk, depth := k }
      if free then gr.setSlot o { PcSlot.empty with pc := t, mask := tk, depth := k, fmt := me.fmt, bases := me.bases,
                                                     next := soon, kept := (gr.slot o).kept }
      else gr)

/-- Checks of MEET: the record-mode trap, the access, the record (R141, R144, R207). -/
def chkMeet (s : State) : Chk :=
  let d := s.curSlot.depth
  if s.curGrp.faultMask &&& s.active != 0 then .trap (trapOf 0x08 0 0 s.curGrp.faultMask.toNat 0 0)
  else if d = 0 then .ok
  else match s.recChk (max d s.curGrp.stackTop) with
    | .ok =>
      let r := s.getRec d
      (s.recErr d).orElse (if recBad r d then .trap (trapOf 0x0A 0 0 d d 0)
        else if (recA r ||| s.active) == recU r then .ok else s.refillChk d)
    | c => c
/-- MEET (R141). -/
def effMeet (s : State) : State :=
  let d := s.curSlot.depth
  if d = 0 then s
  else
    let s := s.settleRec d
    let r := s.getRec d
    let a := recA r ||| s.active
    let r' := recPut (recPut r 4 4 a.toNat) 12 4 s.curSlot.pc.toNat
    let s := s.putRec d r'
    let lat := Config.latency s.free
    let s := { s with free := s.free + 1 }
    if a == recU r then
      (s.modS (fun p => { p with mask := recU r, depth := recParent r, fmt := recF r, next := p.next + lat })).popRec d
    else ((s.modS (fun p => { p with mask := 0 })).refill).unitCheck s.cur.core s.cur.gid

/-- Take lanes e out of U of every record on the chain from d (R143). -/
def State.dropLanes (s : State) (e : W32) : Nat → Nat → State
  | 0, _ => s
  | n + 1, d =>
    if d = 0 then s
    else
      let s := s.settleRec d
      let r := s.getRec d
      State.dropLanes (s.putRec d (recPut r 0 4 (recU r &&& ~~~e).toNat)) e n (recParent r)

/-- Walk down the chain of the issuing slot after lanes left (R143). -/
def State.unwind (s : State) : Nat → State
  | 0 => s
  | n + 1 =>
    let k := s.curSlot.depth
    if k = 0 then s
    else
      let s := s.settleRec k
      let r := s.getRec k
      if recU r == 0 then
        State.unwind ((s.modS (fun p => { p with depth := recParent r })).popRec k) n
      else if recU r == recA r && s.curSlot.mask == 0 then
        (s.modS (fun p => { p with mask := recA r, pc := recMeet r, depth := recParent r, fmt := recF r,
                                   bases := [0, 0, 0, 0, 0] })).popRec k
      else s

/-- Has a shader group no live or spilled lanes (R143)? -/
def State.lanesGone (s : State) : Bool :=
  s.curGrp.slot0.mask == 0 && s.curGrp.slot1.mask == 0 && (s.findSpill s.curGrp.stackTop).isNone

/-- Ask for the retirement of a group once its lanes are gone and its sectors are in (R143). -/
def State.retireAsk (s : State) (c g : Nat) : State := { s with agenda := s.agenda ++ [.groupRetire c g] }

/-- Lanes e leave the issuing slot and its chain, and the chain is walked down (R143). -/
def State.leaveLanes (s : State) (e : W32) : State :=
  ((s.modS (fun p => { p with mask := p.mask &&& ~~~e })).dropLanes e 256 s.curSlot.depth).unwind 256
/-- An uncorrectable error in a record of the chain from d (R143, R207). -/
def State.chainErr (s : State) : Nat → Nat → Chk
  | 0, _ => .ok
  | n + 1, d => if d = 0 then .ok else (s.recErr d).orElse (State.chainErr s n (recParent (s.getRec d)))
/-- Checks of EXIT: the access to the records; where the slot is not filled from its own chain, the record that a refill would
take (R143, R144). -/
def chkExit (e : W32) (s : State) : Chk :=
  if !s.onShader then .ok
  else match s.recChk s.curGrp.stackTop with
    | .ok => (s.chainErr 256 s.curSlot.depth).orElse <| let t := s.leaveLanes e; if t.curSlot.mask == 0 then t.refillChk s.curSlot.depth else .ok
    | c => c
/-- Remove lanes e from the issuing slot (R143); on a tile the role group ends. -/
def State.exitLanes (s : State) (e : W32) : State :=
  if !s.onShader then
    ((s.modG (fun g => { g with ended := true })).unitCheck s.cur.core s.cur.gid).retireAsk s.cur.core s.cur.gid
  else
    let s := s.leaveLanes e
    let s := if s.curSlot.mask == 0 then s.refill else s
    if s.lanesGone && !s.curGrp.inline.isEmpty then s.inlineReturn
    else if s.lanesGone then
      ((s.modG (fun g => { g with ended := true })).unitCheck s.cur.core s.cur.gid).retireAsk s.cur.core s.cur.gid
    else s.unitCheck s.cur.core s.cur.gid
/-- EXIT (R143). -/
def effExit (g : Guard) (s : State) : State := s.exitLanes (s.act g)

/-! ### Traps, labels, QUOTA, waiting (R146 to R151) -/

/-- TRAP (R146): class A, taken after the bundle; on a tile in the clk in which the successor could issue (R376). -/
def effTrap (code : BitVec 16) (s : State) : State :=
  let t : TrapInfo := { cause := 0x07, slot := 0, field := 0, d0 := code.toNat, d1 := 0, d2 := 0, pc := some s.bundlePc, strm := s.cur.slot }
  s.modG (fun g => { g with deferred := t :: g.deferred })
/-- ERET (R147, R377). -/
def effEret (s : State) : State := s.returnFrom
/-- RLBL (R148). -/
def effRlbl (off : W32) (s : State) : State := let t := s.labelOf off; s.modG (fun g => { g with rlbl := t })

/-- The least budget of a role (R39). -/
def minBudget (r : Role) : Nat := match r with | .copy => 0 | .matrix => 0 | _ => 1
/-- Checks of QUOTA (R149). -/
def chkQuota (recv : Fin 6) (n : W32) (s : State) : Chk :=
  let k := n.toNat
  let rg := s.curCore.group recv.val
  let there := (kget recv.val s.curCore.groups).isSome
  .when (k == 0 || k > 10 || recv.val == s.cur.gid || !there || s.curGrp.budget < k + minBudget s.curGrp.role
      || rg.budget + k > 10) (trapOf 0x0F 0 0 k recv.val 0)
/-- Does an engine command of the group still write register m (R123)? -/
def cmdWrites (m : Nat) (c : Cmd) : Bool := (opInfo c.op).mwr.any (fun p => p.2 == m)
/-- Is a result on its way to a register bank in [lo, hi) of the issuing group (R123)? -/
def State.boundFor (s : State) (lo hi : Nat) : Bool :=
  let c := s.curCore
  let hit (w : Wr) : Bool := match w with | .m k _ => lo ≤ k / 1024 && k / 1024 < hi | _ => false
  ((c.inflight ++ c.freeze).any (fun f => f.gid == s.cur.gid && f.writes.any hit))
    || (c.sectors.any (fun f => f.gid == s.cur.gid && f.writes.any hit))
    || ((c.drainQ ++ c.rotQ ++ c.gfxQ).any (fun q => q.gid == s.cur.gid &&
          (List.range 10).any (fun m => lo ≤ m && m < hi && cmdWrites m q)))
/-- Holds of QUOTA (R123). -/
def holdQuota (n : W32) (s : State) : Bool × State :=
  (s.boundFor (s.curGrp.budget - n.toNat) s.curGrp.budget, s)
/-- QUOTA (R123, R149): the hand-over follows the tail actions of its own bundle (`State.handOver`). -/
def effQuota (recv : Fin 6) (n : W32) (s : State) : State := { s with cur := { s.cur with hand := some (recv.val, n.toNat) } }

/-- YIELD (R150). -/
def effYield (s : State) : State :=
  if s.onShader then s.modS (fun p => { p with skip := true })
  else
    let t := s.curCore.pclk + 2
    s.modS (fun p => { p with next := max p.next t })

/-- Does WAITC select counter k (R151)? -/
def waitSel (ctr : Nat) (k : Nat) : Bool := ctr == 7 || ctr == k
/-- Checks of WAITC: the data-error fault of earlier loads (R260); a traversal that waits on a page (R200). -/
def chkWaitc (ctr : Fin 8) (s : State) : Chk :=
  match (if waitSel ctr.val 0 then s.curGrp.dataErr else none) with
  | some (pc, pa) => .trap (trapOf 0x14 0 0 pc.toNat pa 0)
  | none =>
    match (if waitSel ctr.val 5 then (s.curCore.gfxQ.find? (fun c => c.gid == s.cur.gid && c.page.isSome)).bind Cmd.page else none) with
    | some va => .suspend va .r
    | none => .ok
/-- Holds of WAITC (R151). -/
def holdWaitc (ctr : Fin 8) (n : W32) (s : State) : Bool × State :=
  ((List.range 7).any (fun k => waitSel ctr.val k && n.toNat < s.curGrp.ctrs.getD k 0), s)

/-! ### The instructions, alone in their bundle -/

/-- NOP: a bundle with no slot (R58). -/
def execNop (s : State) : Out := s.issueSolo .nop { eff := id }
/-- BRA. -/
def execBra (g : Guard) (off : W32) (s : State) : Out := s.issueSolo (.bra g off) { eff := effBra off }
/-- BRC. -/
def execBrc (g : Guard) (cond : Fin 13) (sa sb : SReg) (off : W32) (s : State) : Out :=
  s.issueSolo (.brc g cond sa sb off) { eff := effBrc cond sa sb off }
/-- BRV. -/
def execBrv (g : Guard) (off : W32) (s : State) : Out := s.issueSolo (.brv g off) { chk := chkBrv g, eff := effBrv g off }
/-- MEET. -/
def execMeet (g : Guard) (s : State) : Out := s.issueSolo (.meet g) { chk := chkMeet, eff := effMeet }
/-- CALL. -/
def execCall (g : Guard) (link : SReg) (off : W32) (s : State) : Out :=
  s.issueSolo (.call g link off) { eff := effCall link off }
/-- RET. -/
def execRet (g : Guard) (sa : SReg) (s : State) : Out := s.issueSolo (.ret g sa) { eff := effRet sa }
/-- LOOP. -/
def execLoop (g : Guard) (sa : SReg) (off : W32) (s : State) : Out := s.issueSolo (.loop g sa off) { eff := effLoop sa off }
/-- EXIT. -/
def execExit (g : Guard) (s : State) : Out := s.issueSolo (.exit g) { chk := fun s => chkExit (s.act g) s, eff := effExit g }
/-- BRA through a register. -/
def execBraReg (g : Guard) (sa : SReg) (s : State) : Out := s.issueSolo (.braReg g sa) { eff := effBraReg sa }
/-- CALL through a register. -/
def execCallReg (g : Guard) (sd sa : SReg) (s : State) : Out :=
  s.issueSolo (.callReg g sd sa) { eff := effCallReg sd sa }
/-- TRAP. -/
def execTrap (g : Guard) (code : BitVec 16) (s : State) : Out := s.issueSolo (.trap g code) { eff := effTrap code }
/-- ERET. -/
def execEret (g : Guard) (s : State) : Out := s.issueSolo (.eret g) { eff := effEret }
/-- RLBL. -/
def execRlbl (g : Guard) (off : W32) (s : State) : Out := s.issueSolo (.rlbl g off) { eff := effRlbl off }
/-- QUOTA. -/
def execQuota (g : Guard) (recv : Fin 6) (n : W32) (s : State) : Out :=
  s.issueSolo (.quota g recv n) { chk := chkQuota recv n, hold := holdQuota n, eff := effQuota recv n }
/-- YIELD. -/
def execYield (g : Guard) (s : State) : Out := s.issueSolo (.yield g) { eff := effYield }
/-- WAITC. -/
def execWaitc (g : Guard) (ctr : Fin 8) (n : W32) (s : State) : Out :=
  s.issueSolo (.waitc g ctr n) { chk := chkWaitc ctr, hold := holdWaitc ctr n, eff := id }

end Sys2Proof.Machine
end

