-- ==== Sys2Proof/Machine/Memory.lean ====
section
/-! DEFINITION. The class M instructions (R250 to R271): lane addresses and their checks, loads, stores, atomics, exact
sums, FENCE, XLATE, PROBE, PREF, CLEAN and INVAL. -/

namespace Sys2Proof.Machine

/-! ### Translation registers (R222, R223) -/

/-- Bits of a translation register. -/
def aFld (a : BitVec 192) (lo n : Nat) : Nat := fld a.toNat lo n
/-- Virtual base. -/
def aVb (a : BitVec 192) : Nat := aFld a 0 56
/-- Physical base. -/
def aPb (a : BitVec 192) : Nat := aFld a 64 52
/-- Swizzle. -/
def aSwz (a : BitVec 192) : Nat := aFld a 116 4
/-- Page size code. -/
def aPage (a : BitVec 192) : Nat := aFld a 120 2
/-- Memory type. -/
def aType (a : BitVec 192) : Nat := aFld a 122 2
/-- Home. -/
def aHome (a : BitVec 192) : Nat := aFld a 124 2
/-- Limit. -/
def aLimit (a : BitVec 192) : Nat := aFld a 128 31
/-- R, W, X, S. -/
def aPerm (a : BitVec 192) : Nat := aFld a 160 4
/-- The physical address on the fast path (R223). -/
def aPa (a : BitVec 192) (o : Nat) : Nat :=
  let pg := pageBytes (aPage a)
  aPb a - aPb a % pg + swz (aSwz a) (aPb a % pg + o)

/-! ### Lanes (R253 to R256) -/

/-- A lane that passed: lane, its offset or virtual address, where it accesses, and its page's type and home. -/
structure Lane where
  j : Nat
  va : Nat
  pa : Nat
  ty : Nat
  home : Nat
deriving DecidableEq, Repr

/-- A marked lane: lane, kind (1 alignment, 2 range, 3 permission), address (R256). -/
structure Mark where
  j : Nat
  kind : Nat
  addr : Nat
deriving DecidableEq, Repr

/-- What the checks of an access found. -/
structure Plan where
  lanes : List Lane
  reached : List Lane                     -- every lane that reached translation (R264)
  marks : List Mark
  chk : Chk
deriving DecidableEq, Repr

/-- The operands of an access: guard, space, bytes, base register, offset operand, displacement, row form, access. -/
structure AccOp where
  g : Guard
  sp : Space
  n : Nat
  an : AReg
  vo : VSrc
  disp : BitVec 16
  row : Bool
  acc : Acc
deriving DecidableEq, Repr

/-- The acting lanes of a mask. -/
def lanesOf (m : W32) : List Nat := (List.range 32).filter (bitOn m)
/-- The byte offset of a lane (R253). -/
def State.laneOff (s : State) (x : AccOp) (j : Nat) : Nat :=
  if x.row then (s.src 3 x.vo 0).toNat + x.disp.toNat + j * x.n else (s.src 3 x.vo j).toNat + x.disp.toNat
/-- Acting lanes with their offsets. -/
def State.laneOffs (s : State) (x : AccOp) : List (Nat × Nat) := (lanesOf (s.act x.g)).map (fun j => (j, s.laneOff x j))

/-- Buffer number of a space. -/
def spBuf : Space → Nat
  | .a => 2 | .c => 3 | _ => 4
/-- Is the issuing unit in record mode: shader core, bit 8 of the control word (R256)? -/
def State.recordMode (s : State) : Bool := s.onShader && s.lpb.recordMode
/-- The memory-access fault of the lowest marked lane, unless the marks are recorded (R256). -/
def State.markChk (s : State) (m : List Mark) : Chk :=
  if s.recordMode then .ok
  else match m.foldl (fun (a : Option Mark) x => match a with | none => some x | some y => if x.j < y.j then some x else some y) none with
    | some y => .trap (trapOf 0x09 3 0 y.j y.kind y.addr)
    | none => .ok

/-- Where a lane's byte lies in its scratch buffer: the shared window for .s (R212). -/
def State.bufAt (s : State) (sp : Space) (a : Nat) : Nat := if sp == .s then s.curUnit.shBase * 16384 + a else a
/-- The scratch banks under lanes of an access. -/
def State.laneBanks (s : State) (x : AccOp) (l : List Lane) : List Nat :=
  (l.map (fun p => bufBase (spBuf x.sp) + s.bufAt x.sp p.va / 65536)).eraseDups

/-- The data-error fault of the lowest lane that reads uncorrectable bytes of its buffer (R207, R260, R373). -/
def State.laneData (s : State) (x : AccOp) (l : List Lane) : Chk :=
  match l.findSome? (fun p => s.curCore.badBytes (spBuf x.sp) (s.bufAt x.sp p.va) x.n) with
  | some o => .trap (trapOf 0x14 3 0 s.curSlot.pc.toNat o 0)
  | none => .ok
/-- The plan of an access to a buffer or to shared memory (R254, R255 items 1 to 3, R260). The buffer-address and
dark-read records name the offset operand, the lowest field that forms the address. DEDUCED, log 71. -/
def State.planBuf (s : State) (x : AccOp) : Plan :=
  let base := (low32 (s.sr x.an.val)).toNat
  let l := (s.laneOffs x).map (fun p => (p.1, base + p.2))
  let lim := if x.sp == .s then s.curUnit.shBytes else bufSize (spBuf x.sp)
  match (if x.sp == .s then none else l.find? (fun p => lim < p.2 + x.n)) with
  | some p => { lanes := [], reached := [], marks := [], chk := .trap (trapOf 0x10 3 2 p.2 0 0) }
  | none =>
    let mk := l.filterMap (fun p =>
      if p.2 % x.n != 0 then some { j := p.1, kind := 1, addr := p.2 }
      else if x.sp == .s && lim < p.2 + x.n then some { j := p.1, kind := 2, addr := p.2 } else none)
    let ok := (l.filter (fun p => mk.all (fun m => m.j != p.1))).map
      (fun p => ({ j := p.1, va := p.2, pa := p.2, ty := 0, home := 0 } : Lane))
    { lanes := ok, reached := [], marks := mk,
      chk := (s.markChk mk).orElse (if x.acc == .w then .ok else (s.darkScratch 3 2 (s.laneBanks x ok)).orElse (s.laneData x ok)) }

/-- The outcome of translating one lane of a .g access. -/
inductive LaneX where
  | ok (l : Lane) (perm : Nat)
  | absent (va : Nat)
  | fault (t : TrapInfo)
  | want (va : Nat)
deriving DecidableEq, Repr

/-- Translate lane j at offset o (R223). -/
def State.laneX (s : State) (a : BitVec 192) (n j o : Nat) : LaneX :=
  let va := aVb a + o
  if o + n ≤ aLimit a then .ok { j := j, va := va, pa := aPa a o, ty := aType a, home := aHome a } (aPerm a)
  else match s.lookup s.cur.core s.root (va % 2 ^ 56) with
    | none => .want (va % 2 ^ 56)
    | some (.error .notPresent) => .absent (va % 2 ^ 56)
    | some (.error f) => .fault (f.trap 3 (va % 2 ^ 56) s.curSlot.pc.toNat)
    | some (.ok (leaf, size)) =>
      .ok { j := j, va := va, pa := leafPa leaf size (va % 2 ^ 56), ty := leafType leaf, home := leafHome leaf } (leafPerm leaf)

/-- The plan of a .g access (R254, R255 items 2 and 4 to 6). -/
def State.planG (s : State) (x : AccOp) : Plan :=
  let a := s.curGrp.areg x.an.val
  let l := s.laneOffs x
  let mk := l.filterMap (fun p =>
    if (aVb a + p.2) % x.n != 0 then some { j := p.1, kind := 1, addr := aVb a + p.2 }
    else if 2 ^ 56 < aVb a + p.2 + x.n then some { j := p.1, kind := 2, addr := aVb a + p.2 } else none)
  match s.markChk mk with
  | .ok =>
    let t := (l.filter (fun p => mk.all (fun m => m.j != p.1))).map (fun p => s.laneX a x.n p.1 p.2)
    let wants := t.filterMap (fun r => match r with | .want v => some v | _ => none)
    if !wants.isEmpty then { lanes := [], reached := [], marks := mk, chk := .walk wants }
    else match t.findSome? (fun r => match r with | .absent v => some v | _ => none) with
      | some v => { lanes := [], reached := [], marks := mk, chk := .suspend v x.acc }
      | none =>
        match t.findSome? (fun r => match r with | .fault f => some f | _ => none) with
        | some f => { lanes := [], reached := [], marks := mk, chk := .trap f }
        | none =>
          let oks := t.filterMap (fun r => match r with | .ok q p => some (q, p) | _ => none)
          let pm := (oks.filter (fun q => !(permits q.2 x.acc s.priv))).map
            (fun q => ({ j := q.1.j, kind := 3, addr := q.1.va } : Mark))
          { lanes := (oks.filter (fun q => permits q.2 x.acc s.priv)).map Prod.fst, reached := oks.map Prod.fst, marks := mk ++ pm, chk := s.markChk pm }
  | c => { lanes := [], reached := [], marks := mk, chk := c }

/-- The plan of an access. -/
def State.plan (s : State) (x : AccOp) : Plan := if x.sp == .g then s.planG x else s.planBuf x

/-- Is the issuing gang in a restartable step (R45)? -/
def State.restartable (s : State) : Bool :=
  !s.onShader && s.curUnit.stepping && (((s.curLaunch.bind Launch.topb).map Topb.restart).getD false)
/-- Does [va, va+n) lie in the output region (R45)? -/
def State.inOutput (s : State) (va n : Nat) : Bool :=
  match s.curLaunch.bind Launch.topb with
  | some t => t.outBase ≤ va && va + n ≤ t.outBase + t.outBytes
  | none => false
/-- The restart-contract fault of a .g store (R45, R255 item 8). -/
def State.restartStore (s : State) (x : AccOp) (p : Plan) : Chk :=
  if s.restartable && x.sp == .g then
    match p.lanes.find? (fun l => !(s.inOutput l.va x.n)) with
    | some l => .trap (trapOf 0x0D 3 0 l.va 0 0)
    | none => .ok
  else .ok
/-- The restart-contract fault of an atomic (R45). -/
def State.restartAtom (s : State) : Chk := .when s.restartable (trapOf 0x0D 3 0 0 0 0)

/-- Record the marked lanes in record mode (R256): a lane keeps its first record, later faults raise its count. -/
def State.recordMarks (s : State) (m : List Mark) : State :=
  let pc := s.bundlePc
  s.modG (fun g => m.foldl (fun g k =>
    let r : LaneRec := match (if bitOn g.faultMask k.j then kget k.j g.laneRecs else none) with
      | some r => { r with later := min 255 (r.later + 1) }
      | none => { kind := k.kind, later := 0, pc := pc, addr := BitVec.ofNat 64 k.addr }
    { g with faultMask := g.faultMask ||| BitVec.ofNat 32 (2 ^ k.j), laneRecs := kset k.j r g.laneRecs }) g)

/-! ### Holds (R211, R258, R277) -/

/-- Distinct 32-byte sectors of lanes (R258). -/
def sectorsOf (l : List Lane) : List Nat := (l.map (fun p => p.pa / 32)).eraseDups
/-- Request slots in use on a core (R277). -/
def Core.slotsUsed (c : Core) : Nat := c.sectors.foldl (fun a f => a + f.slots) 0
/-- Is a scratch bank held in one of some modes (0 R, 1 W, 2 S)? -/
def Core.heldIn (c : Core) (i : Nat) (modes : List Nat) : Bool :=
  c.resv.any (fun r => bufBase r.buf + r.bank == i && modes.contains r.mode)

/-- Would an access exceed the request slots (R277)? -/
def State.slotHold (s : State) (x : AccOp) (p : Plan) : Bool :=
  x.sp == .g && s.curCore.slotsUsed + (sectorsOf p.lanes).length > 512
/-- The hold of a counted access: counter 0 and the request slots (R151, R277). -/
def State.countHold (s : State) (x : AccOp) (p : Plan) : Bool :=
  if x.sp == .g then s.curGrp.ctrs.getD 0 0 + (sectorsOf p.lanes).length > 65535 || s.slotHold x p
  else x.sp == .s && s.curGrp.ctrs.getD 0 0 + 1 > 65535
/-- The hold of a buffer access under the reservation table (R211). -/
def State.bufHold (s : State) (x : AccOp) (p : Plan) : Bool :=
  (x.sp == .a || x.sp == .c) &&
    (s.laneBanks x p.lanes).any (fun i => s.curCore.heldIn i (if x.acc == .w then [0, 1] else [1]))
/-- The scratch banks that an access reads (R120). -/
def accBanks (x : AccOp) (s : State) : List Nat :=
  if x.sp == .g || x.acc == .w then [] else s.laneBanks x (s.plan x).lanes

/-! ### Loads (R257, R258, R260) -/

/-- Extend n bytes to a lane (R257). -/
def extendTo (n : Nat) (sx : Bool) (v : Nat) : Nat :=
  if sx && n < 4 && bitN v (8 * n - 1) then v + (2 ^ 32 - 2 ^ (8 * n)) else v
/-- The writes of a lane's value to a dest view, and to the next view for b64 (R257). -/
def laneWrites (vd : View) (n j v : Nat) : List Wr :=
  Wr.m (vkey vd j) (BitVec.ofNat 32 v) ::
    (if n = 8 then [Wr.m (vkey (vnext vd 1) j) (BitVec.ofNat 32 (v / 2 ^ 32))] else [])

/-- Send values of lanes back as sector landings of counter 0 (R258): one per sector, marked where uncorrectable. `s0` is the state
in which the lanes were served: by the core's own copy, or after the bridge crossings to their home and back (R13). -/
def State.landSectors (s : State) (s0 : State) (own : Nat → Bool) (l : List (Lane × List Wr)) : State :=
  let secs := (l.map (fun p => p.1.pa / 32)).eraseDups
  let s := s.ctrUp 0 secs.length
  secs.foldl (fun s k =>
    s.later 1 (if own k then 0 else s.homeTicks (coreDie s.cur.core) (k * 32)) (some 0) (k * 32) 1
      (if own k then s0.badFor s.cur.core (k * 32) 32 else s0.badAt (k * 32) 32).isSome
      ((l.filter (fun p => p.1.pa / 32 == k)).flatMap Prod.snd)) s
/-- Does the core's own copy serve a load of sector k by some lane, at the bundle's scope (R207, log 3)? -/
def State.servedHere (s : State) (l : List Lane) (k : Nat) : Bool :=
  l.any (fun p => p.pa / 32 == k && s.ownPath s.cur.core s.scope p.ty) && isShader s.cur.core
    && !(s.lineOpen (s.canon (k * 32) / 128)) && (kget (s.canon (k * 32) / 128) s.curCore.lines).isSome
/-- The virtual addresses that lanes of an access look up in the TLBs (R223). -/
def State.slowVas (s : State) (x : AccOp) : List Nat :=
  let a := s.curGrp.areg x.an.val
  (s.laneOffs x).filterMap (fun p =>
    if x.sp != .g || (aVb a + p.2) % x.n != 0 || 2 ^ 56 < aVb a + p.2 + x.n || p.2 + x.n ≤ aLimit a then none
    else some ((aVb a + p.2) % 2 ^ 56))
/-- The core-TLB misses of an access as its bundle issues (R226, R369). -/
def State.noteX (s : State) (x : AccOp) : State := s.noteMisses s.cur.core s.root (s.slowVas x)
/-- Request slots for the sectors of lanes that no landing answers: stores and ATOMF (R277). -/
def State.sendSectors (s : State) (x : AccOp) (l : List Lane) : State :=
  if x.sp == .g then s.holdSlots s.cur.core s.cur.gid ((sectorsOf l).map (fun k => (k, s.homeTicks (coreDie s.cur.core) (k * 32)))) else s

/-- Read the value of each .g lane at its place for the issuing core. -/
def State.readLanes (s : State) (n : Nat) : List Lane → List (Lane × Nat) × State
  | [] => ([], s)
  | p :: r =>
    let q := s.loadG s.cur.core s.curGrp.launch p.pa n s.scope p.ty
    let t := State.readLanes q.2 n r
    ((p, leNat q.1) :: t.1, t.2)

/-- Checks of LD and LDX. -/
def chkLoad (x : AccOp) (s : State) : Chk := (s.plan x).chk
/-- Holds of LD and LDX. -/
def holdLoad (x : AccOp) (s : State) : Bool × State :=
  let p := s.plan x
  let r := s.bufHold x p
  (s.countHold x p || r, if r then s.bumpClk s.cur.core 9 else if s.slotHold x p then s.bumpClk s.cur.core 14 else s)
/-- LD and LDX (R257, R258). A b64 load of a tile buffer is two fixed-latency results, one for each of its destination views. -/
def effLoad (x : AccOp) (sx : Bool) (vd : View) (s : State) : State :=
  let p := s.plan x
  let s := (s.noteX x).recordMarks p.marks
  if x.sp == .g then
    let r := s.readLanes x.n p.lanes
    r.2.landSectors s (s.servedHere p.lanes) (r.1.map (fun q => (q.1, laneWrites vd x.n q.1.j (extendTo x.n sx q.2))))
  else
    let val (l : Lane) : Nat := extendTo x.n sx (s.curCore.bufNat (spBuf x.sp) (s.bufAt x.sp l.va) x.n)
    if x.sp == .s then
      (if p.lanes.isEmpty then s
       else (s.ctrUp 0 1).later 20 0 (some 0) 0 0 false (p.lanes.flatMap (fun l => laneWrites vd x.n l.j (val l))))
    else (s.emit 3 8 (p.lanes.flatMap (fun l => laneWrites vd 4 l.j (val l)))).emit 3 8
      (if x.n = 8 then p.lanes.flatMap (fun l => laneWrites (vnext vd 1) 4 l.j (val l / 2 ^ 32)) else [])

/-! ### Stores (R261) -/

/-- The data of a lane: one operand, or two for b64 (R261). -/
def State.storeData (s : State) (n : Nat) (vd : VSrc) (j : Nat) : Nat :=
  (s.src 3 vd j).toNat % 2 ^ (8 * n) + (if n = 8 then (s.srcHi 3 vd j).toNat * 2 ^ 32 else 0)
/-- Checks of ST and STX. -/
def chkStore (x : AccOp) (s : State) : Chk := let p := s.plan x; p.chk.orElse (s.restartStore x p)
/-- Holds of ST and STX (R211, R277). -/
def holdStore (x : AccOp) (s : State) : Bool × State :=
  let p := s.plan x
  let r := s.bufHold x p
  (r || s.slotHold x p, if r then s.bumpClk s.cur.core 9 else if s.slotHold x p then s.bumpClk s.cur.core 14 else s)
/-- ST and STX: ascending lanes, so the highest stands (R261); a store into a bank that is not BRIGHT lands as its wake completes
(R117). -/
def effStore (x : AccOp) (vd : VSrc) (s : State) : State :=
  let p := s.plan x
  let s := (s.noteX x).recordMarks p.marks
  (p.lanes.foldl (fun s l =>
    let v := leBytes x.n (s.storeData x.n vd l.j)
    if x.sp == .g then (s.storeG s.cur.core s.curGrp.launch l.pa v s.scope l.ty).markFar l.pa
    else s.bufStore s.cur.core s.cur.gid (spBuf x.sp) (s.bufAt x.sp l.va) v) s).sendSectors x p.lanes

/-! ### Atomics (R262, R263) -/

/-- A number as a signed number of n bytes. -/
def signedOf (n v : Nat) : Int := if bitN v (8 * n - 1) then (v : Int) - (2 ^ (8 * n) : Nat) else v
/-- The new value of an atomic (R262). -/
def atomNew (op n old d cmp : Nat) : Nat :=
  match op with
  | 0 => (old + d) % 2 ^ (8 * n)
  | 1 => if signedOf n old ≤ signedOf n d then old else d
  | 2 => min old d
  | 3 => if signedOf n old ≤ signedOf n d then d else old
  | 4 => max old d
  | 5 => old &&& d
  | 6 => old ||| d
  | 7 => old ^^^ d
  | 8 => d
  | _ => if old == cmp then d else old
/-- The operand of an atomic starting at index k of its dest (R262). -/
def State.atomData (s : State) (vd : View) (n k j : Nat) : Nat :=
  (s.src 3 (.view (vnext vd k)) j).toNat + (if n = 8 then (s.src 3 (.view (vnext vd (k + 1))) j).toNat * 2 ^ 32 else 0)
/-- Read-modify-write of a lane's word: the old value (R234, R262). A .g word is at its home, settled first. -/
def State.rmw (s : State) (sp : Space) (n : Nat) (l : Lane) (f : Nat → Nat) : Nat × State :=
  if sp == .g then
    let s := s.beforeAtomic s.cur.core l.pa
    let s := s.settleRange l.pa n
    let old := s.nat l.pa n
    (old, (s.putBytes l.pa (leBytes n (f old))).markFar l.pa)
  else
    let at_ := s.bufAt sp l.va
    let old := s.curCore.bufNat (spBuf sp) at_ n
    (old, s.modC (fun c => c.bufWrite (spBuf sp) at_ (leBytes n (f old))))
/-- Perform an atomic on lanes in ascending order: lanes with the old values (R262). -/
def State.atomLanes (s : State) (sp : Space) (n : Nat) (f : Nat → Nat → Nat) : List Lane → List (Lane × Nat) × State
  | [] => ([], s)
  | l :: r =>
    if sp == .g && (s.badAt l.pa n).isSome then
      let t := State.atomLanes s sp n f r
      ((l, 0) :: t.1, t.2)
    else
      let q := s.rmw sp n l (f l.j)
      let t := State.atomLanes q.2 sp n f r
      ((l, q.1) :: t.1, t.2)
/-- Checks of ATOM. -/
def chkAtom (x : AccOp) (s : State) : Chk := (s.plan x).chk.orElse s.restartAtom
/-- Holds of ATOM. -/
def holdAtom (x : AccOp) (s : State) : Bool × State := holdLoad x s
/-- ATOM (R262). -/
def effAtom (x : AccOp) (op : Nat) (vd : View) (s : State) : State :=
  let p := s.plan x
  let s0 := s
  let s := (s.noteX x).recordMarks p.marks
  let k := if x.n = 8 then 2 else 1
  let r := s.atomLanes x.sp x.n (fun j old => atomNew op x.n old (s0.atomData vd x.n 0 j) (s0.atomData vd x.n k j)) p.lanes
  let out := r.1.map (fun q => (q.1, laneWrites vd x.n q.1.j q.2))
  if x.sp == .g then r.2.landSectors s (fun _ => false) out
  else if p.lanes.isEmpty then r.2
  else (r.2.ctrUp 0 1).later 20 0 (some 0) 0 0 false (out.flatMap Prod.snd)
/-- ATOMF.add: the word is the first operand, round to nearest even (R263). -/
def effAtomf (x : AccOp) (vd : VSrc) (s : State) : State :=
  let p := s.plan x
  let s0 := s
  let s := (s.noteX x).recordMarks p.marks
  (s.atomLanes x.sp 4 (fun j old => fadd 0 0 false old (s0.src 3 vd j).toNat) p.lanes).2.sendSectors x p.lanes
/-- The hold of ATOMF and ATOMF.x: the request slots (R277). -/
def holdAtomf (x : AccOp) (s : State) : Bool × State :=
  let h := s.slotHold x (s.plan x)
  (h, if h then s.bumpClk s.cur.core 14 else s)

/-! ### Exact sums (R216, R264 to R266) -/

/-- The exact-sum checks (R264): placement, then the 4,096 lines of each home slice. -/
def State.exactChk (s : State) (l : List Lane) : Chk :=
  match l.find? (fun p => p.home ≥ 2 || p.ty ≥ 2) with
  | some p => .trap (trapOf 0x15 3 0 p.j p.va 0)
  | none =>
    let step (a : List Nat × Option Lane) (p : Lane) : List Nat × Option Lane :=
      match a.2 with
      | some _ => a
      | none =>
        let w := s.canon p.pa
        if (kget w s.exact).isSome || a.1.contains w then a
        else
          let h := homeSlice w
          let n := (s.exact.filter (fun e => homeSlice e.1 == h)).length + (a.1.filter (fun e => homeSlice e == h)).length
          if n ≥ 4096 then (a.1, some p) else (a.1 ++ [w], none)
    match (l.foldl step ([], none)).2 with
    | some p => let h := (homeSlice (s.canon p.pa)).2; .trap (trapOf 0x16 3 0 p.j (h.1 + h.2 * 2 ^ 16) 0)
    | none => .ok
/-- Open the line of a word: copies of its 128 bytes go, its current value is the first add (R216, R266). -/
def State.openExact (s : State) (w : Nat) : State :=
  if (kget w s.exact).isSome then s
  else
    let s := s.dropEverywhere (w / 128)
    let r := exactAdd 0 0 false false false (s.nat w 4)
    { s with exact := kset w { u := r.1, w := r.2.1, nan := r.2.2.1, pinf := r.2.2.2.1, ninf := r.2.2.2.2 } s.exact }
/-- Add a value into the line of a word (R108). -/
def State.addExact (s : State) (w v : Nat) : State :=
  let s := s.openExact w
  { s with exact := kmod w (fun e =>
      let r := exactAdd e.u e.w e.nan e.pinf e.ninf v
      { u := r.1, w := r.2.1, nan := r.2.2.1, pinf := r.2.2.2.1, ninf := r.2.2.2.2 }) s.exact }
/-- Checks of ATOMF.add.x. -/
def chkAtomfX (x : AccOp) (s : State) : Chk :=
  let p := s.plan x
  (p.chk.orElse (s.exactChk p.reached)).orElse s.restartAtom
/-- ATOMF.add.x (R264). -/
def effAtomfX (x : AccOp) (vd : VSrc) (s : State) : State :=
  let p := s.plan x
  let s := (s.noteX x).recordMarks p.marks
  (p.lanes.foldl (fun s l => s.addExact (s.canon l.pa) (s.src 3 vd l.j).toNat) s).sendSectors x p.lanes
/-- Settle each lane's word and read it at its home. -/
def State.settleLanes (s : State) : List Lane → List (Lane × Nat) × State
  | [] => ([], s)
  | l :: r =>
    let s := if (s.badAt l.pa 4).isSome then s else (s.beforeAtomic s.cur.core l.pa).settleRange l.pa 4
    let t := State.settleLanes s r
    ((l, s.nat l.pa 4) :: t.1, t.2)
/-- SETTLE (R265). -/
def effSettle (x : AccOp) (vd : View) (s : State) : State :=
  let p := s.plan x
  let s := (s.noteX x).recordMarks p.marks
  let r := s.settleLanes p.lanes
  r.2.landSectors s (fun _ => false) (r.1.map (fun q => (q.1, laneWrites vd 4 q.1.j q.2)))

/-! ### FENCE, XLATE, PROBE, PREF, CLEAN, INVAL (R267 to R271) -/

/-- The next bundle of the issuing stream issues no earlier than n clk from now. -/
def State.notBefore (s : State) (n : Nat) : State :=
  let t := s.curCore.pclk + n
  s.modS (fun p => { p with next := max p.next t })
/-- FENCE (R267): what this model has sent is performed; the scope's guide delays the next bundle. At pod and system scope a free
round trip is added where the stream has stored outside the package since its last such FENCE. -/
def effFence (s : State) : State :=
  let c := s.scope
  let s := s.fenceAt s.cur.core c
  if c == 0 || c == 6 then s.notBefore 2
  else if c ≤ 2 then s.notBefore 40
  else if c == 3 then s.notBefore 200
  else if !(s.curGrp.far.getD s.cur.slot false) then s.notBefore 200
  else { ((s.modG (fun g => { g with far := g.far.set s.cur.slot false })).notBefore (200 + Config.latency s.free)) with free := s.free + 1 }

/-- The word that XLATE writes from a leaf (R222, R268). -/
def xlateWord (va leaf size : Nat) : BitVec 192 :=
  let pg := pageBytes size
  BitVec.ofNat 192 (va + (leafFrame leaf + va % pg) * 2 ^ 64 + leafSwz leaf * 2 ^ 116 + size * 2 ^ 120 + leafType leaf * 2 ^ 122
    + leafHome leaf * 2 ^ 124 + (pg - va % pg) * 2 ^ 128 + leafPerm leaf * 2 ^ 160)
/-- Checks of XLATE (R268): without .nf the faults of the walk; under .nf only the walk itself. -/
def chkXlate (nf : Bool) (sa : SReg) (s : State) : Chk :=
  let va := (s.sr sa.val).toNat % 2 ^ 56
  match s.lookup s.cur.core s.root va with
  | none => .walk [va]
  | some (.ok _) => .ok
  | some (.error f) =>
    if nf then .ok
    else match f with
      | .notPresent => .suspend va .r
      | f => .trap (f.trap 3 va s.curSlot.pc.toNat)
/-- XLATE (R268): the register is written before the next bundle. -/
def effXlate (an : AReg) (sa : SReg) (s : State) : State :=
  let va := (s.sr sa.val).toNat % 2 ^ 56
  let w := match s.lookup s.cur.core s.root va with
    | some (.ok (leaf, size)) => xlateWord va leaf size
    | _ => BitVec.ofNat 192 va
  (((s.noteMisses s.cur.core s.root [va]).takeWalkF s.cur.core s.root va).modG (fun g => { g with aregs := sset 0 an.val w g.aregs })).notBefore 4

/-- The status word of PROBE for a lane (R269): bit 0 asks for R as a load does (R254). -/
def State.probeWord (s : State) (a : BitVec 192) (n o : Nat) : Nat :=
  let found (perm ty home sw size : Nat) : Nat := (if permits perm .r s.priv then 1 else 0) + perm * 2 + ty * 2 ^ 5 + home * 2 ^ 7 + sw * 2 ^ 9 + size * 2 ^ 13
  if (aVb a + o) % n != 0 then 4 * 2 ^ 15
  else if 2 ^ 56 < aVb a + o + n then 5 * 2 ^ 15
  else if o + n ≤ aLimit a then found (aPerm a) (aType a) (aHome a) (aSwz a) (aPage a)
  else match s.lookup s.cur.core s.root ((aVb a + o) % 2 ^ 56) with
    | some (.ok (leaf, size)) => found (leafPerm leaf) (leafType leaf) (leafHome leaf) (leafSwz leaf) size
    | some (.error (.malformed _)) => 2 * 2 ^ 15
    | some (.error (.unmapped _)) => 3 * 2 ^ 15
    | _ => 1 * 2 ^ 15
/-- The walks that PROBE waits for. -/
def chkProbe (x : AccOp) (s : State) : Chk :=
  let a := s.curGrp.areg x.an.val
  let wants := (s.laneOffs x).filterMap (fun p =>
    if (aVb a + p.2) % x.n != 0 || 2 ^ 56 < aVb a + p.2 + x.n then none
    else match s.laneX a x.n p.1 p.2 with | .want v => some v | _ => none)
  if wants.isEmpty then .ok else .walk wants
/-- PROBE (R269): it never faults; it waits like XLATE. -/
def effProbe (x : AccOp) (vd : View) (s : State) : State :=
  let a := s.curGrp.areg x.an.val
  let l := s.laneOffs x
  let ws := l.map (fun p => Wr.m (vkey vd p.1) (BitVec.ofNat 32 (s.probeWord a x.n p.2)))
  let s := s.noteX x
  let s := l.foldl (fun s p => s.takeWalkF s.cur.core s.root ((aVb a + p.2) % 2 ^ 56)) s
  (s.emit 3 4 ws).notBefore 4

/-- The 128-byte lines that PREF asks for, with their types: a lane that would fault, an uncached line and a line under R266 are
dropped (R270). -/
def State.prefLines (s : State) (x : AccOp) : List (Nat × Nat) :=
  let a := s.curGrp.areg x.an.val
  ((s.laneOffs x).filterMap (fun p =>
    let go (pa ty perm : Nat) : Option (Nat × Nat) :=
      if ty == 2 || !(permits perm .r s.priv) || s.lineOpen (s.canon pa / 128) || (s.badAt (pa / 128 * 128) 128).isSome then none
      else some (pa / 128, ty)
    if 2 ^ 56 ≤ aVb a + p.2 then none
    else match s.laneX a 1 p.1 p.2 with
      | .ok l perm => go l.pa l.ty perm
      | _ => none)).eraseDups
/-- The walks that PREF waits for (R225): it never faults. -/
def chkPref (x : AccOp) (s : State) : Chk := chkProbe x s
/-- The request slots of the sectors of the lines that PREF asks for: four each (R277). -/
def holdPref (x : AccOp) (s : State) : Bool × State :=
  let h := s.curCore.slotsUsed + 4 * (s.prefLines x).length > 512
  (h, if h then s.bumpClk s.cur.core 14 else s)
/-- PREF (R270): the lines come into the core's L1, or into their home slices only. -/
def effPref (x : AccOp) (l2 : Bool) (s : State) : State :=
  let ls := s.prefLines x
  let a := s.curGrp.areg x.an.val
  let s := s.noteX x
  let s := (s.laneOffs x).foldl (fun s p => s.takeWalkF s.cur.core s.root ((aVb a + p.2) % 2 ^ 56)) s
  let s := ls.foldl (fun s l =>
    if l2 then (s.homeRead (l.1 * 128) 128 l.2).2 else (s.loadG s.cur.core s.curGrp.launch (l.1 * 128) 1 0 l.2).2) s
  s.holdSlots s.cur.core s.cur.gid (ls.flatMap (fun l => (List.range 4).map (fun i => (l.1 * 4 + i, s.homeTicks (coreDie s.cur.core) (l.1 * 128)))))

/-- How far a failed translation at va reaches: nothing is mapped from va to the next multiple (R217). -/
def State.holeSize (s : State) (root va : Nat) : Nat :=
  let e3 := s.nat (root + 8 * fld va 43 13) 8
  if !(s.mapped root) || e3 % 2 == 0 || bitN e3 1 then 2 ^ 43
  else match s.tableCheck e3 65536 3 with
    | .error _ => 2 ^ 43
    | .ok t2 =>
      let e2 := s.nat (t2 + 8 * fld va 30 13) 8
      if e2 % 2 == 0 || bitN e2 1 then 2 ^ 30
      else match s.tableCheck e2 4096 2 with
        | .error _ => 2 ^ 30
        | .ok t1 =>
          let e1 := s.nat (t1 + 8 * fld va 21 9) 8
          if e1 % 2 == 0 || bitN e1 1 then 2 ^ 21 else 2 ^ 16

/-- The mapped pages that touch [va, hi): page address, leaf, size. -/
def State.pagesIn (s : State) (c root hi : Nat) : Nat → Nat → List (Nat × Nat × Nat)
  | 0, _ => []
  | n + 1, va =>
    if hi ≤ va then []
    else match s.xlatNow c root (va % 2 ^ 56) with
      | .ok (leaf, size) =>
        let p := va / pageBytes size * pageBytes size
        (p, leaf, size) :: State.pagesIn s c root hi n (p + pageBytes size)
      | .error _ =>
        let h := s.holeSize root (va % 2 ^ 56)
        State.pagesIn s c root hi n ((va / h + 1) * h)

/-- Does the 128-byte line k hold a byte of [lo, hi) through one of the pages? Every swizzle is its own inverse (R221). Lines are
named by the addresses that `canon` gives: a frame may name its own package as a pod address (R213). -/
def lineIn (canon : Nat → Nat) (pages : List (Nat × Nat × Nat)) (lo hi k : Nat) : Bool :=
  pages.any (fun p =>
    let fr := canon (leafFrame p.2.1)
    let sz := pageBytes p.2.2
    fr ≤ 128 * k && 128 * k < fr + sz &&
      (let va := p.1 + swz (leafSwz p.2.1) (128 * k - fr)
       va < hi && lo < va + 128))

/-- The range of CLEAN and INVAL, none for .all. -/
def State.rangeOf (s : State) (r : RangeSel) : Option (Nat × Nat) :=
  match r with
  | .all => none
  | .range sa sb => some ((s.sr sa.val).toNat % 2 ^ 56, (s.sr sb.val).toNat)
/-- Checks of CLEAN and INVAL: a length of at most 40 bits (R271). -/
def chkRange (r : RangeSel) (s : State) : Chk :=
  match s.rangeOf r with
  | none => .ok
  | some (_, n) => .when (2 ^ 40 ≤ n) (trapOf 0x25 3 0 n 0 0)
/-- The lines of the issuing core that a range covers. -/
def State.linesIn (s : State) (r : RangeSel) : List Nat × (Nat → Bool) :=
  match s.rangeOf r with
  | none => (s.curCore.lines.map Prod.fst, fun _ => false)
  | some (va, n) =>
    let pages := s.pagesIn s.cur.core s.root (va + n) (n / 65536 + 2) va
    ((s.curCore.lines.map Prod.fst).filter (lineIn s.canon pages va (va + n)), lineIn s.canon pages va (va + n))
/-- CLEAN (R271). -/
def effClean (r : RangeSel) (s : State) : State :=
  { ((((s.linesIn r).1.foldl (fun s k => s.cleanLine s.cur.core k) s)).notBefore (1 + Config.latency s.free)) with free := s.free + 1 }
/-- INVAL (R271): as CLEAN, then the copies go; host lines of the range leave their home slice too (R244). -/
def effInval (r : RangeSel) (s : State) : State :=
  let l := s.linesIn r
  let s := l.1.foldl (fun s k => s.dropLine s.cur.core k) s
  let s := { s with hostL2 := s.hostL2.filter (fun p => !(l.2 p.1)) }
  { (s.notBefore (1 + Config.latency s.free)) with free := s.free + 1 }

/-! ### Operand records -/

/-- The access of LD, LDX. -/
def loadOp (g : Guard) (sp : Space) (sz : Size) (an : AReg) (vo : VSrc) (disp : BitVec 16) (row : Bool) : AccOp :=
  { g := g, sp := sp, n := sz.bytes, an := an, vo := vo, disp := disp, row := row, acc := .r }
/-- The access of ST, STX. -/
def storeOp (g : Guard) (sp : Space) (sz : Size) (an : AReg) (vo : VSrc) (disp : BitVec 16) (row : Bool) : AccOp :=
  { g := g, sp := sp, n := sz.bytes, an := an, vo := vo, disp := disp, row := row, acc := .w }
/-- The access of ATOM, ATOMF, SETTLE. -/
def atomOp (g : Guard) (shared b64 : Bool) (an : AReg) (vo : VSrc) (disp : BitVec 16) : AccOp :=
  { g := g, sp := if shared then .s else .g, n := if b64 then 8 else 4, an := an, vo := vo, disp := disp, row := false,
    acc := .rw }
/-- The access of PROBE and PREF. -/
def probeOp (g : Guard) (n : Nat) (an : AReg) (vo : VSrc) (disp : BitVec 16) : AccOp :=
  { g := g, sp := .g, n := n, an := an, vo := vo, disp := disp, row := false, acc := .r }

/-! ### The instructions, alone in their bundle -/

/-- LD. -/
def execLd (g : Guard) (sp : Space) (sz : Size) (sx : Bool) (vd : View) (an : AReg) (vo : VSrc) (disp : BitVec 16) (s : State) : Out :=
  let x := loadOp g sp sz an vo disp true
  s.issueSolo (.ld g sp sz sx vd an vo disp) { chk := chkLoad x, hold := holdLoad x, banks := accBanks x, eff := effLoad x sx vd }
/-- ST. -/
def execSt (g : Guard) (sp : Space) (sz : Size) (vd : VSrc) (an : AReg) (vo : VSrc) (disp : BitVec 16) (s : State) : Out :=
  let x := storeOp g sp sz an vo disp true
  s.issueSolo (.st g sp sz vd an vo disp) { chk := chkStore x, hold := holdStore x, eff := effStore x vd }
/-- LDX. -/
def execLdx (g : Guard) (sp : Space) (sz : Size) (sx : Bool) (vd : View) (an : AReg) (vo : VSrc) (disp : BitVec 16) (s : State) : Out :=
  let x := loadOp g sp sz an vo disp false
  s.issueSolo (.ldx g sp sz sx vd an vo disp) { chk := chkLoad x, hold := holdLoad x, banks := accBanks x, eff := effLoad x sx vd }
/-- STX. -/
def execStx (g : Guard) (sp : Space) (sz : Size) (vd : VSrc) (an : AReg) (vo : VSrc) (disp : BitVec 16) (s : State) : Out :=
  let x := storeOp g sp sz an vo disp false
  s.issueSolo (.stx g sp sz vd an vo disp) { chk := chkStore x, hold := holdStore x, eff := effStore x vd }
/-- ATOM. -/
def execAtom (g : Guard) (shared b64 : Bool) (op : Fin 10) (vd : View) (an : AReg) (vo : VSrc) (disp : BitVec 16) (s : State) : Out :=
  let x := atomOp g shared b64 an vo disp
  s.issueSolo (.atom g shared b64 op vd an vo disp) { chk := chkAtom x, hold := holdAtom x, banks := accBanks x, eff := effAtom x op.val vd }
/-- ATOMF.add. -/
def execAtomfAdd (g : Guard) (shared : Bool) (vd : VSrc) (an : AReg) (vo : VSrc) (disp : BitVec 16) (s : State) : Out :=
  let x := atomOp g shared false an vo disp
  s.issueSolo (.atomfAdd g shared vd an vo disp) { chk := chkAtom x, hold := holdAtomf x, banks := accBanks x, eff := effAtomf x vd }
/-- ATOMF.add.x. -/
def execAtomfAddX (g : Guard) (vd : VSrc) (an : AReg) (vo : VSrc) (disp : BitVec 16) (s : State) : Out :=
  let x := atomOp g false false an vo disp
  s.issueSolo (.atomfAddX g vd an vo disp) { chk := chkAtomfX x, hold := holdAtomf x, eff := effAtomfX x vd }
/-- SETTLE. -/
def execSettle (g : Guard) (vd : View) (an : AReg) (vo : VSrc) (disp : BitVec 16) (s : State) : Out :=
  let x := atomOp g false false an vo disp
  s.issueSolo (.settle g vd an vo disp) { chk := chkLoad x, hold := holdAtom x, eff := effSettle x vd }
/-- FENCE. -/
def execFence (g : Guard) (s : State) : Out := s.issueSolo (.fence g) { eff := effFence }
/-- XLATE. -/
def execXlate (g : Guard) (nf : Bool) (an : AReg) (sa : SReg) (s : State) : Out :=
  s.issueSolo (.xlate g nf an sa) { chk := chkXlate nf sa, eff := effXlate an sa }
/-- PROBE. -/
def execProbe (g : Guard) (sz : Size) (vd : View) (an : AReg) (vo : VSrc) (disp : BitVec 16) (s : State) : Out :=
  let x := probeOp g sz.bytes an vo disp
  s.issueSolo (.probe g sz vd an vo disp) { chk := chkProbe x, eff := effProbe x vd }
/-- PREF. -/
def execPref (g : Guard) (l2 : Bool) (an : AReg) (vo : VSrc) (disp : BitVec 16) (s : State) : Out :=
  let x := probeOp g 1 an vo disp
  s.issueSolo (.pref g l2 an vo disp) { chk := chkPref x, hold := holdPref x, eff := effPref x l2 }
/-- CLEAN. -/
def execClean (g : Guard) (r : RangeSel) (s : State) : Out := s.issueSolo (.clean g r) { chk := chkRange r, eff := effClean r }
/-- INVAL. -/
def execInval (g : Guard) (r : RangeSel) (s : State) : Out := s.issueSolo (.inval g r) { chk := chkRange r, eff := effInval r }

end Sys2Proof.Machine
end

