-- ==== Sys2Proof/Machine/Matrix.lean ====
section
/-! DEFINITION. Engine commands on scratch buffers: bank sets and the reservation table (R209, R210, R122), and the
multiplier array with its gather unit, latch and drain (R280 to R293). -/

namespace Sys2Proof.Machine

/-! ### Bank sets (R209, R210, R122) -/

/-- Runs of n bytes at off + r * str, for rows r, in a buffer (1 W, 2 A, 3 C, 4 shared), with the operand field that
names them. -/
structure Span where
  buf  : Nat
  off  : Nat
  str  : Nat
  rows : List Nat
  n    : Nat
  fld_ : Nat
deriving DecidableEq, Repr

/-- Offset of a row. -/
def Span.pos (x : Span) (r : Nat) : Nat := x.off + r * x.str
/-- The offset of the first row that reaches beyond its buffer (R209). -/
def Span.beyond (x : Span) : Option Nat :=
  (x.rows.find? (fun r => x.n != 0 && bufSize x.buf < x.pos r + x.n)).map x.pos
/-- The banks of a span, as scratch-bank indices. -/
def Span.banks (x : Span) : List Nat := (x.rows.flatMap (fun r => spanBanks x.buf (x.pos r) x.n)).eraseDups

/-- The buffer-address fault of spans, the first that fails (R209, R173). -/
def extentChk (l : List Span) : Chk :=
  Chk.first (l.map (fun x => match x.beyond with
    | some o => .trap (trapOf 0x10 4 x.fld_ o 0 0)
    | none => .ok))
/-- The data-error fault of the first uncorrectable unit of the spans that a command reads, at its issue (R207, R373; log 72). -/
def State.dataSpans (s : State) (l : List Span) : Chk :=
  if s.curCore.badBuf.isEmpty then .ok
  else match l.findSome? (fun x => x.rows.findSome? (fun r => s.curCore.badBytes x.buf (x.pos r) x.n)) with
    | some o => .trap (trapOf 0x14 4 0 s.curSlot.pc.toNat o 0)
    | none => .ok
/-- The dark-read fault on the banks of the spans that a command reads (R122, R285 item 4). -/
def State.darkSpans (s : State) (l : List Span) : Chk := Chk.first (l.map (fun x => s.darkScratch 4 x.fld_ x.banks))

/-- Banks with their modes (0 R, 1 W, 2 S), one entry a bank: a bank both read and written is held in W (R210). -/
def mergeModes (l : List (Nat × Nat)) : List (Nat × Nat) :=
  (l.map Prod.fst).eraseDups.map (fun b =>
    let ms := (l.filter (fun p => p.1 == b)).map Prod.snd
    (b, if ms.all (fun m => m == ms.headD 0) then ms.headD 0 else 1))
/-- The banks of spans in one mode. -/
def modesOf (m : Nat) (l : List Span) : List (Nat × Nat) := l.flatMap (fun x => x.banks.map (fun b => (b, m)))
/-- Holders of a bank in a mode. -/
def Core.holders (c : Core) (b m : Nat) : Nat :=
  (c.resv.filter (fun r => bufBase r.buf + r.bank == b && r.mode == m)).length
/-- Does a bank set conflict with the table (R210)? -/
def Core.conflict (c : Core) (l : List (Nat × Nat)) : Bool :=
  l.any (fun p => match p.2 with
    | 0 => c.holders p.1 1 > 0 || c.holders p.1 0 ≥ 4
    | 1 => c.holders p.1 0 + c.holders p.1 1 + c.holders p.1 2 > 0
    | _ => c.holders p.1 0 + c.holders p.1 1 > 0 || c.holders p.1 2 ≥ 2)
/-- Enter a command's bank set into the table. -/
def Core.reserve (c : Core) (id : Nat) (l : List (Nat × Nat)) : Core :=
  { c with resv := c.resv ++ l.map (fun p => { cmd := id, buf := (bankKind p.1).1, bank := (bankKind p.1).2, mode := p.2 }) }
/-- Release the entries of a command. -/
def Core.release (c : Core) (id : Nat) : Core := { c with resv := c.resv.filter (fun r => r.cmd != id) }

/-- Start the wakes of banks that a write reaches; the clk until the last of them completes (R117, R122). -/
def Core.wakeFor (c : Core) (bs : List Nat) : Core × Nat :=
  let c := bs.foldl Core.wakeScratch c
  (c, bs.foldl (fun a i => max a (((c.sbank i).wakeAt.getD 0) - c.clk)) 0)

/-- A command of the issuing stream. -/
def State.cmdOf (s : State) (op : Instr) (args : List Nat) (act : W32) (data : List W32) (start due : Nat) : Cmd :=
  { id := s.fresh, op := op, core := s.cur.core, gcore := s.cur.core, gid := s.cur.gid, slot := s.cur.slot, args := args, act := act, scope := s.scope,
    launch := s.curGrp.launch, root := s.root, priv := s.priv, ident := s.lpb.ident, base := s.curUnit.shBase * 16384,
    start := start, due := due, bad := false, data := data, page := none, ran := false, wall := 0, tick := 0, part := none, drop := [] }

/-! ### Operands of the array (R280 to R283) -/

/-- Rate: clk per block (R280). -/
def cpb (f : Nat) : Nat := if f ≤ 2 then 128 else if f == 7 then 8 else 32
/-- A format that the array accepts (R280). -/
def arrayFmt (f : Nat) : Bool := 1 ≤ f && f ≤ 8
/-- Bytes of a row of nb blocks. -/
def rowBytes (f nb : Nat) : Nat := 4 * nb * fBits f
/-- The captured scalars of MMA and MMAG: A, A scales, W, W scales, format word; what is ignored is 0 (R283). -/
def State.mmaArgs (s : State) (o : MmaOp) : List Nat :=
  let r (i : Nat) : Nat := (s.sr i).toNat
  [r o.sA.val, if o.sa then r (o.sA.val + 1) else 0, if o.wl then 0 else r o.sW.val,
   if o.sw && !o.wl then r (o.sW.val + 1) else 0, r o.sF.val]
/-- The latch descriptor that a `.wl` command is checked against (R285). -/
def Core.latchDesc (c : Core) : Latch := c.lastMxld.getD c.latch
/-- The A format. -/
def fmtA (a : List Nat) : Nat := fld (a.getD 4 0) 0 4
/-- The W format: the latch's under `.wl`. -/
def fmtW (o : MmaOp) (l : Latch) (a : List Nat) : Nat := if o.wl then l.fmt else fld (a.getD 4 0) 4 4
/-- Offset of the index list of MMAG. -/
def listOff (a : List Nat) : Nat := fld (a.getD 4 0) 32 22

/-- A spans of MMA: rows and scales. -/
def aSpans (o : MmaOp) (a : List Nat) (rows : List Nat) : List Span :=
  let x := a.getD 0 0
  let y := a.getD 1 0
  { buf := 2, off := fld x 0 22, str := fld x 32 22, rows := rows, n := rowBytes (fmtA a) o.nb.val, fld_ := 2 } ::
    (if o.sa then [{ buf := 2, off := fld y 0 22, str := fld y 32 22, rows := rows, n := o.nb.val, fld_ := 2 }] else [])
/-- W spans of a descriptor pair: rows and scales. -/
def wSpans (sw : Bool) (w ws f n nb : Nat) : List Span :=
  { buf := 1, off := fld w 0 23, str := fld w 32 23, rows := List.range n, n := rowBytes f nb, fld_ := 3 } ::
    (if sw then [{ buf := 1, off := fld ws 0 23, str := fld ws 32 23, rows := List.range n, n := nb, fld_ := 3 }] else [])
/-- The index list of MMAG. -/
def listSpan (o : MmaOp) (a : List Nat) : Span :=
  { buf := 2, off := listOff a, str := 0, rows := [0], n := 2 * (o.m1.val + 1), fld_ := 4 }
/-- The rows that MMA, or the list of MMAG, names: entry i, 0xFFFF for none (R287). -/
def Core.mmaRows (c : Core) (gat : Bool) (o : MmaOp) (a : List Nat) : List Nat :=
  (List.range (o.m1.val + 1)).map (fun i => if gat then c.bufNat 2 (listOff a + 2 * i) 2 else i)
/-- Every span that the command reads. -/
def mmaSpans (gat : Bool) (o : MmaOp) (a rows : List Nat) : List Span :=
  aSpans o a (rows.filter (· != 0xFFFF)) ++
    (if o.wl then [] else wSpans o.sw (a.getD 2 0) (a.getD 3 0) (fld (a.getD 4 0) 4 4) (o.n1.val + 1) o.nb.val)
    ++ (if gat then [listSpan o a] else [])

/-- Bits of an A descriptor that must be zero. -/
def badA (x : Nat) : Bool := fld x 22 10 != 0 || fld x 54 10 != 0
/-- Bits of a W descriptor that must be zero. -/
def badW (x : Nat) : Bool := fld x 23 9 != 0 || fld x 55 9 != 0
/-- The matrix-operand fault: slot 4, the operand's field, the operand (R285, R373). -/
def matTrap (f d0 : Nat) : TrapInfo := trapOf 0x19 4 f d0 0 0

/-- Item 1 of R285. -/
def fmtsChk (o : MmaOp) (l : Latch) (a : List Nat) : Chk :=
  let fa := fmtA a
  let fw := fmtW o l a
  let pair := (fa == 8 && !o.sa) != (fw == 8 && !o.sw)
  .when (!(arrayFmt fa) || (!o.wl && !(arrayFmt fw)) || ((!o.wl || l.valid) && pair)) (matTrap 4 (a.getD 4 0))
/-- Item 3 of R285 for MMA and MMAG. -/
def mmaOperandChk (gat : Bool) (o : MmaOp) (l : Latch) (a : List Nat) : Chk :=
  let A := a.getD 0 0
  let W := a.getD 2 0
  let F := a.getD 4 0
  Chk.first [
    .when (badA A || badA (a.getD 1 0)) (matTrap 2 A), .when (badW W || badW (a.getD 3 0)) (matTrap 3 W),
    .when (if gat then fld F 8 24 != 0 || fld F 54 10 != 0 else F / 2 ^ 8 != 0) (matTrap 4 F),
    .when (fld A 0 4 != 0 || fld A 32 4 != 0) (matTrap 2 A), .when (fld W 0 4 != 0 || fld W 32 4 != 0) (matTrap 3 W),
    .when (gat && bitN F 32) (matTrap 4 F),
    .when (o.wl && (!l.valid || l.n1 != o.n1.val || l.nb != o.nb.val || l.scaled != o.sw || cpb l.fmt != cpb (fmtA a)))
      (matTrap 3 W)]

/-- Has the gather unit read the list of the bundle in issue (R287)? -/
def State.gathered (s : State) : Bool :=
  match s.curCore.gather with
  | some (g, pc, t) => g == s.cur.gid && pc == s.curSlot.pc && t ≤ s.curCore.eclk
  | none => false
/-- The C bank of a command, whole: what its state is asked for. -/
def cSpan (b : Nat) : Span := { buf := 3, off := 65536 * b, str := 0, rows := [0], n := 65536, fld_ := 1 }
/-- The words of a C bank that a command reads: n of each of some rows, from column c (R281). -/
def cWords (b : Nat) (rows : List Nat) (c n : Nat) : Span :=
  { buf := 3, off := 65536 * b + 4 * c, str := 512, rows := rows, n := 4 * n, fld_ := 1 }
/-- The rows of C that MMA or MMAG adds to, where `rows` are the A rows it names (R286, R287). -/
def mmaAcc (o : MmaOp) (rows : List Nat) : List Span :=
  if o.acc then [cWords o.bank.val ((List.range (o.m1.val + 1)).filter (fun i => rows.getD i 0xFFFF != 0xFFFF)) 0 (o.n1.val + 1)] else []

/-- Checks of MMA and MMAG (R285). Before its list is read, MMAG is checked as far as the list itself. Of several DARK banks the record
names the lowest field, which is that of C (R121, R374). -/
def chkMma (gat : Bool) (o : MmaOp) (s : State) : Chk :=
  let a := s.mmaArgs o
  let l := s.curCore.latchDesc
  if gat && !s.gathered then Chk.first [fmtsChk o l a, extentChk [listSpan o a]]
  else
    let rows := s.curCore.mmaRows gat o a
    let sp := mmaSpans gat o a rows
    Chk.first [fmtsChk o l a, extentChk sp, mmaOperandChk gat o l a,
               s.darkSpans ((if o.acc then [cSpan o.bank.val] else []) ++ sp), s.dataSpans (sp ++ mmaAcc o rows)]
/-- The bank set of MMA and MMAG (R289). -/
def State.mmaSet (s : State) (gat : Bool) (o : MmaOp) : List (Nat × Nat) :=
  let a := s.mmaArgs o
  mergeModes (modesOf 0 (mmaSpans gat o a (s.curCore.mmaRows gat o a)) ++ [(120 + o.bank.val, 1)])
/-- The hold of an array command: reservations, a queue of 8, counter 2 (R289, R151). -/
def State.arrayHold (s : State) (l : List (Nat × Nat)) : Bool × State :=
  let r := s.curCore.conflict l
  (r || s.curCore.arrayQ.length ≥ 8 || s.curGrp.ctrs.getD 2 0 ≥ 65535, if r then s.bumpClk s.cur.core 9 else s)
/-- Holds of MMA and MMAG (R287, R289). -/
def holdMma (gat : Bool) (o : MmaOp) (s : State) : Bool × State :=
  if gat && !s.gathered then
    match s.curCore.gather with
    | some (g, pc, _) =>
      if g == s.cur.gid && pc == s.curSlot.pc then (true, s)
      else (true, s.modC (fun c => { c with gather := some (s.cur.gid, s.curSlot.pc, c.eclk + 2 + ceilDiv (o.m1.val + 1) 16) }))
    | none => (true, s.modC (fun c => { c with gather := some (s.cur.gid, s.curSlot.pc, c.eclk + 2 + ceilDiv (o.m1.val + 1) 16) }))
  else s.arrayHold (s.mmaSet gat o)
/-- The banks whose states MMA and MMAG wait for (R122). -/
def banksMma (gat : Bool) (o : MmaOp) (s : State) : List Nat :=
  if gat && !s.gathered then []
  else
    let a := s.mmaArgs o
    ((mmaSpans gat o a (s.curCore.mmaRows gat o a)).flatMap Span.banks ++ (if o.acc then [120 + o.bank.val] else [])).eraseDups

/-- Accept an array command with its streaming time, tail and bank set (R289). -/
def State.acceptArray (s : State) (op : Instr) (args : List Nat) (S tail : Nat) (l : List (Nat × Nat)) : State :=
  let c := s.curCore
  let b := max (c.eclk + 2) c.arrayB
  let cmd := s.cmdOf op args allLanes [] b (b + S + tail)
  { ((s.modC (fun c => { (c.reserve s.fresh l) with arrayQ := c.arrayQ ++ [cmd], arrayB := b + S })).ctrUp 2 1) with
      fresh := s.fresh + 1 }
/-- MMA and MMAG: accepted with the rows that the gather unit collected (R286, R287, R289). -/
def effMma (gat : Bool) (op : Instr) (o : MmaOp) (s : State) : State :=
  let a := s.mmaArgs o
  let l := s.curCore.latchDesc
  let S := o.nb.val * max (cpb (fmtA a)) (cpb (fmtW o l a))
  let s' := s.acceptArray op (a ++ s.curCore.mmaRows gat o a) S 24 (s.mmaSet gat o)
  if gat then s'.modC (fun c => { c with gather := none }) else s'

/-- The bank set of ACCZ. -/
def acczSet (bank : Fin 8) : List (Nat × Nat) := [(120 + bank.val, 1)]
/-- Holds of ACCZ. -/
def holdAccz (bank : Fin 8) (s : State) : Bool × State := s.arrayHold (acczSet bank)
/-- ACCZ (R288, R289). -/
def effAccz (op : Instr) (bank : Fin 8) (m1 n1 : Fin 128) (s : State) : State :=
  s.acceptArray op [] (ceilDiv ((m1.val + 1) * (n1.val + 1) * 4) 1024) 4 (acczSet bank)

/-- The captured scalars of MXLD: W, W scales, format word. -/
def State.mxldArgs (s : State) (sw : Bool) (sW sF : SReg) : List Nat :=
  [(s.sr sW.val).toNat, if sw then (s.sr (sW.val + 1)).toNat else 0, (s.sr sF.val).toNat]
/-- W format of MXLD. -/
def mxldFmt (a : List Nat) : Nat := fld (a.getD 2 0) 4 4
/-- Spans of MXLD. -/
def mxldSpans (sw : Bool) (a : List Nat) (n nb : Nat) : List Span := wSpans sw (a.getD 0 0) (a.getD 1 0) (mxldFmt a) n nb
/-- Latch bytes (R288). -/
def latchBytes (f n nb : Nat) : Nat := n * rowBytes f nb
/-- Checks of MXLD (R285, R288). -/
def chkMxld (sw : Bool) (sW sF : SReg) (n1 : Fin 128) (nb : Fin 1024) (s : State) : Chk :=
  let a := s.mxldArgs sw sW sF
  let W := a.getD 0 0
  let F := a.getD 2 0
  let sp := mxldSpans sw a (n1.val + 1) nb.val
  Chk.first [
    .when (!(arrayFmt (mxldFmt a))) (matTrap 4 F), extentChk sp,
    .when (badW W || badW (a.getD 1 0)) (matTrap 3 W), .when (F / 2 ^ 8 != 0) (matTrap 4 F),
    .when (fld W 0 4 != 0 || fld W 32 4 != 0) (matTrap 3 W),
    .when (32768 < latchBytes (mxldFmt a) (n1.val + 1) nb.val) (matTrap 6 nb.val), s.darkSpans sp, s.dataSpans sp]
/-- The bank set of MXLD. -/
def State.mxldSet (s : State) (sw : Bool) (sW sF : SReg) (n1 : Fin 128) (nb : Fin 1024) : List (Nat × Nat) :=
  mergeModes (modesOf 0 (mxldSpans sw (s.mxldArgs sw sW sF) (n1.val + 1) nb.val))
/-- Holds of MXLD. -/
def holdMxld (sw : Bool) (sW sF : SReg) (n1 : Fin 128) (nb : Fin 1024) (s : State) : Bool × State :=
  s.arrayHold (s.mxldSet sw sW sF n1 nb)
/-- The banks whose states MXLD waits for. -/
def banksMxld (sw : Bool) (sW sF : SReg) (n1 : Fin 128) (nb : Fin 1024) (s : State) : List Nat :=
  (s.mxldSet sw sW sF n1 nb).map Prod.fst
/-- MXLD (R288, R289). -/
def effMxld (op : Instr) (sw : Bool) (sW sF : SReg) (n1 : Fin 128) (nb : Fin 1024) (s : State) : State :=
  let a := s.mxldArgs sw sW sF
  let d : Latch := { valid := true, fmt := mxldFmt a, scaled := sw, n1 := n1.val, nb := nb.val, rows := [], scales := [] }
  (s.acceptArray op a (ceilDiv (latchBytes (mxldFmt a) (n1.val + 1) nb.val) 512) 4 (s.mxldSet sw sW sF n1 nb)).modC
    (fun c => { c with lastMxld := some d })

/-! ### What array commands do (R286 to R288) -/

/-- C offset of element (i, j) (R281). -/
def cOff (bank i j : Nat) : Nat := 65536 * bank + 512 * i + 4 * j
/-- The n elements packed in bytes (R93). -/
def eltsOf (f n : Nat) (b : List Byte) : List Nat := let w := leNat b; (List.range n).map (memElt f w)
/-- Scale bytes of a run, 127 when unscaled (R280). -/
def Core.scalesAt (c : Core) (buf off nb : Nat) (scaled : Bool) : List Nat :=
  if scaled then (c.bufRead buf off nb).map BitVec.toNat else List.replicate nb 127
/-- One element of a product: blocks in increasing order (R286). -/
def mmaElt (intp : Bool) (fa fw : Nat) (a sa w sw : List Nat) (nb : Nat) (c : Nat) : Nat :=
  (List.range nb).foldl (fun c b =>
    let pa := (a.drop (32 * b)).take 32
    let pw := (w.drop (32 * b)).take 32
    if intp then
      (((c : Int) + (pa.zip pw).foldl (fun t p => t + sint 8 p.1 * sint 8 p.2) 0) % (2 ^ 32 : Nat)).toNat
    else blockAcc c (sa.getD b 127) (sw.getD b 127) ((pa.zip pw).map (fun p => (mxVal fa p.1, mxVal fw p.2)))) c
/-- MMA and MMAG on the buffers (R286, R287). -/
def Core.runMma (c : Core) (o : MmaOp) (args : List Nat) : Core :=
  let rows := args.drop 5
  let nb := o.nb.val
  let fa := fmtA args
  let fw := fmtW o c.latch args
  let A := (aSpans o args []).getD 0 (cSpan 0)
  let AS := (aSpans o args []).getD 1 (cSpan 0)
  let W := (wSpans o.sw (args.getD 2 0) (args.getD 3 0) fw 0 nb).getD 0 (cSpan 0)
  let WS := (wSpans o.sw (args.getD 2 0) (args.getD 3 0) fw 0 nb).getD 1 (cSpan 0)
  let ws := (List.range (o.n1.val + 1)).map (fun j =>
    if o.wl then (eltsOf fw (32 * nb) (c.latch.rows.getD j []),
                  if o.sw then (c.latch.scales.getD j []).map BitVec.toNat else List.replicate nb 127)
    else (eltsOf fw (32 * nb) (c.bufRead 1 (W.pos j) W.n), c.scalesAt 1 (WS.pos j) nb o.sw))
  (List.range (o.m1.val + 1)).foldl (fun c i =>
    let ri := rows.getD i 0xFFFF
    if ri == 0xFFFF then c
    else
      let a := eltsOf fa (32 * nb) (c.bufRead 2 (A.pos ri) A.n)
      let sa := c.scalesAt 2 (AS.pos ri) nb o.sa
      (List.range (o.n1.val + 1)).foldl (fun c j =>
        let k := cOff o.bank.val i j
        let w := ws.getD j ([], [])
        let v0 := if o.acc then c.bufNat 3 k 4 else 0
        c.bufWrite 3 k (leBytes 4 (mmaElt (fa == 8 && !o.sa) fa fw a sa w.1 w.2 nb v0))) c) c
/-- ACCZ (R288). -/
def Core.runAccz (c : Core) (bank m n : Nat) : Core :=
  (List.range m).foldl (fun c i => c.bufWrite 3 (cOff bank i 0) (List.replicate (4 * n) 0)) c
/-- MXLD (R288). -/
def Core.runMxld (c : Core) (sw : Bool) (args : List Nat) (n1 nb : Nat) : Core :=
  let f := mxldFmt args
  let l := mxldSpans sw args (n1 + 1) nb
  let W := l.getD 0 (cSpan 0)
  let WS := l.getD 1 (cSpan 0)
  { c with latch := { valid := true, fmt := f, scaled := sw, n1 := n1, nb := nb,
                      rows := (List.range (n1 + 1)).map (fun j => c.bufRead 1 (W.pos j) W.n),
                      scales := if sw then (List.range (n1 + 1)).map (fun j => c.bufRead 1 (WS.pos j) nb) else [] } }
/-- The effect of an array command, once. -/
def Core.runArray (c : Core) (q : Cmd) : Core :=
  if q.ran then c
  else
    let c := match q.op with
      | .mma _ o | .mmag _ o => c.runMma o q.args
      | .accz _ b m n => c.runAccz b.val (m.val + 1) (n.val + 1)
      | .mxld _ sw _ _ n nb => c.runMxld sw q.args n.val nb.val
      | _ => c
    { c with arrayQ := c.arrayQ.map (fun x => if x.id == q.id then { x with ran := true } else x) }
/-- The C bank that an array command writes. -/
def arrayDest (i : Instr) : List Nat :=
  match i with
  | .mma _ o | .mmag _ o => [120 + o.bank.val]
  | .accz _ b _ _ => [120 + b.val]
  | _ => []

/-- Lower an outstanding counter of a group. -/
def State.ctrDown (s : State) (c g n : Nat) : State := s.modAny c g (fun k => k.modCtr n (· - 1))

/-- ARRAY_COMMAND_COMPLETE (R286 to R289): every command up to this one acts, in queue order; the write lands once its
bank is awake; then the reservations are released and counter 2 falls. Log 13. -/
def execArrayCommandComplete (core id : Nat) (s : State) : Out :=
  let c := s.core core
  match c.arrayQ.find? (fun q => q.id == id) with
  | none => .next s
  | some q =>
    if c.eclk < q.due then .next s
    else
      let w := c.wakeFor (arrayDest q.op)
      if w.2 != 0 then
        .next (s.modCore core (fun _ => { w.1 with
          arrayQ := w.1.arrayQ.map (fun x => if x.id == id then { x with due := c.eclk + w.2 } else x) }))
      else
        let pre := c.arrayQ.takeWhile (fun x => x.id != id) ++ [q]
        let c := pre.foldl Core.runArray c
        let c := { (c.release id) with arrayQ := c.arrayQ.filter (fun x => x.id != id) }
        .next (((s.modCore core (fun _ => c)).ctrDown core q.gid 2).bump core 13 1)

/-! ### ACCRD (R291 to R293) -/

/-- Source format code of ACCRD. -/
def accrdSrc (o : AccrdOp) : Nat := if o.i32 then 10 else 0
/-- Captured scalars of ACCRD: source place, destination, scales. -/
def State.accrdArgs (s : State) (o : AccrdOp) : List Nat :=
  [(s.sr o.sx.val).toNat, if o.reg then 0 else (s.sr o.sy.val).toNat, if o.mx then (s.sr o.sz.val).toNat else 0]
/-- Destination spans of ACCRD. -/
def accrdSpans (o : AccrdOp) (a : List Nat) : List Span :=
  let y := a.getD 1 0
  let z := a.getD 2 0
  let rows := List.range (o.m1.val + 1)
  if o.reg then []
  else
    { buf := 2, off := fld y 0 22, str := fld y 32 22, rows := rows, n := (o.n1.val + 1) * fBits o.fmt.val / 8, fld_ := 3 } ::
      (if o.mx then [{ buf := 2, off := fld z 0 22, str := fld z 32 22, rows := rows, n := (o.n1.val + 1) / 32, fld_ := 4 }] else [])
/-- Checks of ACCRD (R292). -/
def chkAccrd (o : AccrdOp) (s : State) : Chk :=
  let a := s.accrdArgs o
  let x := a.getD 0 0
  let y := a.getD 1 0
  let z := a.getD 2 0
  Chk.first [
    extentChk (accrdSpans o a),
    .when (128 < fld x 0 7 + o.m1.val + 1 || 128 < fld x 8 7 + o.n1.val + 1) (matTrap 2 x),
    .when (bitN x 7 || x / 2 ^ 15 != 0) (matTrap 2 x),
    .when (badA y || fld y 0 2 != 0 || fld y 32 2 != 0) (matTrap 3 y), .when (badA z) (matTrap 4 z),
    s.darkSpans [cSpan o.bank.val],
    s.dataSpans [cWords o.bank.val ((List.range (o.m1.val + 1)).map (fld x 0 7 + ·)) (fld x 8 7) (o.n1.val + 1)]]
/-- The bank set of ACCRD (R293). -/
def State.accrdSet (s : State) (o : AccrdOp) : List (Nat × Nat) :=
  mergeModes ((120 + o.bank.val, 0) :: modesOf 1 (accrdSpans o (s.accrdArgs o)))
/-- Holds of ACCRD. -/
def holdAccrd (o : AccrdOp) (s : State) : Bool × State :=
  let r := s.curCore.conflict (s.accrdSet o)
  (r || s.curCore.drainQ.length ≥ 8 || s.curGrp.ctrs.getD 2 0 ≥ 65535, if r then s.bumpClk s.cur.core 9 else s)
/-- ACCRD: accepted by the drain queue (R293). -/
def effAccrd (op : Instr) (o : AccrdOp) (s : State) : State :=
  let a := s.accrdArgs o
  let m := o.m1.val + 1
  let n := o.n1.val + 1
  let bytes := if o.reg then m * n * 4 else (accrdSpans o a).foldl (fun t x => t + m * x.n) 0
  let S := max (ceilDiv (m * n * 4) 1024) (ceilDiv bytes 256)
  let c := s.curCore
  let b := max (c.eclk + 2) c.drainB
  let cmd := s.cmdOf op a allLanes [] b (b + S + 12)
  { ((s.modC (fun c => { (c.reserve s.fresh (s.accrdSet o)) with drainQ := c.drainQ ++ [cmd], drainB := b + S })).ctrUp 2 1) with
      fresh := s.fresh + 1 }

/-- Pack element codes (R93). -/
def packElts (f : Nat) (l : List Nat) : List Byte :=
  leBytes (l.length * fBits f / 8) (l.foldr (fun x a => x % 2 ^ fBits f + a * 2 ^ fBits f) 0)
/-- The converted word (R292): INT32 to INT32 is copied. -/
def accrdConv (src dst v : Nat) : Nat := if src == 10 && dst == 10 then v else convert src dst 0 true v
/-- The word as a register takes it (R292): converted from INT32 to FP32 alone. -/
def accrdWord (src dst v : Nat) : Nat := if src == 10 && dst == 0 then accrdConv src dst v else v
/-- The words of output row i. -/
def Core.accrdRow (c : Core) (o : AccrdOp) (x i : Nat) : List Nat :=
  (List.range (o.n1.val + 1)).map (fun j => c.bufNat 3 (cOff o.bank.val (fld x 0 7 + i) (fld x 8 7 + j)) 4)
/-- The MX blocks of a row of words: scales and elements (R99). -/
def mxRow (f : Nat) (l : List Nat) : List Nat × List Nat :=
  let bs := (List.range (l.length / 32)).map (fun g => mxBlock f 0 ((l.drop (32 * g)).take 32))
  (bs.map Prod.fst, bs.flatMap Prod.snd)
/-- ACCRD into the A buffer (R292). -/
def Core.runAccrd (c : Core) (o : AccrdOp) (a : List Nat) : Core :=
  let sp := accrdSpans o a
  let D := sp.getD 0 (cSpan 0)
  let S := sp.getD 1 (cSpan 0)
  let rows := (List.range (o.m1.val + 1)).map (fun i => (i, c.accrdRow o (a.getD 0 0) i))
  rows.foldl (fun c r =>
    if o.mx then
      let q := mxRow o.fmt.val r.2
      (c.bufWrite 2 (S.pos r.1) (q.1.map (BitVec.ofNat 8))).bufWrite 2 (D.pos r.1) (packElts o.fmt.val q.2)
    else c.bufWrite 2 (D.pos r.1) (packElts o.fmt.val (r.2.map (accrdConv (accrdSrc o) o.fmt.val)))) c
/-- The register result of ACCRD (R292). -/
def Core.accrdWrites (c : Core) (o : AccrdOp) (a : List Nat) : List Wr :=
  (List.range (o.m1.val + 1)).flatMap (fun i =>
    ((List.range (o.n1.val + 1)).zip (c.accrdRow o (a.getD 0 0) i)).map (fun p =>
      Wr.m (elemKey o.mreg.val i p.1) (BitVec.ofNat 32 (accrdWord (accrdSrc o) o.fmt.val p.2))))

/-- Start the wakes of register banks of a group that results reach; the clk until the last completes (R119). A group that has
retired has none. -/
def Core.wakeRegs (c : Core) (g : Nat) (ms : List Nat) : Core × Nat :=
  if (kget g c.groups).isNone then (c, 0) else
  let c := ms.foldl (fun c m => c.wakeReg g m) c
  (c, ms.foldl (fun a m => max a ((((c.group g).bank m).wakeAt.getD 0) - c.clk)) 0)

/-- A variable-latency result of an engine reaches registers of group g, and counter n falls with its landing: at once where every bank
is BRIGHT, else as the wakes that it starts complete, in its place among the results held for them (R117, R119). -/
def State.landReg (s : State) (core g n : Nat) (ms : List Nat) (ws : List Wr) : State :=
  let k := s.core core
  let w := k.wakeRegs g ms
  if w.2 = 0 then (s.modCore core (fun c => c.land g ws)).ctrDown core g n
  else
    { (s.modCore core (fun _ => { w.1 with sectors := w.1.sectors ++
        [{ id := s.fresh, due := k.clk + w.2, gid := g, writes := ws, pc := 0, pa := 0, bad := false, ctr := some n, slots := 0,
           arr := k.clk, fixed := false, wall := 0, tick := 0 }] })) with fresh := s.fresh + 1 }

/-- ACCRD_COMPLETE (R292, R293). -/
def execAccrdComplete (core id : Nat) (s : State) : Out :=
  let c := s.core core
  match c.drainQ.find? (fun q => q.id == id) with
  | none => .next s
  | some q =>
    if c.eclk < q.due then .next s
    else match q.op with
      | .accrd _ o =>
        let gone (c : Core) : Core := { (c.release id) with drainQ := c.drainQ.filter (fun x => x.id != id) }
        if o.reg then
          .next (((s.modCore core gone).landReg core q.gid 2 [o.mreg.val] (c.accrdWrites o q.args)).bump core 13 1)
        else
          let w := c.wakeFor ((accrdSpans o q.args).flatMap Span.banks)
          if w.2 != 0 then
            .next (s.modCore core (fun _ => { w.1 with
              drainQ := w.1.drainQ.map (fun x => if x.id == id then { x with due := c.eclk + w.2 } else x) }))
          else .next (((s.modCore core (fun _ => gone (c.runAccrd o q.args))).ctrDown core q.gid 2).bump core 13 1)
      | _ => .next s

/-! ### The instructions, alone in their bundle -/

/-- MMA. -/
def execMma (g : Guard) (o : MmaOp) (s : State) : Out :=
  s.issueSolo (.mma g o) { chk := chkMma false o, hold := holdMma false o, banks := banksMma false o, eff := effMma false (.mma g o) o }
/-- MMAG. -/
def execMmag (g : Guard) (o : MmaOp) (s : State) : Out :=
  s.issueSolo (.mmag g o) { chk := chkMma true o, hold := holdMma true o, banks := banksMma true o, eff := effMma true (.mmag g o) o }
/-- ACCZ. -/
def execAccz (g : Guard) (bank : Fin 8) (m1 n1 : Fin 128) (s : State) : Out :=
  s.issueSolo (.accz g bank m1 n1) { hold := holdAccz bank, eff := effAccz (.accz g bank m1 n1) bank m1 n1 }
/-- ACCRD. -/
def execAccrd (g : Guard) (o : AccrdOp) (s : State) : Out :=
  s.issueSolo (.accrd g o) { chk := chkAccrd o, hold := holdAccrd o, banks := fun _ => [120 + o.bank.val], eff := effAccrd (.accrd g o) o }
/-- MXLD. -/
def execMxld (g : Guard) (sw : Bool) (sW sF : SReg) (n1 : Fin 128) (nb : Fin 1024) (s : State) : Out :=
  s.issueSolo (.mxld g sw sW sF n1 nb)
    { chk := chkMxld sw sW sF n1 nb, hold := holdMxld sw sW sF n1 nb, banks := banksMxld sw sW sF n1 nb,
      eff := effMxld (.mxld g sw sW sF n1 nb) sw sW sF n1 nb }

end Sys2Proof.Machine
end

