-- ==== Sys2Proof/Machine/Copy.lean ====
section
/-! DEFINITION. COPY and the copy channels (R272 to R277). -/

namespace Sys2Proof.Machine

/-! ### Operands (R273) -/

/-- The captured scalars of COPY: source, destination, shape, strides. -/
def State.copyArgs (s : State) (o : CopyOp) : List Nat :=
  let r (i : Nat) : Nat := (s.sr i).toNat
  [r o.sx.val, r o.sy.val, r o.sz.val, r (o.sz.val + 1)]
/-- Row bytes B. -/
def cpB (a : List Nat) : Nat := fld (a.getD 2 0) 0 32
/-- Rows. -/
def cpRows (a : List Nat) : Nat := fld (a.getD 2 0) 32 16 + 1
/-- Source stride, 0 where it is ignored. -/
def cpSs (a : List Nat) : Int := if cpRows a = 1 then 0 else sint 32 (fld (a.getD 3 0) 0 32)
/-- Destination stride, 0 where it is ignored. -/
def cpDs (a : List Nat) : Int := if cpRows a = 1 then 0 else sint 32 (fld (a.getD 3 0) 32 32)
/-- The address part of an operand in a space: an `.a` source is an offset as it stands. -/
def cpAddr (dest : Bool) (sp : CSpace) (x : Nat) : Nat :=
  match sp with
  | .g => fld x 0 56
  | .a => if dest then fld x 0 22 else x
  | .w | .s => x
/-- Reserved bits of an operand. Bits [63:56] of an address count as reserved: R273 does not say. DESIGN CHOICE, log 85. -/
def cpBad (dest : Bool) (sp : CSpace) (x : Nat) : Bool :=
  match sp with
  | .g => fld x 56 8 != 0
  | .a => dest && (fld x 22 2 != 0 || fld x 36 28 != 0)
  | .w | .s => false
/-- Source address of row r: virtual addresses wrap at 56 bits. -/
def cpSrc (o : CopyOp) (a : List Nat) (r : Nat) : Int :=
  let x := (cpAddr false o.src (a.getD 0 0) : Int) + (r : Int) * cpSs a
  if o.src == .g then x % (2 ^ 56 : Nat) else x
/-- Destination address of row r. -/
def cpDst (o : CopyOp) (a : List Nat) (r : Nat) : Int :=
  let x := (cpAddr true o.dst (a.getD 1 0) : Int) + (r : Int) * cpDs a
  if o.dst == .g then x % (2 ^ 56 : Nat) else x
/-- The core whose A buffer a destination names: tile index 0xFF is the issuing tile (R273). -/
def cpCore (o : CopyOp) (a : List Nat) (own : Nat) : Nat :=
  if o.dst == .a && fld (a.getD 1 0) 24 8 != 0xFF then fld (a.getD 1 0) 32 4 * 256 + fld (a.getD 1 0) 24 8 else own
/-- Does the destination name a tile that exists and reports? -/
def State.cpTile (s : State) (o : CopyOp) (a : List Nat) : Bool :=
  if o.dst != .a then true
  else if fld (a.getD 1 0) 24 8 == 0xFF then !s.onShader
  else let c := cpCore o a s.cur.core; !(isShader c) && s.reports c
/-- Does a run of rows leave [0, lim)? -/
def outside (lim : Nat) (pos : Nat → Int) (rows B : Nat) : Option Int :=
  [pos 0, pos (rows - 1)].find? (fun x => x < 0 || (lim : Int) < x + B)
/-- The copy-shape fault: field and operand (R273, R373). -/
def shapeTrap (f d0 : Nat) : TrapInfo := trapOf 0x17 4 f d0 0 0
/-- The fault of an extent that an operand names: buffer-address for the issuing tile's buffers (R273). -/
def State.cpExtent (s : State) (o : CopyOp) (a : List Nat) (dest : Bool) : Chk :=
  let sp := if dest then o.dst else o.src
  let pos (r : Nat) : Int := if dest then cpDst o a r else cpSrc o a r
  let f := if dest then 3 else 2
  let x := if dest then a.getD 1 0 else a.getD 0 0
  let own := cpCore o a s.cur.core == s.cur.core
  match sp with
  | .g => .ok
  | .s => .when (outside s.curUnit.shBytes pos (cpRows a) (cpB a)).isSome (shapeTrap f x)
  | .w =>
    match outside (bufSize 1) pos (cpRows a) (cpB a) with
    | some y => .trap (trapOf 0x10 4 f (y % (2 ^ 64 : Nat)).toNat 0 0)
    | none => .ok
  | .a =>
    match outside (bufSize 2) pos (cpRows a) (cpB a) with
    | some y => if dest && !own then .trap (shapeTrap f x) else .trap (trapOf 0x10 4 f (y % (2 ^ 64 : Nat)).toNat 0 0)
    | none => .ok
/-- Banks of a buffer that rows touch. -/
def rowBanks (b : Nat) (pos : Nat → Int) (rows B : Nat) : List Nat :=
  (List.range rows).foldl (fun acc r =>
    (spanBanks b (pos r).toNat B).foldl (fun acc i => if acc.contains i then acc else acc ++ [i]) acc) []
/-- Source banks of the issuing tile. -/
def cpReads (o : CopyOp) (a : List Nat) : List Nat :=
  if o.src == .a then rowBanks 2 (cpSrc o a) (cpRows a) (cpB a) else []
/-- The scratch banks that a COPY of the issuing stream reads: of the A buffer, or of its shared window (R122). -/
def State.cpSrcBanks (s : State) (o : CopyOp) (a : List Nat) : List Nat :=
  if o.src == .s then rowBanks 4 (fun r => cpSrc o a r + (s.curUnit.shBase * 16384 : Nat)) (cpRows a) (cpB a) else cpReads o a
/-- The bank set of COPY: source in mode R, the issuing tile's destination in mode S (R274). -/
def cpSetOf (o : CopyOp) (a : List Nat) (own : Nat) : List (Nat × Nat) :=
  let d := if o.dst == .w then rowBanks 1 (cpDst o a) (cpRows a) (cpB a)
    else if o.dst == .a && cpCore o a own == own then rowBanks 2 (cpDst o a) (cpRows a) (cpB a) else []
  mergeModes ((cpReads o a).map (fun b => (b, 0)) ++ d.map (fun b => (b, 2)))
/-- The bank set of a COPY of the issuing stream. -/
def State.cpSet (s : State) (o : CopyOp) : List (Nat × Nat) := cpSetOf o (s.copyArgs o) s.cur.core
/-- The restart-contract fault of COPY (R45). -/
def State.cpRestart (s : State) (o : CopyOp) (a : List Nat) : Chk :=
  if !s.restartable then .ok
  else if o.dst == .g then
    match (List.range (cpRows a)).find? (fun r => !(s.inOutput (cpDst o a r).toNat (cpB a))) with
    | some r => .trap (trapOf 0x0D 4 3 (cpDst o a r).toNat 0 0)
    | none => .ok
  else .when (o.dst == .a && cpCore o a s.cur.core != s.cur.core) (trapOf 0x0D 4 3 (a.getD 1 0) 0 0)
/-- Checks of COPY (R273, R122, R45). -/
def chkCopy (o : CopyOp) (s : State) : Chk :=
  let a := s.copyArgs o
  let x := a.getD 0 0
  let y := a.getD 1 0
  let z := a.getD 2 0
  Chk.first [
    .when (cpBad false o.src x) (shapeTrap 2 x), .when (cpBad true o.dst y) (shapeTrap 3 y),
    .when (z / 2 ^ 48 != 0) (shapeTrap 4 z), .when (cpB a == 0) (shapeTrap 4 z),
    .when (cpAddr false o.src x % 4 != 0) (shapeTrap 2 x), .when (cpAddr true o.dst y % 4 != 0) (shapeTrap 3 y),
    .when (cpB a % 4 != 0 || cpSs a % 4 != 0 || cpDs a % 4 != 0) (shapeTrap 4 z),
    .when (cpRows a != 1 && cpDs a < (cpB a : Int)) (shapeTrap 4 z),
    .when (!(s.cpTile o a)) (shapeTrap 3 y), s.cpExtent o a false, s.cpExtent o a true,
    s.darkScratch 4 2 (s.cpSrcBanks o a), s.cpRestart o a]
/-- Holds of COPY (R210, R274, R151). -/
def holdCopy (o : CopyOp) (s : State) : Bool × State :=
  let ch := (kget o.ch.val s.curCore.chans).getD Channel.start
  let r := s.curCore.conflict (s.cpSet o)
  (r || ch.q.length ≥ 16 || s.curGrp.ctrs.getD 1 0 ≥ 65535, if r then s.bumpClk s.cur.core 9 else s)

/-! ### The channels (R274 to R276) -/

/-- The write pointer of a command at a destination address. -/
def cpPtr (no addr : Nat) : Nat := no % 256 * 2 ^ 56 + addr % 2 ^ 56
/-- Clk before the first source data of a command arrive, beside their way over the bridge (R278). -/
def State.cpFirst (s : State) (o : CopyOp) : Nat :=
  match o.src with
  | .a => 8
  | .s => 20
  | _ => 1 + Config.latency s.free
/-- Ticks of the bridge to the home slice of the first byte of a `.g` source and back (R13, R15). -/
def State.cpHome (s : State) (q : Cmd) (o : CopyOp) : Nat :=
  let va := (cpSrc o q.args 0).toNat % 2 ^ 56
  if o.src != .g then 0
  else match s.xlatNow q.core q.root va with
    | .ok (leaf, size) => s.homeTicks (coreDie q.core) (leafPa leaf size va)
    | .error _ => 0
/-- Ticks that a command's data take over the bridge to a destination on another die (R13). -/
def cpOver (o : CopyOp) (q : Cmd) : Nat := 20 * tickNs * crossings (coreDie q.core) (coreDie (cpCore o q.args q.core))
/-- The write pointer of a channel at a row and column: the end of the last row when the command is done (R274). -/
def cpAt (o : CopyOp) (a : List Nat) (p : Nat × Nat) : Nat :=
  if p.1 < cpRows a then (cpDst o a p.1 + p.2).toNat else (cpDst o a (cpRows a - 1) + cpB a).toNat
/-- Begin the command at the head of a channel: the pointer takes its number and start; the first write comes 8 clk
after the first source data, and after the crossings to its destination (R13, R274, R278). One that a save put aside goes on where it
stood, stopped if it was (R276, R387). -/
def State.cpBegin (s : State) (c ch : Nat) : State :=
  match (kget ch (s.core c).chans).bind (fun k => k.q.head?) with
  | none => s.modCore c (fun k => { k with chans := kmod ch (fun h => { h with running := false }) k.chans })
  | some q =>
    match q.op with
    | .copy _ o =>
      let lat := 8 + s.cpFirst o
      let wall := s.cpHome q o + cpOver o q
      { (s.modCore c (fun k => { k with chans := kmod ch (fun h =>
          let at_ := q.part.getD (0, 0)
          { h with running := true, row := at_.1, col := at_.2, nextAt := k.clk + lat, stopped := q.bad, page := none, held := [],
                   src := none, dst := none, sent := false, wall := wall, tick := 0,
                   q := { q with part := none, bad := false } :: h.q.drop 1,
                   wp := cpPtr (q.args.getD 4 0) (cpAt o q.args at_) }) k.chans })) with free := s.free + 1 }
    | _ => s
/-- COPY: accepted by its channel (R274). -/
def effCopy (op : Instr) (o : CopyOp) (s : State) : State :=
  let ch := (kget o.ch.val s.curCore.chans).getD Channel.start
  let cmd := s.cmdOf op (s.copyArgs o ++ [ch.cmdNo]) allLanes [] s.curCore.clk 0
  let l := s.cpSet o
  let s := { ((s.modC (fun c => { (c.reserve s.fresh l) with
      chans := kset o.ch.val { ch with q := ch.q ++ [cmd], cmdNo := (ch.cmdNo + 1) % 256 } c.chans })).ctrUp 1 1) with
    fresh := s.fresh + 1 }
  -- R351: the units of the core that a remote raise names are bound to it
  let s := if o.remote && o.raise then
      s.modCore (cpCore o cmd.args s.cur.core) (fun c => { c with units := c.units.map (fun p => (p.1, { p.2 with bound := true })) })
    else s
  if ch.q.isEmpty then s.cpBegin s.cur.core o.ch.val else s

/-- The bytes that a channel writes next, as pieces (row, column, bytes): at most 64 in a line of 128, ending with an 8-byte unit of the
destination or with the row; where the next row goes on in the unit in which a row ends, its share of that unit goes with it, so
that no unit is written in parts (R233, R241, R274). -/
def cpPieces (o : CopyOp) (a : List Nat) (row col : Nat) : List (Nat × Nat × Nat) :=
  let y := ((cpDst o a row) + col).toNat
  let n := min (min ((y + 64) / 8 * 8) ((y / 128 + 1) * 128) - y) (cpB a - col)
  (row, col, n) ::
    (if col + n == cpB a && (y + n) % 8 != 0 && row + 1 < cpRows a && (cpDst o a (row + 1)).toNat == y + n then [(row + 1, 0, 4)] else [])
/-- Bytes of pieces. -/
def cpLen (l : List (Nat × Nat × Nat)) : Nat := l.foldl (fun n p => n + p.2.2) 0
/-- The first n bytes of pieces. -/
def cpTake : Nat → List (Nat × Nat × Nat) → List (Nat × Nat × Nat)
  | _, [] => []
  | n, p :: r => if n ≤ p.2.2 then (if n = 0 then [] else [(p.1, p.2.1, n)]) else p :: cpTake (n - p.2.2) r
/-- The runs of source bytes that pieces need beyond the `got` bytes that are held: (place among the bytes, address, bytes). Units of
8 bytes of the source are read whole (R233), and a run stays within 256 bytes, which every swizzle keeps together (R221). -/
def cpRuns (o : CopyOp) (a : List Nat) (got : Nat) : Nat → List (Nat × Nat × Nat) → List (Nat × Nat × Nat)
  | _, [] => []
  | f, p :: r =>
    let x := (cpSrc o a p.1 + p.2.1).toNat
    let stop := if r.isEmpty then min ((x + p.2.2 + 7) / 8 * 8) (x + (cpB a - p.2.1)) else x + p.2.2
    let lo := x + (got - f)
    let cut := min stop ((lo / 256 + 1) * 256)
    (if lo < cut then [(f + (lo - x), lo, cut - lo)] else []) ++ (if max lo cut < stop then [(f + (cut - x), cut, stop - cut)] else [])
      ++ cpRuns o a got (f + p.2.2) r

/-- What stands in the way of a channel's next bytes: a walk, a page that is not present, or any other fault (R226, R276). -/
inductive CpStop where
  | walk (va : Nat)
  | page (va : Nat) (a : Acc)
  | fault (addr : Nat)
deriving DecidableEq, Repr

/-- The stop of an engine's translation of n bytes within a page. -/
def State.cpWalk (s : State) (c root : Nat) (priv : Bool) (va n : Nat) (a : Acc) : Option CpStop :=
  match s.xlatNow c root (va % 2 ^ 56) with
  | .error .notPresent => some (.page (va % 2 ^ 56) a)
  | .error _ => some (.fault (va % 2 ^ 56))
  | .ok (leaf, size) =>
    if !(permits (leafPerm leaf) a priv) then some (.fault (va % 2 ^ 56))
    else if a == .r && (s.badFor c (leafPa leaf size (va % 2 ^ 56)) n).isSome then some (.fault (va % 2 ^ 56)) else none
/-- The physical address and type of a virtual address that translates. -/
def State.cpPa (s : State) (c root va : Nat) : Nat × Nat :=
  match s.xlatNow c root (va % 2 ^ 56) with
  | .ok (leaf, size) => (leafPa leaf size (va % 2 ^ 56), leafType leaf)
  | .error _ => (0, 0)
/-- Has the group that sent a command left for good: it is neither resident nor saved (R143)? -/
def State.orphan (s : State) (q : Cmd) : Bool :=
  let has (v : Saved) : Bool := v.groups.any (fun g => g.1 == q.gid)
  (kget q.gid (s.core q.gcore).groups).isNone && !(s.launches.any (fun p => p.2.saved.any has)) && !(s.pending.any (fun p => p.saved.any has))

/-- A copy channel as a party of walks. -/
def chanParty (ch : Nat) : Nat := 2 ^ 40 + ch
/-- The page of a virtual address for a channel: the one that it has translated, or by the core's TLB as it reaches the page (R226,
R276). -/
def State.cpPage (s : State) (q : Cmd) (ch : Nat) (m : Option (Nat × Nat × Nat)) (va : Nat) (a : Acc) : Except CpStop (Nat × Nat × Nat) :=
  let fresh : Except CpStop (Nat × Nat × Nat) :=
    match s.lookupBy (chanParty ch) q.core q.root va with
    | none => .error (.walk va)
    | some (.error .notPresent) => .error (.page va a)
    | some (.error _) => .error (.fault va)
    | some (.ok (leaf, size)) => if permits (leafPerm leaf) a (q.priv) then .ok (va / pageBytes size, leaf, size) else .error (.fault va)
  match m with
  | some (p, leaf, size) => if va / pageBytes size == p then .ok (p, leaf, size) else fresh
  | none => fresh
/-- Where a channel stands with its next source bytes: the page, the runs that it can read as (place, address, bytes, type), and the
place at which it must stop. -/
structure CpPlan where
  src  : Option (Nat × Nat × Nat)
  runs : List (Nat × Nat × Nat × Nat)
  stop : Option (CpStop × Nat)
deriving DecidableEq, Repr
/-- Add a run of source bytes to a plan: its page, and its uncorrectable data, before which the channel stops (R276). -/
def State.cpAdd (s : State) (q : Cmd) (o : CopyOp) (ch : Nat) (p : CpPlan) (r : Nat × Nat × Nat) : CpPlan :=
  if p.stop.isSome then p
  else
    let buf (b off : Nat) : CpPlan :=
      match (s.core q.core).badBytes b off r.2.2 with
      | some e => { p with stop := some (.fault r.2.1, r.1 + (max e off - off)) }
      | none => { p with runs := p.runs ++ [(r.1, off, r.2.2, 0)] }
    match o.src with
    | .g =>
      let va := r.2.1 % 2 ^ 56
      match s.cpPage q ch p.src va .r with
      | .error c => { p with stop := some (c, r.1) }
      | .ok m =>
        let pa := leafPa m.2.1 m.2.2 va
        match s.badFor q.core pa r.2.2 with
        | some e => let k := max e (s.canon pa) - s.canon pa; { p with src := some m, stop := some (.fault (va + k), r.1 + k) }
        | none => { p with src := some m, runs := p.runs ++ [(r.1, pa, r.2.2, leafType m.2.1)] }
    | .s => buf 4 (q.base + r.2.1)
    | _ => buf 2 r.2.1
/-- A channel's plan for some pieces (R276). -/
def State.cpPlan (s : State) (q : Cmd) (o : CopyOp) (ch : Nat) (h : Channel) (l : List (Nat × Nat × Nat)) : CpPlan :=
  (cpRuns o q.args h.held.length 0 l).foldl (s.cpAdd q o ch) { src := h.src, runs := [], stop := none }
/-- The destination page of a channel's next bytes. -/
def State.cpDest (s : State) (q : Cmd) (o : CopyOp) (ch : Nat) (h : Channel) : Except CpStop (Option (Nat × Nat × Nat)) :=
  if o.dst == .g then (s.cpPage q ch h.dst ((cpDst o q.args h.row + h.col).toNat % 2 ^ 56) .w).map some else .ok none
/-- The stop of a channel before its next bytes, if any (R226, R276). -/
def State.cpStop (s : State) (q : Cmd) (o : CopyOp) (ch : Nat) (h : Channel) : Option CpStop :=
  match s.cpDest q o ch h with
  | .error c => some c
  | .ok _ =>
    match (s.cpPlan q o ch h (cpPieces o q.args h.row h.col)).stop with
    | some (.walk va, _) => some (.walk va)
    | some (c, 0) => some c
    | _ => none
/-- The pieces that a channel delivers: those before the place at which its plan stops. -/
def State.cpGoes (s : State) (q : Cmd) (o : CopyOp) (ch : Nat) (h : Channel) : List (Nat × Nat × Nat) :=
  let l := cpPieces o q.args h.row h.col
  match (s.cpPlan q o ch h l).stop with
  | some (_, n) => cpTake n l
  | none => l

/-- Read the runs of a plan for a command from its source space. -/
def State.cpRead (s : State) (q : Cmd) (o : CopyOp) : List (Nat × Nat × Nat × Nat) → List Byte × State
  | [] => ([], s)
  | r :: l =>
    let x : List Byte × State := match o.src with
      | .g => s.loadSpan q.core q.launch r.2.1 r.2.2.1 q.scope r.2.2.2
      | .s => ((s.core q.core).bufRead 4 r.2.1 r.2.2.1, s)
      | _ => ((s.core q.core).bufRead 2 r.2.1 r.2.2.1, s)
    let y := State.cpRead x.2 q o l
    (x.1 ++ y.1, y.2)
/-- Write bytes for a command into a space, through its page for `.g`. -/
def State.cpWrite (s : State) (q : Cmd) (o : CopyOp) (m : Option (Nat × Nat × Nat)) (y : Nat) (v : List Byte) : State :=
  match o.dst with
  | .g => match m with
    | some (_, leaf, size) => s.storeG q.core q.launch (leafPa leaf size (y % 2 ^ 56)) v q.scope (leafType leaf)
    | none => s
  | .w => s.modCore q.core (fun c => c.bufWrite 1 y v)
  | .a => s.modCore (cpCore o q.args q.core) (fun c => c.bufWrite 2 y v)
  | .s => s.modCore q.core (fun c => c.bufWrite 4 (q.base + y) v)
/-- The scratch banks that a write reaches, with their core. -/
def State.cpBanks (_s : State) (q : Cmd) (o : CopyOp) (y n : Nat) : Nat × List Nat :=
  match o.dst with
  | .g => (q.core, [])
  | .w => (q.core, spanBanks 1 y n)
  | .a => (cpCore o q.args q.core, spanBanks 2 y n)
  | .s => (q.core, spanBanks 4 (q.base + y) n)
/-- The sectors of memory that a channel has in flight for its next bytes, with the ticks of their crossings (R13, R277). -/
def State.cpSectors (s : State) (q : Cmd) (p : CpPlan) (m : Option (Nat × Nat × Nat)) (src : CSpace) (y n : Nat) : List (Nat × Nat) :=
  let of (pa n : Nat) : List Nat := (List.range ((pa % 32 + n + 31) / 32)).map (pa / 32 + ·)
  let rd := if src == .g then p.runs.flatMap (fun r => of r.2.1 r.2.2.1) else []
  let wr := match m with | some (_, leaf, size) => of (leafPa leaf size (y % 2 ^ 56)) n | none => []
  (rd.eraseDups ++ wr).map (fun k => (k, s.homeTicks (coreDie q.core) (k * 32)))

/-- Ticks that a channel's next bytes wait for channels of the bridge that retrain: from the homes of their source, and to their
destination, a tile or a home (R15). -/
def State.cpLink (s : State) (q : Cmd) (o : CopyOp) (p : CpPlan) (m : Option (Nat × Nat × Nat)) (y n : Nat) : Nat :=
  let home (pa : Nat) : Option Nat := let h := homeSlice (s.canon pa); if h.1.isSome then none else some h.2.1
  let me := coreDie q.core
  let src := if o.src == .g then p.runs.filterMap (fun r => home r.2.1) else []
  let dst := match m with
    | some (_, leaf, size) => (home (leafPa leaf size (y % 2 ^ 56))).toList
    | none => [coreDie (s.cpBanks q o y n).1]
  dst.foldl (fun w d => max w (s.linkWait me d)) (src.foldl (fun w d => max w (s.linkWait d me)) 0)

/-- Change a channel of a core. -/
def State.modChan (s : State) (c ch : Nat) (f : Channel → Channel) : State :=
  s.modCore c (fun k => { k with chans := kmod ch f k.chans })

/-- Where a channel stands after pieces: the row and column that come next. -/
def cpAfter (a : List Nat) (l : List (Nat × Nat × Nat)) (row col : Nat) : Nat × Nat :=
  l.foldl (fun _ p => if cpB a ≤ p.2.1 + p.2.2 then (p.1 + 1, 0) else (p.1, p.2.1 + p.2.2)) (row, col)
/-- COPY_PROGRESS (R274): the next bytes of the running command, once their way over the bridge is over (R13, R17), their pages are translated, their banks awake, request slots
free (R277) and no channel of the bridge on their way retrains (R15); at a faulting page the channel stops instead (R276); after the
last byte the command is complete at the next clk of the channel. -/
def execCopyProgress (core ch : Nat) (s : State) : Out :=
  match kget ch (s.core core).chans with
  | none => .next s
  | some h =>
    match h.q with
    | [] => .next s
    | q :: _ =>
      match q.op with
      | .copy _ o =>
        if !h.running || h.stopped || h.page.isSome || cpRows q.args ≤ h.row || (s.core core).clk < h.nextAt || s.now < h.tick then .next s
        else if h.wall != 0 then .next (s.modChan core ch (fun h => { h with wall := 0, tick := s.now + h.wall }))
        else
          let later (s : State) (n : Nat) : State := s.modChan core ch (fun h => { h with nextAt := (s.core core).clk + n })
          match s.cpStop q o ch h with
          | some (.walk va) => .next (later (s.askWalkBy (chanParty ch) core q.root va) 1)
          | some _ => .next (s.sched [.copyPageFault core ch])
          | none =>
            let l := s.cpGoes q o ch h
            let n := cpLen l
            let y := (cpDst o q.args h.row + h.col).toNat
            let m := match s.cpDest q o ch h with | .ok m => m | .error _ => none
            let p := s.cpPlan q o ch h l
            let sec := s.cpSectors q p m o.src y n
            let b := s.cpBanks q o y n
            let w := (s.core b.1).wakeFor b.2
            let link := s.cpLink q o p m y n
            if (s.core core).slotsUsed + sec.length > 512 then .next (later s 1)
            else if w.2 != 0 then .next (later (s.modCore b.1 (fun _ => w.1)) w.2)
            else if link != 0 then .next ({ s with free := s.free + 1 }.modChan core ch (fun h => { h with tick := s.now + link }))
            else
              let r := s.cpRead q o p.runs
              let v := h.held ++ r.1
              let e := cpAfter q.args l h.row h.col
              let s := (r.2.cpWrite q o m y (v.take n)).holdSlots core q.gid sec
              let root := q.root
              let s := (cpRuns o q.args h.held.length 0 l).foldl (fun s x => s.takeWalkBy (chanParty ch) core root (x.2.1 % 2 ^ 56))
                (s.takeWalkBy (chanParty ch) core root (y % 2 ^ 56))
              .next (s.modChan core ch (fun h => { h with
                row := e.1, col := e.2, held := v.drop n, src := p.src, dst := m,
                wp := cpPtr (q.args.getD 4 0) (cpAt o q.args e), nextAt := (s.core core).clk + 1 }))
      | _ => .next s

/-- COPY_COMPLETE (R275): the semaphore is raised if asked, counter 1 falls, the channel begins its next command. A raise on another
die crosses the bridge first (R13, R15). -/
def execCopyComplete (core ch : Nat) (s : State) : Out :=
  match kget ch (s.core core).chans with
  | none => .next s
  | some h =>
    match h.q with
    | [] => .next s
    | q :: r =>
      match q.op with
      | .copy _ o =>
        if !h.running || h.row < cpRows q.args then .next s
        else
          let ticks := cpOver o q + s.linkWait (coreDie core) (coreDie (cpCore o q.args core))
          if o.raise && o.remote && !h.sent && ticks != 0 then
            .next ({ s with free := s.free + 1 }.modChan core ch (fun h =>
              { h with sent := true, tick := s.now + ticks }))
          else if s.now < h.tick then .next s
          else
            let s := if o.raise then s.semAdd (if o.remote then cpCore o q.args core else core) o.sem.val 1 else s
            let s := (s.modCore core (fun c => c.release q.id)).modChan core ch (fun h => { h with q := r })
            .next ((s.ctrDown core q.gid 1).cpBegin core ch)
      | _ => .next s

/-- The command at the head of a channel ends without its completion; the next one begins. -/
def State.cpDrop (s : State) (c ch : Nat) : State :=
  match (kget ch (s.core c).chans).bind (fun h => h.q.head?) with
  | none => s
  | some q => ((s.modCore c (fun k => k.release q.id)).modChan c ch (fun h => { h with q := h.q.drop 1 })).cpBegin c ch

/-- COPY_PAGE_FAULT (R276): at a page not present the channel waits for service; any other fault stops the channel and
pends the copy-channel fault at the stream that issued the command. The command of a group that has retired ends there: no stream
is left to report to (log 19). -/
def execCopyPageFault (core ch : Nat) (s : State) : Out :=
  match kget ch (s.core core).chans with
  | none => .next s
  | some h =>
    match h.q with
    | [] => .next s
    | q :: _ =>
      match q.op with
      | .copy _ o =>
        if !h.running || h.stopped || h.page.isSome || cpRows q.args ≤ h.row then .next s
        else
          let root := q.root
          let forget (va : Nat) (s : State) : State := s.takeWalkBy (chanParty ch) core root va
          match s.cpStop q o ch h with
          | none | some (.walk _) => .next s
          | some (.page va a) =>
            let tok := s.fresh
            let e : Service := { kind := 4, cause := 0, die := coreDie core, core := coreIx core, gid := q.gid, slot := 0,
                                 ident := q.ident, va := va, access := a.code, token := tok }
            .next (forget va ({ (s.modChan core ch (fun h => { h with page := some tok })) with
              fresh := s.fresh + 1, tokens := kset tok (.chan core ch) s.tokens }.service e))
          | some (.fault addr) =>
            if s.orphan q then
              .next (forget addr (s.cpDrop core ch))
            else
            let t : TrapInfo := { trapOf 0x18 4 0 (ch + q.args.getD 4 0 % 256 * 2 ^ 8) addr h.wp with strm := q.slot }
            .next (forget addr ((s.modChan core ch (fun h => { h with stopped := true })).modAny core q.gid
              (fun g => { g with deferred := g.deferred ++ [t] })))
      | _ => .next s

/-- COPY. -/
def execCopy (g : Guard) (o : CopyOp) (s : State) : Out :=
  s.issueSolo (.copy g o)
    { chk := chkCopy o, hold := holdCopy o, banks := fun s => s.cpSrcBanks o (s.copyArgs o), eff := effCopy (.copy g o) o }

end Sys2Proof.Machine
end

