-- ==== Sys2Proof/Machine/Sort.lean ====
section
/-! DEFINITION. The sort engines: SORT and MERGE (R294 to R300). -/

namespace Sys2Proof.Machine

/-! ### Operands (R294 to R297) -/

/-- The engine that a core issues to (R294): die * 32 + quad. -/
def sortEngine (c : Nat) : Nat :=
  if isShader c then coreDie c * 32 + coreQuad c else (if coreDie c < 5 then 2 else 7) * 32 + coreQuad c % 32
/-- Bytes of a key. -/
def keyBytes (o : SortOp) : Nat := if o.key.val == 3 then 8 else 4
/-- An array of a sort command: is it the destination, space, address, bytes of an element, elements, operand field. -/
structure SArr where
  dest : Bool
  sp : Space
  addr : Nat
  elt : Nat
  n : Nat
  fld_ : Nat
deriving DecidableEq, Repr
/-- Bytes of an array. -/
def SArr.bytes (x : SArr) : Nat := x.elt * x.n

/-- Captured scalars of SORT: source keys and values, destination keys and values, n. -/
def State.sortArgs (s : State) (o : SortOp) : List Nat :=
  let r (i : Nat) : Nat := (s.sr i).toNat
  [r o.sx.val, if o.vals then r (o.sx.val + 1) else 0, r o.sy.val, if o.vals then r (o.sy.val + 1) else 0, fld (r o.sz.val) 0 32]
/-- Captured scalars of MERGE: run A, run B, destination, nA, nB. -/
def State.mergeArgs (s : State) (o : SortOp) : List Nat :=
  let r (i : Nat) : Nat := (s.sr i).toNat
  let v (i : Nat) : Nat := if o.vals then r i else 0
  [r o.sx.val, v (o.sx.val + 1), r (o.sx.val + 2), v (o.sx.val + 3), r o.sy.val, v (o.sy.val + 1),
   fld (r o.sz.val) 0 32, fld (r o.sz.val) 32 32]
/-- Arrays of SORT. -/
def sortArrays (o : SortOp) (a : List Nat) : List SArr :=
  let n := a.getD 4 0
  let k := keyBytes o
  [{ dest := false, sp := o.src, addr := a.getD 0 0, elt := k, n := n, fld_ := 2 }]
    ++ (if o.vals then [{ dest := false, sp := o.src, addr := a.getD 1 0, elt := 4, n := n, fld_ := 2 }] else [])
    ++ [{ dest := true, sp := o.dst, addr := a.getD 2 0, elt := k, n := n, fld_ := 3 }]
    ++ (if o.vals then [{ dest := true, sp := o.dst, addr := a.getD 3 0, elt := 4, n := n, fld_ := 3 }] else [])
/-- Arrays of MERGE. -/
def mergeArrays (o : SortOp) (a : List Nat) : List SArr :=
  let na := a.getD 6 0
  let nb := a.getD 7 0
  let k := keyBytes o
  let src (i e n : Nat) : SArr := { dest := false, sp := o.src, addr := a.getD i 0, elt := e, n := n, fld_ := 2 }
  let dst (i e : Nat) : SArr := { dest := true, sp := o.dst, addr := a.getD i 0, elt := e, n := na + nb, fld_ := 3 }
  [src 0 k na] ++ (if o.vals then [src 1 4 na] else []) ++ [src 2 k nb] ++ (if o.vals then [src 3 4 nb] else [])
    ++ [dst 4 k] ++ (if o.vals then [dst 5 4] else [])
/-- Arrays of a command. -/
def cmdArrays (op : Instr) (a : List Nat) : List SArr :=
  match op with
  | .sort _ o => sortArrays o a
  | .merge _ o => mergeArrays o a
  | _ => []

/-- Unused bits of an address register: .g has 56, .a 22; a .s offset is checked by its extent. -/
def SArr.badBits (x : SArr) : Bool :=
  match x.sp with
  | .g => x.addr / 2 ^ 56 != 0
  | .a => x.addr / 2 ^ 22 != 0
  | _ => x.addr / 2 ^ 32 != 0
/-- Do two arrays overlap? -/
def SArr.overlaps (x y : SArr) : Bool :=
  x.sp == y.sp && x.addr < y.addr + y.bytes && y.addr < x.addr + x.bytes && x.n != 0 && y.n != 0
/-- The sort-operand fault (R296, R373). -/
def sortTrap (f d0 : Nat) : TrapInfo := trapOf 0x1A 4 f d0 0 0
/-- Checks of one array (R296). -/
def State.sortArrChk (s : State) (x : SArr) : Chk :=
  Chk.first [
    .when (x.addr % x.elt != 0 || x.badBits) (sortTrap x.fld_ x.addr),
    .when (x.sp == .s && x.n != 0 && s.curUnit.shBytes < x.addr + x.bytes) (sortTrap x.fld_ x.addr),
    .when (x.sp == .g && x.n != 0 && 2 ^ 56 < x.addr + x.bytes) (sortTrap x.fld_ x.addr),
    .when (x.sp == .a && x.n != 0 && bufSize 2 < x.addr + x.bytes) (trapOf 0x10 4 x.fld_ x.addr 0 0)]
/-- A banks of arrays. -/
def arrBanks (l : List SArr) (dest : Bool) : List Nat :=
  ((l.filter (fun x => x.sp == .a && x.dest == dest)).flatMap (fun x => spanBanks 2 x.addr x.bytes)).eraseDups
/-- Scratch banks of arrays, those of a shared window at byte `sh` among them (R122). -/
def arrScratch (sh : Nat) (l : List SArr) (dest : Bool) : List Nat :=
  (arrBanks l dest ++ (l.filter (fun x => x.sp == .s && x.dest == dest)).flatMap (fun x => spanBanks 4 (sh + x.addr) x.bytes)).eraseDups
/-- Scratch banks that a sort command of the issuing stream reads. -/
def State.sortReads (s : State) (l : List SArr) : List Nat := arrScratch (s.curUnit.shBase * 16384) l false
/-- Checks of SORT and MERGE on their arrays (R296, R122). -/
def State.sortChk (s : State) (l : List SArr) (more : List Chk) : Chk :=
  Chk.first (l.map s.sortArrChk ++ more ++ [s.darkScratch 4 2 (s.sortReads l)])
/-- Checks of SORT. -/
def chkSort (o : SortOp) (s : State) : Chk :=
  let a := s.sortArgs o
  s.sortChk (sortArrays o a) [.when (65536 < a.getD 4 0) (sortTrap 4 (a.getD 4 0))]
/-- Checks of MERGE: no destination array overlaps a source. -/
def chkMerge (o : SortOp) (s : State) : Chk :=
  let l := mergeArrays o (s.mergeArgs o)
  s.sortChk l [match (l.filter SArr.dest).find? (fun d => (l.filter (fun x => !x.dest)).any d.overlaps) with
    | some d => .trap (sortTrap 3 d.addr)
    | none => .ok]
/-- The bank set: source in mode R, destination in mode W (R300). -/
def arrSet (l : List SArr) : List (Nat × Nat) :=
  mergeModes ((arrBanks l false).map (fun b => (b, 0)) ++ (arrBanks l true).map (fun b => (b, 1)))
/-- The queue of an engine. -/
def State.engineQ (s : State) (e : Nat) : List Cmd := (kget e s.sortQ).getD []
/-- Holds of SORT and MERGE (R294, R151, R210). -/
def State.sortHold (s : State) (l : List SArr) : Bool × State :=
  let r := s.curCore.conflict (arrSet l)
  (r || (s.engineQ (sortEngine s.cur.core)).length ≥ 16 || s.curGrp.ctrs.getD 4 0 ≥ 65535,
   if r then s.bumpClk s.cur.core 9 else s)

/-- ceil(log2 n). -/
def clog2 (n : Nat) : Nat := if n ≤ 1 then 0 else Nat.log2 (n - 1) + 1
/-- Ticks of a command at its engine: the bound of R300, at the clk of the engine's quad. -/
def State.sortTicks (s : State) (e : Nat) (q : Cmd) : Nat :=
  let clk := match q.op with
    | .sort _ _ => 200 + ceilDiv (q.args.getD 4 0 * max 1 (clog2 (q.args.getD 4 0))) 8
    | _ => 200 + ceilDiv (q.args.getD 6 0 + q.args.getD 7 0) 8
  clk * s.period (e / 32 * 256 + e % 32 * 4)
/-- Begin the command at the head of an engine: after its clk come the way of command and data over the bridge (R13, R294), and the
memory traffic, which is free (log 5). -/
def State.sortBegin (s : State) (e : Nat) : State :=
  match s.engineQ e with
  | q :: r =>
    { s with sortQ := kset e ({ q with start := s.now, due := s.now + s.sortTicks e q,
                                         wall := s.roundTrip (coreDie q.core) (e / 32) + Config.latency s.free * tickNs, tick := 0 } :: r) s.sortQ,
             sortPos := kdel e s.sortPos, free := s.free + 1 }
  | [] => { s with sortQ := kdel e s.sortQ, sortPos := kdel e s.sortPos }
/-- SORT and MERGE: accepted by the engine of the core (R294). -/
def State.sortAccept (s : State) (op : Instr) (a : List Nat) : State :=
  let e := sortEngine s.cur.core
  let cmd := s.cmdOf op a allLanes [] 0 0
  let was := s.engineQ e
  let s := { ((s.modC (fun c => c.reserve s.fresh (arrSet (cmdArrays op a)))).ctrUp 4 1) with
    fresh := s.fresh + 1, sortQ := kset e (was ++ [cmd]) s.sortQ }
  if was.isEmpty then s.sortBegin e else s

/-! ### Keys and records (R297, R298) -/

/-- t(x) of R297. -/
def keyT (k x : Nat) : Nat :=
  match k with
  | 1 => x ^^^ 0x80000000
  | 2 => if x / 2 ^ 31 % 2 == 1 then 0xFFFFFFFF - x else x ^^^ 0x80000000
  | _ => x
/-- Does key x precede key y? -/
def precedes (o : SortOp) (x y : Nat) : Bool :=
  if o.desc then keyT o.key.val y < keyT o.key.val x else keyT o.key.val x < keyT o.key.val y

/-- What stops an engine at an element of an array: its page, or uncorrectable source data (R299). -/
def State.sortStop (s : State) (q : Cmd) (x : SArr) (i : Nat) : Option CpStop :=
  if x.sp == .g then
    s.cpWalk q.core q.root q.priv (x.addr + i * x.elt) x.elt (if x.dest then .w else .r)
  else
    let b : Nat × Nat := if x.sp == .s then (4, q.base + x.addr + i * x.elt) else (2, x.addr + i * x.elt)
    if !x.dest && ((s.core q.core).badBytes b.1 b.2 x.elt).isSome then some (.fault (x.addr + i * x.elt)) else none
/-- Has the group of a command left the core that issued it, or been put aside? -/
def Cmd.away (q : Cmd) : Bool := ghostBase ≤ q.gid || q.gcore != q.core
/-- The scope of a command's accesses: of one whose group has left its core the package, so that the group finds what it wrote
wherever it goes on (R241, R300, log 84). -/
def Cmd.reach (q : Cmd) : Nat := if q.away && (q.scope == 0 || q.scope == 6) then 3 else q.scope
/-- Read element i of an array. -/
def State.sortGet (s : State) (q : Cmd) (x : SArr) (i : Nat) : Nat × State :=
  match x.sp with
  | .g =>
    let s := s.settleWalk (coreDie q.core) q.root ((x.addr + i * x.elt) % 2 ^ 56)
    let p := s.cpPa q.core q.root (x.addr + i * x.elt)
    let r := s.loadG q.core q.launch p.1 x.elt q.reach p.2
    (leNat r.1, r.2)
  | .s => ((s.core q.core).bufNat 4 (q.base + x.addr + i * x.elt) x.elt, s)
  | _ => ((s.core q.core).bufNat 2 (x.addr + i * x.elt) x.elt, s)
/-- Write element i of an array. -/
def State.sortPut (s : State) (q : Cmd) (x : SArr) (i v : Nat) : State :=
  match x.sp with
  | .g =>
    let s := s.settleWalk (coreDie q.core) q.root ((x.addr + i * x.elt) % 2 ^ 56)
    let p := s.cpPa q.core q.root (x.addr + i * x.elt)
    (if q.away then s.dropLine q.gcore (s.canon p.1 / 128) else s).storeG q.core q.launch p.1 (leBytes x.elt v) q.reach p.2
  | .s => s.modCore q.core (fun c => c.bufWrite 4 (q.base + x.addr + i * x.elt) (leBytes x.elt v))
  | _ => s.modCore q.core (fun c => c.bufWrite 2 (x.addr + i * x.elt) (leBytes x.elt v))

/-- The first stop of any element of the arrays of a SORT, which translates every page first (R299). -/
def State.sortStops (s : State) (q : Cmd) : Option CpStop :=
  (cmdArrays q.op q.args).findSome? (fun x => (List.range x.n).findSome? (fun i => s.sortStop q x i))
/-- Read a whole array. -/
def State.sortRead (s : State) (q : Cmd) (x : SArr) : List Nat × State :=
  (List.range x.n).foldl (fun a i => let r := a.2.sortGet q x i; (a.1 ++ [r.1], r.2)) ([], s)
/-- SORT on its arrays (R298): every record is read before any is written, and the order is stable. -/
def State.runSort (s : State) (q : Cmd) (o : SortOp) : State :=
  let l := cmdArrays q.op q.args
  let z : SArr := { dest := false, sp := .g, addr := 0, elt := 4, n := 0, fld_ := 0 }
  let K := s.sortRead q (l.getD 0 z)
  let V := if o.vals then K.2.sortRead q (l.getD 1 z) else ([], K.2)
  let recs := lsort (fun x y => precedes o x.1 y.1) (K.1.zip (if o.vals then V.1 else K.1))
  let dk := l.getD (if o.vals then 2 else 1) z
  let dv := l.getD 3 z
  (recs.zip (List.range recs.length)).foldl (fun s p =>
    let s := s.sortPut q dk p.2 p.1.1
    if o.vals then s.sortPut q dv p.2 p.1.2 else s) V.2

/-- The record of a MERGE at position o: taken from run A, and the index (R298). -/
def mergeTake (o : SortOp) (na nb ia ib : Nat) (ka kb : Nat) : Bool :=
  ib == nb || (ia < na && !(precedes o kb ka))
/-- What MERGE reached: its state, positions in A, B and out, and the stop it met. -/
structure MergeAt where
  s : State
  ia : Nat
  ib : Nat
  o : Nat
  stop : Option (CpStop × Nat)
/-- One record of MERGE: written unless a page or its data stop it (R298, R299). -/
def mergeStep (q : Cmd) (o : SortOp) (l : List SArr) (m : MergeAt) : MergeAt :=
  if m.stop.isSome then m
  else
    let z : SArr := { dest := false, sp := .g, addr := 0, elt := 4, n := 0, fld_ := 0 }
    let ix (i j : Nat) : Nat := if o.vals then i else j
    let kA := l.getD 0 z
    let kB := l.getD (ix 2 1) z
    let kD := l.getD (ix 4 2) z
    let s := m.s
    let stopA := if m.ia < kA.n then s.sortStop q kA m.ia else none
    let stopB := if m.ib < kB.n then s.sortStop q kB m.ib else none
    match stopA.orElse (fun _ => stopB) with
    | some x => { m with stop := some (x, m.o) }
    | none =>
      let a := if m.ia < kA.n then s.sortGet q kA m.ia else (0, s)
      let b := if m.ib < kB.n then a.2.sortGet q kB m.ib else (0, a.2)
      let fromA := mergeTake o kA.n kB.n m.ia m.ib a.1 b.1
      let s := b.2
      let vSrc := if fromA then l.getD 1 z else l.getD 3 z
      let vIx := if fromA then m.ia else m.ib
      let next (s : State) : MergeAt :=
        { s := s, ia := if fromA then m.ia + 1 else m.ia, ib := if fromA then m.ib else m.ib + 1, o := m.o + 1, stop := none }
      let st := (if o.vals then s.sortStop q vSrc vIx else none).orElse (fun _ => (s.sortStop q kD m.o).orElse (fun _ =>
        if o.vals then s.sortStop q (l.getD 5 z) m.o else none))
      match st with
      | some x => { m with s := s, stop := some (x, m.o) }
      | none =>
        let s := s.sortPut q kD m.o (if fromA then a.1 else b.1)
        if o.vals then
          let v := s.sortGet q vSrc vIx
          next (v.2.sortPut q (l.getD 5 z) m.o v.1)
        else next s
/-- MERGE from the record at which it stopped, to its end or the next stop: `from_` says how many records are written, and how many of
them run A gave. -/
def State.runMerge (s : State) (q : Cmd) (o : SortOp) (from_ : Nat × Nat) : MergeAt :=
  let l := cmdArrays q.op q.args
  (List.range (q.args.getD 6 0 + q.args.getD 7 0 - from_.1)).foldl (fun m _ => mergeStep q o l m)
    { s := s, ia := from_.2, ib := from_.1 - from_.2, o := from_.1, stop := none }

/-! ### Completion and faults (R299, R300) -/

/-- The command at the head of an engine that may run now: not stopped, not waiting for a page, due. -/
def State.sortHead (s : State) (e id : Nat) : Option Cmd :=
  match s.engineQ e with
  | q :: _ => if q.id == id && !q.bad && (kget e s.sortPage).isNone && q.due ≤ s.now && q.tick ≤ s.now then some q else none
  | [] => none
/-- Where a command is stopped now. -/
def State.sortMeets (s : State) (e : Nat) (q : Cmd) : Option (CpStop × Nat) :=
  match q.op with
  | .sort _ _ => (s.sortStops q).map (fun x => (x, 0))
  | .merge _ o => (s.runMerge q o (sget (0, 0) e s.sortPos)).stop
  | _ => none
/-- End the command at the head of an engine: reservations released, counter 4 falls, the next begins. -/
def State.sortEnd (s : State) (e : Nat) (q : Cmd) : State :=
  let s := { s with sortQ := kset e ((s.engineQ e).drop 1) s.sortQ }
  ((s.modCore q.core (fun c => c.release q.id)).ctrDown q.gcore q.gid 4).sortBegin e
/-- The scratch banks a sort command writes, awake or not: the clk until they are. -/
def State.sortWake (s : State) (q : Cmd) : Core × Nat := (s.core q.core).wakeFor (arrScratch (q.base) (cmdArrays q.op q.args) true)

/-- SORT_COMPLETE (R298, R300): the writes are made, the semaphore is raised if asked, counter 4 falls. A stop hands over
to SORT_ENGINE_FAULT, with what MERGE wrote before it in place (R299). -/
def execSortComplete (engine id : Nat) (s : State) : Out :=
  match s.sortHead engine id with
  | none => .next s
  | some q =>
    let w := s.sortWake q
    let put (f : Cmd → Cmd) (s : State) : State := { s with sortQ := kmod engine (fun l => l.map (fun x => if x.id == id then f x else x)) s.sortQ }
    if q.wall != 0 then .next (put (fun x => { x with wall := 0, tick := s.now + q.wall }) s)
    else if w.2 != 0 then
      .next (put (fun x => { x with tick := (s.core q.core).edge + 1 }) (s.modCore q.core (fun _ => w.1)))
    else
      let fin (o : SortOp) (s : State) : State := (if o.raise then s.semAdd q.core o.sem.val 1 else s).sortEnd engine q
      match q.op with
      | .sort _ o =>
        match s.sortStops q with
        | some _ => .next (s.sched [.sortEngineFault engine id])
        | none => .next (fin o (s.runSort q o))
      | .merge _ o =>
        let m := s.runMerge q o (sget (0, 0) engine s.sortPos)
        match m.stop with
        | some p => .next ({ m.s with sortPos := sset (0, 0) engine (p.2, m.ia) m.s.sortPos }.sched [.sortEngineFault engine id])
        | none => .next (fin o m.s)
      | _ => .next s

/-- SORT_ENGINE_FAULT (R299): at a page not present the engine waits for service; any other fault ends a SORT with no
byte written, or stops a MERGE, and pends the sort-engine fault at its issuer; a MERGE of a group that has retired ends there (log
19). -/
def execSortEngineFault (engine id : Nat) (s : State) : Out :=
  match s.sortHead engine id with
  | none => .next s
  | some q =>
    match s.sortMeets engine q with
    | none | some (.walk _, _) => .next s
    | some (.page va a, _) =>
      let tok := s.fresh
      let e : Service := { kind := 5, cause := 0, die := coreDie q.gcore, core := coreIx q.gcore, gid := q.gid, slot := 0,
                           ident := q.ident, va := va, access := a.code, token := tok }
      .next ({ s with fresh := s.fresh + 1, sortPage := kset engine tok s.sortPage,
                      tokens := kset tok (.sort engine id) s.tokens }.service e)
    | some (.fault addr, o) =>
      let t : TrapInfo := { trapOf 0x1B 4 0 (engine / 32 + engine % 32 * 2 ^ 8 + id % 2 ^ 16 * 2 ^ 16) addr o with strm := q.slot }
      let s := s.modAny q.gcore q.gid (fun g => { g with deferred := g.deferred ++ [t] })
      match q.op with
      | .sort _ _ => .next (s.sortEnd engine q)
      | _ => if s.orphan q then .next (s.sortEnd engine q) else .next { s with sortQ := kmod engine (fun l => l.map (fun x => if x.id == id then { x with bad := true } else x)) s.sortQ }

/-! ### The instructions, alone in their bundle -/

/-- SORT. -/
def execSort (g : Guard) (o : SortOp) (s : State) : Out :=
  s.issueSolo (.sort g o)
    { chk := chkSort o, hold := fun s => s.sortHold (sortArrays o (s.sortArgs o)),
      banks := fun s => s.sortReads (sortArrays o (s.sortArgs o)), eff := fun s => s.sortAccept (.sort g o) (s.sortArgs o) }
/-- MERGE. -/
def execMerge (g : Guard) (o : SortOp) (s : State) : Out :=
  s.issueSolo (.merge g o)
    { chk := chkMerge o, hold := fun s => s.sortHold (mergeArrays o (s.mergeArgs o)),
      banks := fun s => s.sortReads (mergeArrays o (s.mergeArgs o)), eff := fun s => s.sortAccept (.merge g o) (s.mergeArgs o) }

end Sys2Proof.Machine
end

