-- ==== Sys2Proof/Machine/Order.lean ====
section
/-! DEFINITION. Statistics sets (R365 to R367), and the order units: ORDW and ORDD (R301 to R306). -/

namespace Sys2Proof.Machine

/-! ### Statistics sets (R365, R366) -/

/-- An empty set. -/
def Stats.empty : Stats := { prims := 0, culled := 0, samples := 0, snap := none }
/-- An event of a launch identifier: its set counts, is allocated, or the event is lost (R365). -/
def State.stat (s : State) (ident : Nat) (f : Stats → Stats) : State :=
  match kget ident s.stats with
  | some x => { s with stats := kset ident (f x) s.stats }
  | none =>
    if s.stats.length < 64 then { s with stats := kset ident (f Stats.empty) s.stats } else { s with lostEv := s.lostEv + 1 }

/-! ### Order units (R301, R303) -/

/-- The order unit of a region: die * 32 + unit (R301). -/
def orderUnit (r : Nat) : Nat := (if r % 2 = 0 then 2 else 7) * 32 + r / 2 % 32
/-- An order unit with nothing in it. -/
def OrderUnit.start : OrderUnit := { regions := [], toEnter := [], entered := [] }
/-- An order unit. -/
def State.ounit (s : State) (u : Nat) : OrderUnit := (kget u s.orders).getD OrderUnit.start
/-- Change an order unit. -/
def State.modUnitO (s : State) (u : Nat) (f : OrderUnit → OrderUnit) : State :=
  { s with orders := kset u (f (s.ounit u)) s.orders }
/-- A region state of a launch, if it exists. -/
def OrderUnit.region (x : OrderUnit) (l r : Nat) : Option Region := x.regions.find? (fun g => g.launch == l && g.r == r)
/-- Create a region state with E = 0 where there is none (R303). -/
def OrderUnit.create (x : OrderUnit) (l r : Nat) : OrderUnit :=
  if (x.region l r).isSome then x else { x with regions := x.regions ++ [{ launch := l, r := r, e := 0, window := [] }] }
/-- Change a region state. -/
def OrderUnit.modRegion (x : OrderUnit) (l r : Nat) (f : Region → Region) : OrderUnit :=
  { x with regions := x.regions.map (fun g => if g.launch == l && g.r == r then f g else g) }
/-- Entries of the pool in use (R279). -/
def OrderUnit.pool (x : OrderUnit) : Nat := x.regions.foldl (fun a g => a + g.window.length) 0

/-- Captured scalars of ORDW and ORDD: region and number. -/
def State.ordArgs (s : State) (sR sQ : SReg) : List Nat := [fld (s.sr sR.val).toNat 0 32, fld (s.sr sQ.val).toNat 0 32]
/-- The mask of ORDW: bit b of lane k is mask index 32 k + b (R302). -/
def State.ordMask (s : State) (m i : Nat) : Nat :=
  (List.range 8).foldl (fun a k => a + (s.curGrp.elem (elemKey m i k)).toNat * 2 ^ (32 * k)) 0
/-- The ordered-region fault: a 4,097th region state on the unit (R304). -/
def chkOrd (sR sQ : SReg) (s : State) : Chk :=
  let r := (s.ordArgs sR sQ).getD 0 0
  let u := s.ounit (orderUnit r)
  .when ((u.region (s.countsIn s.curGrp.launch) r).isNone && u.regions.length ≥ 4096) (trapOf 0x1D 4 2 r 0 0)
/-- Holds of ORDW: 512 commands waiting to enter; counter 4 (R304, R151). -/
def holdOrdw (sR sQ : SReg) (s : State) : Bool × State :=
  ((s.ounit (orderUnit ((s.ordArgs sR sQ).getD 0 0))).toEnter.length ≥ 512 || s.curGrp.ctrs.getD 4 0 ≥ 65535, s)
/-- Ticks of the way of a command to the unit of a region and of its answer back over the bridge (R13, R15, R305). -/
def State.ordWay (s : State) (r : Nat) : Nat :=
  s.roundTrip (coreDie s.cur.core) (orderUnit r / 32)
/-- ORDW: sent to its region's unit, which it reaches after a free time (R303, log 5). -/
def effOrdw (op : Instr) (sR sQ : SReg) (m i : Nat) (s : State) : State :=
  let a := s.ordArgs sR sQ
  let r := a.getD 0 0
  let cmd := { (s.cmdOf op (a ++ [s.ordMask m i]) allLanes [] s.now 0) with launch := s.countsIn s.curGrp.launch, due := s.now + s.ordWay r + (1 + Config.latency s.free) * tickNs }
  let s := { (s.ctrUp 4 1) with fresh := s.fresh + 1, free := s.free + 1 }
  s.modUnitO (orderUnit r) (fun u => let u := u.create cmd.launch r; { u with toEnter := u.toEnter ++ [cmd] })
/-- The hold of ORDD: counter 4 (R151). -/
def holdOrdd (s : State) : Bool × State := (s.curGrp.ctrs.getD 4 0 ≥ 65535, s)
/-- The ordered-sequence fault pends at the stream that issued the command: a PC slot of a group (R304). -/
def State.ordFault (s : State) (c g slot r q : Nat) : State :=
  s.modAny c g (fun k => { k with deferred := k.deferred ++ [{ trapOf 0x1C 4 0 r q 0 with strm := slot }] })
/-- ORDD: marks entry q done and frees it (R303); the population count of its mask is committed (R366). It acts as a
SEMADD: a fence at its scope first (R306). Counter 4 rises, and falls when its answer is back (R151, log 5). -/
def effOrdd (sR sQ : SReg) (s : State) : State :=
  let a := s.ordArgs sR sQ
  let r := a.getD 0 0
  let q := a.getD 1 0
  let l := s.countsIn s.curGrp.launch
  let s := (s.ctrUp 4 1).later 1 (s.ordWay r) (some 4) 0 0 false []
  let s := (s.fenceAt s.cur.core s.scope).modUnitO (orderUnit r) (fun u => u.create l r)
  match (((s.ounit (orderUnit r)).region l r).bind (fun g => g.window.find? (fun e => e.q == q))) with
  | none => s.ordFault s.cur.core s.cur.gid s.cur.slot r q
  | some e =>
    let n := (List.range 256).countP (fun k => bitN e.mask k)
    (s.modUnitO (orderUnit r) (fun u => u.modRegion l r (fun g => { g with window := g.window.filter (fun e => e.q != q) }))).stat
      s.lpb.ident (fun t => { t with samples := (t.samples + n) % 2 ^ 64 })

/-- What an arrived ORDW meets at its unit: it has entered before, it may enter, or it waits (R303, R304). -/
def OrderUnit.verdict (u : OrderUnit) (c : Cmd) : Option Bool :=
  match u.region c.launch (c.args.getD 0 0) with
  | none => none
  | some g =>
    if c.args.getD 1 0 < g.e then some false
    else if g.e == c.args.getD 1 0 && g.window.length < 64 && u.pool < 1024 then some true
    else none

/-- ORDW_ENTER (R303): the entry enters its window and E advances; a number that has already entered is the
ordered-sequence fault, and counter 4 falls (R304). -/
def execOrdwEnter (ounit id : Nat) (s : State) : Out :=
  let u := s.ounit ounit
  match u.toEnter.find? (fun c => c.id == id) with
  | none => .next s
  | some c =>
    if s.now < c.due then .next s
    else
      let drop (u : OrderUnit) : OrderUnit := { u with toEnter := u.toEnter.filter (fun x => x.id != id) }
      match u.verdict c with
      | none => .next s
      | some false =>
        .next (((s.modUnitO ounit drop).ctrDown c.gcore c.gid 4).ordFault c.gcore c.gid c.slot (c.args.getD 0 0) (c.args.getD 1 0))
      | some true =>
        let r := c.args.getD 0 0
        let q := c.args.getD 1 0
        .next (s.modUnitO ounit (fun u => { (drop u).modRegion c.launch r (fun g =>
          { g with e := q + 1, window := g.window ++ [{ q := q, mask := c.args.getD 2 0, cmd := id }] }) with
          entered := u.entered ++ [c] }))

/-- Is every earlier overlapping entry of the window done (R303)? -/
def OrderUnit.clear (u : OrderUnit) (c : Cmd) : Bool :=
  match u.region c.launch (c.args.getD 0 0) with
  | none => true
  | some g => g.window.all (fun e => c.args.getD 1 0 ≤ e.q || e.mask &&& c.args.getD 2 0 == 0)

/-- ORDW_COMPLETE (R303): counter 4 falls. It acts as a SEMWAIT: a fence at its scope follows (R306). -/
def execOrdwComplete (ounit id : Nat) (s : State) : Out :=
  match (s.ounit ounit).entered.find? (fun c => c.id == id) with
  | none => .next s
  | some c =>
    if !((s.ounit ounit).clear c) then .next s
    else
      .next (((s.modUnitO ounit (fun u => { u with entered := u.entered.filter (fun x => x.id != id) })).ctrDown
        c.gcore c.gid 4).fenceAt c.gcore c.scope)

/-! ### The instructions, alone in their bundle -/

/-- ORDW. -/
def execOrdw (g : Guard) (sR sQ : SReg) (m : Fin 16) (i : Fin 32) (s : State) : Out :=
  s.issueSolo (.ordw g sR sQ m i)
    { chk := chkOrd sR sQ, hold := holdOrdw sR sQ, eff := effOrdw (.ordw g sR sQ m i) sR sQ m.val i.val }
/-- ORDD. -/
def execOrdd (g : Guard) (sR sQ : SReg) (s : State) : Out :=
  s.issueSolo (.ordd g sR sQ) { chk := chkOrd sR sQ, hold := holdOrdd, eff := effOrdd sR sQ }

end Sys2Proof.Machine
end

