-- ==== Sys2Proof/Machine/Launch.lean ====
section
/-! DEFINITION. Launches: the LPB and its checks (R308 to R312), TOPB and drop table (R336 to R338), edge lists (R346),
placement in the queues (R314, R315), the end of a launch and its signal (R52, R452), the retirement of a unit (R359). -/

namespace Sys2Proof.Machine

/-! ### The LPB (R308 to R311) -/

/-- Role record j of an LPB image (R310). -/
def roleAt (b : List Byte) (j : Nat) : RoleRec :=
  let o := 112 + 16 * j
  { seg := imgNat b o 8, entry := imgNat b (o + 8) 4, budget := imgNat b (o + 12) 1, count := imgNat b (o + 13) 1,
    role := imgNat b (o + 14) 1, dict := imgNat b (o + 15) 1 }
/-- The fields of an LPB image (R308, R309). -/
def lpbOfImage (b : List Byte) (va pa : Nat) : Lpb :=
  let c := imgNat b 0 4
  let w := imgNat b 96 4
  { va := va, pa := pa, kind := fld c 0 2, prio := fld c 2 3, cls := fld c 5 2, scoreboard := bitN c 7, recordMode := bitN c 8,
    spill := bitN c 9, inlineLimit := fld c 10 4, msix := bitN c 14, vector := fld c 15 11, grid := imgNat b 4 4,
    ident := imgNat b 8 8, root := imgNat b 16 8, param := imgNat b 24 8, sigVa := imgNat b 32 8, sigVal := imgNat b 40 8,
    privBase := imgNat b 48 8, privBytes := imgNat b 56 4, stackBytes := imgNat b 60 4, ovfVa := imgNat b 64 8,
    ovfEntries := imgNat b 72 4, shBytes := imgNat b 76 4, topbVa := imgNat b 80 8, edgeVa := imgNat b 88 8,
    quadsW := fld w 0 8, quadsH := fld w 8 8, dies := fld w 16 3 + 1, waitCount := imgNat b 100 4,
    roles := (List.range 6).map (roleAt b), rings := (List.range 8).map (fun i => imgNat b (208 + 8 * i) 8),
    queues := (List.range 4).map (fun i => imgNat b (272 + 8 * i) 8) }
/-- Reserved fields of an LPB image that are nonzero, or kind 11 (code 0x20). -/
def lpbReserved (b : List Byte) : Bool :=
  let c := imgNat b 0 4
  let w := imgNat b 96 4
  let root := imgNat b 16 8
  fld c 0 2 == 3 || fld c 26 6 != 0 || fld root 0 16 != 0 || fld root 52 12 != 0 || imgNat b 104 8 != 0
    || imgNat b 304 80 != 0 || fld w 19 13 != 0 || (fld c 0 2 != 2 && w != 0)
    || (List.range 6).any (fun j => imgNat b (112 + 16 * j + 7) 1 != 0)

/-- Role records that are present. -/
def Lpb.live (l : Lpb) : List RoleRec := l.roles.filter (fun r => r.role != 0)
/-- The role shape of R39 and R310 (code 0x21 where it fails). -/
def roleShape (l : Lpb) : Bool :=
  let rs := l.live
  let n (k : Nat) : Nat := (rs.filter (fun r => r.role == k)).length
  let vec := rs.filter (fun r => r.role == 4)
  rs.all (fun r => r.role ≤ 4 && r.budget ≤ 10) &&
    (if l.kind == 0 then
      l.roles.map RoleRec.role == [1, 0, 0, 0, 0, 0] && rs.all (fun r => 1 ≤ r.count && r.count ≤ 32 && 1 ≤ r.budget)
    else
      n 1 == 0 && n 2 == 1 && n 3 == 1 && 1 ≤ n 4 && n 4 ≤ 4 && vec.foldl (fun a r => a + r.count) 0 ≤ 4
        && rs.all (fun r => if r.role == 4 then 1 ≤ r.count && 1 ≤ r.budget else r.count == 1)
        && rs.foldl (fun a r => a + r.budget * r.count) 0 ≤ 64)

/-- A ring descriptor's extent, none where it is not in the layout of R311. -/
def ringExtent (d : Nat) : Option (Nat × Nat) :=
  if !bitN d 63 || fld d 0 4 != 0 || fld d 22 10 != 0 || fld d 38 2 != 0 || fld d 52 11 != 0 then none
  else some (fld d 0 22, (fld d 32 6 + 1) * (16 * (fld d 40 12 + 1)))
/-- A role-queue descriptor's extent, none where it is not in the layout of R311. -/
def queueExtent (d : Nat) : Option (Nat × Nat) :=
  if !bitN d 63 || fld d 0 4 != 0 || fld d 22 2 != 0 || fld d 38 25 != 0 || rqSrc d > 10
      || !([0, 1, 2, 10].contains (rqSink d)) then none
  else some (rqOff d, rqDepth d * rqBytes d)
/-- Do extents all lie in the A buffer, none overlapping another? -/
def extentsOk : List (Nat × Nat) → Bool
  | [] => true
  | (o, n) :: r => o + n ≤ bufSize 2 && r.all (fun p => o + n ≤ p.1 || p.1 + p.2 ≤ o) && extentsOk r
/-- The descriptors of an LPB (code 0x27 where they fail): all zero on kind 00. -/
def descriptorsOk (kind : Nat) (rings queues : List Nat) : Bool :=
  let rs := rings.filter (· != 0)
  let qs := queues.filter (· != 0)
  let es := rs.map ringExtent ++ qs.map queueExtent
  (kind != 0 || (rs.isEmpty && qs.isEmpty)) && es.all Option.isSome && extentsOk (es.filterMap id)

/-- Bytes of a unit's context image (R383). -/
def Lpb.imageBytes (l : Lpb) : Nat :=
  320 + 43008 * l.groups + (if l.kind == 0 then (l.shBytes + 255) / 256 * 256 else 8519680)
/-- Misaligned or inconsistent fields (code 0x24). What is inconsistent the spec names by sizes alone: log 73. -/
def lpbInconsistent (l : Lpb) : Bool :=
  l.privBytes % 256 != 0 || l.stackBytes % 16 != 0 || l.privBytes < l.stackBytes || l.privBase % 65536 != 0
    || l.ovfVa % 16 != 0 || l.sigVa % 8 != 0 || l.live.any (fun r => r.entry % 2 == 1) || (l.msix && l.vector < 2) || l.grid == 0
    || l.groups * (l.privBytes - l.stackBytes - 768) < l.imageBytes
    || 393216 < l.shBytes || (l.ovfVa == 0 && (l.ovfEntries != 0 || l.spill))
/-- Is dictionary slot d installed for a core kind and role? -/
def State.dictFits (s : State) (d : Nat) (tile : Bool) (role : Nat) : Bool :=
  match kget d s.dicts with
  | some x => x.tile == tile && x.role == role
  | none => false
/-- The checks of R312 on a parsed LPB: `dev` is the issuer's root and privilege for a device-issued launch, `child` is
set for FORK and SPAWN. -/
def State.lpbCode (s : State) (l : Lpb) (dev : Option (Nat × Bool)) (child : Bool) : Option Nat :=
  let row := s.classes.getD l.cls { granted := false, mhz := 0, mv := 0, grant := 0, profile := 0, k := 14 }
  if !(roleShape l) || (child && l.kind != 0) then some 0x21
  else if (l.kind == 0 && (160 < l.live.foldl (fun a r => a + r.budget * r.count) 0 || 393216 < l.shBytes))
      || (l.kind == 2 && (l.quadsW == 0 || 6 < l.quadsW || l.quadsH == 0 || 6 < l.quadsH)) then some 0x22
  else if !row.granted then some 0x23
  else if lpbInconsistent l then some 0x24
  else if (match dev with | some (root, priv) => root != l.root && !priv | none => false) then some 0x25
  else if l.live.any (fun r => !(s.dictFits r.dict (l.kind != 0) r.role)) then some 0x26
  else if !(descriptorsOk l.kind l.rings l.queues) then some 0x27
  else none

/-! ### TOPB, drop table, edge lists (R336 to R338, R346) -/

/-- The fields of a TOPB image (R336). -/
def topbOfImage (b : List Byte) : Topb :=
  let c := imgNat b 0 4
  let st (k : Nat) : List Int := (List.range 6).map (fun j => sint 32 (imgNat b (64 + 32 * k + 8 + 4 * j) 4))
  { levels := fld c 0 3, restart := bitN c 3, recomp := fld c 4 8, governed := bitN c 12,
    trips := (List.range 6).map (fun j => imgNat b (8 + 4 * j) 4 + 1), entries := (List.range 6).map (fun j => imgNat b (32 + 4 * j) 4),
    bases := (List.range 4).map (fun k => imgNat b (64 + 32 * k) 8), strides := (List.range 4).map st,
    outBase := imgNat b 192 8, outBytes := imgNat b 200 8, drop := [], period := imgNat b 216 4, deadline := imgNat b 224 8 }
/-- Zero fields of a TOPB image that are nonzero (code 0x28), those of unused levels included. -/
def topbReserved (b : List Byte) : Bool :=
  let c := imgNat b 0 4
  let n := fld c 0 3
  fld c 13 19 != 0 || imgNat b 4 4 != 0 || imgNat b 56 8 != 0 || imgNat b 220 4 != 0 || imgNat b 232 24 != 0
    || (List.range 6).any (fun j => 2 ^ 20 ≤ imgNat b (8 + 4 * j) 4
        || (n ≤ j && (imgNat b (8 + 4 * j) 4 != 0 || (List.range 4).any (fun k => imgNat b (64 + 32 * k + 8 + 4 * j) 4 != 0))))
/-- A drop table's entries, none where it fails its checks (R338). -/
def dropOf (b : List Byte) (period : Nat) : Option (List Nat) :=
  let n := imgNat b 0 1
  let l := (List.range n).map (fun i => imgNat b (8 + 2 * i) 2)
  if n ≤ 28 && imgNat b 1 7 == 0 && l.all (fun x => x < period) && l.eraseDups.length == n
      && (List.range (28 - n)).all (fun i => imgNat b (8 + 2 * (n + i)) 2 == 0) then some l
  else none
/-- One edge of an edge list (R346), none where it fails its checks. -/
def edgeOf (b : List Byte) : Option Edge :=
  let n := imgNat b 9 1
  let rs := (List.range 8).map (fun r => (imgNat b (16 + 16 * r) 8, imgNat b (24 + 16 * r) 8))
  if [2, 3, 5].contains (imgNat b 8 1) && 1 ≤ n && n ≤ 8 && imgNat b 10 6 == 0 && (rs.take n).all (fun p => p.2 != 0)
      && (rs.drop n).all (fun p => p.1 == 0 && p.2 == 0) then
    some { consumer := imgNat b 0 8, scope := imgNat b 8 1, regions := rs.take n }
  else none
/-- Every element, or none. -/
def allSome {α : Type} : List (Option α) → Option (List α)
  | [] => some []
  | none :: _ => none
  | some x :: r => (allSome r).map (x :: ·)

/-- Read virtual memory of a launch at package scope by the dispatcher, as a privileged party. -/
def State.readL (s : State) (root va n : Nat) : Option (List Byte) := s.readV 0x10000 root true va n
/-- The dispatcher's reads settle what they touch of open exact-sum words: the TOPB, drop table and edge list that an LPB image names
(R216, R246). -/
def State.settleParts (s : State) (img : Option (List Byte)) : State :=
  match img with
  | none => s
  | some b =>
    let l := lpbOfImage b 0 0
    if s.exact.isEmpty then s
    else
      let s := if l.topbVa == 0 then s else s.settleV 0x10000 l.root l.topbVa 256
      let s := match s.readL l.root l.topbVa 256 with
        | some t => if l.topbVa == 0 || imgNat t 208 8 == 0 then s else s.settleV 0x10000 l.root (imgNat t 208 8) 64
        | none => s
      if l.edgeVa == 0 then s
      else
        let s := s.settleV 0x10000 l.root l.edgeVa 16
        match s.readL l.root l.edgeVa 16 with
        | some h => s.settleV 0x10000 l.root (l.edgeVa + 16) (144 * min 64 (imgNat h 0 4))
        | none => s
/-- The edge list of an LPB (code 0x2E where it fails). -/
def State.edgesOf (s : State) (l : Lpb) : Option (List Edge) :=
  if l.edgeVa == 0 then some []
  else if l.edgeVa % 16 != 0 then none
  else match s.readL l.root l.edgeVa 16 with
    | none => none
    | some h =>
      let n := imgNat h 0 4
      if n == 0 || 64 < n || imgNat h 4 12 != 0 then none
      else match s.readL l.root (l.edgeVa + 16) (144 * n) with
        | none => none
        | some b => allSome ((List.range n).map (fun e => edgeOf (b.drop (144 * e))))
/-- The checks of R337 on a TOPB image. -/
def State.topbCode (s : State) (l : Lpb) (b : List Byte) : Except Nat Topb :=
  let t := topbOfImage b
  let dropVa := imgNat b 208 8
  if topbReserved b then .error 0x28
  else if t.levels == 0 || t.levels == 7 then .error 0x29
  else if 2 ^ 40 < (t.trips.take t.levels).foldl (· * ·) 1 then .error 0x2A
  else if (t.entries.zip l.roles).any (fun p => p.1 % 2 == 1 || (p.2.role == 0 && p.1 != 0)) then .error 0x2B
  else if (t.restart && t.outBytes == 0) || (!t.restart && t.recomp != 0) then .error 0x2C
  else if !t.governed then (if dropVa != 0 || t.period != 0 || t.deadline != 0 then .error 0x2D else .ok t)
  else if t.period == 0 || 65536 < t.period then .error 0x2D
  else if dropVa == 0 then .ok t
  else if dropVa % 8 != 0 then .error 0x2D
  else match (s.readL l.root dropVa 64).bind (fun d => dropOf d t.period) with
    | some d => .ok { t with drop := d }
    | none => .error 0x2D

/-- A child or spawned LPB: its signal word, MSI-X and priority fields are ignored (R322). -/
def childLpb (l : Lpb) (level : Nat) : Lpb := { l with sigVa := 0, sigVal := 0, msix := false, vector := 0, prio := level }
/-- LPB_VALIDATE and TOPB_VALIDATE (R312, R337): the launch's parts, or the first reject code. What a child's LPB has ignored is not
looked at (R322). -/
def State.validate (s : State) (img : Option (List Byte)) (va pa : Nat) (dev : Option (Nat × Bool)) (child : Bool) :
    Except Nat (Lpb × Option Topb × List Edge) :=
  match img with
  | none => .error 0x20
  | some b =>
    let l := if child then childLpb (lpbOfImage b va pa) 0 else lpbOfImage b va pa
    if lpbReserved b then .error 0x20
    else match s.lpbCode l dev child with
      | some c => .error c
      | none =>
        let top : Except Nat (Option Topb) :=
          if l.topbVa == 0 then .ok none
          else if l.topbVa % 64 != 0 then .error 0x28
          else match s.readL l.root l.topbVa 256 with
            | none => .error 0x28
            | some t => (s.topbCode l t).map some
        match top with
        | .error c => .error c
        | .ok t =>
          match s.edgesOf l with
          | none => .error 0x2E
          | some e => .ok (l, t, e)

/-! ### Queues of launches (R314, R315) -/

/-- A launch with nothing dispatched. -/
def State.mkLaunch (s : State) (l : Lpb) (t : Option Topb) (e : List Edge) : Launch :=
  { lpb := l, topb := t, edges := e, level := l.prio, queue := 64, t0 := s.ns, nextUnit := 0, back := [], retired := 0, lastStep := none, target := l.grid,
    waits := l.waitCount - (s.decs.filter (· == l.pa)).length, saved := [], parent := none, forkDie := none, inOvf := false,
    spawnOf := none, issuer := 0, started := false, queued := false, ending := false, cancel := none, weave := none,
    governor := match t with | some t => t.governed | none => false }
/-- Launch entries in the task queues of a level on the dies of a kind: forked children stand in fork queues. -/
def State.taskCount (s : State) (level : Nat) (tensor : Bool) : Nat :=
  (s.launches.filter (fun p => p.2.queued && p.2.parent.isNone && p.2.level == level && (p.2.lpb.kind != 0) == tensor)).length
/-- Has the task queue of a launch room (R314)? -/
def State.taskRoom (s : State) (x : Launch) : Bool := s.taskCount x.level (x.lpb.kind != 0) < 256
/-- Entries of a die's fork queue: children with units not yet dispatched (R307). -/
def State.forkCount (s : State) (die : Nat) : Nat :=
  (s.launches.filter (fun p => p.2.forkDie == some die && !p.2.inOvf && (p.2.nextUnit < p.2.lpb.grid || !p.2.back.isEmpty))).length
/-- Add a launch: decrements held for it are applied (R346). -/
def State.addLaunch (s : State) (x : Launch) : Nat × State :=
  (s.fresh, { s with launches := kset s.fresh x s.launches, fresh := s.fresh + 1, decs := s.decs.filter (· != x.lpb.pa) })
/-- Is a dictionary slot in use (R331)? -/
def State.dictInUse (s : State) (d : Nat) : Bool := s.launches.any (fun p => p.2.lpb.live.any (fun r => r.dict == d))

/-! ### Signals (R52, R312, R390, R452) -/

/-- Write a signal word through the launch's tables at system scope: none where the translation faults. -/
def State.signal (s : State) (l : Lpb) (v : Nat) : Option State :=
  if l.sigVa == 0 then some s else s.writeV 0x10000 l.root true l.sigVa (leBytes 8 v)
/-- The report of a signal word that was not written (R452): vector 0 and a service entry of kind 6. -/
def State.signalLost (s : State) (l : Lpb) : State :=
  (s.raiseMsix 0).service { kind := 6, cause := 0, die := 0, core := 0, gid := 0, slot := 0, ident := l.ident, va := l.sigVa,
                            access := 2, token := 0 }
/-- Write a signal value, or report that it was not written. -/
def State.signalOr (s : State) (l : Lpb) (v : Nat) : State := (s.signal l v).getD (s.signalLost l)

/-! ### The end of a launch (R52, R359) -/

/-- A launch and the launches that SPAWN added to it (R322). -/
def State.family (s : State) (l : Nat) : List Nat := l :: (s.launches.filter (fun p => p.2.spawnOf == some l)).map Prod.fst
/-- Clean every path that held writes of a launch (R52 steps 2 and 3): the lines it wrote go home. -/
def State.cleanLaunch (s : State) (l : Nat) : State :=
  let ks := s.family l
  s.cores.foldl (fun s p => (p.2.lines.filter (fun q => q.2.writers.any ks.contains)).foldl
    (fun s q => s.cleanLine p.1 q.1) s) s
/-- Free what a launch holds at its end: region states, governor, network records, dictionary use (R303, R331, R360). Its last counts
stay on record (R423, R437). -/
def State.freeLaunch (s : State) (l : Nat) : State :=
  let ks := s.family l
  { s with
    launches := s.launches.filter (fun p => !(ks.contains p.1)),
    past := (s.launches.filter (fun p => ks.contains p.1)).foldl (fun m p => kset p.2.lpb.ident p.2 m) s.past,
    orders := s.orders.map (fun p => (p.1, { p.2 with
      regions := p.2.regions.filter (fun g => g.launch != l), toEnter := p.2.toEnter.filter (fun c => c.launch != l),
      entered := p.2.entered.filter (fun c => c.launch != l) })),
    govs := kdel l s.govs, nets := s.nets.filter (fun p => p.2.launch != l), ovf := kdel l s.ovf, ovfHead := kdel l s.ovfHead }

/-- A group that waits at JOIN goes on (R36). -/
def Group.unjoin (g : Group) : Group :=
  let f (p : PcSlot) : PcSlot := if p.wait == .saving then { p with wait := .none } else p
  if g.joined then { g with joined := false, slot0 := f g.slot0, slot1 := f g.slot1 } else g
/-- The groups of a unit that wait at JOIN go on (R36). -/
def Core.unjoin (c : Core) (uid : Nat) : Core := (c.unit uid).gids.foldl (fun c g => c.modGroup g Group.unjoin) c
/-- Lower the child count of the unit that a home key names, resident, saved or chosen for a core (R322). At zero, groups that wait for
the rest of their workgroup to join go on, after a fence at package scope (R239). -/
def State.childDone (s : State) (home : Nat) : State :=
  let f (u : WUnit) : WUnit := if u.home == home then { u with children := u.children - 1 } else u
  let unj (c : Core) : Core := c.units.foldl (fun c q =>
    if q.2.home == home && q.2.children == 0 && !q.2.joining then c.unjoin q.1 else c) c
  let sv (v : Saved) : Saved :=
    let us := v.units.map f
    { v with units := us, groups := if !v.joined && us.any (fun u => u.home == home && u.children == 0)
        then v.groups.map (fun p => (p.1, p.2.unjoin)) else v.groups }
  let back := (s.cores.filter (fun p => p.2.units.any (fun q => q.2.home == home && q.2.children == 1))).map Prod.fst
  let s := { s with
    cores := s.cores.map (fun p => (p.1, unj { p.2 with units := p.2.units.map (fun q => (q.1, f q.2)) })),
    launches := s.launches.map (fun p => (p.1, { p.2 with saved := p.2.saved.map sv })),
    pending := s.pending.map (fun p => { p with saved := p.saved.map sv }) }
  back.foldl State.flush s
/-- Write every dirty line of a region of virtual memory home, from whichever core holds it (R53, R243, R346). -/
def State.cleanRegion (s : State) (root : Nat) (r : Nat × Nat) : State :=
  let va := r.1 % 2 ^ 56
  let pages := s.pagesIn 0x10000 root (va + r.2) (r.2 / 65536 + 2) va
  s.cores.foldl (fun s p => ((p.2.lines.map Prod.fst).filter (lineIn s.canon pages va (va + r.2))).foldl
    (fun s k => s.cleanLine p.1 k) s) s
/-- An edge is served: its regions are cleaned, then the wait count of its consumer falls, now or when it is placed (R53, R346). Every
scope of an edge reaches the home slices, so the cleaning is the same for each (log 3). -/
def State.edgeDone (s : State) (root : Nat) (e : Edge) : State :=
  let s := e.regions.foldl (fun s r => s.cleanRegion root r) s
  match s.xlatNow 0x10000 root (e.consumer % 2 ^ 56) with
  | .error _ => s
  | .ok (leaf, size) =>
    let pa := leafPa leaf size (e.consumer % 2 ^ 56)
    match s.launches.find? (fun p => p.2.lpb.pa == pa && p.2.waits != 0) with
    | some p => s.modLaunch p.1 (fun x => { x with waits := x.waits - 1 })
    | none => { s with decs := s.decs ++ [pa] }
/-- May an edge be served now: its decrement finds its consumer placed, or room in the store (R346)? -/
def State.edgeRoom (s : State) (root : Nat) (e : Edge) : Bool := (s.edgeDone root e).decs.length ≤ max 4096 s.decs.length
/-- Serve the edges of a retiring producer that can be served: what is left waits for the store (R346). -/
def State.serveEdges (s : State) (x : Launch) : State × List Edge :=
  x.edges.foldl (fun (a : State × List Edge) e =>
    if a.1.edgeRoom x.lpb.root e then (a.1.edgeDone x.lpb.root e, a.2) else (a.1, a.2 ++ [e])) (s, [])
/-- Can the end of a launch go on: no edge is left, or one that can be served (R346)? -/
def State.edgesRoom (s : State) (x : Launch) : Bool := (s.serveEdges x).2.length < x.edges.length || x.edges.isEmpty

/-- At the target of a launch its end begins with the cleaning of every path that held its writes (R52). -/
def State.targetCheck (s : State) (k : Nat) : State :=
  match kget k s.launches with
  | none => s
  | some x => if x.retired < x.target || x.ending then s else (s.cleanLaunch k).modLaunch k (fun x => { x with ending := true })
/-- The retired counter of a launch rises (R359). -/
def State.unitRetired (s : State) (l : Nat) : State :=
  let k := s.countsIn l
  (s.modLaunch k (fun x => { x with retired := x.retired + 1 })).targetCheck k

/-- The counters set to the snapshot, where it is valid (R367). -/
def Stats.roll (t : Stats) : Stats :=
  match t.snap with
  | some (p, c, n) => { t with prims := p, culled := c, samples := n }
  | none => t
/-- Does an array, a drain unit or a rotator hold a command of one of some launches (R390 step 4)? -/
def State.enginesHold (s : State) (ks : List Nat) : Bool :=
  s.cores.any (fun p => (p.2.arrayQ ++ p.2.drainQ ++ p.2.rotQ).any (fun q => ks.contains q.launch))
/-- Steps 5 to 9 of a cancellation (R390): region states are freed, the statistics set rolls back, dictionary slots leave use, the signal
word is written with the reason, and the fault vector is raised. A cancelled FORK child lowers its parent's child count, and what is left
of a SPAWN child leaves its issuer's target. DESIGN CHOICE, log 81. -/
def State.cancelEnd (s : State) (x : Launch) (ks : List Nat) (reason left : Nat) : State :=
  let s := { s with stats := kmod x.lpb.ident Stats.roll s.stats }
  let s := ks.foldl (fun s j => s.freeLaunch j) s
  let s := ((if x.lpb.sigVa == 0 then s else s.signalOr x.lpb (0xC000000000000000 + reason))).raiseMsix 0
  match x.parent, x.spawnOf with
  | some h, _ => s.childDone h
  | none, some p => (s.modLaunch p (fun y => { y with target := y.target - left })).targetCheck p
  | none, none => s
/-- May LAUNCH_SIGNAL of a launch go on: its end has begun and an edge can be served, or it is cancelled and the engines are done with
it? -/
def State.endable (s : State) (x : Launch) : Bool :=
  match x.cancel with
  | some c => !c.1.isEmpty && !(s.enginesHold c.1)
  | none => x.ending && s.edgesRoom x

/-- LAUNCH_SIGNAL (R52, R346, R409, R452): the edges of the launch are served; those whose decrement finds the store full wait. Then the
signal value is written at system scope, a message follows, and the launch is gone. A forked child has no signal: it lowers its parent's
child count. Of a cancelled launch the end follows once its accepted commands have completed (R390). -/
def execLaunchSignal (launch : Nat) (s : State) : Out :=
  match kget launch s.launches with
  | none => .next s
  | some x =>
    let v := s.serveEdges x
    match x.cancel with
    | some c => .next (if s.endable x then s.cancelEnd x c.1 c.2.1 c.2.2 else s)
    | none =>
    if !x.ending then .next s
    else if !v.2.isEmpty then .next (v.1.modLaunch launch (fun y => { y with edges := v.2 }))
    else
      let s := v.1
      let r : State := match x.parent with
        | some h => s.childDone h
        | none =>
          match s.signal x.lpb x.lpb.sigVal with
          | some s => if x.lpb.msix then s.raiseMsix x.lpb.vector else s
          | none => s.signalLost x.lpb
      .next (r.freeLaunch launch)

/-- LAUNCH_REJECT_SIGNAL (R312): a rejected launch of a launch queue. -/
def State.rejectSignal (s : State) (l : Lpb) (code : Nat) : State := (s.signalOr l (2 ^ 63 + code)).raiseMsix 0

end Sys2Proof.Machine
end

