-- ==== Sys2Proof/Machine/Queue.lean ====
section
/-! DEFINITION. Queue instructions (R320 to R328): FORK, JOIN, SPAWN, TASKEND, LAUNCH, QPUSH, QCFG, RGET and RPUT, and the
events that complete them. -/

namespace Sys2Proof.Machine

/-! ### Reading the LPB (R322) -/

/-- What the read and the validation of an LPB at issue come to. -/
inductive LpbRead where
  | stop (c : Chk)                        -- walks wanted, or a suspension
  | bad (code : Nat)                      -- a reject code of R312
  | ok (l : Lpb) (t : Option Topb) (e : List Edge)

/-- The bytes of [va, va+n) at package scope through the issuer's tables; none on any fault (R322). -/
def State.lpbImage (s : State) (va n : Nat) : Option (List Byte) := s.readV s.cur.core s.root s.priv va n
/-- What the read of an LPB at issue does (R216, R239): the issuer's own writes go home, and open exact-sum words that the read
touches settle. -/
def State.lpbRead (s : State) (va : Nat) : State :=
  let s := (s.flush s.cur.core).settleV s.cur.core s.root va 384
  s.settleParts (s.lpbImage va 384)
/-- Read and validate the LPB at a VA (R312, R322): a not-present page suspends, any other fault is code 0x20. -/
def State.readLpb (s : State) (va : Nat) (child : Bool) : LpbRead :=
  let l := s.lookups va 384
  match l.filterMap (fun p => if p.2.isNone then some p.1 else none) with
  | p :: r => .stop (.walk (p :: r))
  | [] =>
    match l.find? (fun p => match p.2 with | some (.error .notPresent) => true | _ => false) with
    | some p => .stop (.suspend p.1 .r)
    | none =>
      let s := s.lpbRead va
      let pa := match s.xlatNow s.cur.core s.root (va % 2 ^ 56) with
        | .ok (leaf, size) => leafPa leaf size (va % 2 ^ 56)
        | .error _ => 0
      let img := if va % 128 != 0 then none else s.lpbImage va 384
      match s.validate img va pa (some (s.root, s.priv)) child with
      | .error c => .bad c
      | .ok (l, t, e) => .ok l t e

/-- The LPB address of an operand. -/
def State.lpbVa (s : State) (sL : SReg) : Nat := (s.sr sL.val).toNat
/-- The launch that an issuing group's SPAWN counts in: under an inline child, that of the forking group (log 15). -/
def State.homeLaunch (s : State) : Nat :=
  s.countsIn ((s.curGrp.inline.getLast?.map InlineFrame.launch).getD s.curGrp.launch)
/-- Level of the issuing launch. -/
def State.curLevel (s : State) : Nat := (s.curLaunch.map Launch.level).getD 0
/-- Is counter 6 at its limit (R151)? -/
def State.ctr6Full (s : State) : Bool := s.curGrp.ctrs.getD 6 0 ≥ 65535
/-- A group's acceptance by a queue, 40 clk on (R322). -/
def State.accept (s : State) (launch dest : Nat) : State :=
  s.modC (fun c => { c with accepts := c.accepts ++ [(launch, s.cur.gid, c.clk + 40, dest)] })
/-! ### FORK (R36 to R38, R322) -/

/-- Where a FORK's child goes (R37). -/
inductive ForkTo where
  | queue | inline | spill | wait | depth | full
deriving DecidableEq, Repr

/-- Entries standing in the overflow area of the issuer's launch. -/
def State.ovfUsed (s : State) : Nat := ((kget s.curGrp.launch s.ovf).getD []).length
/-- The fork queue's or the overflow mode's verdict (R37). A FORK by an inline child goes by the overflow mode and area of the
child's own LPB, and by the depth limit of the group that runs it: the spec does not say whose LPB applies. DESIGN CHOICE, log 64. -/
def State.forkTo (s : State) (l : Lpb) : ForkTo :=
  let me := s.lpb
  if s.forkCount (coreDie s.cur.core) < 1024 then .queue
  else if me.spill then (if s.ovfUsed < me.ovfEntries then .spill else .full)
  else if l.groups != 1 then .wait
  else if s.curGrp.inlineDepth < s.curGrp.inlineLimit then .inline else .depth
/-- The next entry of the overflow area: its VA. -/
def State.ovfSlot (s : State) : Nat :=
  let me := s.lpb
  (me.ovfVa + 16 * (((kget s.curGrp.launch s.ovfHead).getD 0 + s.ovfUsed) % me.ovfEntries)) % 2 ^ 56
/-- The launch-reject fault (R322, R373). -/
def rejectTrap (code : Nat) : TrapInfo := trapOf 0x1E 4 3 code 0 0
/-- Checks of FORK. -/
def chkFork (sL : SReg) (s : State) : Chk :=
  match s.readLpb (s.lpbVa sL) true with
  | .stop c => c
  | .bad c => .trap (rejectTrap c)
  | .ok l _ _ =>
    match s.forkTo l with
    | .depth => .trap (trapOf 0x0B 4 0 s.curGrp.inlineDepth 0 0)
    | .full => .trap (trapOf 0x0C 4 0 s.lpb.ovfEntries 0 0)
    | .spill => s.rangeChk 4 s.ovfSlot 16 .w
    | _ => .ok
/-- Holds of FORK (R37, R151). -/
def holdFork (sL : SReg) (s : State) : Bool × State :=
  (s.ctr6Full || s.curUnit.children ≥ 65535 ||
    (match s.readLpb (s.lpbVa sL) true with | .ok l _ _ => s.forkTo l == .wait | _ => false), s)
/-- The child launch of a FORK. -/
def State.forkChild (s : State) (l : Lpb) (t : Option Topb) (e : List Edge) : Launch :=
  { s.mkLaunch (childLpb l s.curLevel) t e with level := s.curLevel, parent := some s.curUnit.home, issuer := s.lpb.va }
/-- The 16 bytes of an overflow entry: the spec gives no layout, so they are open (log 6). -/
def State.ovfBytes (s : State) : List Byte := leBytes 16 (Config.choice s.free)
/-- FORK: the child is enqueued, written to the overflow area, or run at once (R37, R38). The entry's write follows a
package-scope fence (R239). -/
def effFork (sL : SReg) (s : State) : State :=
  match s.readLpb (s.lpbVa sL) true with
  | .ok l t e =>
    let x := s.forkChild l t e
    let dst := s.forkTo l
    let va := s.ovfSlot
    let s := (s.lpbRead (s.lpbVa sL)).ctrUp 6 1
    let up (s : State) : State := s.modU (fun u => { u with children := u.children + 1 })
    match dst with
    | .inline =>
      let r := s.addLaunch { x with parent := none, started := true }
      let g := s.curGrp
      let f : InlineFrame := { slot0 := g.slot0, slot1 := g.slot1, dict := g.dict, seg := g.seg, pool := g.pool,
                               top := g.stackTop, unitIx := 0, launch := g.launch }
      r.2.inlineStart r.1 0 f
    | .spill =>
      let k := s.curGrp.launch
      let b := s.ovfBytes
      let r := (up { s with free := s.free + 1 }).addLaunch { x with forkDie := some (coreDie s.cur.core), inOvf := true }
      let s := { r.2 with ovf := kset k (((kget k r.2.ovf).getD []) ++ [r.1]) r.2.ovf }
      ((s.writeV s.cur.core s.root s.priv va b).getD s).accept r.1 0
    | _ =>
      let r := (up s).addLaunch { x with forkDie := some (coreDie s.cur.core) }
      r.2.accept r.1 0
  | _ => s

/-! ### SPAWN and LAUNCH (R322) -/

/-- Checks of SPAWN. -/
def chkSpawn (sL : SReg) (s : State) : Chk :=
  match s.readLpb (s.lpbVa sL) true with
  | .stop c => c
  | .bad c => .trap (rejectTrap c)
  | .ok _ _ _ => .ok
/-- SPAWN: part of the issuer's launch, whose target rises by the grid size (R52, R322). -/
def effSpawn (sL : SReg) (s : State) : State :=
  match s.readLpb (s.lpbVa sL) true with
  | .ok l t e =>
    let k := s.homeLaunch
    let x := { s.mkLaunch (childLpb l s.curLevel) t e with level := s.curLevel, spawnOf := some k, issuer := s.lpb.va }
    let r := (((s.lpbRead (s.lpbVa sL)).ctrUp 6 1).modLaunch k (fun y => { y with target := y.target + l.grid })).addLaunch x
    r.2.accept r.1 0
  | _ => s
/-- Checks of LAUNCH: a failed check of the LPB is no fault. -/
def chkLaunch (sL : SReg) (s : State) : Chk :=
  match s.readLpb (s.lpbVa sL) false with
  | .stop c => c
  | _ => .ok
/-- LAUNCH: independent, at its own level; the status lands in sD as a result of counter 6 (R322). -/
def effLaunch (sD sL : SReg) (s : State) : State :=
  match s.readLpb (s.lpbVa sL) false with
  | .ok l t e =>
    let r := ((s.lpbRead (s.lpbVa sL)).ctrUp 6 1).addLaunch (s.mkLaunch l t e)
    r.2.accept r.1 (sD.val + 1)
  | .bad c =>
    let s := ((s.lpbRead (s.lpbVa sL)).ctrUp 6 1).takeWalkF s.cur.core s.root (s.lpbVa sL)
    s.later 40 0 (some 6) 0 0 false [.s sD.val (BitVec.ofNat 64 c)]
  | .stop _ => s
/-- Holds of SPAWN and LAUNCH (R151). -/
def holdCtr6 (s : State) : Bool × State := (s.ctr6Full, s)

/-- QUEUE_ACCEPT (R322): counter 6 falls once the entry is in its queue or overflow area; a full task queue makes it
wait. The launch enters its queue now, which is the time its units age from (R316). -/
def execQueueAccept (core id : Nat) (s : State) : Out :=
  match (s.core core).accepts.find? (fun p => p.1 == id) with
  | none => .next s
  | some (_, g, due, dest) =>
    if (s.core core).clk < due then .next s
    else
      let room := match kget id s.launches with
        | some x => x.parent.isSome || s.taskRoom x
        | none => true
      if !room then .next s
      else
        let s := s.modCore core (fun c => { c with accepts := c.accepts.filter (fun p => p.1 != id) })
        let s := s.modLaunch id (fun x => { x with queued := true, t0 := s.ns })
        if dest = 0 then .next (s.ctrDown core g 6)
        else .next { (s.modCore core (fun c => { c with sectors := c.sectors ++
            [{ id := s.fresh, due := c.clk + 1, gid := g, writes := [.s (dest - 1) 0], pc := 0, pa := 0, bad := false,
               ctr := some 6, slots := 0, arr := c.clk + 1, fixed := false, wall := 0, tick := 0 }] })) with fresh := s.fresh + 1 }

/-! ### JOIN and TASKEND (R36, R323) -/

/-- The inline-depth fault of an inline child (R37). -/
def chkInline (s : State) : Chk := .when (!s.curGrp.inline.isEmpty) (trapOf 0x0B 4 0 s.curGrp.inlineDepth 0 0)
/-- JOIN is held until counter 6 of the group is zero (R323). -/
def holdJoin (s : State) : Bool × State := (s.curGrp.ctrs.getD 6 0 != 0, s)
/-- JOIN: with no children the stream goes on, behind a fence at package scope (R239). Otherwise it waits; once every group of the
workgroup has joined, the workgroup stops for its save (R36). A JOIN by either PC slot is the group's, and stops the other slot with
it: the spec does not say which slots must have executed it, nor that the end of the last group that runs, by EXIT or TASKEND, completes a
JOIN of the others: here the workgroup stops only as a JOIN executes. DESIGN CHOICE, log 64. -/
def effJoin (s : State) : State :=
  if s.curUnit.children = 0 then s.flush s.cur.core
  else
    let s := (s.modG (fun g => { g with joined := true })).modS (fun p => { p with wait := .saving })
    let c := s.curCore
    if s.curUnit.gids.all (fun g => (c.group g).joined || (c.group g).ended) then
      let gs := s.curUnit.gids
      let s := s.modC (fun c => gs.foldl (fun c g => c.modGroup g (fun x => { x with halt := .saving })) c)
      s.modU (fun u => { u with joining := true })
    else s
/-- TASKEND: an EXIT of every lane of both slots and every spilled path, or the return of an inline child (R323). -/
def effTaskend (s : State) : State :=
  if !s.curGrp.inline.isEmpty then s.inlineReturn
  else
    let s := s.modG (fun g => { g with
      slot0 := { PcSlot.empty with fmt := g.slot0.fmt }, slot1 := { PcSlot.empty with fmt := g.slot1.fmt },
      stackTop := 0, ended := true })
    (s.unitCheck s.cur.core s.cur.gid).retireAsk s.cur.core s.cur.gid

/-! ### QPUSH.t (R324, R408) -/

/-- A launch queue. -/
def State.lq (s : State) (n : Nat) : LQueue := (kget n s.lqs).getD LQueue.start
/-- May a queue be pushed to: enabled and not host-fed (R408)? -/
def LQueue.pushable (q : LQueue) : Bool := q.enable && q.fed
/-- Entries standing in a launch queue. -/
def LQueue.used (q : LQueue) : Nat := (q.tail + 2 ^ 32 - q.head) % 2 ^ 32
/-- Write an entry at the tail and advance it: a package-scope atomic write (R239, R408). -/
def State.lqPut (s : State) (n pa : Nat) : State :=
  let q := s.lq n
  { (s.homeWrite (q.base + 8 * (q.tail % 2 ^ q.n)) (leBytes 8 pa)) with
    lqs := kset n { q with tail := (q.tail + 1) % 2 ^ 32 } s.lqs }
/-- QPUSH.t: the queue fault of a disabled or host-fed queue is deferred (R324, R408). -/
def effQpushT (sL : SReg) (n : Fin 64) (s : State) : State :=
  let q := s.lq n.val
  if !q.pushable then
    s.modG (fun g => { g with deferred := g.deferred ++ [{ trapOf 0x1F 4 1 n.val 0x25 0 with strm := s.cur.slot }] })
  else
    let va := s.lpbVa sL % 2 ^ 56
    let pa := match s.xlatNow s.cur.core s.root va with
      | .ok (leaf, size) => leafPa leaf size va
      | .error _ => 0
    let s := (s.flush s.cur.core).ctrUp 6 1
    if 2 ^ q.n ≤ q.used || s.pushWait.any (fun p => p.1 == n.val) then
      { s with pushWait := s.pushWait ++ [(n.val, s.cur.core, s.cur.gid, pa)] }
    else (s.lqPut n.val pa).later 0 0 (some 6) 0 0 false []
/-- Checks of QPUSH.t: the translation of the LPB's address (R324). -/
def chkQpushT (sL : SReg) (n : Fin 64) (s : State) : Chk :=
  if !(s.lq n.val).pushable then .ok else s.rangeChk 4 (s.lpbVa sL) 1 .r
/-- A place has freed in launch queue n: the oldest push that waits for it is made (R324). -/
def State.pushServe (s : State) (n : Nat) : State :=
  match s.pushWait.find? (fun p => p.1 == n) with
  | none => s
  | some (_, c, g, pa) =>
    if 2 ^ (s.lq n).n ≤ (s.lq n).used then s
    else
      let s := (s.lqPut n pa).ctrDown c g 6
      { s with pushWait := s.pushWait.eraseP (fun p => p.1 == n) }

/-! ### QPUSH.r, role queues (R324, R327, R328) -/

/-- The queue fault of a role queue or ring (R326, R328). -/
def queueTrap (n op : Nat) : TrapInfo := trapOf 0x1F 4 1 n op 0
/-- Has role queue n no free entry, counting entries still being written and those popped in this clk? -/
def State.rqFull (s : State) (n : Nat) : Bool :=
  let q := s.curUnit.rq n
  rqDepth q.desc ≤ q.count + q.coming.length + (if q.freed.1 == s.curCore.clk then q.freed.2 else 0)
/-- Reserve an entry of queue n and write its bytes k clk on; entries become poppable in push order (R324). -/
def State.rqPush (s : State) (n k : Nat) (b : List Byte) : State :=
  let due := s.curCore.clk + k
  (s.modQ n (fun q => { q with
    coming := q.coming ++ [(q.coming.foldl (fun a p => max a p.1) due, s.cur.gid, b)] })).ctrUp 6 1
/-- Banks of the source of an A-source push. -/
def State.pushSrc (s : State) (n : Nat) (sA : SReg) : List Nat :=
  spanBanks 2 (s.sr sA.val).toNat (rqBytes (s.curUnit.rq n).desc)
/-- Checks of QPUSH.r. -/
def chkQpushR (n : Fin 4) (s : State) : Chk := .when (!(rqValid (s.curUnit.rq n.val).desc)) (queueTrap n.val 0x25)
/-- Checks of an A source: its extent, and DARK banks (R209, R122). -/
def chkQpushA (n : Fin 4) (sA : SReg) (s : State) : Chk :=
  let o := (s.sr sA.val).toNat
  Chk.first [chkQpushR n s, .when (bufSize 2 < o + rqBytes (s.curUnit.rq n.val).desc) (trapOf 0x10 4 2 o 0 0),
    s.darkScratch 4 2 (s.pushSrc n.val sA),
    (match s.curCore.badBytes 2 o (rqBytes (s.curUnit.rq n.val).desc) with
     | some b => .trap (trapOf 0x14 4 2 s.curSlot.pc.toNat b 0)
     | none => .ok)]
/-- Holds of QPUSH.r (R324, R151). -/
def holdQpushR (n : Fin 4) (s : State) : Bool × State := (s.rqFull n.val || s.ctr6Full, s)
/-- Holds of an A source: a source bank held in mode W (R210). -/
def holdQpushA (n : Fin 4) (sA : SReg) (s : State) : Bool × State :=
  let r := s.curCore.conflict ((s.pushSrc n.val sA).map (fun b => (b, 0)))
  (r || (holdQpushR n s).1, if r then s.bumpClk s.cur.core 9 else s)
/-- QPUSH.r from the A buffer: poppable 8 clk after issue (R324). -/
def effQpushA (n : Fin 4) (sA : SReg) (s : State) : State :=
  s.rqPush n.val 8 (s.curCore.bufRead 2 (s.sr sA.val).toNat (rqBytes (s.curUnit.rq n.val).desc))
/-- QPUSH.r from a register row: poppable at t + 4 (R324). -/
def effQpushReg (n : Fin 4) (m : Fin 16) (i : Fin 32) (s : State) : State :=
  let b := (List.range 32).flatMap (fun j => leBytes 4 (s.curGrp.elem (elemKey m.val i.val j)).toNat)
  s.rqPush n.val 4 (b.take (rqBytes (s.curUnit.rq n.val).desc))

/-- ROLE_QUEUE_ENTRY_READY (R324, R327): the oldest entry of queue q of the core's gang is written and becomes
poppable; counter 6 of its pusher falls. A bank under the entry that is not BRIGHT wakes first, and the row is written as the wake
completes (R117, R122). `q` is the unit's key times 4 plus the queue. -/
def execRoleQueueEntryReady (core q : Nat) (s : State) : Out :=
  let u := (s.core core).unit (q / 4)
  let x := u.rq (q % 4)
  match x.coming with
  | [] => .next s
  | (due, g, b) :: r =>
    let bs := (spanBanks 2 (rqEntry x.desc (x.head + x.count)) b.length).filter (fun i => !((s.core core).sbank i).ready)
    if (s.core core).clk < due then .next s
    else if !bs.isEmpty then
      .next (s.modCore core (fun c =>
        let w := bs.foldl Core.wakeScratch c
        let due := bs.foldl (fun a i => max a ((w.sbank i).wakeAt.getD 0)) (c.clk + 1)
        w.modUnit (q / 4) (fun u => { u with queues := u.queues.set (q % 4) { x with coming := (due, g, b) :: r } })))
    else
      let s := s.modCore core (fun c => c.bufWrite 2 (rqEntry x.desc (x.head + x.count)) b)
      let s := s.modCore core (fun c => c.modUnit (q / 4) (fun u =>
        { u with queues := u.queues.set (q % 4) { x with count := x.count + 1, coming := r } }))
      .next (s.ctrDown core g 6)

/-! ### QCFG (R325) -/

/-- A half of a status word; what does not fit 16 bits, or is of no queue, is open (log 6). -/
def fit16 (free : Nat) (x : Option Nat) : Nat :=
  match x with
  | some v => if v < 2 ^ 16 then v else Config.choice free % 2 ^ 16
  | none => Config.choice free % 2 ^ 16
/-- Occupancy and capacity of a selector (R325). -/
def State.qStatus (s : State) (sel : Nat) : Option Nat × Option Nat :=
  if sel < 8 then (some (s.taskCount sel (!s.onShader)), some 256)
  else if sel = 8 then (some (s.forkCount (coreDie s.cur.core)), some 1024)
  else if sel = 9 then (some s.ovfUsed, some s.lpb.ovfEntries)
  else
    let q := s.curUnit.rq (sel - 10)
    if rqValid q.desc then (some (q.count + q.coming.length), some (rqDepth q.desc)) else (some 0, none)
/-- QCFG.rd. -/
def effQcfgRd (sD : SReg) (sel : Fin 16) (s : State) : State :=
  let x := s.qStatus sel.val
  let v := fit16 s.free x.1 + fit16 (s.free + 1) x.2 * 2 ^ 16
  { s with free := s.free + 2 }.emit 4 2 [.s sD.val (BitVec.ofNat 64 v)]
/-- Checks of QCFG.rq: the new descriptor beside the others (R325, R312 code 0x27). -/
def chkQcfgRq (n : Fin 4) (sC : SReg) (s : State) : Chk :=
  let u := s.curUnit
  .when (!(descriptorsOk 1 u.rings ((List.range 4).map (fun i => if i = n.val then (s.sr sC.val).toNat else (u.rq i).desc))))
    (queueTrap n.val 0x26)
/-- Holds of QCFG.rq: until the queue is empty and no push is in flight (R325). -/
def holdQcfgRq (n : Fin 4) (s : State) : Bool × State :=
  let q := s.curUnit.rq n.val
  (q.count != 0 || !q.coming.isEmpty, s)
/-- QCFG.rq. -/
def effQcfgRq (n : Fin 4) (sC : SReg) (s : State) : State := s.modQ n.val (fun q => { q with desc := (s.sr sC.val).toNat })

/-! ### Stage rings (R326) -/

/-- Slots of a ring. -/
def ringSlots (d : Nat) : Nat := fld d 32 6 + 1
/-- Bytes of a slot. -/
def ringBytes (d : Nat) : Nat := 16 * (fld d 40 12 + 1)
/-- The descriptor of a ring of the issuing gang. -/
def State.ring (s : State) (r : Nat) : Nat := s.curUnit.rings.getD r 0
/-- The slot that a slot number names. -/
def State.ringSlot (s : State) (r : Nat) (sS : SReg) : Nat := (s.sr sS.val).toNat % ringSlots (s.ring r)
/-- Checks of RGET and RPUT. -/
def chkRing (ring : Fin 8) (op : Nat) (s : State) : Chk := .when (!(bitN (s.ring ring.val) 63)) (queueTrap ring.val op)
/-- The phase that a bundle in this clk sees: flips of this clk and of the clk before wait in their send stage, so that it sees the old
value, one of the two that R326 allows (R326, R397). -/
def State.phaseSeen (s : State) (r i : Nat) : Bool :=
  xor (bitN (s.curUnit.phases.getD r 0) i)
    (s.curUnit.flips.countP (fun p => p.2 == r * 64 + i && s.curCore.clk ≤ p.1 + 1) % 2 == 1)
/-- Holds of RGET: until the slot shows the expected phase. -/
def holdRget (full : Bool) (ring : Fin 8) (sS : SReg) (s : State) : Bool × State :=
  (s.phaseSeen ring.val (s.ringSlot ring.val sS) != full, s)
/-- RGET (R326): the phase read, then a core-scope fence, which asks nothing of the core's own path. -/
def effRget (sD : SReg) (ring : Fin 8) (sS : SReg) (s : State) : State :=
  let d := s.ring ring.val
  s.emit 4 1 [.s sD.val (BitVec.ofNat 64 (fld d 0 22 + s.ringSlot ring.val sS * ringBytes d))]
/-- RPUT (R326): flips the phase bit of its slot. -/
def effRput (ring : Fin 8) (sS : SReg) (s : State) : State :=
  let i := s.ringSlot ring.val sS
  let clk := s.curCore.clk
  s.modU (fun u =>
    let w := u.phases.getD ring.val 0
    { u with phases := u.phases.set ring.val (putFld w i 1 (1 - fld w i 1)),
             flips := u.flips.filter (fun p => p.1 + 1 ≥ clk) ++ [(clk, ring.val * 64 + i)] })

/-! ### The instructions, alone in their bundle -/

/-- FORK. -/
def execFork (g : Guard) (sL : SReg) (s : State) : Out :=
  s.issueSolo (.fork g sL) { chk := chkFork sL, hold := holdFork sL, eff := effFork sL }
/-- JOIN. -/
def execJoin (g : Guard) (s : State) : Out := s.issueSolo (.join g) { chk := chkInline, hold := holdJoin, eff := effJoin }
/-- SPAWN. -/
def execSpawn (g : Guard) (sL : SReg) (s : State) : Out :=
  s.issueSolo (.spawn g sL) { chk := chkSpawn sL, hold := holdCtr6, eff := effSpawn sL }
/-- TASKEND. -/
def execTaskend (g : Guard) (s : State) : Out := s.issueSolo (.taskend g) { eff := effTaskend }
/-- LAUNCH. -/
def execLaunch (g : Guard) (sD sL : SReg) (s : State) : Out :=
  s.issueSolo (.launch g sD sL) { chk := chkLaunch sL, hold := holdCtr6, eff := effLaunch sD sL }
/-- QPUSH.t. -/
def execQpushT (g : Guard) (sL : SReg) (n : Fin 64) (s : State) : Out :=
  s.issueSolo (.qpushT g sL n) { chk := chkQpushT sL n, hold := holdCtr6, eff := effQpushT sL n }
/-- QPUSH.r from the A buffer. -/
def execQpushRBuffer (g : Guard) (n : Fin 4) (sA : SReg) (s : State) : Out :=
  s.issueSolo (.qpushRBuffer g n sA)
    { chk := chkQpushA n sA, hold := holdQpushA n sA, banks := fun s => s.pushSrc n.val sA, eff := effQpushA n sA }
/-- QPUSH.r from a register row. -/
def execQpushRRegister (g : Guard) (n : Fin 4) (m : Fin 16) (i : Fin 32) (s : State) : Out :=
  s.issueSolo (.qpushRRegister g n m i) { chk := chkQpushR n, hold := holdQpushR n, eff := effQpushReg n m i }
/-- QCFG.rd. -/
def execQcfgRd (g : Guard) (sD : SReg) (sel : Fin 16) (s : State) : Out :=
  s.issueSolo (.qcfgRd g sD sel) { eff := effQcfgRd sD sel }
/-- QCFG.rq. -/
def execQcfgRq (g : Guard) (n : Fin 4) (sC : SReg) (s : State) : Out :=
  s.issueSolo (.qcfgRq g n sC) { chk := chkQcfgRq n sC, hold := holdQcfgRq n, eff := effQcfgRq n sC }
/-- RGET. -/
def execRget (g : Guard) (full : Bool) (sD : SReg) (ring : Fin 8) (sS : SReg) (s : State) : Out :=
  s.issueSolo (.rget g full sD ring sS) { chk := chkRing ring 0x27, hold := holdRget full ring sS, eff := effRget sD ring sS }
/-- RPUT. -/
def execRput (g : Guard) (ring : Fin 8) (sS : SReg) (s : State) : Out :=
  s.issueSolo (.rput g ring sS) { chk := chkRing ring 0x28, eff := effRput ring sS }

end Sys2Proof.Machine
end

