-- ==== Sys2Proof/Machine/Table.lean ====
section
/-! DEFINITION. Table instructions (R329 to R347): dictionaries and their cache, TSTLD, the operating class table, and
TLBINV. -/

namespace Sys2Proof.Machine

/-- Hold the issuing stream for n clk and a free delay (log 5), and write its scalar results as it resumes (R333). -/
def State.answer (s : State) (n : Nat) (ws : List Wr) : State :=
  let extra := Config.latency s.free
  let t := s.curCore.clk + n + extra
  let s := { (s.modC (fun c => { c with sectors := c.sectors ++
      [{ id := s.fresh, due := t, gid := s.cur.gid, writes := ws, pc := 0, pa := 0, bad := false, ctr := none, slots := 0,
         arr := t, fixed := false, wall := 0, tick := 0 }] })) with
    fresh := s.fresh + 1, free := s.free + 1 }
  s.modS (fun p => { p with wait := .untilClk t })

/-! ### Dictionaries (R330 to R335) -/

/-- Reads at package scope through the issuer's translation: any fault gives none. -/
def State.readIss (s : State) (va n : Nat) : Option (List Byte) := s.readV s.cur.core s.root s.priv va n
/-- A physical address of the issuer's translation. -/
def State.paIss (s : State) (va : Nat) : Nat :=
  match s.xlatNow s.cur.core s.root (va % 2 ^ 56) with
  | .ok (leaf, size) => leafPa leaf size (va % 2 ^ 56)
  | .error _ => 0

/-- Entry i of an image as a number (R58). -/
def dictEntry (b : List Byte) (i : Nat) : Nat := imgNat b (256 + 48 * i) 48
/-- The header checks of an image: 0x0C, then 0x0B (R330). -/
def dictHeader (b : List Byte) : Option Nat :=
  let kind := imgNat b 4 1
  let role := imgNat b 5 1
  let len := imgNat b 8 4
  if fld (imgNat b 6 1) 1 7 != 0 || imgNat b 7 1 != 0 || imgNat b 12 52 != 0 || imgNat b 192 64 != 0 || 1 < kind
      || role == 0 || 4 < role || (role == 1) != (kind == 0) || len == 0 || len % 2 == 1 then some 0x0C
  else if imgNat b 0 4 == 0 || 65280 < imgNat b 0 4 then some 0x0B
  else none
/-- The reject word of an image that was read, 0 when it is accepted (R76). -/
def dictWord (b : List Byte) : Nat :=
  match dictHeader b with
  | some c => rejectWord c 7 0 0
  | none =>
    ((List.range (imgNat b 0 4)).findSome? (fun i =>
      checkBundle (roleOf (imgNat b 5 1)) (bitN (imgNat b 6 1) 0) i (dictEntry b i))).getD 0
/-- The image that DICTLD reads: the header, then its entries where the header is valid (R334). -/
def State.dictImage (s : State) (va : Nat) : Option (List Byte) :=
  if va % 256 != 0 then none
  else match s.readIss va 256 with
    | none => none
    | some h => if (dictHeader h).isSome then some h else (s.readIss (va + 256) (48 * imgNat h 0 4)).map (h ++ ·)
/-- What reading that image settles (R216). -/
def State.settleDict (s : State) (va : Nat) : State :=
  if s.exact.isEmpty || va % 256 != 0 then s
  else
    let s := s.settleV s.cur.core s.root va 256
    match s.readIss va 256 with
    | none => s
    | some h => if (dictHeader h).isSome then s else s.settleV s.cur.core s.root (va + 256) (48 * imgNat h 0 4)
/-- The slot descriptor of an accepted image. -/
def State.dictOf (s : State) (va : Nat) (b : List Byte) : Dict :=
  { va := va, frames := (List.range ((256 + 48 * imgNat b 0 4 + 255) / 256)).map (fun i => s.paIss (va + 256 * i)),
    count := imgNat b 0 4, segLen := imgNat b 8 4, tile := imgNat b 4 1 == 1, role := imgNat b 5 1,
    priv := bitN (imgNat b 6 1) 0, pool := (List.range 32).map (fun i => BitVec.ofNat 32 (imgNat b (64 + 4 * i) 4)) }
/-- Drop every cache entry of a slot in every core. -/
def State.dropDict (s : State) (n : Nat) : State :=
  { s with cores := s.cores.map (fun p => (p.1, { p.2 with
      dcache := sdrop (n * 65536) 65536 p.2.dcache, dwait := p.2.dwait.filter (fun q => q.1 / 65536 != n) })) }
/-- The table fault of a slot in use (R334, R335). -/
def chkDict (n : Nat) (s : State) : Chk := .when (s.dictInUse n) (trapOf 0x20 4 1 n 0 0)
/-- DICTLD (R334). -/
def effDictld (sD sI : SReg) (n : Nat) (s : State) : State :=
  let va := (s.sr sI.val).toNat
  let s := (s.flush s.cur.core).settleDict va
  match s.dictImage va with
  | none => s.answer 40 [.s sD.val (BitVec.ofNat 64 (rejectWord 0x0C 7 0 0))]
  | some b =>
    let w := dictWord b
    if w != 0 then s.answer 40 [.s sD.val (BitVec.ofNat 64 w)]
    else
      let d := s.dictOf va b
      let s := s.dropDict n
      ({ s with dicts := kset n d s.dicts }).answer (40 + 4 * d.count) [.s sD.val 0]
/-- DICTINV (R335). -/
def effDictinv (n : Nat) (s : State) : State := ({ (s.dropDict n) with dicts := kdel n s.dicts }).answer 1 []

/-- Where byte o of an installed image stands, by its recorded frames (R332). -/
def Dict.bytePa (d : Dict) (o : Nat) : Nat := d.frames.getD (o / 256) 0 + o % 256
/-- Byte o of an installed image at its home slice, and what reading it does there (R216, R244, R332). -/
def State.dictByte (s : State) (d : Dict) (o : Nat) : Byte × State :=
  let r := s.homeRead (d.bytePa o) 1 0
  (r.1.getD 0 0, r.2)
/-- n bytes of an installed image from offset o. -/
def State.dictBytes (s : State) (d : Dict) : Nat → Nat → List Byte × State
  | _, 0 => ([], s)
  | o, n + 1 =>
    let r := s.dictByte d o
    let t := State.dictBytes r.2 d (o + 1) n
    (r.1 :: t.1, t.2)
/-- DICTIONARY_CACHE_FILL (R332): the entry is read from its image at its home slice. -/
def execDictCacheFill (core dslot idx : Nat) (s : State) : Out :=
  let key := dslot * 65536 + idx
  match (s.core core).dwait.find? (fun p => p.1 == key), kget dslot s.dicts with
  | some (_, due, tick), some d =>
    if (s.core core).clk < due || s.now < tick then .next s
    else
      let b := s.dictBytes d (256 + 48 * idx) 48
      .next (b.2.modCore core (fun c =>
        let full := (c.dcache.map Prod.fst).length ≥ 2048
        { c with dcache := kset key b.1 (if full then c.dcache.drop 1 else c.dcache),
                 dwait := c.dwait.filter (fun p => p.1 != key) }))
  | _, _ => .next (s.modCore core (fun c => { c with dwait := c.dwait.filter (fun p => p.1 != key) }))

/-! ### TLBINV (R347) -/

/-- Drop TLB entries that a test selects from every TLB; walks under way serve their requesters and are not installed (R347). -/
def State.tlbDrop (s : State) (f : TlbEntry → Bool) : State :=
  { s with
    cores := s.cores.map (fun p => (p.1, { p.2 with tlb := p.2.tlb.filter (fun e => !f e) })),
    dieTlb := s.dieTlb.map (fun p => (p.1, p.2.filter (fun e => !f e))),
    dieTab := s.dieTab.map (fun p => (p.1, p.2.filter (fun e => !f e))),
    walks := s.walks.map (fun p => (p.1, p.2.map (fun w => { w with stale := true }))) }
/-- The root that an operand names. -/
def rootOf (x : Nat) : Nat := fld x 16 36 * 2 ^ 16
/-- Does an entry cover some byte of [va, va+n)? -/
def TlbEntry.covers (e : TlbEntry) (va n : Nat) : Bool :=
  let b := e.vpage / pageBytes e.size * pageBytes e.size
  b < va + n && va < b + pageBytes e.size
/-- The range fault (R347). -/
def chkTlbinv (sB : SReg) (s : State) : Chk :=
  let n := (s.sr sB.val).toNat
  .when (fld n 40 24 != 0) (trapOf 0x25 4 3 n 0 0)
/-- TLBINV of a range. -/
def effTlbinv (sV sB sR : SReg) (s : State) : State :=
  let va := fld (s.sr sV.val).toNat 0 56
  let n := (s.sr sB.val).toNat
  let r := rootOf (s.sr sR.val).toNat
  (s.tlbDrop (fun e => e.root == r && e.covers va n)).answer 1000 []
/-- TLBINV of a root. -/
def effTlbinvRoot (sR : SReg) (s : State) : State :=
  let r := rootOf (s.sr sR.val).toNat
  (s.tlbDrop (fun e => e.root == r)).answer 1000 []
/-- TLBINV of everything. -/
def effTlbinvAll (s : State) : State := (s.tlbDrop (fun _ => true)).answer 1000 []

/-! ### TSTLD (R339 to R341) -/

/-- A directory row: first entry, entries, L. -/
def tstDir (b : List Byte) (i : Nat) : Nat × Nat × Nat :=
  (imgNat b (64 + 8 * i) 2, imgNat b (66 + 8 * i) 2, imgNat b (68 + 8 * i) 4)
/-- A transfer entry (R340). -/
def tstEntry (b : List Byte) (o : Nat) : TstEntry :=
  { at_ := fld (imgNat b o 4) 0 20, src := fld (imgNat b (o + 4) 4) 0 22, dst := fld (imgNat b (o + 8) 4) 0 22,
    bytes := 16 * (fld (imgNat b (o + 12) 4) 0 12 + 1), die := imgNat b (o + 16) 1, x := imgNat b (o + 17) 1,
    y := imgNat b (o + 18) 1, w := fld (imgNat b (o + 19) 1) 0 4 + 1, h := fld (imgNat b (o + 19) 1) 4 4 + 1 }
/-- Zero fields of an entry that are nonzero. -/
def tstReserved (b : List Byte) (o : Nat) : Bool :=
  fld (imgNat b o 4) 20 12 != 0 || fld (imgNat b (o + 4) 4) 22 10 != 0 || fld (imgNat b (o + 8) 4) 22 10 != 0
    || fld (imgNat b (o + 12) 4) 12 20 != 0 || imgNat b (o + 20) 12 != 0
/-- The store that an image gives. -/
def tstOf (b : List Byte) : TstStore :=
  let t := imgNat b 0 2
  { used := t, dir := (List.range t).map (tstDir b), entries := (List.range (imgNat b 2 2)).map (fun i => tstEntry b (64 + 8 * t + 32 * i)) }
/-- Start offsets strictly ascending and below L. -/
def ascending (l : Nat) : List TstEntry → Bool
  | [] => true
  | [e] => e.at_ < l
  | e :: f :: r => e.at_ < f.at_ && e.at_ < l && ascending l (f :: r)
/-- The first index of a list at which a test holds. -/
def firstIx {α : Type} (f : α → Bool) (l : List α) : Option Nat :=
  ((l.zip (List.range l.length)).find? (fun p => f p.1)).map Prod.snd
/-- The first failing code of an image whose header is sound, with its index (R341); a gang outside a weave has no
placement to check code 0x34 against. -/
def tstCode (b : List Byte) (w : Option Weave) : Option (Nat × Nat) :=
  let t := imgNat b 0 2
  let n := imgNat b 2 2
  let x := tstOf b
  let bad (e : TstEntry) : Bool := e.src % 16 != 0 || e.dst % 16 != 0 || bufSize 2 < e.src + e.bytes || bufSize 2 < e.dst + e.bytes
  match firstIx (fun i => tstReserved b (64 + 8 * t + 32 * i)) (List.range n) with
  | some i => some (0x30, i)
  | none =>
  match firstIx (fun (r : Nat × Nat × Nat) => n < r.1 + r.2.1) x.dir with
  | some i => some (0x31, i)
  | none =>
  match firstIx (fun (r : Nat × Nat × Nat) => !(ascending r.2.2 ((x.entries.drop r.1).take r.2.1))) x.dir with
  | some i => some (0x32, i)
  | none =>
  match firstIx bad x.entries with
  | some i => some (0x33, i)
  | none =>
  match w with
  | none => some (0x35, 0)
  | some w =>
    (firstIx (fun e => w.origins.length ≤ e.die || w.w < e.x + e.w || w.h < e.y + e.h) x.entries).map (fun i => (0x34, i))
/-- The result of reading and checking an image: a code with its index, or the store (R341). -/
def State.tstRead (s : State) (va : Nat) (w : Option Weave) : Except (Nat × Nat) TstStore :=
  if va % 64 != 0 then .error (0x30, 0)
  else match s.readIss va 64 with
    | none => .error (0x30, 0)
    | some h =>
      let t := imgNat h 0 2
      let n := imgNat h 2 2
      if imgNat h 4 60 != 0 then .error (0x30, 0)
      else if t == 0 || 64 < t || 512 < n then .error (0x31, 0)
      else match s.readIss (va + 64) (8 * t + 32 * n) with
        | none => .error (0x30, 0)
        | some r => match tstCode (h ++ r) w with
          | some c => .error c
          | none => .ok (tstOf (h ++ r))
/-- What reading that image settles (R216). -/
def State.settleTst (s : State) (va : Nat) : State :=
  if s.exact.isEmpty || va % 64 != 0 then s
  else
    let s := s.settleV s.cur.core s.root va 64
    match s.readIss va 64 with
    | none => s
    | some h =>
      if imgNat h 4 60 != 0 || imgNat h 0 2 == 0 || 64 < imgNat h 0 2 || 512 < imgNat h 2 2 then s
      else s.settleV s.cur.core s.root (va + 64) (8 * imgNat h 0 2 + 32 * imgNat h 2 2)
/-- The weave of the issuing gang. -/
def State.curWeave (s : State) : Option Weave := s.curUnit.weave.bind (fun w => kget w s.weaves)
/-- Held in a communication phase (R341). -/
def holdTstld (s : State) : Bool × State := ((s.curWeave.bind Weave.comm).isSome, s)
/-- TSTLD (R341). -/
def effTstld (sD sI : SReg) (s : State) : State :=
  let s := (s.flush s.cur.core).settleTst (s.sr sI.val).toNat
  match s.tstRead (s.sr sI.val).toNat s.curWeave with
  | .error (c, i) => s.answer 40 [.s sD.val (BitVec.ofNat 64 (c + i * 2 ^ 16))]
  | .ok x => (s.modU (fun u => { u with tst := x })).answer (40 + x.entries.length) [.s sD.val 0]

/-! ### CLASS (R344, R345) -/

/-- A row of the class table. -/
def State.classRow (s : State) (c : Nat) : ClassRow :=
  s.classes.getD c { granted := false, mhz := 0, mv := 0, grant := 0, profile := 0, k := 14 }
/-- A word of a row (R344): quads in the pool are those whose membership is the class. -/
def State.classWord (s : State) (c w : Nat) : Nat :=
  let r := s.classRow c
  match w with
  | 0 => r.granted.toNat + r.mhz * 2 ^ 4 + r.mv * 2 ^ 16
  | 1 => r.grant + r.profile * 2 ^ 16 + r.k * 2 ^ 36
  | 2 => s.quads.countP (fun p => p.2.cls == c)
  | _ => 0
/-- A row after `class.wr` of word 0 or 1 (R345). -/
def ClassRow.put (r : ClassRow) (w v : Nat) : ClassRow :=
  if w = 0 then { r with granted := bitN v 0 } else { r with grant := fld v 0 16, profile := fld v 16 20, k := fld v 36 5 }
/-- The class fault (R345). -/
def classTrap (x : Nat) : TrapInfo := trapOf 0x21 4 2 x 0 0
/-- Checks of `class.wr` (R345). -/
def chkClassWr (sI sV : SReg) (s : State) : Chk :=
  let x := (s.sr sI.val).toNat
  let w := fld x 2 2
  let r := (s.classRow (fld x 0 2)).put w (s.sr sV.val).toNat
  .when (2 ≤ w || (r.granted && s.board.power < r.grant) || (w == 1 && (r.k < 8 || 24 < r.k))) (classTrap x)
/-- Units that were dispatched to cores whose quads had still to wake, and have not started, wait again (R345). -/
def State.unpend (s : State) (f : Pend → Bool) : State :=
  let back (s : State) (p : Pend) : State :=
    s.modLaunch p.launch (fun x => match p.saved with
      | some v => { x with saved := x.saved ++ [v] }
      | none => { x with back := x.back ++ [p.index] })
  (s.pending.filter f).foldl back { s with pending := s.pending.filter (fun p => !f p) }
/-- `class.wr`: the unstarted units of a class that is no longer granted wait (R345). -/
def effClassWr (sI sV : SReg) (s : State) : State :=
  let x := (s.sr sI.val).toNat
  let r := (s.classRow (fld x 0 2)).put (fld x 2 2) (s.sr sV.val).toNat
  let s := { s with classes := s.classes.set (fld x 0 2) r }
  (if r.granted then s else s.unpend (fun p => (s.lpbOf p.launch).cls == fld x 0 2)).answer 100 []
/-- `class.rd`. -/
def effClassRd (sD sI : SReg) (s : State) : State :=
  let x := (s.sr sI.val).toNat
  s.answer 100 [.s sD.val (BitVec.ofNat 64 (s.classWord (fld x 0 2) (fld x 2 2)))]
/-- Checks of `class.mv`: a quad of a tensor die that exists (R345). -/
def chkClassMv (sQ : SReg) (s : State) : Chk :=
  let x := (s.sr sQ.val).toNat
  let d := fld x 0 4
  .when (10 ≤ d || rasterDie d || (kget (d * 64 + fld x 8 6) s.quads).isNone) (classTrap x)
/-- Does a quad hold a resident unit? -/
def State.quadBusy (s : State) (q : Nat) : Bool := s.cores.any (fun p => quadKey p.1 == q && !p.2.units.isEmpty)
/-- A quad that is closed for a move and holds no unit changes its operating point, in at most 50 µs (R345, log 5). -/
def State.quadMove (s : State) (q : Nat) : State :=
  match (kget q s.quads).bind Quad.moving with
  | some (c, none) =>
    if s.quadBusy q then s
    else
      let t := s.now + (1 + Config.latency s.free % 49999) * tickNs
      { s with quads := kmod q (fun x => { x with moving := some (c, some t) }) s.quads, free := s.free + 1 }
  | _ => s
/-- `class.mv`: the quad is closed to new units at once, and those that were to start on it wait again; a wake request goes to it
(R345, R403). -/
def effClassMv (sQ sC : SReg) (s : State) : State :=
  let x := (s.sr sQ.val).toNat
  let q := fld x 0 4 * 64 + fld x 8 6
  let c := fld (s.sr sC.val).toNat 0 2
  let s := s.unpend (fun p => p.cores.any (fun k => quadKey k == q))
  let s := { s with quads := kmod q (fun k => { k with moving := some (c, none) }) s.quads,
                    agenda := s.agenda ++ [Instr.quadWakeRequest (fld x 0 4) (fld x 8 6)] }
  (s.quadMove q).answer 100 []

/-! ### The instructions, alone in their bundle -/

/-- DICTLD. -/
def execDictld (g : Guard) (sD sI : SReg) (n : Fin 256) (s : State) : Out :=
  s.issueSolo (.dictld g sD sI n) { chk := chkDict n.val, eff := effDictld sD sI n.val }
/-- DICTINV. -/
def execDictinv (g : Guard) (n : Fin 256) (s : State) : Out :=
  s.issueSolo (.dictinv g n) { chk := chkDict n.val, eff := effDictinv n.val }
/-- TLBINV of a range. -/
def execTlbinv (g : Guard) (sV sB sR : SReg) (s : State) : Out :=
  s.issueSolo (.tlbinv g sV sB sR) { chk := chkTlbinv sB, eff := effTlbinv sV sB sR }
/-- TLBINV of a root. -/
def execTlbinvRoot (g : Guard) (sR : SReg) (s : State) : Out := s.issueSolo (.tlbinvRoot g sR) { eff := effTlbinvRoot sR }
/-- TLBINV of everything. -/
def execTlbinvAll (g : Guard) (s : State) : Out := s.issueSolo (.tlbinvAll g) { eff := effTlbinvAll }
/-- TSTLD. -/
def execTstld (g : Guard) (sD sI : SReg) (s : State) : Out :=
  s.issueSolo (.tstld g sD sI) { hold := holdTstld, eff := effTstld sD sI }
/-- CLASS.wr. -/
def execClassWr (g : Guard) (sI sV : SReg) (s : State) : Out :=
  s.issueSolo (.classWr g sI sV) { chk := chkClassWr sI sV, eff := effClassWr sI sV }
/-- CLASS.mv. -/
def execClassMv (g : Guard) (sQ sC : SReg) (s : State) : Out :=
  s.issueSolo (.classMv g sQ sC) { chk := chkClassMv sQ, eff := effClassMv sQ sC }
/-- CLASS.rd. -/
def execClassRd (g : Guard) (sD sI : SReg) (s : State) : Out := s.issueSolo (.classRd g sD sI) { eff := effClassRd sD sI }

end Sys2Proof.Machine
end

