-- ==== Sys2Proof/Machine/Counter.lean ====
section
/-! DEFINITION. Counter instructions (R348 to R369): barriers, semaphores, write pointers, STEPEND, the governor, statistics
and performance counters, and the events that complete barriers and raises. -/

namespace Sys2Proof.Machine

/-! ### Barriers (R353, R354, R356) -/

/-- Checks of BAR: an inline child may not execute the workgroup barrier (R37). -/
def chkBar (s : State) : Chk :=
  .when (s.onShader && s.scope != 6 && !s.curGrp.inline.isEmpty) (trapOf 0x0B 4 0 s.curGrp.inlineDepth 0 0)
/-- BAR (R353): a fence at its scope, then the arrival (R239). -/
def effBar (s : State) : State :=
  if s.scope == 6 then
    (if s.onShader then (s.modS (fun p => { p with wait := .groupBar })).groupBarCheck s.cur.core s.cur.gid else s)
  else
    ((s.fenceAt s.cur.core s.scope).modS (fun p => { p with wait := .barrier })).barCheck s.cur.core s.curGrp.uid
/-- The barrier fault (R354, R356). -/
def barTrap (b c : Nat) : TrapInfo := trapOf 0x23 4 0 b c 0
/-- Checks of `bar.weave` (R354). -/
def chkBarWeave (s : State) : Chk := .when s.curUnit.weave.isNone (barTrap 0 0)
/-- `bar.weave` (R354): the role group has executed it and waits. -/
def effBarWeave (s : State) : State :=
  (((s.fenceAt s.cur.core s.scope).modG (fun g => { g with weaveArr := true })).modS (fun p => { p with wait := .weave })).weaveCheck
    s.cur.core s.curGrp.uid

/-- The instance of the issuer at a scope: quad, die, package or pod (R356). -/
def State.netInst (s : State) : Nat :=
  if s.scope == 1 then quadKey s.cur.core else if s.scope == 2 then coreDie s.cur.core else 0
/-- The open record that an arrival joins. -/
def State.netRec (s : State) (b : Nat) : Option (Nat × NetBar) :=
  s.nets.find? (fun p => p.2.launch == s.countsIn s.curGrp.launch && p.2.scope == s.scope && p.2.inst == s.netInst
    && p.2.b == b && p.2.due.isNone)
/-- Checks of `bar.net` (R356). -/
def chkBarNet (b : Nat) (sC : SReg) (s : State) : Chk :=
  let x := (s.sr sC.val).toNat
  let c := fld x 0 24
  .when (fld x 24 40 != 0 || c == 0 || (match s.netRec b with | some (_, n) => n.count != c | none => false)) (barTrap b c)
/-- Holds of `bar.net`: a 257th record of the die (R356). -/
def holdBarNet (b : Nat) (s : State) : Bool × State :=
  let d := coreDie s.cur.core
  let mine := match s.netRec b with | some (_, n) => n.dies.contains d | none => false
  (!mine && s.nets.countP (fun p => p.2.due.isNone && p.2.dies.contains d) ≥ 256, s)
/-- `bar.net` (R356). -/
def effBarNet (b : Nat) (sC : SReg) (s : State) : State :=
  let d := coreDie s.cur.core
  let r : Nat × State := match s.netRec b with
    | some (id, _) =>
      (id, { s with nets := kmod id (fun n => if n.dies.contains d then n else { n with dies := n.dies ++ [d] }) s.nets })
    | none =>
      (s.fresh, { s with fresh := s.fresh + 1,
                         nets := kset s.fresh { launch := s.countsIn s.curGrp.launch, scope := s.scope, inst := s.netInst, b := b,
                                                count := fld (s.sr sC.val).toNat 0 24, arrived := [], dies := [d], due := none }
                           s.nets })
  let s := (r.2.fenceAt s.cur.core s.scope).modS (fun p => { p with wait := .net r.1 })
  s.netArrive s.cur.core s.cur.gid r.1

/-- A slot that waits for w, at once or behind a handler, waits no longer. -/
def PcSlot.free (p : PcSlot) (w : Wait) : PcSlot :=
  { p with wait := if p.wait == w then .none else p.wait, kept := if p.kept == w then .none else p.kept }
/-- Both slots of a group wait no longer for w. -/
def Group.free (g : Group) (w : Wait) : Group := { g with slot0 := g.slot0.free w, slot1 := g.slot1.free w }

/-- BARRIER_COMPLETE (R353): every waiting slot of the unit goes on and may issue in this clk, the phase flips, and departures are
fences (R239). -/
def execBarrierComplete (core uid gid : Nat) (s : State) : Out :=
  let u := (s.core core).unit uid
  match u.barDue with
  | none => .next s
  | some t =>
    if (s.core core).clk < t || !(u.gids.contains gid) then .next s
    else
      let s := s.modCore core (fun c => u.gids.foldl (fun c g => c.modGroup g (fun x => x.free .barrier)) c)
      let s := s.modCore core (fun c => c.modUnit uid (fun u => { u with phase := !u.phase, arrived := 0, barDue := none }))
      .next (((s.flush core).barCheck core uid).relist core u.gids)

/-- NETWORK_BARRIER_COMPLETE (R356): every waiting slot goes on, resident, saved, or chosen for cores whose quads wake,
and the record is freed. -/
def execNetBarrierComplete (id : Nat) (s : State) : Out :=
  match kget id s.nets with
  | none => .next s
  | some n =>
    match n.due with
    | none => .next s
    | some t =>
      if s.now < t then .next s
      else
        let f (g : Group) : Group := g.free (.net id)
        let sv (v : Saved) : Saved := { v with groups := v.groups.map (fun q => (q.1, f q.2)) }
        let s := { s with
          cores := s.cores.map (fun p => (p.1, { p.2 with groups := p.2.groups.map (fun q => (q.1, f q.2)) })),
          launches := s.launches.map (fun p => (p.1, { p.2 with saved := p.2.saved.map sv })),
          pending := s.pending.map (fun p => { p with saved := p.saved.map sv }),
          nets := kdel id s.nets }
        .next (n.arrived.foldl (fun s a => s.flush a.1) s)

/-! ### Semaphores (R350, R351) -/

/-- The core that a target word names. -/
def semTarget (x : Nat) : Nat := fld x 8 4 * 256 + fld x 0 8
/-- Does a core lie within the instance of a scope of the issuer (R350)? -/
def State.inScope (s : State) (c : Nat) : Bool :=
  if s.scope == 0 || s.scope == 6 then c == s.cur.core
  else if s.scope == 1 then quadKey c == quadKey s.cur.core
  else if s.scope == 2 then coreDie c == coreDie s.cur.core
  else true
/-- Checks of SEMADD (R350). -/
def chkSemadd (t : Option SReg) (s : State) : Chk :=
  match t with
  | none => .ok
  | some r =>
    let x := (s.sr r.val).toNat
    .when (fld x 12 52 != 0 || !(s.reports (semTarget x)) || !(s.inScope (semTarget x))) (trapOf 0x22 4 3 x 0 0)
/-- SEMADD: a fence at its scope, then the add (R239, R350). -/
def effSemadd (n : Nat) (a : Nat) (t : Option SReg) (s : State) : State :=
  let c := match t with | none => s.cur.core | some r => semTarget (s.sr r.val).toNat
  (s.fenceAt s.cur.core s.scope).sendRaise c n a
/-- SEMAPHORE_RAISE_ARRIVAL (R350): once its clk are over a raise crosses the bridge (R13). -/
def execSemaphoreRaiseArrival (id : Nat) (s : State) : Out :=
  match s.raises.find? (fun r => r.id == id) with
  | none => .next s
  | some r =>
    if s.now < r.due || s.now < r.tick then .next s
    else if r.wall != 0 then
      .next { s with raises := s.raises.map (fun x => if x.id == id then { x with wall := 0, tick := s.now + r.wall } else x) }
    else .next ({ s with raises := s.raises.filter (fun x => x.id != id) }.semAdd r.core r.n r.a)

/-- SEMWAIT's place in the line (R351): it arrives, and goes on when it is first of its semaphore and satisfied. -/
def holdSemwait (n k : Nat) (s : State) : Bool × State :=
  let me := (n, s.cur.gid, s.cur.slot, s.curSlot.pc)
  let l := s.curCore.live
  let l := if l.contains me then l else l ++ [me]
  let s := (s.modC (fun c => { c with waiters := l })).modU (fun u => { u with bound := true })
  ((l.find? (fun w => w.1 == n)) != some me || s.curCore.sem n < k, s)
/-- SEMWAIT: `.dec` subtracts k; the next waiter is examined in the same clk; a fence at its scope follows (R239, R351). -/
def effSemwait (n : Nat) (d : Nat) (s : State) : State :=
  let gid := s.cur.gid
  let slot := s.cur.slot
  let s := s.modC (fun c => { c with
    waiters := c.waiters.filter (fun w => !(w.1 == n && w.2.1 == gid && w.2.2.1 == slot)),
    sems := sset 0 n (c.sem n - d) c.sems })
  (s.semServe s.cur.core n).fenceAt s.cur.core s.scope

/-! ### Write pointers (R352) -/

/-- The write pointer of a channel of the issuing core. -/
def State.wptr (s : State) (ch : Nat) : Nat := ((kget ch s.curCore.chans).map Channel.wp).getD 0
/-- Has a pointer reached a value (R352)? -/
def reached (p v : Nat) : Bool :=
  let d := (fld p 56 8 + 256 - fld v 56 8) % 256
  (d == 0 && fld v 0 56 ≤ fld p 0 56) || (1 ≤ d && d ≤ 127)
/-- WPWAIT's hold. -/
def holdWpwait (ch : Nat) (sV : SReg) (s : State) : Bool × State := (!(reached (s.wptr ch) (s.sr sV.val).toNat), s)
/-- WPWAIT.rd. -/
def effWpwaitRd (sD : SReg) (ch : Nat) (s : State) : State := s.emit 4 2 [.s sD.val (BitVec.ofNat 64 (s.wptr ch))]

/-! ### Steps and the governor (R357, R362) -/

/-- Checks of STEPEND (R357). -/
def chkStepend (s : State) : Chk := .when (s.curLaunch.bind Launch.topb).isNone (trapOf 0x24 4 0 0 0 0)
/-- STEPEND (R357). -/
def effStepend (s : State) : State :=
  ((s.modG (fun g => { g with stepDone := true })).modS (fun p => { p with wait := .stepEnd })).stepCheck s.cur.core s.curGrp.uid
/-- A field of a governor (R362). -/
def govField (g : Gov) (d now sel : Nat) : Nat :=
  match sel with
  | 0 => g.frame
  | 1 => now - g.start
  | 2 => g.longest
  | 3 => g.m
  | 4 => g.misses
  | 5 => g.last
  | _ => d
/-- GOVRD (R362). -/
def effGovrd (sel : Nat) (sD sL : SReg) (s : State) : State :=
  let id := (s.sr sL.val).toNat
  let l : Option Nat := if id = 0 then some (s.countsIn s.curGrp.launch)
    else (s.launches.find? (fun p => p.2.lpb.ident == id)).map Prod.fst
  let v : Nat := match l.bind (fun k => kget k s.govs) with
    | none => 2 ^ 64 - 1
    | some g => govField g (((l.bind (fun k => kget k s.launches)).bind Launch.topb).map Topb.deadline |>.getD 0) s.ns sel
  s.answer 100 [.s sD.val (BitVec.ofNat 64 v)]

/-! ### Reading and clearing (R363 to R369) -/

/-- Banks of the issuing core: BRIGHT and DIM, registers and scratch together (R363). -/
def Core.bankCount (c : Core) (st : BankSt) : Nat :=
  c.groups.foldl (fun a p => a + p.2.banks.countP (fun b => b.st == st)) 0 + c.scratch.countP (fun p => p.2.st == st)
/-- Banks of a core: 160 of registers and 6 of shared memory, or 64 and 128 (R22, R39, R207). -/
def coreBanks (shader : Bool) : Nat := if shader then 166 else 192
/-- ENRD's values (R363). -/
def State.enVal (s : State) (sel : Nat) : Nat :=
  let c := s.curCore
  match sel with
  | 0 => c.esum
  | 1 => (s.classRow (s.clsOf s.cur.core)).profile
  | 2 => c.stalls
  | _ =>
    let b := c.bankCount .bright
    let d := c.bankCount .dim
    b + d * 2 ^ 10 + (coreBanks s.onShader - b - d) * 2 ^ 20
/-- ENRD. -/
def effEnrd (sD : SReg) (sel : Nat) (s : State) : State := s.emit 4 2 [.s sD.val (BitVec.ofNat 64 (s.enVal sel))]
/-- The statistics set of the issuing launch, empty where none is allocated. -/
def State.curStats (s : State) : Stats := (kget s.lpb.ident s.stats).getD Stats.empty
/-- CNTRD's values (R368). -/
def State.cntVal (s : State) (sel : Nat) : Nat :=
  let l := kget (s.countsIn s.curGrp.launch) s.launches
  let t := s.curStats
  let p := t.snap.getD (0, 0, 0)
  if sel = 0 then (l.map Launch.retired).getD 0
  else if sel = 1 then (l.map Launch.target).getD 0
  else if sel = 2 then (s.curWeave.map Weave.step).getD 0
  else if sel = 3 then (if s.onShader then 0 else s.curUnit.stepClk)
  else if sel = 4 then s.curCore.replays
  else if sel < 16 then sget 0 (sel - 8) s.curCore.perf
  else if sel = 16 then t.prims
  else if sel = 17 then t.culled
  else if sel = 18 then t.samples
  else if sel = 19 then p.1
  else if sel = 20 then p.2.1
  else if sel = 21 then p.2.2
  else s.lostEv
/-- Selectors of values of the core, with λ = 2 (R368). -/
def cntFast (sel : Nat) : Bool := sel == 3 || sel == 4 || (8 ≤ sel && sel ≤ 15)
/-- CNTRD: the stream waits until the value is written (R368). -/
def effCntrd (sD : SReg) (sel : Nat) (s : State) : State :=
  let w := [Wr.s sD.val (BitVec.ofNat 64 (s.cntVal sel))]
  if cntFast sel then
    let t := s.curCore.pclk + 2
    (s.emit 4 2 w).modS (fun p => { p with next := max p.next t })
  else s.answer 100 w
/-- CNTCLR of performance counters: each keeps what it has counted in this clk (R369). -/
def effCntclr (n : Nat) (s : State) : State :=
  s.modC (fun c => { c with perf := if n = 8 then c.perfClk else sset 0 n (sget 0 n c.perfClk) c.perf })
/-- Change the issuer's set, allocating it; with 64 sets allocated and none its own, nothing happens (R365). -/
def State.modStats (s : State) (f : Stats → Stats) : State :=
  let id := s.lpb.ident
  if (kget id s.stats).isNone && s.stats.length ≥ 64 then s else { s with stats := kset id (f s.curStats) s.stats }
/-- CNTCLR.snap (R367). -/
def effCntclrSnap (s : State) : State := s.modStats (fun t => { t with snap := some (t.prims, t.culled, t.samples) })
/-- CNTCLR.roll. -/
def effCntclrRoll (s : State) : State := s.modStats Stats.roll
/-- CNTCLR.free. -/
def effCntclrFree (s : State) : State := { s with stats := kdel s.lpb.ident s.stats }

/-! ### The instructions, alone in their bundle -/

/-- BAR. -/
def execBar (g : Guard) (s : State) : Out := s.issueSolo (.bar g) { chk := chkBar, eff := effBar }
/-- BAR.weave. -/
def execBarWeave (g : Guard) (s : State) : Out := s.issueSolo (.barWeave g) { chk := chkBarWeave, eff := effBarWeave }
/-- BAR.net. -/
def execBarNet (g : Guard) (b : Fin 16) (sC : SReg) (s : State) : Out :=
  s.issueSolo (.barNet g b sC) { chk := chkBarNet b.val sC, hold := holdBarNet b.val, eff := effBarNet b.val sC }
/-- SEMADD of a constant. -/
def execSemaddI (g : Guard) (n : Fin 64) (k : Fin 1024) (t : Option SReg) (s : State) : Out :=
  s.issueSolo (.semaddI g n k t) { chk := chkSemadd t, eff := effSemadd n.val k.val t }
/-- SEMADD of a register. -/
def execSemadd (g : Guard) (n : Fin 64) (sV : SReg) (t : Option SReg) (s : State) : Out :=
  s.issueSolo (.semadd g n sV t) { chk := chkSemadd t, eff := fun s => effSemadd n.val (fld (s.sr sV.val).toNat 0 32) t s }
/-- SEMWAIT.dec. -/
def execSemwaitDec (g : Guard) (n : Fin 64) (k : Fin 1024) (s : State) : Out :=
  s.issueSolo (.semwaitDec g n k) { hold := holdSemwait n.val k.val, eff := effSemwait n.val k.val }
/-- SEMWAIT.ge. -/
def execSemwaitGe (g : Guard) (n : Fin 64) (k : Fin 1024) (s : State) : Out :=
  s.issueSolo (.semwaitGe g n k) { hold := holdSemwait n.val k.val, eff := effSemwait n.val 0 }
/-- WPWAIT. -/
def execWpwait (g : Guard) (ch : Fin 8) (sV : SReg) (s : State) : Out :=
  s.issueSolo (.wpwait g ch sV) { hold := holdWpwait ch.val sV, eff := id }
/-- WPWAIT.rd. -/
def execWpwaitRd (g : Guard) (sD : SReg) (ch : Fin 8) (s : State) : Out :=
  s.issueSolo (.wpwaitRd g sD ch) { eff := effWpwaitRd sD ch.val }
/-- STEPEND. -/
def execStepend (g : Guard) (s : State) : Out := s.issueSolo (.stepend g) { chk := chkStepend, eff := effStepend }
/-- GOVRD. -/
def execGovrd (g : Guard) (sel : Fin 16) (sD sL : SReg) (s : State) : Out :=
  s.issueSolo (.govrd g sel sD sL) { eff := effGovrd sel.val sD sL }
/-- CNTRD. -/
def execCntrd (g : Guard) (sD : SReg) (sel : Fin 64) (s : State) : Out :=
  s.issueSolo (.cntrd g sD sel) { eff := effCntrd sD sel.val }
/-- CNTCLR of performance counters. -/
def execCntclr (g : Guard) (n : Fin 16) (s : State) : Out := s.issueSolo (.cntclr g n) { eff := effCntclr n.val }
/-- CNTCLR.snap. -/
def execCntclrSnap (g : Guard) (s : State) : Out := s.issueSolo (.cntclrSnap g) { eff := effCntclrSnap }
/-- CNTCLR.roll. -/
def execCntclrRoll (g : Guard) (s : State) : Out := s.issueSolo (.cntclrRoll g) { eff := effCntclrRoll }
/-- CNTCLR.free. -/
def execCntclrFree (g : Guard) (s : State) : Out := s.issueSolo (.cntclrFree g) { eff := effCntclrFree }
/-- ENRD. -/
def execEnrd (g : Guard) (sD : SReg) (sel : Fin 4) (s : State) : Out :=
  s.issueSolo (.enrd g sD sel) { eff := effEnrd sD sel.val }

end Sys2Proof.Machine
end

