-- ==== Sys2Proof/Machine/Rotator.lean ====
section
/-! DEFINITION. The rotator array of a tile (R172 to R194): rows, gain, the rotation step, and its commands. -/

namespace Sys2Proof.Machine

/-! ### Rows and scaling (R177 to R181) -/

/-- v / 2^k to the nearest integer, ties to even (R178). -/
def rshiftRne (v : Int) (k : Nat) : Int :=
  if k ≥ 63 then 0
  else
    let n : Int := (rndInt 0 false v.natAbs (2 ^ k) : Nat)
    if v < 0 then -n else n
/-- An arithmetic right shift (R178). -/
def asr (v : Int) (i : Nat) : Int := v / (2 ^ i : Nat)
/-- The exponent of an all-zero row (R177). -/
def rowE0 : Int := -32768
/-- An all-zero row of k entries. -/
def rowZero (k : Nat) : Row := { m := List.replicate k 0, e := rowE0, g := 0 }
/-- The largest magnitude of a row. -/
def Row.top (x : Row) : Nat := x.m.foldl (fun a v => max a v.natAbs) 0
/-- Lower a row's mantissas below 2^29 (R179). -/
def Row.down : Nat → Row → Row
  | 0, x => x
  | n + 1, x => if x.top ≥ 2 ^ 29 then Row.down n { x with m := x.m.map (fun v => rshiftRne v 1), e := x.e + 1 } else x
/-- Raise a row's mantissas to 2^28 (R179). -/
def Row.up : Nat → Row → Row
  | 0, x => x
  | n + 1, x => if x.top < 2 ^ 28 then Row.up n { x with m := x.m.map (· * 2), e := x.e - 1 } else x
/-- Normalise a row (R179). -/
def Row.norm (x : Row) : Row := if x.top = 0 then { x with e := rowE0 } else (x.down 64).up 64

/-- G of R180. -/
def gainG : Int := 652032874
/-- The next entry of a power table (R180). -/
def gainNext (p : Nat × Int) : Nat × Int :=
  let q := p.1 * p.1
  let r : Nat × Int := if q < 2 ^ 61 then ((rshiftRne q 30).toNat, 2 * p.2) else ((rshiftRne q 31).toNat, 2 * p.2 - 1)
  if r.1 = 2 ^ 31 then (2 ^ 30, r.2 - 1) else r
/-- Entry j of the table that starts at p. -/
def gainAt (p : Nat × Int) : Nat → Nat × Int
  | 0 => p
  | j + 1 => gainNext (gainAt p j)
/-- First entries of the tables K^-(2^j) and K^(2^j) (R180). -/
def gainHead (neg : Bool) : Nat × Int := if neg then (1304065748, 1) else (1768195363, 0)
/-- F and sF of R181 for a power of d rotations. -/
def gainF (neg : Bool) (d : Nat) : Nat × Int :=
  (List.range 14).foldl (fun f j =>
    if !(bitN d j) then f
    else
      let t := gainAt (gainHead neg) j
      let p := f.1 * t.1
      let r : Nat × Int := if p < 2 ^ 61 then ((rshiftRne p 30).toNat, f.2 + t.2) else ((rshiftRne p 31).toNat, f.2 + t.2 - 1)
      if r.1 = 2 ^ 31 then (2 ^ 30, r.2 - 1) else r) (2 ^ 30, 0)
/-- Scale a row by K^-d (neg) or K^d (R181). -/
def Row.scale (neg : Bool) (d : Nat) (x : Row) : Row :=
  let f := gainF neg d
  Row.norm { x with m := x.m.map (fun v => rshiftRne (v * (f.1 : Nat)) 30), e := x.e - f.2 }
/-- Fold a row's gain into it. -/
def Row.fold (x : Row) : Row := { (x.scale true x.g) with g := 0 }

/-- The exact value of a finite FP32 code as m * 2^e; none for a NaN or infinity. -/
def finOf (x : Nat) : Option (Int × Int) :=
  match fdec 0 x with
  | .fin neg m e => some (if neg then -(m : Int) else (m : Int), e)
  | _ => none
/-- Is every code finite? -/
def allFin (l : List Nat) : Bool := l.all (fun x => (finOf x).isSome)
/-- Entry conversion of FP32 codes to a row (R178). -/
def rowOf (l : List Nat) : Row :=
  let vs := l.map (fun x => (finOf x).getD (0, 0))
  match (vs.filter (fun v => v.1 != 0)).map (fun v => flog2 v.1.natAbs 1 + v.2) with
  | [] => rowZero l.length
  | a :: r =>
    let E := r.foldl max a + 1
    let conv (v : Int × Int) : Int :=
      let k := v.2 + 29 - E
      if k ≥ 0 then v.1 * (2 ^ k.toNat : Nat) else rshiftRne v.1 (-k).toNat
    Row.norm { m := vs.map conv, e := E, g := 0 }
/-- The FP32 codes of a row: one rounding each (R186, R190). -/
def Row.codes (x : Row) : List Nat := x.m.map (fun v => roundI 0 0 false false v (x.e - 29))

/-! ### The rotation step (R182, R183) -/

/-- Align a row to exponent E. -/
def Row.align (x : Row) (E : Int) : Row := { x with m := x.m.map (fun v => rshiftRne v (E - x.e).toNat), e := E }
/-- The pre-rotation of a quadrant (R182). -/
def preRot (q : Nat) (a b : Int) : Int × Int := if q == 3 then (b, -a) else if q == 1 then (-b, a) else (a, b)
/-- One micro-rotation of a pair. -/
def micro (i : Nat) (d : Bool) (p : Int × Int) : Int × Int :=
  if d then (p.1 + asr p.2 i, p.2 - asr p.1 i) else (p.1 - asr p.2 i, p.2 + asr p.1 i)
/-- The direction bits that vectoring chooses for a pivot pair, after its pre-rotation. -/
def vecBits (p : Int × Int) : Nat :=
  ((List.range 24).foldl (fun (s : Nat × Int × Int) i =>
    let d : Bool := 0 ≤ s.2.2
    (if d then s.1 + 2 ^ i else s.1, micro i d s.2)) (0, p)).1
/-- Rotate one pair by a quadrant and direction bits. -/
def rotPair (q d : Nat) (a b : Int) : Int × Int :=
  (List.range 24).foldl (fun p i => micro i (bitN d i) p) (preRot q a b)
/-- Rotate two aligned rows over the columns from `lo` that both hold; immediate compensation of every entry, or a gain
count (R182). A triangular row r holds the columns from r, so an entry of the row in flight left of its pivot, which a
stage without a rotation can leave nonzero, is not rotated. -/
def rotRows (imm : Bool) (q d lo : Nat) (x y : Row) (annihilate : Option Nat) : Row × Row :=
  let ps := ((List.range x.m.length).zip (x.m.zip y.m)).map (fun p => if p.1 < lo then p.2 else rotPair q d p.2.1 p.2.2)
  let ym := ps.map Prod.snd
  let ym := match annihilate with | some r => ym.set r 0 | none => ym
  let fin (m : List Int) (z : Row) : Row :=
    if imm then Row.norm { z with m := m.map (fun v => rshiftRne (v * gainG) 30) } else Row.norm { z with m := m, g := x.g + 1 }
  (fin (ps.map Prod.fst) x, fin ym y)

/-- A stage in vectoring mode: the rows, the word, folds and scalings made (R182). -/
def vecStage (deferred : Bool) (r : Nat) (x y : Row) : Row × Row × Nat × Nat × Nat :=
  if y.m.getD r 0 = 0 then (x, y, angId, 0, 0)
  else
    let f := deferred && (x.g == 16383 || y.g == 16383)
    let x := if f then x.fold else x
    let y := if f then y.fold else y
    let sc := deferred && x.g != y.g
    let g := max x.g y.g
    let lift (z : Row) : Row := if z.g < g then { (z.scale false (g - z.g)) with g := g } else z
    let x := if sc then lift x else x
    let y := if sc then lift y else y
    let E := max x.e y.e
    let X := x.align E
    let Y := y.align E
    let a := X.m.getD r 0
    let b := Y.m.getD r 0
    if b = 0 then (x, y, angId, f.toNat, sc.toNat)
    else
      let q := if 0 ≤ a then 0 else if 0 ≤ b then 3 else 1
      let d := vecBits (preRot q a b)
      let p := rotRows (!deferred) q d r X Y (some r)
      (p.1, p.2, d + q * 2 ^ 24, f.toNat, sc.toNat)

/-- Rotation mode by a word: the identity word, and a malformed one, change nothing (R183). -/
def rotBy (w : Nat) (x y : Row) : Row × Row :=
  if w == angId || angBad w then (x, y)
  else
    let E := max x.e y.e
    rotRows true (fld w 24 2) (fld w 0 24) 0 (x.align E) (y.align E) none

/-! ### The rotator of a core (R184) -/

/-- Triangular row r, with 64 entries. -/
def Rotator.row (t : Rotator) (r : Nat) : Row := t.rows.getD r (rowZero 64)
/-- Replace triangular row r. -/
def Rotator.setRow (t : Rotator) (r : Nat) (x : Row) : Rotator :=
  { t with rows := (List.range 64).map (fun i => if i = r then x else t.row i) }
/-- An angle word of the store. -/
def Rotator.ang (t : Rotator) (i : Nat) : Nat := (sget (BitVec.ofNat 32 angId) i t.angles).toNat
/-- Load the angle store. -/
def Rotator.setAngs (t : Rotator) (l : List Nat) : Rotator :=
  { t with angles := ((List.range 64).zip l).foldl (fun a p => sset (BitVec.ofNat 32 angId) p.1 (BitVec.ofNat 32 p.2) a) [] }
/-- A row's 64 entries with the columns left of its diagonal held at zero. -/
def Row.pad (x : Row) : Row := { x with m := (List.range 64).map (fun c => x.m.getD c 0) }

/-! ### Commands: operands and checks (R173, R175) -/

/-- Captured scalars of a rotator command. -/
def State.rotArgs (s : State) (i : Instr) : List Nat :=
  let r (x : SReg) : Nat := (s.sr x.val).toNat
  match i with
  | .qrfeed _ _ lg sx sy sz _ _ => [r sx, r sy, if lg then r sz else 0]
  | .qrapplySt _ sx sy _ _ => [r sx, r sy, 0]
  | .qrapplyLog _ sx sy sz _ _ _ => [r sx, r sy, r sz]
  | .qrread _ _ a sx _ => [if a then r sx else 0, 0, 0]
  | .grot _ _ sx sy _ _ => [r sx, r sy, 0]
  | _ => [0, 0, 0]

/-- A span of the A buffer named by a field. -/
def aSpan (off str rows n f : Nat) : Span := { buf := 2, off := off, str := str, rows := List.range rows, n := n, fld_ := f }
/-- Spans of a command: read, written (R185 to R190). QRAPPLY reads and writes the z rows of its n words alone (R186). -/
def rotSpans (i : Instr) (a : List Nat) : List Span × List Span :=
  let x := a.getD 0 0
  let y := a.getD 1 0
  let z := a.getD 2 0
  match i with
  | .qrfeed _ bf lg _ _ _ n h =>
    ([aSpan x y h.val (n.val * (if bf then 2 else 4)) 2], if lg then [aSpan z 256 h.val 256 4] else [])
  | .qrapplySt _ _ _ k n =>
    let l := [aSpan x (4 * k.val) n.val (4 * k.val) 2, aSpan y (4 * k.val) 1 (4 * k.val) 3]
    (l, l)
  | .qrapplyLog _ _ _ _ k h n =>
    let l := [aSpan x (4 * k.val) n.val (4 * k.val) 2, aSpan y (4 * k.val) h.val (4 * k.val) 3]
    (l ++ [aSpan z 256 h.val 256 4], l)
  | .qrread _ _ true _ _ => ([], [aSpan x 0 1 4096 2])
  | .grot _ _ _ _ p h => ([aSpan x (8 * p.val) h.val (8 * p.val) 2], [aSpan y (8 * p.val) h.val (8 * p.val) 3])
  | _ => ([], [])
/-- The element size of a command's operands. -/
def rotElt (i : Instr) : Nat := match i with | .qrfeed _ true _ _ _ _ _ _ => 2 | _ => 4
/-- The buffer-address fault of an operand that is not a multiple of n (R173). -/
def alignChk (v n f : Nat) : Chk := .when (v % n != 0) (trapOf 0x10 4 f v 0 0)
/-- Checks of a rotator command (R173, R122). -/
def chkRot (i : Instr) (s : State) : Chk :=
  let a := s.rotArgs i
  let sp := rotSpans i a
  Chk.first [alignChk (a.getD 0 0) (rotElt i) 2, alignChk (a.getD 1 0) (rotElt i) 3, alignChk (a.getD 2 0) 4 4,
    extentChk (sp.1 ++ sp.2), s.darkSpans sp.1, s.dataSpans sp.1]
/-- The bank set of a command. -/
def rotSet (i : Instr) (a : List Nat) : List (Nat × Nat) :=
  let sp := rotSpans i a
  mergeModes (modesOf 0 sp.1 ++ modesOf 1 sp.2)
/-- Holds of a command: the reservation table, a queue of 8, counter 3 (R192, R210, R151). -/
def holdRot (i : Instr) (s : State) : Bool × State :=
  let r := s.curCore.conflict (rotSet i (s.rotArgs i))
  (r || s.curCore.rotQ.length ≥ 8 || s.curGrp.ctrs.getD 3 0 ≥ 65535, if r then s.bumpClk s.cur.core 9 else s)
/-- Scratch banks that a command reads. -/
def banksRot (i : Instr) (s : State) : List Nat := ((rotSpans i (s.rotArgs i)).1).flatMap Span.banks

/-! ### What commands do (R185 to R191) -/

/-- FP32 codes of n elements at an offset of the A buffer. -/
def Core.f32s (c : Core) (off n : Nat) : List Nat := (List.range n).map (fun i => c.bufNat 2 (off + 4 * i) 4)
/-- Write FP32 codes. -/
def Core.putF32s (c : Core) (off : Nat) (l : List Nat) : Core := c.bufWrite 2 off (l.flatMap (leBytes 4))
/-- Set the sticky flag. -/
def Core.rotSticky (c : Core) : Core := { c with rot := { c.rot with sticky := true, dirty := true } }

/-- The stages of one fed row: rotator, row, words, folds, scalings. -/
def feedStages (n : Nat) (t : Rotator) (y : Row) : Rotator × List Nat × Nat × Nat :=
  let z := (List.range n).foldl (fun (s : Rotator × Row × List Nat × Nat × Nat) r =>
    let v := vecStage s.1.deferred r (s.1.row r) s.2.1
    (s.1.setRow r v.1, v.2.1, s.2.2.1 ++ [v.2.2.1], s.2.2.2.1 + v.2.2.2.1, s.2.2.2.2 + v.2.2.2.2)) (t, y, [], 0, 0)
  (z.1, z.2.2.1, z.2.2.2.1, z.2.2.2.2)
/-- One row of QRFEED: the core, folds and scalings (R185, R191). -/
def Core.feedRow (c : Core) (bf lg : Bool) (a : List Nat) (n i : Nat) : Core × Nat × Nat :=
  let off := a.getD 0 0 + i * a.getD 1 0
  let cols := (List.range n).map (fun k => if bf then toF32 2 0 (c.bufNat 2 (off + 2 * k) 2) else c.bufNat 2 (off + 4 * k) 4)
  let t := c.rot
  let count (t : Rotator) : Rotator := { t with fed := min 65535 (t.fed + 1), dirty := true }
  let pad (l : List Nat) : List Nat := (List.range 64).map (fun k => l.getD k angId)
  let log (c : Core) (l : List Nat) : Core := if lg then c.putF32s (a.getD 2 0 + 256 * i) l else c
  if allFin cols then
    let z := feedStages n t (rowOf cols).pad
    let ws := pad z.2.1
    (log { c with rot := count (z.1.setAngs ws) } ws, z.2.2.1, z.2.2.2)
  else
    let ws := pad []
    let fb := if t.firstBad = 0xFFFF then min t.fed 0xFFFE else t.firstBad
    (log { c with rot := count ({ t with sticky := true, firstBad := fb }.setAngs ws) } ws, 0, 0)
/-- QRFEED: the core, folds and scalings. -/
def Core.runFeed (c : Core) (bf lg : Bool) (a : List Nat) (n h : Nat) : Core × Nat × Nat :=
  (List.range h).foldl (fun (s : Core × Nat × Nat) i =>
    let r := s.1.feedRow bf lg a n i
    (r.1, s.2.1 + r.2.1, s.2.2 + r.2.2)) (c, 0, 0)

/-- One right-hand side of QRAPPLY by words (R186, R191). -/
def Core.applyRow (c : Core) (a : List Nat) (k n i : Nat) (ws : List Nat) : Core :=
  let z := a.getD 0 0
  let y := a.getD 1 0 + 4 * k * i
  let c := if (ws.take n).any angBad then c.rotSticky else c
  let act := (List.range n).filter (fun r => ws.getD r angId != angId && !(angBad (ws.getD r angId)))
  let b := c.f32s y k
  if !(allFin b) || act.any (fun r => !(allFin (c.f32s (z + 4 * k * r) k))) then
    (c.putF32s y (List.replicate k 0x7FC00006)).rotSticky
  else
    let p := act.foldl (fun (p : Core × Row) r =>
      let q := rotBy (ws.getD r angId) (rowOf (p.1.f32s (z + 4 * k * r) k)) p.2
      (p.1.putF32s (z + 4 * k * r) q.1.codes, q.2)) (c, rowOf b)
    p.1.putF32s y p.2.codes
/-- QRAPPLY. -/
def Core.runApply (c : Core) (lg : Bool) (a : List Nat) (k h n : Nat) : Core :=
  (List.range h).foldl (fun c i =>
    c.applyRow a k n i (if lg then c.f32s (a.getD 2 0 + 256 * i) 64 else (List.range 64).map c.rot.ang)) c

/-- The value of a triangular entry (R187). -/
def Rotator.entry (t : Rotator) (row col : Nat) : Nat :=
  if col < row then 0
  else
    let x := t.row row
    let f := gainF true x.g
    roundI 0 0 false false (x.m.getD col 0 * (f.1 : Nat)) (x.e - 59 - f.2)
/-- Element (i, j) of block B. -/
def Rotator.blk (t : Rotator) (b i j : Nat) : Nat :=
  t.entry (if b = 2 then i + 32 else i) (if b = 0 then j else j + 32)
/-- The status word of `qrread.st` (R187). -/
def Rotator.status (t : Rotator) : Nat := t.sticky.toNat + t.deferred.toNat * 2 + t.fed * 2 ^ 16 + t.firstBad * 2 ^ 32
/-- QRGAIN.imm: fold every row's gain (R188). -/
def Rotator.gainImm (t : Rotator) : Rotator :=
  if !t.deferred then t
  else { t with rows := t.rows.map (fun x => if x.g = 0 then x else x.fold), deferred := false, dirty := true }
/-- QRGAIN.def. -/
def Rotator.gainDef (t : Rotator) : Rotator := if t.deferred then t else { t with deferred := true, dirty := true }
/-- QRZERO (R184). -/
def Rotator.zero (t : Rotator) : Rotator := { Rotator.start with deferred := t.deferred, dirty := true }

/-- ANGIN's word of a lane, and whether it sets the flag (R189). -/
def angIn (rad : Bool) (v : Nat) : Nat × Bool :=
  if rad then (angOf v, false) else if angBad v then (angId, true) else (v, false)
/-- ANGIN (R189). -/
def Rotator.angIns (t : Rotator) (rad : Bool) (l : List Nat) : Rotator :=
  let p := l.map (angIn rad)
  { (t.setAngs (p.map Prod.fst)) with sticky := t.sticky || p.any Prod.snd, dirty := true }

/-- One pair of GROT: the outputs and whether the flag is set (R190, R191): a malformed word first, then an element that
is a NaN or infinity, then the identity word. -/
def grotPair (w x y : Nat) : Nat × Nat × Bool :=
  if angBad w then (0x7FC00005, 0x7FC00005, true)
  else if !(allFin [x, y]) then (0x7FC00006, 0x7FC00006, true)
  else if w == angId then (x, y, false)
  else
    let r := rotBy w (rowOf [x]) (rowOf [y])
    (r.1.codes.getD 0 0, r.2.codes.getD 0 0, false)
/-- GROT (R190). -/
def Core.runGrot (c : Core) (e : Nat) (a : List Nat) (p h : Nat) : Core :=
  (List.range h).foldl (fun c i =>
    let v := c.f32s (a.getD 0 0 + 8 * p * i) (2 * p)
    let s := 2 ^ e
    let out := (List.range p).foldl (fun (o : List Nat × Bool) k =>
      let c1 := k / s * (2 * s) + k % s
      let r := grotPair (c.rot.ang k) (v.getD c1 0) (v.getD (c1 + s) 0)
      ((o.1.set c1 r.1).set (c1 + s) r.2.1, o.2 || r.2.2)) (v, false)
    let c := c.putF32s (a.getD 1 0 + 8 * p * i) out.1
    if out.2 then c.rotSticky else c) c

/-- The effect of a command on the buffers and the rotator. -/
def Core.runRot (c : Core) (q : Cmd) : Core :=
  match q.op with
  | .qrfeed _ bf lg _ _ _ n h => (c.runFeed bf lg q.args n.val h.val).1
  | .qrapplySt _ _ _ k n => c.runApply false q.args k.val 1 n.val
  | .qrapplyLog _ _ _ _ k h n => c.runApply true q.args k.val h.val n.val
  | .qrread _ b true _ _ =>
    c.putF32s (q.args.getD 0 0) ((List.range 32).flatMap (fun i => (List.range 32).map (fun j => c.rot.blk b.val i j)))
  | .qrzero _ => { c with rot := c.rot.zero }
  | .qrgainImm _ => { c with rot := c.rot.gainImm }
  | .qrgainDef _ => { c with rot := c.rot.gainDef }
  | .angin _ rad _ _ => { c with rot := c.rot.angIns rad (q.data.map BitVec.toNat) }
  | .grot _ e _ _ p h => c.runGrot e.val q.args p.val h.val
  | _ => c
/-- The register writes of a command (R187, R189). -/
def Core.rotWrites (c : Core) (q : Cmd) : List Wr :=
  match q.op with
  | .qrread _ b false _ m => (List.range 32).flatMap (fun i => (List.range 32).map (fun j =>
      Wr.m (elemKey m.val i j) (BitVec.ofNat 32 (c.rot.blk b.val i j))))
  | .qrreadSt _ sx => [.s sx.val (BitVec.ofNat 64 c.rot.status)]
  | .angout _ rad m i => (List.range 64).map (fun k =>
      Wr.m (elemKey m.val (i.val + k / 32) (k % 32)) (BitVec.ofNat 32 (if rad then angRad (c.rot.ang k) else c.rot.ang k)))
  | _ => []

/-! ### The queue (R192, R193) -/

/-- Engine clk from a command's beginning to its completion (R193). -/
def Core.rotTime (c : Core) (q : Cmd) : Nat :=
  match q.op with
  | .qrfeed _ bf lg _ _ _ n h =>
    let r := c.runFeed bf lg q.args n.val h.val
    4 + 26 * (h.val + n.val - 1) + 8 * r.2.1 + 4 * r.2.2
  | .qrapplySt _ _ _ _ n => 4 + 26 * n.val
  | .qrapplyLog _ _ _ _ _ h n => 4 + 26 * (h.val + n.val - 1)
  | .qrread _ _ _ _ _ => 40
  | .qrzero _ => 66
  | .qrgainImm _ => 2 + 10 * (if c.rot.deferred then c.rot.rows.countP (fun x => x.g != 0) else 0)
  | .qrgainDef _ => 2
  | .angout _ _ _ _ | .angin _ _ _ _ => 6
  | .grot _ _ _ _ p h => 30 + ceilDiv (16 * h.val * p.val + 4 * p.val) 256
  | _ => 4
/-- The command at the head of the queue begins now. -/
def Core.rotBegin (c : Core) : Core :=
  match c.rotQ with
  | [] => c
  | q :: r => { c with rotQ := { q with start := c.eclk, due := c.eclk + c.rotTime q } :: r }
/-- A command enters the queue; counter 3 rises (R192). -/
def effRot (op : Instr) (data : List W32) (s : State) : State :=
  let cmd := s.cmdOf op (s.rotArgs op) allLanes data 0 0
  { ((s.modC (fun c =>
      let c := c.reserve s.fresh (rotSet op (s.rotArgs op))
      let first := c.rotQ.isEmpty
      let c := { c with rotQ := c.rotQ ++ [cmd] }
      if first then c.rotBegin else c)).ctrUp 3 1) with fresh := s.fresh + 1 }
/-- Registers that a command writes. -/
def rotRegs (i : Instr) : List Nat := (opInfo i).mwr.map Prod.snd

/-- ROTATOR_COMMAND_COMPLETE (R192, R193): the command at the head acts once its banks are awake, counter 3 falls, and the
next one begins. Log 13. -/
def execRotatorCommandComplete (core id : Nat) (s : State) : Out :=
  let c := s.core core
  match c.rotQ with
  | [] => .next s
  | q :: r =>
    if q.id != id || c.eclk < q.due then .next s
    else
      let w := c.wakeFor ((rotSpans q.op q.args).2.flatMap Span.banks)
      if w.2 != 0 then .next (s.modCore core (fun _ => { w.1 with rotQ := { q with due := c.eclk + w.2 } :: r }))
      else
        let k := { ((c.runRot q).release id) with rotQ := r }.rotBegin
        .next ((s.modCore core (fun _ => k)).landReg core q.gid 3 (rotRegs q.op) (c.rotWrites q))

/-- The meaning of a rotator command. -/
def rotSem (i : Instr) : Sem := { chk := chkRot i, hold := holdRot i, banks := banksRot i, eff := effRot i [] }

/-! ### The instructions, alone in their bundle -/

/-- QRFEED. -/
def execQrfeed (g : Guard) (bf lg : Bool) (sx sy sz : SReg) (n h : Fin 1024) (s : State) : Out :=
  s.issueSolo (.qrfeed g bf lg sx sy sz n h) (rotSem (.qrfeed g bf lg sx sy sz n h))
/-- QRAPPLY.st. -/
def execQrapplySt (g : Guard) (sx sy : SReg) (k n : Fin 1024) (s : State) : Out :=
  s.issueSolo (.qrapplySt g sx sy k n) (rotSem (.qrapplySt g sx sy k n))
/-- QRAPPLY.log. -/
def execQrapplyLog (g : Guard) (sx sy sz : SReg) (k h n : Fin 1024) (s : State) : Out :=
  s.issueSolo (.qrapplyLog g sx sy sz k h n) (rotSem (.qrapplyLog g sx sy sz k h n))
/-- QRREAD of a block. -/
def execQrread (g : Guard) (b : Fin 3) (a : Bool) (sx : SReg) (m : Fin 16) (s : State) : Out :=
  s.issueSolo (.qrread g b a sx m) (rotSem (.qrread g b a sx m))
/-- QRREAD.st. -/
def execQrreadSt (g : Guard) (sx : SReg) (s : State) : Out := s.issueSolo (.qrreadSt g sx) (rotSem (.qrreadSt g sx))
/-- QRZERO. -/
def execQrzero (g : Guard) (s : State) : Out := s.issueSolo (.qrzero g) (rotSem (.qrzero g))
/-- QRGAIN.imm. -/
def execQrgainImm (g : Guard) (s : State) : Out := s.issueSolo (.qrgainImm g) (rotSem (.qrgainImm g))
/-- QRGAIN.def. -/
def execQrgainDef (g : Guard) (s : State) : Out := s.issueSolo (.qrgainDef g) (rotSem (.qrgainDef g))
/-- ANGOUT. -/
def execAngout (g : Guard) (rad : Bool) (m : Fin 16) (i : Fin 32) (s : State) : Out :=
  s.issueSolo (.angout g rad m i) (rotSem (.angout g rad m i))
/-- The 64 lanes that ANGIN reads at issue (R189). -/
def State.angRows (s : State) (m i : Nat) : List W32 :=
  (List.range 64).map (fun k => s.curGrp.elem (elemKey m (i + k / 32) (k % 32)))
/-- ANGIN's meaning. -/
def anginSem (g : Guard) (rad : Bool) (m : Fin 16) (i : Fin 32) : Sem :=
  { rotSem (.angin g rad m i) with eff := fun s => effRot (.angin g rad m i) (s.angRows m.val i.val) s }
/-- ANGIN. -/
def execAngin (g : Guard) (rad : Bool) (m : Fin 16) (i : Fin 32) (s : State) : Out :=
  s.issueSolo (.angin g rad m i) (anginSem g rad m i)
/-- GROT. -/
def execGrot (g : Guard) (e : Fin 7) (sx sy : SReg) (p h : Fin 1024) (s : State) : Out :=
  s.issueSolo (.grot g e sx sy p h) (rotSem (.grot g e sx sy p h))

end Sys2Proof.Machine
end

