-- ==== Sys2Proof/Machine/Raster.lean ====
section
/-! DEFINITION. The shader engines' shared queue (R206), and RAST (R195 to R197, R366). -/

namespace Sys2Proof.Machine

/-! ### The queue of the shader engines (R206) -/

/-- The unit of a shader-engine command: 0 rasteriser, 1 traversal, 2 texture. -/
def gfxUnit (i : Instr) : Nat := match i with | .rast _ _ _ _ _ => 0 | .trace _ _ _ _ _ _ => 1 | _ => 2
/-- Send a command to its unit: n engine clk, then `wall` ticks of the bridge, and a captured result; counter 5 rises (R13, R206). -/
def State.gfxSend (s : State) (op : Instr) (act : W32) (args : List Nat) (data : List W32) (n wall : Nat) : State :=
  let due := s.curCore.eclk + n
  let cmd := { (s.cmdOf op args act data s.curCore.eclk due) with wall := wall }
  { ((s.modC (fun c => { c with gfxQ := c.gfxQ ++ [cmd] })).ctrUp 5 1) with fresh := s.fresh + 1 }
/-- Counter 5 at its limit (R151). -/
def holdGfx (s : State) : Bool × State := (s.curGrp.ctrs.getD 5 0 ≥ 65535, s)
/-- Is a command the oldest of its group on its unit (R206)? -/
def Core.gfxFirst (c : Core) (q : Cmd) : Bool :=
  match c.gfxQ.find? (fun x => x.gid == q.gid && gfxUnit x.op == gfxUnit q.op) with
  | some x => x.id == q.id
  | none => true
/-- Do two writes name one place: a register, an element or a byte? -/
def wrSame : Wr → Wr → Bool
  | .s x _, .s y _ => x == y
  | .p x _ _, .p y _ _ => x == y
  | .m x _, .m y _ => x == y
  | .a x _, .a y _ => x == y
  | .b x _, .b y _ => x == y
  | _, _ => false
/-- The registers of a command reach their group, but for those that a debugger has written since, and it leaves its unit; counter 5
falls as they land (R119, R206, R389). -/
def State.gfxDone (s : State) (q : Cmd) (ws : List Wr) : State :=
  (s.modCore q.core (fun c => { c with gfxQ := c.gfxQ.filter (fun x => x.id != q.id) })).landReg q.core q.gid 5
    ((opInfo q.op).mwr.map Prod.snd) (ws.filter (fun w => q.drop.all (fun d => !(wrSame w d))))

/-! ### RAST (R195, R196) -/

/-- A vertex: x and y in 1/256 pixel. -/
def vertex (v : Nat) : Int × Int := (sint 32 (fld v 0 32), sint 32 (fld v 32 32))
/-- The edge function of a to b at p (R196). -/
def edgeFn (a b p : Int × Int) : Int := (b.1 - a.1) * (p.2 - a.2) - (b.2 - a.2) * (p.1 - a.1)
/-- A triangle with its scissor. -/
structure Tri where
  v0 : Int × Int
  v1 : Int × Int
  v2 : Int × Int
  x0 : Nat
  y0 : Nat
  x1 : Nat
  y1 : Nat
/-- The operands of RAST: vertices, scissor, token. -/
def State.rastArgs (s : State) (sv sc st : SReg) : Tri × Nat :=
  let r (i : Nat) : Nat := (s.sr i).toNat
  let c := r sc.val
  ({ v0 := vertex (r sv.val), v1 := vertex (r (sv.val + 1)), v2 := vertex (r (sv.val + 2)), x0 := fld c 0 16, y0 := fld c 16 16,
     x1 := fld c 32 16, y1 := fld c 48 16 }, r st.val)
/-- Twice the signed area, in edge-function units. -/
def Tri.area (t : Tri) : Int := edgeFn t.v0 t.v1 t.v2
/-- Does the triangle cover nothing (R196)? -/
def Tri.degenerate (t : Tri) : Bool :=
  t.area == 0 || [t.v0.1, t.v0.2, t.v1.1, t.v1.2, t.v2.1, t.v2.2].any (fun x => x < -(2 ^ 27 : Nat) || ((2 ^ 27 - 1 : Nat) : Int) < x)
/-- Floor of a coordinate in pixels. -/
def pixel (x : Int) : Int := x / 256
/-- The candidate box: left, top, width, height (R196). -/
def Tri.box (t : Tri) : Int × Int × Nat × Nat :=
  let lx := max (pixel (min t.v0.1 (min t.v1.1 t.v2.1))) (t.x0 : Int)
  let hx := min (pixel (max t.v0.1 (max t.v1.1 t.v2.1))) ((t.x1 : Int) - 1)
  let ly := max (pixel (min t.v0.2 (min t.v1.2 t.v2.2))) (t.y0 : Int)
  let hy := min (pixel (max t.v0.2 (max t.v1.2 t.v2.2))) ((t.y1 : Int) - 1)
  if hx < lx || hy < ly then (lx, ly, 0, 0) else (lx, ly, (hx - lx + 1).toNat, (hy - ly + 1).toNat)
/-- The weights of a sample, oriented to a positive area: w0, w1, w2. -/
def Tri.weights (t : Tri) (px py : Int) : Int × Int × Int :=
  let p : Int × Int := (256 * px + 128, 256 * py + 128)
  let f (x : Int) : Int := if t.area < 0 then -x else x
  (f (edgeFn t.v1 t.v2 p), f (edgeFn t.v2 t.v0 p), f (edgeFn t.v0 t.v1 p))
/-- Does the edge a to b, in the orientation after negation, take its tie (R196)? -/
def Tri.tie (t : Tri) (a b : Int × Int) : Bool :=
  let d : Int × Int := if t.area < 0 then (a.1 - b.1, a.2 - b.2) else (b.1 - a.1, b.2 - a.2)
  0 < d.2 || (d.2 == 0 && d.1 < 0)
/-- Is a sample covered? -/
def Tri.covers (t : Tri) (w : Int × Int × Int) : Bool :=
  let one (x : Int) (a b : Int × Int) : Bool := 0 < x || (x == 0 && t.tie a b)
  one w.1 t.v1 t.v2 && one w.2.1 t.v2 t.v0 && one w.2.2 t.v0 t.v1
/-- Walk candidates from number k: at most `fuel` tests, at most 32 covered; the covered samples, the next number and
the number tested (R197). -/
def Tri.scan (t : Tri) : Nat → Nat → List (Nat × Nat × Nat × Nat) → List (Nat × Nat × Nat × Nat) × Nat
  | 0, k, acc => (acc, k)
  | f + 1, k, acc =>
    let b := t.box
    if b.2.2.1 * b.2.2.2 ≤ k || acc.length ≥ 32 then (acc, k)
    else
      let px := b.1 + (k % b.2.2.1 : Nat)
      let py := b.2.1 + (k / b.2.2.1 : Nat)
      let w := t.weights px py
      let q (x : Int) : Nat := if x == 0 then 0 else roundQ 0 0 false (x < 0) x.natAbs t.area.natAbs 0
      let acc := if t.covers w then acc ++ [(px.toNat, py.toNat, q w.2.1, q w.2.2)] else acc
      Tri.scan t f (k + 1) acc
/-- The done token. -/
def rastDone : Nat := 2 ^ 63
/-- One issue of RAST: the 96 words of h0 to h2, the token, the candidates tested (R197). -/
def rastRun (t : Tri) (tok : Nat) : List W32 × Nat × Nat :=
  let k := fld tok 0 32
  let n := t.box.2.2.1 * t.box.2.2.2
  let r : List (Nat × Nat × Nat × Nat) × Nat := if bitN tok 63 || t.degenerate then ([], k) else t.scan 256 k []
  let lane (i : Nat) (f : Nat × Nat × Nat × Nat → Nat) (e : Nat) : W32 := BitVec.ofNat 32 ((r.1[i]?.map f).getD e)
  let rows := (List.range 32).map (fun i => lane i (fun x => x.1 + x.2.1 * 2 ^ 16) 0xFFFFFFFF)
    ++ (List.range 32).map (fun i => lane i (fun x => x.2.2.1) 0) ++ (List.range 32).map (fun i => lane i (fun x => x.2.2.2) 0)
  let next := if bitN tok 63 then tok else if t.degenerate || n ≤ r.2 then rastDone else r.2
  (rows, next, r.2 - k)
/-- The submission that a start token counts (R366). -/
def State.rastStat (s : State) (t : Tri) (tok : Nat) : State :=
  let cl (x : Int) : Nat := (max 0 (min 65534 (pixel x))).toNat
  let ax := cl t.v0.1
  let ay := cl t.v0.2
  if bitN tok 63 || fld tok 0 32 != 0 || !(t.x0 ≤ ax && ax < t.x1 && t.y0 ≤ ay && ay < t.y1) then s
  else s.stat s.lpb.ident (fun x =>
    if t.degenerate then { x with culled := (x.culled + 1) % 2 ^ 64 } else { x with prims := (x.prims + 1) % 2 ^ 64 })
/-- RAST (R197, R206). -/
def effRast (op : Instr) (sv sc st : SReg) (s : State) : State :=
  let a := s.rastArgs sv sc st
  let r := rastRun a.1 a.2
  (s.rastStat a.1 a.2).gfxSend op allLanes [r.2.1] r.1 (20 + ceilDiv r.2.2 16) 0
/-- The register writes of a captured result in rows from h0 (R197, R204, R205). -/
def rowWrites (m : Nat) (act : W32) (data : List W32) : List Wr :=
  ((List.range data.length).zip data).filterMap (fun p =>
    if bitOn act (p.1 % 32) then some (Wr.m (elemKey m (p.1 / 32) (p.1 % 32)) p.2) else none)
/-- The writes of RAST. -/
def rastWrites (q : Cmd) (m st : Nat) : List Wr := rowWrites m allLanes q.data ++ [.s st (BitVec.ofNat 64 (q.args.getD 0 0))]

/-- RAST. -/
def execRast (g : Guard) (m : Fin 16) (sv sc st : SReg) (s : State) : Out :=
  s.issueSolo (.rast g m sv sc st) { hold := holdGfx, eff := effRast (.rast g m sv sc st) sv sc st }

end Sys2Proof.Machine
end

