-- ==== Sys2Proof/Machine/Texture.lean ====
section
/-! DEFINITION. Texture descriptors and sampling (R202, R203), TEXS and TEXG (R204, R205). -/

namespace Sys2Proof.Machine

/-! ### Descriptors (R202) -/

/-- The fields of a texture descriptor. -/
structure Tex where
  base : Nat
  w : Nat
  h : Nat
  levels : Nat
  fmt : Nat
  wu : Nat
  wv : Nat
  nearest : Bool
deriving DecidableEq, Repr

/-- The fields of a descriptor image. -/
def texOf (b : List Byte) : Tex :=
  let wr := imgNat b 14 1
  { base := imgNat b 0 8, w := imgNat b 8 2 + 1, h := imgNat b 10 2 + 1, levels := imgNat b 12 1, fmt := imgNat b 13 1,
    wu := fld wr 0 2, wv := fld wr 2 2, nearest := imgNat b 15 1 == 1 }
/-- Does a descriptor image hold a value outside its fields' ranges (R202)? -/
def texBad (b : List Byte) : Bool :=
  let t := texOf b
  t.base % 256 != 0 || t.levels == 0 || 16 < t.levels || 3 < t.fmt || t.wu == 3 || t.wv == 3 || fld (imgNat b 14 1) 4 4 != 0
    || 1 < imgNat b 15 1 || imgNat b 16 48 != 0
/-- Bytes of a texel. -/
def Tex.bpt (t : Tex) : Nat := if t.fmt = 1 then 8 else 4
/-- Width of a level. -/
def Tex.wl (t : Tex) (l : Nat) : Nat := max 1 (t.w / 2 ^ l)
/-- Height of a level. -/
def Tex.hl (t : Tex) (l : Nat) : Nat := max 1 (t.h / 2 ^ l)
/-- Pitch of a level. -/
def Tex.pitch (t : Tex) (l : Nat) : Nat := 256 * ceilDiv (t.wl l * t.bpt) 256
/-- Base of a level. -/
def Tex.baseOf (t : Tex) : Nat → Nat
  | 0 => t.base
  | l + 1 => Tex.baseOf t l + t.pitch l * t.hl l
/-- Address of a texel. -/
def Tex.addr (t : Tex) (l x y : Nat) : Nat := (t.baseOf l + y * t.pitch l + x * t.bpt) % 2 ^ 56
/-- Wrap an integer coordinate (R203): repeat, clamp, mirror. -/
def wrapAt (mode : Nat) (n : Nat) (i : Int) : Nat :=
  if mode = 0 then (i % (n : Int)).toNat
  else if mode = 1 then (max 0 (min ((n : Int) - 1) i)).toNat
  else
    let m := (i % ((2 * n : Nat) : Int)).toNat
    if m < n then m else 2 * n - 1 - m
/-- A texel's four channels as FP32 codes (R203). -/
def Tex.channels (t : Tex) (v : Nat) : List Nat :=
  let one := 0x3F800000
  match t.fmt with
  | 0 => (List.range 4).map (fun i => let c := fld v (8 * i) 8; if c = 0 then 0 else roundQ 0 0 false false c 255 0)
  | 1 => (List.range 4).map (fun i => toF32 1 0 (fld v (16 * i) 16))
  | 2 => [fld v 0 32, 0, 0, one]
  | _ => [toF32 1 0 (fld v 0 16), toF32 1 0 (fld v 16 16), 0, one]

/-! ### Footprints (R204) -/

/-- One coordinate of a lane: the integer part and the 8-bit fraction of u * n - 0.5 (R204). -/
def footprint (m e : Int) (n : Nat) : Int × Nat :=
  -- u * n - 1/2 as num / den
  let x := scaleQ 1 2 (min e 0)
  let den : Nat := x.2
  let num : Int := m * ((2 ^ (max e 0).toNat * n * 2 : Nat) : Int) - ((den / 2 : Nat) : Int)
  let ix := num / (den : Int)
  let fr := (num - ix * (den : Int)).toNat
  let fa := rndInt 0 false (fr * 256) den
  if fa = 256 then (ix + 1, 0) else (ix, fa)
/-- floor(u * n) (R204, nearest). -/
def nearestAt (m e : Int) (n : Nat) : Int :=
  let v := m * (n : Int)
  if e ≥ 0 then v * ((2 ^ e.toNat : Nat) : Int) else v / ((2 ^ (-e).toNat : Nat) : Int)
/-- The texels of a lane at a level: the wrapped coordinates of T00, T10, T01 and T11, and the fractions; for a NaN or
infinite coordinate, none. Under the nearest filter the one texel. -/
def Tex.taps (t : Tex) (near : Bool) (l u v : Nat) : Option (List (Nat × Nat) × Nat × Nat) :=
  match finOf u, finOf v with
  | some a, some b =>
    let W := t.wl l
    let H := t.hl l
    if near then some ([(wrapAt t.wu W (nearestAt a.1 a.2 W), wrapAt t.wv H (nearestAt b.1 b.2 H))], 0, 0)
    else
      let x := footprint a.1 a.2 W
      let y := footprint b.1 b.2 H
      let p (i j : Int) : Nat × Nat := (wrapAt t.wu W (x.1 + i), wrapAt t.wv H (y.1 + j))
      some ([p 0 0, p 1 0, p 0 1, p 1 1], x.2, y.2)
  | _, _ => none
/-- The channel of a footprint that holds a NaN texel, for which the spec states no sum: an open value (log 6) that, where
it is a NaN, is one of the NaN texels made quiet or the generated NaN of cause 001 (R100). -/
def nanTexel (free : Nat) (l : List Nat) : Nat :=
  let w := Config.choice free % 2 ^ 32
  let c := (l.filter (fun x => (fdec 0 x).isNan)).map (quiet 0) ++ [genNan 0 1]
  if (fdec 0 w).isNan then c.getD (w % c.length) (genNan 0 1) else w
/-- One filtered channel from the four texels' values (R204): the exact weighted sum and its one rounding; over infinite
texels zero times infinity, infinity minus infinity or an infinity, with the causes in their order (R100, R101). -/
def bilerp (free : Nat) (l : List Nat) (fa fb : Nat) : Nat :=
  let ws := [(256 - fa) * (256 - fb), fa * (256 - fb), (256 - fa) * fb, fa * fb]
  match sumProducts ((ws.zip l).map (fun p => (FVal.fin false p.1 0, fdec 0 p.2))) with
  | .sum v e nz => roundI 0 0 false nz v (e - 16)
  | .inf neg => if neg then 0xFF800000 else 0x7F800000
  | .nan 1 => nanTexel free l
  | .nan k => genNan 0 k
/-- The four result words of TEXS from its texels (R204). -/
def Tex.texs (_t : Tex) (free : Nat) (x : List (List Nat)) (fa fb : Nat) : List Nat :=
  match x with
  | [c] => c
  | _ => (List.range 4).map (fun ch => bilerp (free + ch) (x.map (fun c => c.getD ch 0)) fa fb)
/-- The level of TEXS (R204): a NaN gives 0. -/
def texLevel (t : Tex) (x : Nat) : Nat :=
  match fdec 0 x with
  | .nan _ _ => 0
  | .inf neg => if neg then 0 else t.levels - 1
  | .fin neg m e =>
    let q := scaleQ m 1 e
    if neg then 0 else min (t.levels - 1) (rndInt 0 false q.1 q.2)

/-! ### The probe stage (R202, R225) -/

/-- What a texture command reads of a descriptor: its level and filter. -/
structure TexOp where
  gather : Option Nat                     -- TEXG's channel
  mI : Nat
  sh : SReg
  sl : SReg

/-- The descriptor address. -/
def State.texVa (s : State) (o : TexOp) : Nat := (s.sr o.sh.val).toNat
/-- Bytes of virtual memory that translate, through the core's own path. -/
def State.texBytes (s : State) (va n : Nat) : List Byte × State :=
  let s := s.settleWalk (coreDie s.cur.core) s.root (va % 2 ^ 56)
  match s.xlatNow s.cur.core s.root (va % 2 ^ 56) with
  | .ok (leaf, size) => s.loadG s.cur.core s.curGrp.launch (leafPa leaf size (va % 2 ^ 56)) n 0 (leafType leaf)
  | .error _ => (List.replicate n 0, s)
/-- The descriptor of the command. -/
def State.texDesc (s : State) (o : TexOp) : Tex := texOf (s.texBytes (s.texVa o) 64).1
/-- The level of the command. -/
def State.texLev (s : State) (o : TexOp) (t : Tex) : Nat :=
  if o.gather.isSome then 0 else texLevel t (fld (s.sr o.sl.val).toNat 0 32)
/-- The taps of each acting lane. -/
def State.texLanes (s : State) (o : TexOp) (act : W32) (t : Tex) : List (Nat × Option (List (Nat × Nat) × Nat × Nat)) :=
  (lanesOf act).map (fun j =>
    (j, t.taps (o.gather.isNone && t.nearest) (s.texLev o t) (s.curGrp.elem (elemKey o.mI 0 j)).toNat
      (s.curGrp.elem (elemKey o.mI 1 j)).toNat))
/-- The data-error fault of a sector of the command (R207, R373). -/
def State.texErr (s : State) (va n : Nat) : Chk :=
  match s.xlatNow s.cur.core s.root (va % 2 ^ 56) with
  | .ok (leaf, size) =>
    (match s.badFor s.cur.core (leafPa leaf size (va % 2 ^ 56)) n with
     | some b => .trap (trapOf 0x14 4 0 s.curSlot.pc.toNat b 0)
     | none => .ok)
  | .error _ => .ok
/-- The lanes of a texture command that a permission fault marks (R219). -/
def State.texMarks (s : State) (o : TexOp) (act : W32) (t : Tex) : List Mark :=
  (s.texLanes o act t).filterMap (fun p =>
    match p.2 with
    | none => none
    | some q =>
      (q.1.map (fun c => t.addr (s.texLev o t) c.1 c.2)).findSome? (fun va =>
        match s.lookup s.cur.core s.root va with
        | some (.ok (leaf, _)) => if permits (leafPerm leaf) .r s.priv then none else some { j := p.1, kind := 3, addr := va }
        | _ => none))
/-- The texel addresses of a command, each once. -/
def State.texVas (s : State) (o : TexOp) (act : W32) (t : Tex) : List Nat :=
  ((s.texLanes o act t).flatMap (fun p => (p.2.map (fun q => q.1.map (fun c => t.addr (s.texLev o t) c.1 c.2))).getD [])).eraseDups
/-- Checks of TEXS and TEXG: the descriptor, then every texel address (R202, R225). -/
def chkTex (o : TexOp) (act : State → W32) (s : State) : Chk :=
  let va := s.texVa o
  if va % 64 != 0 then .trap (trapOf 0x11 4 2 va 0 0)
  else match (s.rangeChk 4 va 64 .r).orElse (s.texErr va 64) with
    | .ok =>
      let b := (s.texBytes va 64).1
      if texBad b then .trap (trapOf 0x11 4 2 va 0 0)
      else
        let t := texOf b
        let addrs := s.texVas o (act s) t
        let looks := addrs.map (fun v => (v, s.lookup s.cur.core s.root v))
        match looks.filterMap (fun p => if p.2.isNone then some p.1 else none) with
        | v :: r => .walk (v :: r)
        | [] =>
          match looks.find? (fun p => match p.2 with | some (.error .notPresent) => true | _ => false) with
          | some p => .suspend p.1 .r
          | none =>
            Chk.first (looks.map (fun p => match p.2 with
                | some (.error f) => .trap (f.trap 4 p.1 s.curSlot.pc.toNat)
                | _ => .ok) ++
              [(let m := s.texMarks o (act s) t
                if s.recordMode then .ok
                else match m with
                  | y :: _ => .trap (trapOf 0x09 4 0 y.j y.kind y.addr)
                  | [] => .ok)] ++ addrs.map (fun v => s.texErr v t.bpt))
    | c => c
/-- Read the texels of a list of coordinates. -/
def State.texRead (s : State) (t : Tex) (l : Nat) : List (Nat × Nat) → List (List Nat) × State
  | [] => ([], s)
  | c :: r =>
    let b := s.texBytes (t.addr l c.1 c.2) t.bpt
    let q := State.texRead b.2 t l r
    (t.channels (leNat b.1) :: q.1, q.2)
/-- Ticks of the bridge to the homes of some virtual addresses and back, where the core's own path does not hold their lines (R13, R15). -/
def State.vasWall (s : State) (vas : List Nat) : Nat :=
  vas.foldl (fun w va => match s.xlatNow s.cur.core s.root (va % 2 ^ 56) with
    | .ok (leaf, size) =>
      let pa := leafPa leaf size (va % 2 ^ 56)
      if s.ownPath s.cur.core 0 (leafType leaf) && (kget (s.canon pa / 128) s.curCore.lines).isSome then w
      else max w (s.homeTicks (coreDie s.cur.core) pa)
    | .error _ => w) 0
/-- TEXS and TEXG: the results are captured at issue (R206, R241); the free counter advances by 4 a lane (log 6). -/
def effTex (op : Instr) (o : TexOp) (act : State → W32) (s : State) : State :=
  let t := s.texDesc o
  let l := s.texLev o t
  let marks := s.texMarks o (act s) t
  let mask := (act s) &&& ~~~(BitVec.ofNat 32 (marks.foldl (fun a m => a ||| 2 ^ m.j) 0))
  let lanes := s.texLanes o mask t
  let vas := s.texVa o % 2 ^ 56 :: s.texVas o (act s) t
  let wall := s.vasWall vas
  let s := s.noteMisses s.cur.core s.root vas
  let d := (s.recordMarks marks).texBytes (s.texVa o) 64
  let r := lanes.foldl (fun (a : List (Nat × List Nat) × State) p =>
    match p.2 with
    | none => (a.1 ++ [(p.1, [0, 0, 0, 0])], a.2)
    | some q =>
      let x := a.2.texRead t l q.1
      let v := match o.gather with
        | some ch => (List.range 4).map (fun k => (x.1.getD k []).getD ch 0)
        | none => t.texs x.2.free x.1 q.2.1 q.2.2
      (a.1 ++ [(p.1, v)], { x.2 with free := x.2.free + 4 })) ([], d.2)
  let data := (List.range 128).map (fun k =>
    BitVec.ofNat 32 (((r.1.find? (fun p => p.1 == k % 32)).map (fun p => p.2.getD (k / 32) 0)).getD 0))
  let s := r.2
  { s with free := s.free + 1 }.gfxSend op mask [] data (40 + Config.latency s.free) wall

/-- The operands of TEXS. -/
def texsOp (mI : Fin 16) (sh sl : SReg) : TexOp := { gather := none, mI := mI.val, sh := sh, sl := sl }
/-- The operands of TEXG. -/
def texgOp (ch : Fin 4) (mI : Fin 16) (sh : SReg) : TexOp := { gather := some ch.val, mI := mI.val, sh := sh, sl := sh }
/-- The meaning of a texture command. -/
def texSem (op : Instr) (g : Guard) (o : TexOp) : Sem :=
  { chk := chkTex o (fun s => s.act g), hold := holdGfx, eff := effTex op o (fun s => s.act g) }

/-- TEXS. -/
def execTexs (g : Guard) (mO mI : Fin 16) (sh sl : SReg) (s : State) : Out :=
  s.issueSolo (.texs g mO mI sh sl) (texSem (.texs g mO mI sh sl) g (texsOp mI sh sl))
/-- TEXG. -/
def execTexg (g : Guard) (ch : Fin 4) (mO mI : Fin 16) (sh : SReg) (s : State) : Out :=
  s.issueSolo (.texg g ch mO mI sh) (texSem (.texg g ch mO mI sh) g (texgOp ch mI sh))

end Sys2Proof.Machine
end

