-- ==== Sys2Proof/Machine/Trace.lean ====
section
/-! DEFINITION. TRACE (R198 to R201): exact tests, the traversal with its parked state, and the completion of every
shader-engine command (R206). -/

namespace Sys2Proof.Machine

/-! ### Exact arithmetic of the tests (R199) -/

/-- A sum of products as an FP32 code, rounded once. -/
def PSum.code : PSum → Nat
  | .nan k => genNan 0 k
  | .inf n => if n then 0xFF800000 else 0x7F800000
  | .sum v e nz => roundI 0 0 false nz v e
/-- The negative of a decoded value. -/
def FVal.neg (x : FVal) : FVal := x.flip true
/-- One, decoded. -/
def fOne : FVal := .fin false 1 0
/-- The exact sum of products of codes, rounded once. -/
def dotC (l : List (FVal × FVal)) : Nat := (sumProducts l).code
/-- The exact difference of two codes over a third, rounded once; a NaN where the quotient has no value. An exact zero
quotient is +0 whatever the divisor's sign, for which the spec has no rule (log 67). -/
def diffQ (a b d : Nat) : Nat :=
  match sumProducts [(fdec 0 a, fOne), ((fdec 0 b).neg, fOne)], fdec 0 d with
  | .nan _, _ => genNan 0 1
  | _, .nan _ _ => genNan 0 1
  | .inf _, .inf _ => genNan 0 4
  | .inf n, .fin neg _ _ => if n != neg then 0xFF800000 else 0x7F800000
  | .sum _ _ _, .inf _ => 0
  | .sum v e _, .fin neg m ed =>
    if m = 0 then genNan 0 4
    else if v = 0 then 0 else roundQ 0 0 false ((v < 0) != neg) v.natAbs m (e - ed)
/-- The exact quotient of two codes, rounded once. -/
def quotC (a d : Nat) : Nat := diffQ a 0 d
/-- a at most b: false where one is a NaN. -/
def fle (a b : Nat) : Bool := match fcmp 0 a b with | some .lt => true | some .eq => true | _ => false
/-- a below b. -/
def flt (a b : Nat) : Bool := fcmp 0 a b == some .lt
/-- Is a code a NaN? -/
def nanC (x : Nat) : Bool := (fdec 0 x).isNan
/-- The larger of two codes. -/
def fmaxC (a b : Nat) : Nat := if flt a b then b else a
/-- The smaller of two codes. -/
def fminC (a b : Nat) : Nat := if flt b a then b else a

/-- The ray of eight words (R199). -/
def rayOf (w : List W32) : Ray :=
  let f (i : Nat) : Nat := (w.getD i 0).toNat
  { o := [f 0, f 1, f 2], d := [f 3, f 4, f 5], tmin := f 6, tmax := f 7 }
/-- Status 5 (R200). -/
def Ray.invalid (r : Ray) : Bool := !(allFin r.o) || r.d.any nanC || flt r.tmax r.tmin

/-- The low and high of one axis of a box, ordered by the direction's sign; none where the axis fails (R199). -/
def Ray.axis (r : Ray) (b : List Nat) (k : Nat) : Option (Nat × Nat) :=
  let o := r.o.getD k 0
  let d := r.d.getD k 0
  let lo := b.getD k 0
  let hi := b.getD (k + 3) 0
  if fcmp 0 d 0 == some .eq then (if fle lo o && fle o hi then some (0xFF800000, 0x7F800000) else none)
  else
    let p := diffQ lo o d
    let q := diffQ hi o d
    if nanC p || nanC q then none else if flt d 0 then some (q, p) else some (p, q)
/-- The box test: the entry t of a box that is hit, with the best t so far (R199). -/
def Ray.box (r : Ray) (b : List Nat) (best : Nat) : Option Nat :=
  match r.axis b 0, r.axis b 1, r.axis b 2 with
  | some x, some y, some z =>
    let lo := fmaxC x.1 (fmaxC y.1 z.1)
    let hi := fminC x.2 (fminC y.2 z.2)
    if fle lo hi && fle r.tmin hi && fle lo best && fle r.tmin best then some lo else none
  | _, _, _ => none
/-- The ray in an instance's space: M(o, 1) and M(d, 0), each component rounded once (R199). -/
def Ray.into (r : Ray) (m : List Nat) : Ray :=
  let row (k : Nat) (v : List Nat) (last : FVal) : Nat :=
    dotC ((List.range 3).map (fun j => (fdec 0 (m.getD (4 * k + j) 0), fdec 0 (v.getD j 0))) ++ [(fdec 0 (m.getD (4 * k + 3) 0), last)])
  { r with o := (List.range 3).map (fun k => row k r.o fOne), d := (List.range 3).map (fun k => row k r.d (.fin false 0 0)) }
/-- A component of a cross product, rounded once. -/
def crossC (a b : List Nat) (k : Nat) : Nat :=
  let g (v : List Nat) (i : Nat) : FVal := fdec 0 (v.getD (i % 3) 0)
  dotC [(g a (k + 1), g b (k + 2)), ((g a (k + 2)).neg, g b (k + 1))]
/-- A cross product. -/
def cross (a b : List Nat) : List Nat := (List.range 3).map (crossC a b)
/-- A dot product, rounded once. -/
def dot3 (a b : List Nat) : Nat := dotC ((a.zip b).map (fun p => (fdec 0 p.1, fdec 0 p.2)))
/-- A componentwise difference. -/
def sub3 (a b : List Nat) : List Nat := (a.zip b).map (fun p => fsub 0 0 false p.1 p.2)
/-- Is u + v at most 1, exactly? -/
def sumLe1 (u v : Nat) : Bool :=
  match sumProducts [(fdec 0 u, fOne), (fdec 0 v, fOne), (.fin true 1 0, fOne)] with
  | .sum x _ _ => x ≤ 0
  | .inf n => n
  | .nan _ => false
/-- The triangle test: t, u and v of a hit (R199). -/
def Ray.tri (r : Ray) (v0 v1 v2 : List Nat) (cull : Bool) (best : Nat) : Option (Nat × Nat × Nat) :=
  let e1 := sub3 v1 v0
  let e2 := sub3 v2 v0
  let sv := sub3 r.o v0
  let pv := cross r.d e2
  let qv := cross sv e1
  let det := dot3 e1 pv
  let uu := dot3 sv pv
  let vv := dot3 r.d qv
  let tt := dot3 e2 qv
  if (e1 ++ e2 ++ sv ++ pv ++ qv ++ [det, uu, vv, tt]).any nanC || fcmp 0 det 0 == some .eq || (cull && flt det 0) then none
  else
    let u := quotC uu det
    let v := quotC vv det
    let t := quotC tt det
    if nanC u || nanC v || nanC t then none
    else if fle 0 u && fle 0 v && sumLe1 u v && fle r.tmin t && fle t best then some (t, u, v) else none

/-! ### The traversal of one lane (R198 to R200) -/

/-- Why a lane's traversal ends before every node is visited. -/
inductive Stop where
  | fault                                 -- status 4
  | page (va : Nat)                       -- a not-present page (R200)
  | first                                 -- the first accepted hit under first-hit
  | pending (h : Hit)                     -- a procedural leaf (status 2)
deriving DecidableEq, Repr

/-- A traversal under way: memory state, best hit, reports still to use, why it has stopped, and the nodes that it has then
yet to finish, innermost first. -/
structure Trav where
  s : State
  best : Option Hit
  reports : List (List W32)
  stop : Option Stop
  path : List TraceFrame

/-- What the lanes of a command share: core, launch, root, privilege, flags. -/
structure TraceEnv where
  core : Nat
  launch : Nat
  root : Nat
  priv : Bool
  mask : Nat
  first : Bool
  cull : Bool

/-- Where n bytes of one page stand, with the memory type, or the stop (R200). -/
def TraceEnv.part (e : TraceEnv) (s : State) (va n : Nat) : Except Stop (Nat × Nat) :=
  match s.xlatNow e.core e.root (va % 2 ^ 56) with
  | .error .notPresent => .error (.page (va % 2 ^ 56))
  | .error _ => .error .fault
  | .ok (leaf, size) =>
    let pa := leafPa leaf size (va % 2 ^ 56)
    if !(permits (leafPerm leaf) .r e.priv) || (List.range (ceilDiv n 64)).any (fun i => (s.badFor e.core (pa + 64 * i) (min 64 (n - 64 * i))).isSome)
    then .error .fault
    else .ok (pa, leafType leaf)
/-- Read n bytes of a 64-byte-aligned structure: the bytes, or the stop (R200). A node can lie in two lines and in two pages
(R198); what one translation gives reaches to the next 256 bytes, which every swizzle keeps together (R221). -/
def TraceEnv.read (e : TraceEnv) (s : State) (va n : Nat) : Except Stop (List Byte × State) :=
  let m := min n (256 - va % 256)
  let s := (s.settleWalk (coreDie e.core) e.root (va % 2 ^ 56)).settleWalk (coreDie e.core) e.root ((va + n - 1) % 2 ^ 56)
  match e.part s va m, (if m < n then e.part s (va + m) (n - m) else .ok (0, 0)) with
  | .error x, _ => .error x
  | .ok _, .error x => .error x
  | .ok p, .ok q =>
    let a := s.loadSpan e.core e.launch p.1 m 0 p.2
    let b := a.2.loadSpan e.core e.launch q.1 (n - m) 0 q.2
    .ok (a.1 ++ b.1, b.2)

/-- The best t so far. -/
def Trav.bestT (t : Trav) (r : Ray) : Nat := match t.best with | some h => h.t | none => r.tmax
/-- A hit competes: a smaller t, or an equal t with smaller (instance id, id) (R199). -/
def Trav.compete (t : Trav) (e : TraceEnv) (h : Hit) : Trav :=
  let wins : Bool := match t.best with
    | none => true
    | some b => flt h.t b.t || (fcmp 0 h.t b.t == some .eq && (h.inst < b.inst || (h.inst == b.inst && h.id < b.id)))
  { t with best := if wins then some h else t.best, stop := if e.first then some .first else t.stop }

/-- The words of a structure. -/
def words4 (b : List Byte) (off n : Nat) : List Nat := (List.range n).map (fun i => imgNat b (off + 4 * i) 4)

/-- The texels of a list of coordinates, as the traversal unit reads them. -/
def TraceEnv.texels (e : TraceEnv) (x : Tex) : State → List (Nat × Nat) → Except Stop (List (List Nat) × State)
  | s, [] => .ok ([], s)
  | s, c :: r =>
    match e.read s (x.addr 0 c.1 c.2) x.bpt with
    | .error p => .error p
    | .ok b =>
      match TraceEnv.texels e x b.2 r with
      | .error p => .error p
      | .ok q => .ok (x.channels (leNat b.1) :: q.1, q.2)

/-- The alpha of a leaf at u and v: level 0 of its texture by the rule of TEXS (R199). A descriptor that is misaligned
or out of range is a structure fault (R200). -/
def TraceEnv.alpha (e : TraceEnv) (s : State) (leaf : List Byte) (u v : Nat) : Except Stop (Nat × State) :=
  let va := imgNat leaf 40 8
  if va % 64 != 0 then .error .fault
  else match e.read s va 64 with
    | .error x => .error x
    | .ok (d, s) =>
      if texBad d then .error .fault
      else
        let x := texOf d
        let w : FVal := match sumProducts [(fOne, fOne), ((fdec 0 u).neg, fOne), ((fdec 0 v).neg, fOne)] with
          | .sum n k _ => .fin (n < 0) n.natAbs k
          | _ => .nan false 1
        let co (k : Nat) : Nat :=
          let uv (i : Nat) : FVal := fdec 1 (imgNat leaf (48 + 4 * i + 2 * k) 2)
          dotC [(w, uv 0), (fdec 0 u, uv 1), (fdec 0 v, uv 2)]
        match x.taps x.nearest 0 (co 0) (co 1) with
        | none => .ok (0, s)
        | some q =>
          match e.texels x s q.1 with
          | .error y => .error y
          | .ok (t, s) => .ok ((x.texs s.free t q.2.1 q.2.2).getD 3 0, { s with free := s.free + 4 })

/-- A triangle leaf (R198, R199). -/
def TraceEnv.triLeaf (e : TraceEnv) (t : Trav) (r : Ray) (inst va : Nat) : Trav :=
  match e.read t.s va 64 with
  | .error x => { t with stop := some x }
  | .ok (b, s) =>
    let t := { t with s := s }
    match r.tri (words4 b 0 3) (words4 b 12 3) (words4 b 24 3) e.cull (t.bestT r) with
    | none => t
    | some h =>
      let hit : Hit := { t := h.1, id := imgNat b 36 4, inst := inst, a := h.2.1, b := h.2.2, status := 1 }
      if bitN (imgNat b 62 1) 0 || imgNat b 40 8 == 0 then t.compete e hit
      else match e.alpha s b h.2.1 h.2.2 with
        | .error x => { t with stop := some x }
        | .ok (a, s) =>
          let t := { t with s := s }
          if fle (toF32 1 0 (imgNat b 60 2)) a then t.compete e hit else t

/-- A procedural leaf: what the program has reported for it competes; without a report the lane is pending (R200,
R201). -/
def TraceEnv.procLeaf (e : TraceEnv) (t : Trav) (r : Ray) (inst va entry : Nat) : Trav :=
  match e.read t.s va 32 with
  | .error x => { t with stop := some x }
  | .ok (b, s) =>
    let t := { t with s := s }
    let h : Hit := { t := entry, id := imgNat b 0 4, inst := inst, a := imgNat b 8 4, b := imgNat b 12 4, status := 2 }
    match t.reports with
    | [] => { t with stop := some (.pending h) }
    | w :: rest =>
      let t := { t with reports := rest }
      let rt := (w.getD 0 0).toNat
      if w.getD 2 0 == 3 && fle r.tmin rt && fle rt (t.bestT r) then
        t.compete e { h with t := rt, id := (w.getD 1 0).toNat, status := 3 }
      else t

/-- Child c of a node whose box the ray hits: by its kind, a deeper node by `rec` (R198). -/
def TraceEnv.child (e : TraceEnv) (rec : Trav → Ray → Bool → Nat → Nat → Trav) (f : TraceFrame) (t : Trav) (c : Nat) : Trav :=
  let ref := imgNat f.node (32 * c + 24) 8
  let k := fld ref 60 4
  let to_ := fld ref 0 56
  if k = 0 then t
  else match f.ray.box (words4 f.node (32 * c) 6) (t.bestT f.ray) with
    | none => t
    | some entry =>
      if 4 < k || to_ % 64 != 0 then { t with stop := some .fault }
      else if k = 1 then rec t f.ray f.top f.inst to_
      else if k = 3 then e.triLeaf t f.ray f.inst to_
      else if k = 4 then e.procLeaf t f.ray f.inst to_ entry
      else if !f.top then { t with stop := some .fault }
      else match e.read t.s to_ 64 with
        | .error x => { t with stop := some x }
        | .ok (i, s) =>
          let t := { t with s := s }
          if imgNat i 60 1 &&& e.mask == 0 then t
          else rec t (f.ray.into (words4 i 0 12)) false (imgNat i 56 4) (imgNat i 48 8)
/-- The children of a node from the next one on, in order. Where the traversal stops, the node is kept with the child at which
it resumes: that child again, or the one after it where a node below it is kept (R200, R201). -/
def TraceEnv.children (e : TraceEnv) (rec : Trav → Ray → Bool → Nat → Nat → Trav) (f : TraceFrame) (t : Trav) : Trav :=
  ((List.range 4).filter (fun c => f.next ≤ c)).foldl (fun t c =>
    if t.stop.isSome then t
    else
      let u := e.child rec f t c
      if u.stop.isNone then u
      else { u with path := u.path ++ [{ f with next := if u.path.isEmpty then c else c + 1 }] }) t
/-- Visit a node at most `depth` levels deep: its four children in order (R198). `top` is set in the top-level tree. -/
def TraceEnv.visit (e : TraceEnv) : Nat → Trav → Ray → Bool → Nat → Nat → Trav
  | 0, t, _, _, _, _ => { t with stop := some .fault }
  | n + 1, t, r, top, inst, va =>
    if va % 64 != 0 then { t with stop := some .fault }
    else match e.read t.s va 128 with
      | .error x => { t with stop := some x }
      | .ok (b, s) =>
        e.children (TraceEnv.visit e n) { depth := n, top := top, inst := inst, ray := r, node := b, next := 0 } { t with s := s }
/-- Go on with the nodes that a traversal has yet to finish, innermost first. -/
def TraceEnv.resume (e : TraceEnv) (l : List TraceFrame) (t : Trav) : Trav :=
  l.foldl (fun t f => if t.stop.isSome then { t with path := t.path ++ [f] } else e.children (e.visit f.depth) f t) t

/-- Run a lane's traversal from where it stands: what it ends in, or the page that is absent; the reports that it has not used
stay (R200, R201). -/
def TraceEnv.lane (e : TraceEnv) (s : State) (root : Nat) (w : List W32) (reports : List (List W32)) (l : TraceLane) :
    State × TraceLane × List (List W32) × Option Nat :=
  let r := rayOf w
  let open_ (s : State) (h0 : Option Nat) (st : Nat) : State × TraceLane × List (List W32) × Option Nat :=
    ({ s with free := s.free + 5 },
      { l with frames := [], out := some ([h0.getD (Config.choice s.free % 2 ^ 32), Config.choice (s.free + 1) % 2 ^ 32, Config.choice (s.free + 2) % 2 ^ 32,
        Config.choice (s.free + 3) % 2 ^ 32, Config.choice (s.free + 4) % 2 ^ 32, st], false) }, [], none)
  let words (h : Hit) : List Nat := [h.t, h.id, h.inst, h.a, h.b, h.status]
  if r.invalid then open_ s none 5
  else
    let t0 : Trav := { s := s, best := l.best, reports := reports, stop := none, path := [] }
    let t := if l.frames.isEmpty then e.visit 64 t0 r true (Config.noInstance % 2 ^ 32) root else e.resume l.frames t0
    match t.stop with
    | some .fault => open_ t.s none 4
    | some (.page va) => (t.s, { l with best := t.best, frames := t.path }, t.reports, some va)
    | some (.pending h) => (t.s, { l with best := t.best, frames := t.path, out := some (words h, true) }, t.reports, none)
    | _ => match t.best with
      | some h => (t.s, { l with best := t.best, frames := [], out := some (words h, false) }, [], none)
      | none => open_ t.s (some 0x7F800000) 0

/-! ### TRACE (R201, R206) -/

/-- The parked traversal of a group that a token names, none while a command in flight continues it (R201). -/
def State.parkedOf (s : State) (tok : Nat) : Option Parked :=
  if tok = 0 || s.curCore.gfxQ.any (fun q => q.gid == s.cur.gid && gfxUnit q.op == 1 && q.args.getD 0 0 == tok) then none
  else s.curGrp.parked.find? (fun p => p.token == tok)
/-- Does a TRACE continue a parked traversal? -/
def State.continues (s : State) (st : SReg) : Option Parked := s.parkedOf (s.sr st.val).toNat
/-- A reissue reads mO: its bank must not be DARK (R121, R201). -/
def chkTrace (mO : Fin 16) (st : SReg) (s : State) : Chk :=
  let b := s.curGrp.bank mO.val
  Chk.when ((s.continues st).isSome && b.st == .dark && b.wakeAt.isNone) (darkTrap 4 5 0 mO.val)
/-- Holds of TRACE: counter 5, and on a reissue the bank of mO. -/
def holdTrace (mO : Fin 16) (st : SReg) (s : State) : Bool × State :=
  if (s.continues st).isSome && !(s.curGrp.bank mO.val).ready then (true, s.modC (fun c => c.wakeReg s.cur.gid mO.val))
  else holdGfx s
/-- The words of rows of a register in a lane. -/
def Group.laneRows (g : Group) (m : Nat) (rows : List Nat) (j : Nat) : List W32 := rows.map (fun r => g.elem (elemKey m r j))
/-- TRACE: the rays, or on a reissue the reports, are captured; the command takes a free time (log 5). -/
def effTrace (op : Instr) (g : Guard) (mO mI : Fin 16) (sr sf st : SReg) (s : State) : State :=
  let act := s.act g
  let gr := s.curGrp
  let n := 1 + Config.latency s.free
  let priv := if s.priv then 1 else 0
  match s.continues st with
  | some p =>
    let run := p.pending &&& act
    let rep (j : Nat) : List (List W32) := ((p.reports.find? (fun x => x.1 == j)).map Prod.snd).getD []
    let q := { p with reports := (List.range 32).map (fun j =>
      (j, if bitOn run j then [gr.laneRows mO.val [0, 1, 5] j] else rep j)) }
    let s := { (s.modG (fun x => { x with parked := x.parked.map (fun y => if y.token == p.token then q else y) })) with free := s.free + 1 }
    s.gfxSend op run [p.token, priv] [] n (s.vasWall [fld p.root 0 56])
  | none =>
    let q : Parked := { token := s.fresh, root := (s.sr sr.val).toNat, flags := (s.sr sf.val).toNat,
                        rays := (lanesOf act).map (fun j => (j, gr.laneRows mI.val (List.range 8) j)), pending := act, reports := [], prog := [] }
    let s := { (s.modG (fun x => { x with parked := x.parked ++ [q] })) with free := s.free + 1, fresh := s.fresh + 1 }
    s.gfxSend op act [q.token, priv] [] n (s.vasWall [fld q.root 0 56])

/-- TRACE. -/
def execTrace (g : Guard) (mO mI : Fin 16) (sr sf st : SReg) (s : State) : Out :=
  s.issueSolo (.trace g mO mI sr sf st)
    { chk := chkTrace mO st, hold := holdTrace mO st, eff := effTrace (.trace g mO mI sr sf st) g mO mI sr sf st }

/-- How far a lane of a parked traversal has come. -/
def Parked.lane (p : Parked) (j : Nat) : TraceLane :=
  (p.prog.find? (fun x => x.j == j)).getD { j := j, best := none, frames := [], out := none }
/-- A lane of a parked traversal after a run of it. -/
def Parked.setLane (p : Parked) (l : TraceLane) (rep : List (List W32)) : Parked :=
  { p with prog := p.prog.filter (fun x => x.j != l.j) ++ [l],
           reports := p.reports.map (fun x => if x.1 == l.j then (x.1, rep) else x) }
/-- The traversals of a command's lanes in lane order, those that have ended apart: what is parked then, and a page that is
absent, at which the lane and those after it wait. -/
def TraceEnv.lanes (e : TraceEnv) : State → Parked → List Nat → State × Parked × Option Nat
  | s, p, [] => (s, p, none)
  | s, p, j :: r =>
    let l := p.lane j
    if l.out.isSome then TraceEnv.lanes e s p r
    else
      let ray := ((p.rays.find? (fun x => x.1 == j)).map Prod.snd).getD []
      let rep := ((p.reports.find? (fun x => x.1 == j)).map Prod.snd).getD []
      let x := e.lane s (fld p.root 0 56) ray rep l
      let p := p.setLane x.2.1 x.2.2.1
      if x.2.2.2.isSome then (x.1, p, x.2.2.2) else TraceEnv.lanes e x.1 p r
/-- The parked record of a command. -/
def State.traceRec (s : State) (q : Cmd) : Parked :=
  ((s.group q.core q.gid).parked.find? (fun p => p.token == q.args.getD 0 0)).getD
    { token := 0, root := 0, flags := 0, rays := [], pending := 0, reports := [], prog := [] }
/-- Run the traversal of a command as far as it goes: how far it has come stays in its parked record; its lanes' words and which
are pending, or a page that is absent (R200). -/
def State.traceRun (s : State) (q : Cmd) : State × Except Nat (List (Nat × List Nat × Bool)) :=
  let p := s.traceRec q
  let e : TraceEnv := { core := q.core, launch := q.launch, root := q.root, priv := q.args.getD 1 0 == 1,
                        mask := fld p.flags 0 8, first := bitN p.flags 8, cull := bitN p.flags 9 }
  let r := e.lanes s p (lanesOf q.act)
  (r.1.modGroup q.core q.gid (fun g => { g with parked := g.parked.map (fun x => if x.token == p.token then r.2.1 else x) }),
    match r.2.2 with
    | some va => .error va
    | none => .ok ((lanesOf q.act).map (fun j => (j, (r.2.1.lane j).out.getD ([], false)))))
/-- The end of a TRACE: its rows and its token (R200, R201). -/
def State.traceEnd (s : State) (q : Cmd) (mO : Nat) (st : Nat) (l : List (Nat × List Nat × Bool)) : State :=
  let p := s.traceRec q
  let run := BitVec.ofNat 32 ((l.filter (fun x => x.2.2)).foldl (fun a x => a + 2 ^ x.1) 0)
  let pend := (p.pending &&& ~~~q.act) ||| run
  let ws := l.flatMap (fun x => ((List.range 6).zip x.2.1).map (fun y => Wr.m (elemKey mO y.1 x.1) (BitVec.ofNat 32 y.2)))
  let tok := if pend = 0 then 0 else p.token
  let stays (x : TraceLane) : Bool := bitOn pend x.j
  let keep (l : List Parked) : List Parked :=
    (l.map (fun x => if x.token == p.token then
      { x with pending := pend, prog := (x.prog.filter stays).map (fun y => { y with out := none }) } else x)).filter (fun x => x.pending != 0)
  (s.gfxDone q (ws ++ [.s st (BitVec.ofNat 64 tok)])).modGroup q.core q.gid (fun g => { g with parked := keep g.parked })

/-- SHADER_ENGINE_COMPLETE (R197, R200, R204 to R206): once the ticks of the bridge that follow its clk are over (R13). -/
def execShaderEngineComplete (core id : Nat) (s : State) : Out :=
  let c := s.core core
  match c.gfxQ.find? (fun q => q.id == id) with
  | none => .next s
  | some q =>
    if !(c.gfxFirst q) || c.eclk < q.due || s.now < q.tick || q.page.isSome then .next s
    else if q.wall != 0 then
      .next (s.modCore core (fun k => { k with gfxQ := k.gfxQ.map (fun x => if x.id == id then { x with wall := 0, tick := s.now + q.wall } else x) }))
    else match q.op with
      | .rast _ m _ _ st => .next (s.gfxDone q (rastWrites q m.val st.val))
      | .texs _ mO _ _ _ => .next (s.gfxDone q (rowWrites mO.val q.act q.data))
      | .texg _ _ mO _ _ => .next (s.gfxDone q (rowWrites mO.val q.act q.data))
      | .trace _ mO _ _ _ st =>
        (match s.traceRun q with
         | (_, .error _) => .next (s.sched [.traceTranslationFault core id])
         | (s', .ok l) => .next (s'.traceEnd q mO.val st.val l))
      | _ => .next s

/-- TRACE_TRANSLATION_FAULT (R200): the traversal waits where it stands for a page, which the next wait on counter 5 suspends
for. -/
def execTraceTranslationFault (core id : Nat) (s : State) : Out :=
  match (s.core core).gfxQ.find? (fun q => q.id == id) with
  | none => .next s
  | some q =>
    match q.op with
    | .trace _ _ _ _ _ _ =>
      (match s.traceRun q with
       | (s', .error va) => .next (s'.modCore core (fun c => { c with
           gfxQ := (s.core core).gfxQ.map (fun x => if x.id == id then { x with page := some va } else x) }))
       | _ => .next s)
    | _ => .next s

end Sys2Proof.Machine
end

