-- ==== Sys2Proof/Machine/Context.lean ====
section
/-! DEFINITION. The context image of a unit (R383 to R386) as fields with a reader and a writer each, the save of a
unit (R124, R125, R380 to R382) and the re-creation of a unit from its image (R387). The debugger's stop view is the same
fields (R388). -/

namespace Sys2Proof.Machine

/-- A field of a unit's image: offset, length, its bytes now, what writing them does, whether a save writes it and a restore
reads it, and what a restore does with it where that differs: counter 4 and the child count go on falling while the unit is
saved, so a restore takes them as they stand then (R36, R300, R305). -/
structure ImgField where
  off : Nat
  n : Nat
  get : State → List Byte
  put : List Byte → State → State
  save : State → Bool := fun _ => true
  rest : State → Bool := fun _ => true
  load : List Byte → State → State := put

/-- Bytes padded or cut to n. -/
def fitBytes (n : Nat) (l : List Byte) : List Byte := l.take n ++ List.replicate (n - l.length) 0
/-- A field of zero bytes that nothing reads. -/
def zeroField (off n : Nat) : ImgField := { off := off, n := n, get := fun _ => List.replicate n 0, put := fun _ s => s }
/-- A number field. -/
def natField (off n : Nat) (get : State → Nat) (put : Nat → State → State) : ImgField :=
  { off := off, n := n, get := fun s => leBytes n (get s), put := fun b s => put (leNat b) s }
/-- A table of k numbers of w bytes. -/
def tabField (off w k : Nat) (get : State → Nat → Nat) (put : Nat → Nat → State → State) : ImgField :=
  { off := off, n := w * k, get := fun s => (List.range k).flatMap (fun i => leBytes w (get s i)),
    put := fun b s => (List.range k).foldl (fun s i => put i (imgNat b (w * i) w) s) s }

/-! ### Bank states (R125) -/

/-- The code of a bank state; a waking bank is recorded BRIGHT (R124). -/
def Bank.code (b : Bank) : Nat :=
  if b.wakeAt.isSome then 0 else match b.st with | .bright => 0 | .dim => 1 | .dark => 2
/-- A restored bank: no wake pending, clean (R124, R125). -/
def bankOf (code : Nat) : Bank :=
  { st := if code = 0 then .bright else if code = 1 then .dim else .dark, wakeAt := none, dirty := false }
/-- A bank whose state and dirty flag are written: a state that stays keeps its wake, and a change from DARK sets the flag (R124). -/
def Bank.write (b : Bank) (code : Nat) (dirty : Bool) : Bank :=
  { (if b.code = code then b else bankOf code) with dirty := (dirty || b.code == 2) && code < 2 }
/-- The bank-state word of a group. -/
def Group.bankWord (g : Group) : Nat :=
  (List.range 10).foldl (fun w i =>
    if i < g.budget then w + (g.bank i).code * 2 ^ (2 * i) + (g.bank i).dirty.toNat * 2 ^ (20 + i) else w + 3 * 2 ^ (2 * i)) 0
/-- Does a PC slot wait at a barrier, of whatever scope (R353 to R356)? -/
def PcSlot.inBar (p : PcSlot) : Bool :=
  match p.wait with | .barrier | .groupBar | .net _ | .weave => true | _ => false
/-- The control word of a group (R385). -/
def Group.ctlWord (g : Group) : Nat :=
  g.budget + g.inlineDepth % 16 * 2 ^ 4 + g.inlineLimit % 16 * 2 ^ 8 + (g.slot0.inBar || g.slot1.inBar).toNat * 2 ^ 12
    + g.inHandler.toNat * 2 ^ 13 + g.dict % 256 * 2 ^ 16 + g.stackTop % 256 * 2 ^ 24
/-- The barrier bit of a control word, written: cleared, the slots that wait go on; set, the live ones wait at the barrier of the
unit. -/
def Group.setBar (g : Group) (on : Bool) : Group :=
  let f (p : PcSlot) : PcSlot :=
    if on then (if p.mask != 0 && p.wait == .none then { p with wait := .barrier } else p) else if p.inBar then { p with wait := .none } else p
  if on == (g.slot0.inBar || g.slot1.inBar) then g else { g with slot0 := f g.slot0, slot1 := f g.slot1 }
/-- What a control word sets. -/
def Group.setCtl (g : Group) (w : Nat) : Group :=
  { (g.setBar (bitN w 12)) with
    inlineDepth := fld w 4 4, inlineLimit := fld w 8 4, inHandler := bitN w 13, serving := g.serving && bitN w 13, dict := fld w 16 8, stackTop := fld w 24 8,
    banks := (g.banks ++ List.replicate (fld w 0 4) Bank.start).take (fld w 0 4) }
/-- What a bank-state word sets: states and dirty flags; a bank that goes DARK loses its contents (R117). -/
def Group.setBanks (g : Group) (w : Nat) : Group :=
  let dark (i : Nat) : Bool := (g.bank i).st != .dark && 2 ≤ fld w (2 * i) 2
  { g with banks := (List.range g.budget).map (fun i => (g.bank i).write (fld w (2 * i) 2) (bitN w (20 + i))),
           mat := ((List.range g.budget).filter dark).foldl (fun m i => sdrop (1024 * i) 1024 m) g.mat }
/-- Write the state and dirty flag of scratch bank i. -/
def Core.writeSbank (k : Core) (i code : Nat) (dirty : Bool) : Core :=
  let b := k.sbank i
  let k := k.setSbank i (b.write code dirty)
  if b.st != .dark && 2 ≤ code then { k with buf := sdrop (65536 * i) 65536 k.buf } else k

/-- A word with only the bits of the given fields, (low bit, length) each: the others read as zero (R7). -/
def keepBits (l : List (Nat × Nat)) (w : Nat) : Nat := l.foldl (fun a p => a + fld w p.1 p.2 * 2 ^ p.1) 0
/-- A translation register as it is stored: the bits that R222 calls zero stay zero (R7). -/
def aregOf (w : Nat) : BitVec 192 := BitVec.ofNat 192 (keepBits [(0, 56), (64, 62), (128, 31), (160, 4)] w)
/-- A ring descriptor as it is stored (R311, R7). -/
def ringOf (w : Nat) : Nat := keepBits [(0, 22), (32, 6), (40, 12), (63, 1)] w
/-- A role-queue descriptor as it is stored (R311, R7). -/
def rqOf (w : Nat) : Nat := keepBits [(0, 22), (24, 8), (32, 6), (63, 1)] w

/-! ### Parked traversals (R201, R380, R385) -/

/-- The token of a group's parked traversal in its image: of a TRACE in flight, which parks at its next node visit (R380), else of the
one that its program is to go on with. -/
def Core.parkedTok (k : Core) (gid : Nat) : Nat :=
  match k.gfxQ.find? (fun q => q.gid == gid && gfxUnit q.op == 1) with
  | some q => q.args.getD 0 0
  | none => ((k.group gid).parked.head?.map Parked.token).getD 0
/-- Write the token: another number renames the traversal; 0 ends one that no TRACE in flight runs. -/
def Core.setParked (k : Core) (gid v : Nat) : Core :=
  let t := k.parkedTok gid
  let runs := k.gfxQ.any (fun q => q.gid == gid && gfxUnit q.op == 1)
  if v == t || t == 0 || (v == 0 && runs) then k
  else
    let name (p : Parked) : Parked := if p.token == t then { p with token := v } else p
    { k.modGroup gid (fun g => { g with parked := if v == 0 then g.parked.filter (fun p => p.token != t) else g.parked.map name }) with
      gfxQ := k.gfxQ.map (fun q => if q.gid == gid && gfxUnit q.op == 1 && q.args.getD 0 0 == t then { q with args := q.args.set 0 v } else q) }

/-! ### The sections of the image (R384 to R386) -/

/-- The record of group gid at offset `o`, its banks at offset `m` (R385). -/
def groupFields (c gid o m : Nat) (tile : Bool) : List ImgField :=
  let G (s : State) : Group := s.group c gid
  let M (f : Group → Group) (s : State) : State := s.modGroup c gid f
  let S (s : State) (i : Nat) : PcSlot := (G s).slot i
  let P (i : Nat) (f : PcSlot → PcSlot) (s : State) : State := M (fun g => g.modSlot i f) s
  [tabField o 8 64 (fun s i => ((G s).sreg i).toNat) (fun i v => M (fun g => { g with sregs := sset 0 i (BitVec.ofNat 64 v) g.sregs })),
   tabField (o + 512) 4 8 (fun s i => ((G s).preg i).toNat)
     (fun i v => M (fun g => if i = 0 then g else { g with pregs := sset 0 i (BitVec.ofNat 32 v) g.pregs })),
   tabField (o + 544) 24 16 (fun s i => ((G s).areg i).toNat) (fun i v => M (fun g => { g with aregs := sset 0 i (aregOf v) g.aregs })),
   { off := o + 928, n := 32, get := fun s => pcRecord (S s 0) ++ pcRecord (S s 1),
     put := fun b s => (List.range 2).foldl (fun s i => P i (fun p => { p with
       pc := BitVec.ofNat 32 (imgNat b (16 * i) 4), mask := BitVec.ofNat 32 (imgNat b (16 * i + 4) 4), depth := imgNat b (16 * i + 8) 1 }) s) s },
   tabField (o + 960) 4 2 (fun s i => (S s i).fmt.toNat) (fun i v => P i (fun p => { p with fmt := fmtReg (BitVec.ofNat 32 v) })),
   tabField (o + 968) 8 10 (fun s i => (S s (i / 5)).bases.getD (i % 5) 0) (fun i v => P (i / 5) (fun p => { p with bases := p.bases.set (i % 5) v })),
   (if tile then natField (o + 1048) 4 (fun s => (G s).rlbl.toNat) (fun v => M (fun g => { g with rlbl := BitVec.ofNat 32 v }))
    else zeroField (o + 1048) 4),
   natField (o + 1056) 8 (fun s => (G s).ctlWord) (fun v => M (fun g => g.setCtl v)),
   natField (o + 1052) 4 (fun s => (G s).bankWord) (fun v => M (fun g => g.setBanks v)),
   natField (o + 1064) 4 (fun s => (G s).faultMask.toNat) (fun v => M (fun g => { g with faultMask := BitVec.ofNat 32 v })),
   zeroField (o + 1068) 4,
   { tabField (o + 1072) 2 7 (fun s i => (G s).ctrs.getD i 0) (fun i v => M (fun g => g.modCtr i (fun _ => v))) with
     load := fun b s => ((List.range 7).filter (· != 4)).foldl (fun s i => M (fun g => g.modCtr i (fun _ => imgNat b (2 * i) 2)) s) s },
   zeroField (o + 1086) 2,
   natField (o + 1088) 8 (fun s => (s.core c).parkedTok gid) (fun v s => s.modCore c (fun k => k.setParked gid v)),
   zeroField (o + 1096) 440,
   { off := o + 1536, n := 512, get := fun s => (G s).laneImage,
     put := fun b s => M (fun g => { g with laneRecs := (List.range 32).filterMap (fun j =>
       if imgNat b (16 * j) 1 = 0 then none
       else some (j, { kind := imgNat b (16 * j) 1, later := imgNat b (16 * j + 1) 1, pc := BitVec.ofNat 32 (imgNat b (16 * j + 4) 4),
                       addr := BitVec.ofNat 64 (imgNat b (16 * j + 8) 8) })) }) s }] ++
  (List.range 10).map (fun i =>
    { (tabField (m + 4096 * i) 4 1024 (fun s k => ((G s).elem (1024 * i + k)).toNat)
        (fun k v => M (fun g => { g with mat := sset 0 (1024 * i + k) (BitVec.ofNat 32 v) g.mat }))) with
      save := fun s => i < (G s).budget && ((G s).bank i).st != .dark && ((G s).bank i).dirty
      rest := fun s => i < (G s).budget && ((G s).bank i).st != .dark })

/-- The barrier word of a unit (R355). -/
def WUnit.barWord (u : WUnit) : Nat := u.arrived.toNat + popc32 u.arrived * 2 ^ 32 + u.phase.toNat * 2 ^ 38
/-- The header, w registers and shared window of a unit. -/
def unitFields (c uid : Nat) : List ImgField :=
  let U (s : State) : WUnit := (s.core c).unit uid
  let M (f : WUnit → WUnit) (s : State) : State := s.modCore c (fun k => k.modUnit uid f)
  [natField 0 1 (fun s => (U s).gang.toNat) (fun _ s => s), natField 1 1 (fun s => (U s).gids.length) (fun _ s => s),
   { natField 2 2 (fun s => (U s).children) (fun v => M (fun u => { u with children := v })) with load := fun _ s => s }, natField 4 4 (fun s => (U s).shBytes) (fun _ s => s),
   natField 8 8 (fun s => (U s).barWord) (fun v => M (fun u => { u with arrived := BitVec.ofNat 32 v, phase := bitN v 38 })),
   natField 16 8 (fun s => (s.lpbOf (U s).launch).ident) (fun _ s => s), natField 24 8 (fun s => (U s).index) (fun _ s => s),
   natField 32 1 (fun _ => coreDie c) (fun _ s => s), natField 33 1 (fun _ => coreIx c) (fun _ s => s), zeroField 34 30,
   tabField 64 8 32 (fun s i => if (U s).gang then 0 else (sget 0 i (U s).wregs).toNat)
     (fun i v => M (fun u => if u.gang then u else { u with wregs := sset 0 i (BitVec.ofNat 64 v) u.wregs }))]

/-- The state of the bank of shared unit i of a window (R125). -/
def Core.shState (k : Core) (u : WUnit) (i : Nat) : Bank := k.sbank (128 + (u.shBase + i) / 4)
/-- Does bank b of shared memory lie wholly within a unit's window, in whole 16 KiB units (R122)? DESIGN CHOICE, log 68. -/
def WUnit.ownsBank (u : WUnit) (b : Nat) : Bool := u.shBase ≤ 4 * b && 4 * b + 4 ≤ u.shBase + u.shUnits
/-- The shared window, one field per 16 KiB unit: a unit of a wholly owned bank that is DARK or clean is not written
(R384). -/
def sharedFields (c uid o units bytes : Nat) : List ImgField :=
  let U (s : State) : WUnit := (s.core c).unit uid
  (List.range units).map (fun i =>
    let n := min 16384 (bytes - 16384 * i)
    let at_ (s : State) : Nat := ((U s).shBase + i) * 16384
    { off := o + 16384 * i, n := n
      get := fun s => (s.core c).bufRead 4 (at_ s) n
      put := fun b s => s.modCore c (fun k => { k with buf := (List.range n).foldl (fun m j => sset 0 (bufKey 4 (at_ s + j)) (b.getD j 0) m) k.buf })
      save := fun s => !((U s).ownsBank (((U s).shBase + i) / 4)) ||
        (((s.core c).shState (U s) i).st != .dark && ((s.core c).shState (U s) i).dirty)
      rest := fun s => (U s).shSt.getD i 0 != 2 })

/-- Does the TOPB of a launch list C bank b as recomputable (R46, R336)? -/
def State.recomp (s : State) (launch b : Nat) : Bool :=
  match (kget launch s.launches).bind Launch.topb with
  | some t => t.restart && bitN t.recomp b
  | none => false
/-- Is scratch bank i a recomputable C bank of a launch? -/
def State.dropBank (s : State) (launch i : Nat) : Bool := 120 ≤ i && i < 128 && s.recomp launch (i - 120)

/-- The latch's bytes: its rows, then its scales (log 17). -/
def Latch.all (l : Latch) : List Byte := l.rows.flatten ++ l.scales.flatten
/-- The latch's data bytes in the image. Rows can fill them; scales beyond them stay with the saved unit (log 74). -/
def Latch.bytes (l : Latch) : List Byte := fitBytes 32768 l.all
/-- The latch that a descriptor word and data bytes give. -/
def latchOf (w : Nat) (b : List Byte) : Latch :=
  let f := fld w 0 4
  let nb := fld w 16 10
  let n := fld w 8 8 + 1
  let rb := rowBytes f nb
  if !(bitN w 5) then Latch.start
  else { valid := true, fmt := f, scaled := bitN w 4, n1 := fld w 8 8, nb := nb,
         rows := (List.range n).map (fun j => (b.drop (rb * j)).take rb),
         scales := if bitN w 4 then (List.range n).map (fun j => (b.drop (rb * n + nb * j)).take nb) else [] }
/-- The latch descriptor word (R386). -/
def Latch.word (l : Latch) : Nat := l.fmt + l.scaled.toNat * 2 ^ 4 + l.valid.toNat * 2 ^ 5 + l.n1 * 2 ^ 8 + l.nb * 2 ^ 16
/-- Place of entry k of the triangular section: its row and column. -/
def triRC : Nat → Nat → Nat → Nat × Nat
  | 0, r, k => (r, r + k)
  | f + 1, r, k => if k < 64 - r then (r, r + k) else triRC f (r + 1) (k - (64 - r))
/-- The lanes of a view whose elements are among the keys. -/
def viewMask (x : View) (ks : List Nat) : Nat := (List.range 32).foldl (fun m j => if ks.contains (vkey x j) then m + 2 ^ j else m) 0
/-- The destination field and lane mask of a result's matrix elements where no view is known: the first view, in the order h, v, d, w,
that holds them all (R65, log 17). -/
def destView (ks : List Nat) : Nat × Nat :=
  let at_ (c : Nat) : View := viewOf (c % 32 + ks.headD 0 / 1024 % 16 * 2 ^ 5 + c / 32 * 2 ^ 9)
  let c := ((List.range 128).find? (fun c => ks.all (fun k => (List.range 32).any (fun j => vkey (at_ c) j == k)))).getD 0
  ((at_ c).code, viewMask (at_ c) ks)
/-- A frozen result as a descriptor and value (R386): remaining clk, role group, destination field, lane mask, zero; the value holds
lane j of a vector at 4 j. A scalar, predicate, workgroup scalar or translation register is named by its number (log 17). -/
def frozenBytes (f : InFlight) : List Byte :=
  let els := f.writes.filterMap (fun w => match w with | .m k v => some (k, v) | _ => none)
  let v := match f.dest with
    | some c => (c, viewMask (viewOf c) (els.map Prod.fst))
    | none => destView (els.map Prod.fst)
  let d : Nat × Nat × List Byte := match f.writes.head? with
    | some (.s r x) => (r, 0, leBytes 8 x.toNat)
    | some (.p r m x) => (r, m.toNat, leBytes 4 x.toNat)
    | some (.w r x) => (r, 0, leBytes 8 x.toNat)
    | some (.a r x) => (r, 0, leBytes 24 x.toNat)
    | some (.m _ _) => (v.1, v.2, (List.range 32).flatMap (fun j =>
        leBytes 4 (((els.find? (fun p => p.1 == vkey (viewOf v.1) j)).map (fun p => p.2.toNat)).getD 0)))
    | _ => (0, 0, [])
  leBytes 1 f.due ++ leBytes 1 f.gid ++ leBytes 2 d.1 ++ leBytes 4 d.2.1 ++ List.replicate 8 0 ++ fitBytes 128 d.2.2
/-- What a descriptor and value write, where the result wrote a register of the kind of `old`. -/
def frozenWrites (old : List Wr) (dest mask : Nat) (b : List Byte) : List Wr :=
  match old.head? with
  | some (.s _ _) => [.s (dest % 64) (BitVec.ofNat 64 (imgNat b 0 8))]
  | some (.p _ _ _) => [.p (dest % 8) (BitVec.ofNat 32 mask) (BitVec.ofNat 32 (imgNat b 0 4))]
  | some (.w _ _) => [.w (dest % 32) (BitVec.ofNat 64 (imgNat b 0 8))]
  | some (.a _ _) => [.a (dest % 16) (aregOf (imgNat b 0 24))]
  | _ => ((List.range 32).filter (bitN mask)).map (fun j => Wr.m (vkey (viewOf dest) j) (BitVec.ofNat 32 (imgNat b (4 * j) 4)))
/-- The freeze store that bytes of its field give: an entry whose bytes stay is kept, one that changes is read as a result of the kind
it was, one of zero bytes is none, and a further one is a vector result (R370, R386, R388). -/
def Core.setFreeze (k : Core) (fresh : Nat) (b : List Byte) : Core :=
  { k with freeze := (List.range 256).filterMap (fun i =>
      let e := (b.drop (144 * i)).take 144
      let old : InFlight := (k.freeze[i]?).getD { id := fresh + i, due := 0, issued := 0, gid := 0, gix := 0, slot := 0, writes := [], dest := none }
      if (k.freeze[i]?).isSome && frozenBytes old == e then some old
      else if e.all (· == 0) then none
      else some { old with due := imgNat e 0 1, gid := imgNat e 1 1, gix := (k.group (imgNat e 1 1)).gix,
                           dest := some (imgNat e 2 2), writes := frozenWrites old.writes (imgNat e 2 2) (imgNat e 4 4) (e.drop 16) }) }
/-- dy of a COPY (R272). -/
def copyDy (o : CopyOp) : Nat := o.sem.val + o.raise.toNat * 2 ^ 6 + o.remote.toNat * 2 ^ 7
/-- A channel's 776 bytes (R386): dy stands in the low 16 bits of its field and the command number above them (log 17). -/
def Channel.image (h : Channel) : List Byte :=
  let cmds := h.q.take 16
  leBytes 8 (cmds.length + h.stopped.toNat * 2 ^ 8) ++
    fitBytes 768 (((List.range cmds.length).zip cmds).flatMap (fun p =>
      (List.range 4).flatMap (fun i => leBytes 8 (p.2.args.getD i 0))
        ++ leBytes 8 ((match p.2.op with | .copy _ o => copyDy o | _ => 0) + p.2.args.getD 4 0 % 256 * 2 ^ 16)
        ++ leBytes 8 (if p.1 = 0 then h.row else 0)))
/-- A command of a channel as its 48 bytes give it. -/
def Cmd.setImage (q : Cmd) (b : List Byte) : Cmd :=
  let d := imgNat b 32 8
  { q with args := (List.range 4).map (fun i => imgNat b (8 * i) 8) ++ [fld d 16 8] ++ q.args.drop 5,
           op := match q.op with
             | .copy g o => .copy g { o with sem := fin 64 (fld d 0 6), raise := bitN d 6, remote := bitN d 7 }
             | i => i }
/-- What a channel's bytes set. The image holds no spaces and no group of a command, so it can change and end commands, and add none
(log 17). -/
def Channel.setImage (h : Channel) (b : List Byte) : Channel :=
  let keep := h.q.take (imgNat b 0 1 % 32)
  { h with q := ((List.range keep.length).zip keep).map (fun p => p.2.setImage (b.drop (8 + 48 * p.1))),
           stopped := bitN (imgNat b 0 2) 8, row := if keep.isEmpty then h.row else imgNat b 48 8 }
/-- A list without a tail of elements that p holds of. -/
def trimTail {α : Type} (p : α → Bool) (l : List α) : List α := (l.reverse.dropWhile p).reverse
/-- A TST store's 16,896 bytes (R386). -/
def TstStore.image (x : TstStore) : List Byte :=
  fitBytes 512 (x.dir.flatMap (fun d => leBytes 2 d.1 ++ leBytes 2 d.2.1 ++ leBytes 4 d.2.2)) ++
  fitBytes 16384 (x.entries.flatMap (fun e => leBytes 4 e.at_ ++ leBytes 4 e.src ++ leBytes 4 e.dst ++ leBytes 4 (e.bytes / 16 - 1)
    ++ leBytes 1 e.die ++ leBytes 1 e.x ++ leBytes 1 e.y ++ leBytes 1 (e.w - 1 + (e.h - 1) * 16) ++ List.replicate 12 0))
/-- The 64 rows and 512 entries that bytes give. -/
def TstStore.setImage (x : TstStore) (b : List Byte) : TstStore :=
  { x with
    dir := trimTail (· == (0, 0, 0)) ((List.range 64).map (fun i => (imgNat b (8 * i) 2, imgNat b (8 * i + 2) 2, imgNat b (8 * i + 4) 4))),
    entries := trimTail (· == tstEntry [] 0) ((List.range 512).map (fun i => tstEntry b (512 + 32 * i))) }

/-- The A, W and C banks and the tile state of a gang at offset `o` (R384, R386). -/
def tileFields (c uid o launch : Nat) : List ImgField :=
  let t := o + 8388608
  let K (s : State) : Core := s.core c
  let U (s : State) : WUnit := (K s).unit uid
  let MC (f : Core → Core) (s : State) : State := s.modCore c f
  let MU (f : WUnit → WUnit) (s : State) : State := s.modCore c (fun k => k.modUnit uid f)
  let rot (f : Rotator → Rotator) : State → State := MC (fun k => { k with rot := f k.rot })
  let valid (s : State) : Bool := (K s).latch.valid
  let dirty (s : State) : Bool := (K s).rot.dirty
  let held (s : State) : Bool := (K s).rot.dirty || (U s).rotSaved
  let used (s : State) : Bool := !((U s).tst.dir.isEmpty && (U s).tst.entries.isEmpty)
  let code (s : State) (i : Nat) : Nat := if s.dropBank launch i then 2 else ((K s).sbank i).code
  [tabField t 1 32 (fun s i => (List.range 4).foldl (fun w j => w + code s (4 * i + j) * 2 ^ (2 * j)) 0)
     (fun i v s => (List.range 4).foldl (fun s j =>
       if fld v (2 * j) 2 == code s (4 * i + j) then s
       else s.modCore c (fun k => k.writeSbank (4 * i + j) (fld v (2 * j) 2) (k.sbank (4 * i + j)).dirty)) s),
   tabField (t + 32) 1 16 (fun s i => (List.range 8).foldl (fun w j => w + ((K s).sbank (8 * i + j)).dirty.toNat * 2 ^ j) 0)
     (fun i v => MC (fun k => (List.range 8).foldl (fun k j =>
       let b := k.sbank (8 * i + j)
       if b.dirty == bitN v j then k else k.setSbank (8 * i + j) { b with dirty := bitN v j && b.st != .dark }) k)),
   zeroField (t + 48) 16,
   tabField (t + 64) 8 8 (fun s i => ((kget i (K s).chans).map Channel.wp).getD 0)
     (fun i v => MC (fun k => { k with chans := kset i { ((kget i k.chans).getD Channel.start) with wp := v } k.chans })),
   tabField (t + 128) 8 8 (fun s i => (U s).rings.getD i 0) (fun i v => MU (fun u => { u with rings := u.rings.set i (ringOf v) })),
   tabField (t + 192) 8 8 (fun s i => (U s).phases.getD i 0) (fun i v => MU (fun u => { u with phases := u.phases.set i v })),
   tabField (t + 256) 8 4 (fun s i => ((U s).rq i).head + ((U s).rq i).count * 2 ^ 16)
     (fun i v => MU (fun u => { u with queues := u.queues.set i { (u.rq i) with head := fld v 0 16, count := fld v 16 16 } })),
   tabField (t + 288) 8 4 (fun s i => ((U s).rq i).desc) (fun i v => MU (fun u => { u with queues := u.queues.set i { (u.rq i) with desc := rqOf v } })),
   natField (t + 320) 8 (fun s => (U s).stepN) (fun v => MU (fun u => { u with stepN := v })),
   tabField (t + 328) 4 6 (fun s i => (U s).idx.getD i 0) (fun i v => MU (fun u => { u with idx := u.idx.set i v })),
   natField (t + 352) 4 (fun s => (U s).stepClk) (fun v => MU (fun u => { u with stepClk := v % 2 ^ 21 })),
   natField (t + 356) 4 (fun s => (((U s).weave.bind (fun w => kget w s.weaves)).map Weave.step).getD 0)
     (fun v s => match (U s).weave with | some w => { s with weaves := kmod w (fun x => { x with step := v }) s.weaves } | none => s),
   zeroField (t + 360) 24,
   { off := t + 384, n := 64, get := fun s => leBytes 64 (K s).latch.word,
     put := fun b => MC (fun k => { k with latch := latchOf (leNat b) (k.latch.all ++ List.replicate 65536 0) }) },
   { off := t + 512, n := 32768, get := fun s => (K s).latch.bytes, put := fun b => MC (fun k => { k with latch := latchOf k.latch.word (b ++ k.latch.all.drop 32768) }),
     save := valid, rest := valid },
   natField (t + 448) 64 (fun s => (K s).rot.status + (K s).rot.dirty.toNat * 4)
     (fun v => rot (fun r => { r with sticky := bitN v 0, deferred := bitN v 1, dirty := bitN v 2, fed := fld v 16 16, firstBad := fld v 32 16 })),
   { (tabField (t + 33280) 4 2080 (fun s k => let p := triRC 64 0 k; (((K s).rot.row p.1).m.getD p.2 0 % (2 ^ 32 : Nat)).toNat)
       (fun k v => rot (fun r => let p := triRC 64 0 k; let x := r.row p.1; r.setRow p.1 { x with m := (x.pad.m).set p.2 (sint 32 v) }))) with
     save := dirty, rest := held },
   { (tabField (t + 41600) 4 64 (fun s i => (((K s).rot.row i).e % (2 ^ 16 : Nat)).toNat + ((K s).rot.row i).g * 2 ^ 16)
       (fun i v => rot (fun r => r.setRow i { (r.row i) with e := sint 16 (fld v 0 16), g := fld v 16 16 }))) with
     save := dirty, rest := held },
   { off := t + 41856, n := 256, get := fun s => (List.range 64).flatMap (fun i => leBytes 4 ((K s).rot.ang i)),
     put := fun b => rot (fun r => r.setAngs ((List.range 64).map (fun i => imgNat b (4 * i) 4))), save := dirty, rest := held },
   { off := t + 42112, n := 36864, get := fun s => fitBytes 36864 ((K s).freeze.flatMap frozenBytes),
     put := fun b s => { (s.modCore c (fun k => k.setFreeze s.fresh b)) with fresh := s.fresh + 256 } },
   { off := t + 78976, n := 6208, get := fun s => (List.range 8).flatMap (fun i => ((kget i (K s).chans).getD Channel.start).image),
     put := fun b => MC (fun k => { k with chans := k.chans.map (fun p => (p.1, p.2.setImage (b.drop (776 * p.1)))) }) },
   { off := t + 85184, n := 16896, get := fun s => (U s).tst.image, put := fun b => MU (fun u => { u with tst := u.tst.setImage b }),
     save := used, rest := used },
   zeroField (t + 102080) 28992] ++
  (List.range 128).map (fun i =>
    { off := o + 65536 * i, n := 65536, get := fun s => (List.range 65536).map (fun j => sget 0 (65536 * i + j) (K s).buf)
      put := fun b => MC (fun k => { k with buf := (List.range 65536).foldl (fun m j => sset 0 (65536 * i + j) (b.getD j 0) m) k.buf })
      save := fun s => !(s.dropBank launch i) && ((K s).sbank i).st != .dark && ((K s).sbank i).dirty
      rest := fun s => ((K s).sbank i).st != .dark })

/-- The fields of the image of unit uid of a core (R384). -/
def State.image (s : State) (c uid : Nat) : List ImgField :=
  let u := (s.core c).unit uid
  let n := u.gids.length
  let gs := ((List.range n).zip u.gids).flatMap (fun p =>
    groupFields c p.2 (320 + 2048 * p.1) (320 + 2048 * n + 40960 * p.1) (!isShader c))
  unitFields c uid ++ gs ++
    (if u.gang then tileFields c uid (320 + 43008 * n) u.launch else sharedFields c uid (320 + 43008 * n) u.shUnits u.shBytes)

/-! ### The save area (R383) -/

/-- The VA of byte `off` of the image of a unit: piece off / Q lies in that group's segment after its trap area. -/
def Lpb.imageVa (l : Lpb) (index gpos off : Nat) : Nat :=
  let q := l.privBytes - l.stackBytes - 768
  (l.privOf index gpos (off / q) + l.stackBytes + 768 + off % q) % 2 ^ 56
/-- Write image bytes; a byte whose address does not translate is lost (log 18). -/
def State.imgWrite (s : State) (l : Lpb) (index gpos : Nat) : Nat → List Byte → State
  | _, [] => s
  | o, b :: r => State.imgWrite ((s.writeV 0x10000 l.root true (l.imageVa index gpos o) [b]).getD s) l index gpos (o + 1) r
/-- Read image bytes. -/
def State.imgRead (s : State) (l : Lpb) (index gpos o n : Nat) : List Byte :=
  (List.range n).map (fun i => ((s.readV 0x10000 l.root true (l.imageVa index gpos (o + i)) 1).getD []).getD 0 0)
/-- Settle what the read of image bytes settles (R216). -/
def State.imgSettle (s : State) (l : Lpb) (index gpos o n : Nat) : State :=
  if s.exact.isEmpty then s else (List.range n).foldl (fun s i => s.settleV 0x10000 l.root (l.imageVa index gpos (o + i)) 1) s
/-- Write every field of the image of a unit that its save writes (R124, R384). -/
def State.saveImage (s : State) (c uid : Nat) : State :=
  let u := (s.core c).unit uid
  let l := s.lpbOf u.launch
  (s.image c uid).foldl (fun a f => if f.save s then a.imgWrite l u.index u.gpos f.off (f.get s) else a) s
/-- Re-create every field of a unit from its image (R387). -/
def State.loadImage (s : State) (c uid : Nat) : State :=
  let u := (s.core c).unit uid
  let l := s.lpbOf u.launch
  (s.image c uid).foldl (fun a f =>
    if f.rest a then (let a := a.imgSettle l u.index u.gpos f.off f.n; f.load (a.imgRead l u.index u.gpos f.off f.n) a) else a) s

/-! ### Drains (R380, R381) -/

/-- Does a sort command use the shared or A buffer of its core? -/
def Cmd.local_ (q : Cmd) : Bool := (cmdArrays q.op q.args).any (fun a => a.sp != .g)
/-- Has a unit drained for its save: no result in flight, no counter 0, 1, 2, 3, 5 or 6 command that must complete, no
queue entry being written, no wake in progress? -/
def State.drained (s : State) (c uid : Nat) : Bool :=
  let k := s.core c
  let u := k.unit uid
  let mine (g : Nat) : Bool := u.gids.contains g
  !(k.inflight.any (fun f => mine f.gid)) && !(k.sectors.any (fun f => mine f.gid)) && u.barDue.isNone
    && !(k.gfxQ.any (fun q => mine q.gid && gfxUnit q.op != 1)) && !((k.arrayQ ++ k.drainQ ++ k.rotQ).any (fun q => mine q.gid))
    && !(k.accepts.any (fun a => mine a.2.1)) && !(s.pushWait.any (fun p => p.2.1 == c && mine p.2.2.1))
    && u.queues.all (fun q => q.coming.isEmpty)
    && k.chans.all (fun p => p.2.q.all (fun q => !(mine q.gid)) ||
        (p.2.stopped && (match p.2.q with | q :: _ => mine q.gid | [] => false)))
    && s.sortQ.all (fun p => p.2.all (fun q => !(q.gcore == c && mine q.gid && q.local_)))
    && u.gids.all (fun g => (k.group g).banks.all (fun b => b.wakeAt.isNone))
    && (List.range 134).all (fun i => (if u.gang then i < 128 else u.ownsBank (i - 128) && 128 ≤ i) → (k.sbank i).wakeAt.isNone)

/-! ### The save (R380 to R382, R36) -/

/-- A group as it is kept while its unit is saved: what the image holds is dropped, and waits that end by themselves end. A JOIN whose
unit is pre-empted before the rest of it has joined still waits (R36, R323). -/
def Group.keep (g : Group) (traces : List Cmd) (joining : Bool) : Group :=
  let f (p : PcSlot) : PcSlot := match p.wait with
    | .untilClk _ => { p with wait := .none }
    | .saving => { p with wait := if joining then .none else .saving }
    | _ => p
  { g with mat := [], sregs := [], pregs := [], aregs := [], slot0 := f g.slot0, slot1 := f g.slot1, halt := .none,
           joined := g.joined && !joining, traces := g.traces ++ traces }
/-- Rename group gid of a core in everything that names it meanwhile: commands under counter 4 and network records. -/
def State.rename (s : State) (c gid c' gid' : Nat) : State :=
  let f (q : Cmd) : Cmd := if q.gcore == c && q.gid == gid then { q with gcore := c', gid := gid' } else q
  { s with
    sortQ := s.sortQ.map (fun p => (p.1, p.2.map f)),
    orders := s.orders.map (fun p => (p.1, { p.2 with toEnter := p.2.toEnter.map f, entered := p.2.entered.map f })),
    nets := s.nets.map (fun p => (p.1, { p.2 with arrived := p.2.arrived.map (fun a => if a.1 == c && a.2.1 == gid then (c', gid', a.2.2) else a) })) }

/-- Give group gid of core c the commands and arrivals that stand under a ghost key. -/
def State.renameGhost (s : State) (ghost c gid : Nat) : State :=
  let f (q : Cmd) : Cmd := if q.gid == ghost then { q with gcore := c, gid := gid } else q
  { s with
    sortQ := s.sortQ.map (fun p => (p.1, p.2.map f)),
    orders := s.orders.map (fun p => (p.1, { p.2 with toEnter := p.2.toEnter.map f, entered := p.2.entered.map f })),
    nets := s.nets.map (fun p => (p.1, { p.2 with arrived := p.2.arrived.map (fun a => if a.2.1 == ghost then (c, gid, a.2.2) else a) })) }

/-- The commands of a group in a channel that is put aside with it. -/
def Channel.take (h : Channel) (mine : Nat → Bool) : Channel := { h with q := h.q.filter (fun q => mine q.gid) }
/-- A channel without a unit's commands. -/
def Channel.without (h : Channel) (mine : Nat → Bool) : Channel :=
  if h.q.any (fun q => mine q.gid) then
    { h with q := h.q.filter (fun q => !(mine q.gid)), stopped := false, running := false, page := none }
  else h

/-- Take unit uid off its core: the unit, its groups under ghost keys, its stopped channels and its freeze store. The
fresh counter gives the keys. A quad that a class move has closed joins its pool once it is empty (R345). The states of
shared banks, for which the image has no place, stay with the saved unit: DESIGN CHOICE, log 68. -/
def State.liftUnit (s : State) (c uid : Nat) : (WUnit × List (Nat × Group) × Sparse Channel × List InFlight) × State :=
  let k := s.core c
  let u := k.unit uid
  let mine (g : Nat) : Bool := u.gids.contains g
  let keys := (List.range u.gids.length).map (fun i => ghostBase + s.fresh + i)
  -- the distance of each role group of a frozen gang to its next bundle (R376)
  let rel (p : PcSlot) : PcSlot := { p with next := if u.gang && k.frozen.isSome then p.next - k.frozenClk else 0 }
  let gs := (u.gids.zip keys).map (fun p =>
    (p.2, ((k.group p.1).modSlot 0 rel |>.modSlot 1 rel).keep ((k.gfxQ.filter (fun q => q.gid == p.1)).map (fun q => { q with gid := p.2, page := none })) u.joining))
  let stopped (q : List Cmd) : Bool := q.any (fun x => mine x.gid)
  let ch := (k.chans.filter (fun p => stopped p.2.q || u.gang)).map (fun p =>
    (p.1, let h := p.2.take mine; { h with q := h.q.map (fun q => { q with gid := ((u.gids.zip keys).find? (fun x => x.1 == q.gid)).elim 0 Prod.snd }) }))
  let fz := k.freeze.map (fun f => { f with gid := ((u.gids.zip keys).find? (fun x => x.1 == f.gid)).elim 0 Prod.snd })
  let sh := (List.range u.shUnits).map (fun i => (k.shState u i).code)
  let u' := { u with gids := keys, shSt := sh, preempt := false, forWhom := none, joining := false,
                     rotSaved := u.rotSaved || (u.gang && k.rot.dirty), latchTail := if u.gang then k.latch.all.drop 32768 else [] }
  let k' := { k with
    groups := k.groups.filter (fun p => !(mine p.1)), units := kdel uid k.units,
    gfxQ := k.gfxQ.filter (fun q => !(mine q.gid)), waiters := k.waiters.filter (fun w => !(mine w.2.1)),
    chans := k.chans.map (fun p => (p.1, p.2.without mine)),
    freeze := if u.gang then [] else k.freeze, frozen := if u.gang then none else k.frozen }
  let s := s.modCore c (fun _ => k')
  let s := (u.gids.zip keys).foldl (fun s p => s.rename c p.1 c p.2) s
  let s := { s with fresh := s.fresh + keys.length,
                    tokens := s.tokens.filter (fun t => match t.2 with | .group c' g _ => !(c' == c && mine g) | _ => true) }
  let s := s.modCore c (fun k => if u.gang then { k with resv := [] }
    else ch.foldl (fun k p => p.2.q.foldl (fun k q => k.release q.id) k) k)
  -- channels that another unit's command now heads begin it
  let s := (k.chans.filter (fun p => stopped p.2.q)).foldl (fun s p => s.cpBegin c p.1) s
  let s := s.quadMove (quadKey c)
  ((u', gs, ch, if u.gang then fz else []), s)

/-- Does the launch of a unit let its step be restarted, and is a step under way (R46)? -/
def State.midStep (s : State) (u : WUnit) : Bool :=
  u.stepping && (((kget u.launch s.launches).bind Launch.topb).map Topb.restart).getD false
/-- The units that are saved together with unit uid of core c: the gangs of its weave, or itself (R51). -/
def State.together (s : State) (c uid : Nat) : List (Nat × Nat) :=
  match ((s.core c).unit uid).weave with
  | some w => s.cores.flatMap (fun p => (p.2.units.filter (fun q => q.2.weave == some w)).map (fun q => (p.1, q.1)))
  | none => [(c, uid)]

/-- CONTEXT_SAVE (R380 to R386, R36): once the unit, or every gang of its weave, has stopped and drained, its lines go
home, then the image is written, and it leaves its cores for its launch's entry. It ages from now, and where it joins from when it
last began to wait (R316). -/
def execContextSave (core uid : Nat) (s : State) : Out :=
  match kget uid (s.core core).units with
  | none => .next s
  | some u =>
    let l := s.together core uid
    let ready (p : Nat × Nat) : Bool :=
      let v := (s.core p.1).unit p.2
      (v.preempt || v.joining) && s.drained p.1 p.2 &&
        v.gids.all (fun g => let x := (s.core p.1).group g
          x.ended || x.halt == .saving || (match x.halt with | .page _ => true | _ => false))
    if !(l.all ready) then .next s
    else
      let s := l.foldl (fun s p => s.flush p.1) s
      let s := l.foldl (fun s p => s.saveImage p.1 p.2) s
      let wv := u.weave.bind (fun w => kget w s.weaves)
      let r := l.foldl (fun (a : List (WUnit × List (Nat × Group) × Sparse Channel × List InFlight) × State) p =>
        let x := a.2.liftUnit p.1 p.2
        (a.1 ++ [x.1], x.2)) ([], s)
      let sv : Saved := {
        index := u.index, t0 := if u.joining then u.tq else s.ns, cores := l.map Prod.fst,
        bound := l.any (fun p => ((s.core p.1).unit p.2).bound), joined := u.joining,
        units := r.1.map (fun x => { x.1 with tq := if u.joining then u.tq else s.ns }), groups := r.1.flatMap (fun x => x.2.1), chans := r.1.map (fun x => x.2.2.1),
        freezes := r.1.map (fun x => x.2.2.2), weave := wv.map (fun w => (w.step, w.w)) }
      let s := match u.weave with | some w => { r.2 with weaves := kdel w r.2.weaves } | none => r.2
      .next (s.modLaunch u.launch (fun x => { x with saved := x.saved ++ [sv], weave := none }))

end Sys2Proof.Machine
end

