-- ==== Sys2Proof/Machine/Walker.lean ====
section
/-! DEFINITION. The walker and its steps (R42 to R44, R46, R47, R357, R358), the frame governor (R360, R361), and the
retirement of groups and units (R143, R359). -/

namespace Sys2Proof.Machine

/-! ### Steps (R42, R43) -/

/-- Steps of a TOPB: the product of the trip counts. -/
def Topb.steps (t : Topb) : Nat := (t.trips.take t.levels).foldl (· * ·) 1
/-- The indices of step n, level 0 varying fastest (R42). -/
def stepIdx : List Nat → Nat → List Nat
  | [], _ => []
  | t :: r, n => n % t :: stepIdx r (n / t)
/-- Six level indices of step n; unused levels read 0. -/
def Topb.idx (t : Topb) (n : Nat) : List Nat :=
  let l := stepIdx (t.trips.take t.levels) n
  l ++ List.replicate (6 - l.length) 0
/-- The address of stream k in a step (R42). -/
def Topb.addr (t : Topb) (idx : List Nat) (k : Nat) : Nat :=
  let st := t.strides.getD k []
  (((t.bases.getD k 0 : Nat) : Int) + ((List.range t.levels).map (fun j => ((idx.getD j 0 : Nat) : Int) * st.getD j 0)).foldl (· + ·) 0)
    % ((2 ^ 64 : Nat) : Int) |>.toNat
/-- The first and last masks of s55 (R43). -/
def Topb.masks (t : Topb) (idx : List Nat) : Nat :=
  (List.range 6).foldl (fun w j =>
    let u := t.levels ≤ j
    let first := u || idx.getD j 0 == 0
    let last := u || idx.getD j 0 + 1 == t.trips.getD j 1
    w + first.toNat * 2 ^ j + last.toNat * 2 ^ (8 + j)) 0
/-- s48 to s55 of step n (R43). -/
def Topb.regs (t : Topb) (n : Nat) : List Nat :=
  let i := t.idx n
  let at_ (j : Nat) : Nat := i.getD j 0
  (List.range 4).map (t.addr i) ++
    [n, at_ 0 + at_ 1 * 2 ^ 20 + at_ 2 * 2 ^ 40, at_ 3 + at_ 4 * 2 ^ 20 + at_ 5 * 2 ^ 40, t.masks i]
/-- Write s48 to s55 of a group. -/
def Group.walkRegs (g : Group) (l : List Nat) : Group :=
  { g with sregs := ((List.range 8).zip l).foldl (fun r p => sset 0 (48 + p.1) (BitVec.ofNat 64 p.2) r) g.sregs }

/-- The groups of an LPB in group-number order (R149, R310): their records' numbers with the records. -/
def Lpb.roster (l : Lpb) : List (Nat × RoleRec) :=
  let rs := (List.range l.roles.length).zip l.roles
  let of_ (k : Nat) : List (Nat × RoleRec) := (rs.filter (fun p => p.2.role == k)).flatMap (fun p => List.replicate p.2.count p)
  of_ 1 ++ of_ 2 ++ of_ 3 ++ of_ 4
/-- The TOPB of a launch. -/
def State.topbOf (s : State) (l : Nat) : Option Topb := (kget l s.launches).bind Launch.topb
/-- The step entry of group gix of a launch (R44). -/
def stepEntry (l : Lpb) (t : Topb) (gix : Nat) : Nat := t.entries.getD ((l.roster.getD gix (0, { seg := 0, entry := 0, budget := 0, count := 0, role := 0, dict := 0 })).1) 0

/-- A role group at the start of a step, or at its restart (R44, R46, R70). -/
def Group.atStep (g : Group) (regs : List Nat) (pc : W32) (next : Nat) : Group :=
  { (g.walkRegs regs) with
    slot0 := { g.slot0 with pc := pc, mask := allLanes, bases := [0, 0, 0, 0, 0], next := max next g.slot0.next, wait := .none },
    stepDone := false }

/-! ### The governor (R360, R361) -/

/-- A governor whose launch has taken it. -/
def newGov : Gov :=
  { frame := 0, start := 0, stepAt := 0, endAt := 0, longest := 0, m := 0, misses := 0, last := 0, begun := false, ends := [], step := 0, due := none }
/-- Is step n dropped by the mask m of frame f (R361)? -/
def Topb.dropped (t : Topb) (f m n : Nat) : Bool :=
  n / t.period == f && ((List.range t.drop.length).zip t.drop).any (fun p => bitN m p.1 && p.2 == n % t.period)
/-- The first step from n on that is not dropped, among the next k. -/
def Topb.nextFrom (t : Topb) (f m : Nat) : Nat → Nat → Nat
  | 0, n => n
  | k + 1, n => if t.dropped f m n then Topb.nextFrom t f m k (n + 1) else n
/-- Steps of frame f after s that are not dropped and exist. -/
def Topb.remaining (t : Topb) (f m s : Nat) : Nat :=
  ((List.range t.period).filter (fun i => let n := f * t.period + i; s < n && n < t.steps && !(t.dropped f m n))).length
/-- The drops of a decision: entries in order while the frame would miss its deadline (R361). -/
def Topb.drops (t : Topb) (e longest s : Nat) : Nat → Nat → Nat → Nat → Nat × Nat
  | 0, _, m, r => (m, r)
  | k + 1, i, m, r =>
    if e + r * longest > t.deadline && i < t.drop.length then
      (if s % t.period < t.drop.getD i 0 && !(bitN m i) then Topb.drops t e longest s k (i + 1) (m + 2 ^ i) (r - 1)
       else Topb.drops t e longest s k (i + 1) m r)
    else (m, r)
/-- The governor at the launch-wide end of its step: what it records, and the step that runs next. -/
def Gov.decide (g : Gov) (t : Topb) : Gov × Nat :=
  let s := g.step
  let f := s / t.period
  let e := g.endAt - g.start
  let longest := max g.longest (g.endAt - g.stepAt)
  let d := t.drops e longest s 28 0 g.m (t.remaining f g.m s)
  let next := t.nextFrom f d.1 t.period (s + 1)
  let done := t.remaining f d.1 s == 0
  let g := { g with longest := longest, begun := false, ends := [], due := none, frame := if done then f + 1 else f }
  if done then
    ({ g with m := 0, last := e, misses := if t.deadline < e then min (2 ^ 64 - 1) (g.misses + 1) else g.misses }, next)
  else ({ g with m := d.1 }, next)

/-- GOVERNOR_DECISION (R361): the walkers of the launch are released for the next step that is not dropped. -/
def execGovernorDecision (launch : Nat) (s : State) : Out :=
  match kget launch s.govs, s.topbOf launch with
  | some g, some t =>
    (match g.due with
     | none => .next s
     | some d =>
       if s.now < d then .next s
       else
         let r := g.decide t
         let f (clk : Nat) (u : WUnit) : WUnit :=
           if u.launch == launch && u.govHold then { u with govHold := false, stepN := r.2 - 1, stepDue := some clk } else u
         let sv (v : Saved) : Saved := { v with units := v.units.map (f 0) }
         .next { s with
           govs := kset launch r.1 s.govs,
           cores := s.cores.map (fun p => (p.1, { p.2 with units := p.2.units.map (fun q => (q.1, f p.2.clk q.2)) })),
           launches := s.launches.map (fun p => (p.1, { p.2 with saved := p.2.saved.map sv })),
           pending := s.pending.map (fun p => { p with saved := p.saved.map sv }) })
  | _, _ => .next s

/-! ### The walker (R44, R357, R358) -/

/-- Do the fixed-latency results of a unit's groups still fly, or its freeze store hold some? -/
def Core.flying (c : Core) (u : WUnit) : Bool := c.inflight.any (fun f => u.gids.contains f.gid) || !c.freeze.isEmpty
/-- Stop every group of a unit for its save. -/
def Core.stopUnit (c : Core) (uid : Nat) : Core :=
  (c.unit uid).gids.foldl (fun c g => c.modGroup g (fun x => if x.halt == .none then { x with halt := .saving } else x)) c
/-- The step that the walker of a unit starts next: step 0 first. -/
def WUnit.nextStep (u : WUnit) : Nat := if u.idx.isEmpty then 0 else u.stepN + 1
/-- Start step n of a gang. -/
def State.beginStep (s : State) (c uid n : Nat) (t : Topb) : State :=
  let k := s.core c
  let u := k.unit uid
  let l := s.lpbOf u.launch
  let regs := t.regs n
  let start (g : Group) : Group :=
    if g.ended then g
    else
      let pc : W32 := BitVec.ofNat 32 (stepEntry l t g.gix)
      { (g.atStep regs pc k.pclk) with rlbl := pc }
  let s := s.modCore c (fun k => (u.gids.foldl (fun k g => k.modGroup g start) k).modUnit uid (fun u =>
    { u with stepN := n, idx := t.idx n, stepClk := 0, stepping := true, stepDue := none }))
  match kget u.launch s.govs with
  | some g =>
    if g.begun then s
    else
      let g := { g with begun := true, stepAt := s.ns, step := n, ends := [] }
      let g := if n % t.period = 0 then { g with frame := n / t.period, start := s.ns, longest := 0 } else g
      { s with govs := kset u.launch g s.govs }
  | none => s
/-- The last step has ended: the gang retires (R44). -/
def State.endGang (s : State) (c uid : Nat) : State :=
  let u := (s.core c).unit uid
  let s := s.modCore c (fun k => (u.gids.foldl (fun k g => k.modGroup g (fun x => { x with ended := true })) k).modUnit uid
    (fun u => { u with stepDue := none }))
  match u.gids with
  | g :: _ => (s.unitCheck c g).retireAsk c g
  | [] => s

/-- Is a gang at the boundary of a step: its next one is to start in a clk that has come, or it is to be pre-empted while it waits for
the governor (R44, R381)? -/
def WUnit.atBoundary (u : WUnit) (clk : Nat) : Bool :=
  u.gang && ((match u.stepDue with | some t => t ≤ clk | none => false) || (u.preempt && u.govHold))
/-- WALKER_STEP_START (R43, R44, R357): the next step of the gang of a tile begins, or the gang ends; a gang that is to
be pre-empted stops here instead, with its results landed (R47, R381), one that waits for the governor among them. -/
def execWalkerStepStart (core : Nat) (s : State) : Out :=
  let k := s.core core
  match k.units.find? (fun p => p.2.atBoundary k.clk) with
  | none => .next s
  | some (uid, u) =>
    if u.preempt && u.govHold then (if k.flying u then .next s else .next (s.modCore core (fun c => c.stopUnit uid)))
    else match u.stepDue, s.topbOf u.launch with
    | some d, some t =>
      if k.clk < d || u.govHold then .next s
      else if t.steps ≤ u.nextStep then .next (s.endGang core uid)
      else if u.preempt then
        (if k.flying u then .next s else .next (s.modCore core (fun c => c.stopUnit uid)))
      else .next ((s.beginStep core uid u.nextStep t).relist core u.gids)
    | _, _ => .next s

/-- STEP_WATCHDOG (R47, R378): a non-restartable step has reached 1,048,576 clk: the fault is escalated and the gang
frozen; its record names the copy role. -/
def execStepWatchdog (core : Nat) (s : State) : Out :=
  let k := s.core core
  match k.units.find? (fun p => p.2.gang && p.2.stepping && 2 ^ 20 ≤ p.2.stepClk) with
  | none => .next s
  | some (_, u) =>
    let restart := ((s.topbOf u.launch).map Topb.restart).getD false
    let halted := u.gids.any (fun g => (k.group g).halt == .stopped)
    match u.gids with
    | g :: _ =>
      if restart || halted then .next s
      else .next (({ s with cur := { Cur.none with core := core, gid := g } }).escalate (trapOf 0x0E 0 0 u.stepN 0 0))
    | [] => .next s

/-! ### Retirement (R143, R359, R33) -/

/-- May a unit leave its core: every group has ended, on a shader core with its sectors in (R143)? What its engines still do they do
on their own. -/
def State.unitDone (s : State) (c uid : Nat) : Bool :=
  let k := s.core c
  let u := k.unit uid
  u.gids.all (fun g => (k.group g).ended && (u.gang || (k.group g).ctrs.getD 0 0 == 0) && (k.group g).halt != .stopped)
/-- A landing of a group that has left: what it writes to a buffer, and the request slots that it holds. -/
def Sector.orphaned (f : Sector) (ghost : Nat) : Sector :=
  { f with gid := ghost, ctr := none, bad := false,
           writes := f.writes.filter (fun w => match w with | .b _ _ => true | _ => false) }
/-- A unit leaves its core. Nothing that stays keeps the names of its groups: the commands that its engines have accepted run on
under a key of no group, with the landings that write no register of theirs; a command that has stopped at a fault ends there, since
no stream is left to take the fault (R143, log 19). What the unit held stays on record until another starts (R423). -/
def State.removeUnit (s : State) (c uid : Nat) : State :=
  let u := (s.core c).unit uid
  let mine (g : Nat) : Bool := u.gids.contains g
  let ghost := ghostBase + s.fresh
  let f (q : Cmd) : Cmd := if mine q.gid then { q with gid := ghost } else q
  let s := s.modCore c (fun k => { k with
    groups := k.groups.filter (fun p => !(mine p.1)), units := kdel uid k.units, left := some (u, k.groups.filter (fun p => mine p.1)),
    inflight := k.inflight.filter (fun f => !(mine f.gid)),
    sectors := k.sectors.filterMap (fun x =>
      if !(mine x.gid) then some x
      else (let y := x.orphaned ghost; if y.writes.isEmpty && y.slots == 0 then none else some y)),
    freeze := k.freeze.filter (fun f => !(mine f.gid)), waiters := k.waiters.filter (fun w => !(mine w.2.1)),
    frozen := if u.gang then none else k.frozen,
    accepts := k.accepts.map (fun a => if mine a.2.1 then (a.1, ghost, a.2.2.1, 0) else a),
    gfxQ := k.gfxQ.filter (fun q => !(mine q.gid)), arrayQ := k.arrayQ.map f, drainQ := k.drainQ.map f, rotQ := k.rotQ.map f,
    gather := if u.gang then none else k.gather,
    chans := k.chans.map (fun p => (p.1, { p.2 with q := p.2.q.map f })) })
  let s := u.gids.foldl (fun s g => s.rename c g c ghost) s
  let s : State := { s with
    fresh := s.fresh + 1
    tokens := s.tokens.filter (fun t => match t.2 with | .group c' g _ => !(c' == c && mine g) | _ => true)
    pushWait := s.pushWait.map (fun p => if p.2.1 == c && mine p.2.2.1 then (p.1, c, ghost, p.2.2.2) else p) }
  let s := ((s.core c).chans.filter (fun p => p.2.stopped && (match p.2.q with | q :: _ => q.gid == ghost | [] => false))).foldl
    (fun s p => s.cpDrop c p.1) s
  let s := (s.sortQ.filterMap (fun p => match p.2 with | q :: _ => if q.bad && q.gid == ghost then some (p.1, q) else none | [] => none)).foldl
    (fun s x => s.sortEnd x.1 x.2) s
  s.quadMove (quadKey c)

/-- GROUP_RETIRE (R143, R33, R359): a group whose lanes are gone retires once its sectors are in; with the last group of
its unit, or of every gang of its weave, the unit retires and its launch's count rises. A forked child's unit is
flushed (R239). -/
def execGroupRetire (core gid : Nat) (s : State) : Out :=
  match kget gid (s.core core).groups with
  | none => .next s
  | some g =>
    let l := s.together core g.uid
    if !(l.all (fun p => s.unitDone p.1 p.2)) then .next s
    else
      let wv := ((s.core core).unit g.uid).weave
      let launch := ((s.core core).unit g.uid).launch
      let child := ((kget launch s.launches).bind Launch.parent).isSome
      let s := l.foldl (fun s p => (if child then s.flush p.1 else s).removeUnit p.1 p.2) s
      let s := match wv with
        | some w => { s with weaves := kdel w s.weaves,
                             launches := kmod launch (fun x => { x with weave := none, lastStep := (kget w s.weaves).map Weave.step }) s.launches }
        | none => s
      .next ((s.unitRetired launch).govCheck launch (s.period core))

end Sys2Proof.Machine
end

