-- ==== Sys2Proof/Machine/Sched.lean ====
section
/-! DEFINITION. The dispatcher (R314 to R319, R403): taking launches, choosing units and cores, starting and restoring units
(R313, R387, R46), pre-emption (R317, R380, R381), refill of fork queues (R38). -/

namespace Sys2Proof.Machine

/-! ### Launch queues (R314, R312) -/

/-- What the dispatcher reads at the head of a launch queue: the entry, the image of its LPB where its home answers, the LPB's VA, and
the state that the reads leave. -/
structure QueueRead where
  entry : Nat
  pa : Nat
  img : Option (List Byte)
  va : Nat
  s : State
/-- Read the head of launch queue q. What is read of open exact-sum words settles (R216). The VA of the LPB is not known, so s54 of its
children is open (log 52). -/
def State.queueHead (s : State) (q : Nat) : QueueRead :=
  let x := s.lq q
  let at_ := x.base + 8 * (x.head % 2 ^ x.n)
  let s := s.settleRange at_ 8
  let e := s.nat at_ 8
  let pa := fld e 7 45 * 128
  let s := s.settleRange pa 384
  let img := if s.mapped pa && (s.badAt pa 384).isNone then some (s.bytes pa 384) else none
  { entry := e, pa := pa, img := img, va := Config.choice s.free % 2 ^ 56, s := s.settleParts img }
/-- Do the fixed bits of a launch queue's entry hold ones (R314)? -/
def entryBad (e : Nat) : Bool := fld e 0 7 != 0 || fld e 52 12 != 0

/-- LAUNCH_QUEUE_TAKE: the entry at the head is validated and placed, or rejected, and the head advances; while the task
queues of its level are full the head stays. An entry that a cancellation has dropped is passed over (R390). -/
def execLaunchQueueTake (q : Fin 64) (s : State) : Out :=
  let x := s.lq q.val
  if !x.enable || x.head == x.tail then .next s
  else
    let h := s.queueHead q.val
    let r : Except Nat (Lpb × Option Topb × List Edge) := if entryBad h.entry then .error 0x20 else h.s.validate h.img h.va h.pa none false
    let s := { h.s with free := h.s.free + 1 }
    let adv (s : State) : State :=
      ({ s with lqs := kmod q.val (fun y => { y with head := (y.head + 1) % 2 ^ 32, void := y.void.filter (· != y.head) }) s.lqs }).pushServe q.val
    if x.void.contains x.head then .next (adv s)
    else match r with
    | .error c => .next (adv (s.rejectSignal ((h.img.map (fun b => lpbOfImage b h.va h.pa)).getD emptyLpb) c))
    | .ok (l, t, ed) =>
      let y := { s.mkLaunch l t ed with queue := q.val, queued := true }
      if s.taskRoom y then .next (adv (s.addLaunch y).2) else .next { s with free := s.free - 1 }

/-- FORK_OVERFLOW_REFILL (R38): the oldest entry of a launch's overflow area returns to the fork queue. -/
def execForkOverflowRefill (launch : Nat) (s : State) : Out :=
  match kget launch s.ovf with
  | some (c :: r) =>
    let die := ((kget c s.launches).bind Launch.forkDie).getD 2
    if 1024 ≤ s.forkCount die then .next s
    else
      let n := (s.lpbOf launch).ovfEntries
      .next { (s.modLaunch c (fun x => { x with inOvf := false, t0 := s.ns })) with
        ovf := kset launch r s.ovf, ovfHead := kset launch (((kget launch s.ovfHead).getD 0 + 1) % max 1 n) s.ovfHead }
  | _ => .next s

/-! ### Cores that can hold a unit (R315, R319) -/

/-- Cores of a kind in order of die and index. -/
def coresOf (tensor : Bool) : List Nat :=
  ((List.range 10).filter (fun d => rasterDie d != tensor)).flatMap (fun d => (List.range (dieCores d)).map (fun i => d * 256 + i))
/-- Is a core open to new units of a class: it reports, its quad is a member of the pool and not moving? -/
def State.inPool (s : State) (c cls : Nat) : Bool :=
  s.reports c && (match kget (quadKey c) s.quads with | some q => q.cls == cls && q.moving.isNone | none => false)
/-- Has a core been chosen for a unit that waits for its quads? -/
def State.chosen (s : State) (c : Nat) : Bool := s.pending.any (fun p => p.cores.contains c)
/-- Do the engines of a tile still run commands of a gang that has gone, so that its buffers are not free yet (log 19)? -/
def State.enginesBusy (s : State) (c : Nat) : Bool :=
  let k := s.core c
  !(k.arrayQ.isEmpty && k.drainQ.isEmpty && k.rotQ.isEmpty && k.chans.all (fun p => p.2.q.isEmpty))
    || s.sortQ.any (fun p => p.2.any (fun q => q.core == c && q.local_))
/-- The lowest run of n free 16 KiB units of shared memory (R212). -/
def Core.freeRun (k : Core) (n : Nat) : Option Nat :=
  (List.range (25 - n)).find? (fun b => n ≤ 24 && k.units.all (fun p => p.2.shUnits = 0 || b + n ≤ p.2.shBase || p.2.shBase + p.2.shUnits ≤ b))
/-- Can a core hold a workgroup of a launch now (R29, R22, R212)? -/
def Core.holds (k : Core) (l : Lpb) : Bool :=
  let n := l.groups
  k.groups.length + n ≤ 48 && k.groups.foldl (fun a p => a + p.2.budget) 0 + l.live.foldl (fun a r => a + r.budget * r.count) 0 ≤ 160
    && (k.freeRun (ceilDiv l.shBytes 16384)).isSome
/-- A shader core with room taken for a workgroup of a launch that is to start on it (R319, R404). -/
def Core.claim (k : Core) (l : Lpb) : Core :=
  let n := ceilDiv l.shBytes 16384
  { k with groups := k.groups ++ l.roster.map (fun r => (0, { Group.start with banks := List.replicate r.2.budget Bank.start })),
           units := k.units ++ [(0, { emptyUnit with shBase := (k.freeRun n).getD 0, shUnits := n })] }
/-- A shader core with room taken for every unit that waits for its quad. -/
def State.claimed (s : State) (c : Nat) : Core :=
  (s.pending.filter (fun p => p.cores.contains c)).foldl (fun k p => k.claim (s.lpbOf p.launch)) (s.core c)
/-- Can a core hold a unit of a launch now? -/
def State.canHold (s : State) (c : Nat) (l : Lpb) : Bool :=
  s.inPool c l.cls && (if isShader c then (s.claimed c).holds l else (s.core c).units.isEmpty && !(s.chosen c) && !(s.enginesBusy c))
/-- The weight of a core (R319, R402). -/
def State.coreWeight (s : State) (c : Nat) : Nat :=
  let k := s.core c
  15 - k.temp - min 7 (k.droops.countP id)
/-- The core of greatest weight, the earliest of equals. -/
def heaviest (w : Nat → Nat) : List Nat → Option Nat
  | [] => none
  | c :: r => match heaviest w r with | some d => some (if w c < w d then d else c) | none => some c
/-- Placement of a unit on one core (R319). -/
def State.chooseCore (s : State) (l : Lpb) : Option Nat :=
  let cs := coresOf (l.kind != 0)
  let p := sget 0 (l.cls * 2 + (if l.kind = 0 then 0 else 1)) s.ptrs
  let order := cs.filter (fun c => p ≤ c) ++ cs.filter (fun c => c < p)
  heaviest s.coreWeight ((order.filter (fun c => s.canHold c l)).take 8)
/-- Tiles of quad rectangle (x, y) of a die, in tile order. -/
def rectTiles (d x y w h : Nat) : List Nat :=
  (List.range (4 * w * h)).map (fun i => d * 256 + (2 * y + i / (2 * w)) * 12 + 2 * x + i % (2 * w))
/-- The first free rectangle of a die, as its quad coordinates (R319). -/
def State.rectOn (s : State) (l : Lpb) (d : Nat) : Option (Nat × Nat) :=
  ((List.range 36).map (fun q => (q % 6, q / 6))).find? (fun p =>
    p.1 + l.quadsW ≤ 6 && p.2 + l.quadsH ≤ 6 && (rectTiles d p.1 p.2 l.quadsW l.quadsH).all (fun c => s.canHold c l))
/-- The dies and rectangles of a weave (R319). -/
def State.weavePlace (s : State) (l : Lpb) : Option (List (Nat × Nat × Nat)) :=
  let ds := ((List.range 10).filter (fun d => !(rasterDie d))).filterMap (fun d => (s.rectOn l d).map (fun p => (d, p.1, p.2)))
  if ds.length < l.dies then none else some (ds.take l.dies)
/-- The tiles of a placed weave, in the order of their gang positions (R313). -/
def weaveTiles (l : Lpb) (ds : List (Nat × Nat × Nat)) : List Nat := ds.flatMap (fun p => rectTiles p.1 p.2.1 p.2.2 l.quadsW l.quadsH)

/-! ### Waiting units (R315, R316) -/

/-- A waiting unit: its launch, its saved form if it has run, and what orders it. -/
structure Cand where
  key : Nat
  sv : Option Saved
  index : Nat
  t0 : Nat
  e : Nat
  fork : Bool
  queue : Nat

/-- The effective level of a unit of a launch (R316). -/
def State.effLevel (s : State) (x : Launch) (t0 : Nat) : Nat :=
  min 7 (x.level + (s.ns - t0) / 2 ^ ((s.classes.getD x.lpb.cls { granted := false, mhz := 0, mv := 0, grant := 0, profile := 0, k := 14 }).k))
/-- Launches that are to take a governor as their first unit, already chosen for its cores, starts (R360). -/
def State.govClaims (s : State) : List Nat :=
  ((s.pending.map Pend.launch).filter (fun l =>
    (match kget l s.launches with | some x => x.governor | none => false) && (kget l s.govs).isNone)).eraseDups
/-- May units of a launch start: placed, no incoming edge open, its class granted, a governor free (R315, R345, R360)? -/
def State.startable (s : State) (key : Nat) (x : Launch) : Bool :=
  x.queued && x.waits == 0 && !x.inOvf && !x.ending
    && (s.classes.getD x.lpb.cls { granted := false, mhz := 0, mv := 0, grant := 0, profile := 0, k := 14 }).granted
    && (!x.governor || (kget key s.govs).isSome || s.govClaims.contains key || s.govs.length + s.govClaims.length < 16)
/-- The base level of a launch's units (R316). -/
def State.baseLevel (s : State) (launch : Nat) : Nat := ((kget launch s.launches).map Launch.level).getD 7
/-- Units that stand on cores. -/
def State.residents (s : State) : Nat := s.cores.foldl (fun n p => n + p.2.units.length) 0
/-- The waiting units that a die's dispatcher sees (R315). Of the units of a launch that have not been dispatched, which all wait alike,
as many as could be placed or pre-empt a unit that stands on a core (R317). -/
def State.waiting (s : State) (die : Nat) : List Cand :=
  s.launches.flatMap (fun p =>
    let x := p.2
    if !(s.startable p.1 x) || (x.lpb.kind == 0) != rasterDie die || (match x.forkDie with | some d => d != die | none => false) then []
    else
      let old := (x.saved.filter (fun v => !v.joined || v.units.all (fun u => u.children == 0))).map (fun v =>
        { key := p.1, sv := some v, index := v.index, t0 := v.t0, e := s.effLevel x v.t0, fork := x.parent.isSome, queue := x.queue : Cand })
      let new (i : Nat) : Cand := { key := p.1, sv := none, index := i, t0 := x.t0, e := s.effLevel x x.t0, fork := x.parent.isSome, queue := x.queue }
      old ++ x.back.map new ++ (List.range (min (x.lpb.grid - x.nextUnit) (s.residents + 1))).map (fun i => new (x.nextUnit + i)))
/-- The order of dispatch (R316). -/
def Cand.before (a b : Cand) : Bool :=
  if a.e != b.e then b.e < a.e
  else if a.t0 != b.t0 then a.t0 < b.t0
  else if a.fork != b.fork then a.fork
  else if a.queue != b.queue then a.queue < b.queue
  else a.index < b.index
/-- The cores of a waiting unit now, if it can be placed (R319, R351). -/
def State.placeOf (s : State) (c : Cand) : Option (List Nat × List (Nat × Nat × Nat)) :=
  let l := s.lpbOf c.key
  match c.sv with
  | some v =>
    if v.bound then (if v.cores.all (fun k => s.canHold k l) then some (v.cores, []) else none)
    else if l.kind = 2 then (s.weavePlace l).map (fun d => (weaveTiles l d, d))
    else (s.chooseCore l).map (fun k => ([k], []))
  | none =>
    if l.kind = 2 then (s.weavePlace l).map (fun d => (weaveTiles l d, d)) else (s.chooseCore l).map (fun k => ([k], []))

/-! ### Starting a unit (R313, R116, R115) -/

/-- Group keys for n new groups of a shader core: each on the partition with fewest groups (R29). -/
def allocGids (taken : List Nat) : Nat → List Nat
  | 0 => []
  | n + 1 =>
    let load (g : Nat) : Nat := taken.countP (fun t => t % 4 == g % 4)
    let free := (List.range 48).filter (fun g => !(taken.contains g))
    let g := free.foldl (fun (a : Nat) x => if load x < load a || !(free.contains a) then x else a) (free.headD 0)
    g :: allocGids (g :: taken) n
/-- A group as its unit starts (R115, R313). -/
def State.newGroup (s : State) (key uid index gpos gix : Nat) (r : RoleRec) (next : Nat) : Group :=
  let l := s.lpbOf key
  let priv := l.privOf index gpos gix
  let pool := ((kget r.dict s.dicts).map Dict.pool).getD []
  { Group.start with
    uid := uid, gix := gix, role := roleOf r.role, launch := key, dict := r.dict, seg := r.seg, privBase := priv,
    pool := ((List.range 32).zip pool).foldl (fun p x => sset 0 x.1 x.2 p) [], inlineLimit := l.inlineLimit,
    sregs := startRegs l index gix priv (((kget key s.launches).map Launch.issuer).getD 0) [],
    banks := List.replicate r.budget Bank.start, rlbl := if r.role = 1 then 0 else BitVec.ofNat 32 r.entry,
    slot0 := { PcSlot.empty with pc := BitVec.ofNat 32 r.entry, mask := allLanes, next := next },
    slot1 := { PcSlot.empty with next := next } }
/-- A core with room made for a unit: a tile's buffers, latch, rotator and channels stand as at launch start; a window's
own banks of shared memory are DARK (R116, R279, R348). The spec does not say what becomes of a bank that lies only partly in the
window: it keeps its state, since another window may hold the rest. DESIGN CHOICE, log 68. -/
def Core.prepare (k : Core) (tile : Bool) (base units : Nat) : Core :=
  if tile then
    { k with scratch := [], buf := [], latch := Latch.start, lastMxld := none, gather := none, rot := Rotator.start, chans := [], resv := [],
             freeze := [], frozen := none }
  else
    let k := if k.units.isEmpty && k.chans.all (fun p => p.2.q.isEmpty) then { k with chans := [] } else k
    (List.range 6).foldl (fun k b =>
    if units != 0 && base ≤ 4 * b && 4 * b + 4 ≤ base + units then
      { (k.setSbank (128 + b) Bank.start) with buf := sdrop (65536 * (128 + b)) 65536 k.buf }
    else k) k
/-- A quad's first unit: its margin becomes reduced (R391). -/
def State.firstUnit (s : State) (c : Nat) : State :=
  { s with quads := kmod (quadKey c) (fun q => if q.first then q else { q with first := true, margin := .reduced }) s.quads }
/-- Start unit `index` of a launch on core c as gang position gpos (R313, R43). -/
def State.startOn (s : State) (key index gpos : Nat) (weave : Option Nat) (c : Nat) : State :=
  let l := s.lpbOf key
  let s := (s.flush c).firstUnit c
  let k := s.core c
  let tile := !isShader c
  let units := if tile then 0 else ceilDiv l.shBytes 16384
  let base := (k.freeRun units).getD 0
  let uid := s.fresh
  let ros := l.roster
  let gids := if tile then List.range ros.length else allocGids (k.groups.map Prod.fst) ros.length
  let stepped := tile && (s.topbOf key).isSome
  let next := k.pclk + 1
  let gs := ((List.range ros.length).zip ros).map (fun p =>
    let g := s.newGroup key uid index gpos p.1 p.2.2 next
    if stepped then { g with slot0 := { g.slot0 with wait := .stepEnd } } else g)
  let u : WUnit := { emptyUnit with
    launch := key, index := index, gang := tile, gids := gids, shBase := base, shUnits := units, shBytes := l.shBytes, t0 := s.now,
    tq := ((kget key s.launches).map Launch.t0).getD 0,
    home := s.fresh + 1, gpos := gpos, weave := weave, rings := l.rings, phases := List.replicate 8 0,
    queues := l.queues.map (fun d => { desc := d, head := 0, count := 0, coming := [], freed := (0, 0) }),
    stepDue := if stepped then some (k.clk + 1) else none }
  let k := k.prepare tile base units
  let k := { k with groups := (gids.zip gs).foldl (fun m p => kset p.1 p.2 m) k.groups, units := kset uid u k.units, left := none }
  { (s.modCore c (fun _ => k)).trimLines c with fresh := s.fresh + 2 }

/-! ### Restoring a unit (R387, R46) -/

/-- A saved group on its new core: a role group keeps its distance to its next bundle (R376). -/
def Group.seat (g : Group) (uid next : Nat) : Group :=
  { g with uid := uid, traces := [], slot0 := { g.slot0 with next := next + g.slot0.next }, slot1 := { g.slot1 with next := next + g.slot1.next } }
/-- A role group whose step starts again: a handler it was in is given up, with the waits put aside for it (R46, log 50). -/
def Group.restart (g : Group) (dict : Nat) : Group :=
  { g with inHandler := false, dict := if g.inHandler then dict else g.dict,
           slot0 := { g.slot0 with kept := .none }, slot1 := { g.slot1 with kept := .none }, weaveArr := false }
/-- A restored group's banks are clean (R124). -/
def Group.cleanBanks (g : Group) : Group := { g with banks := g.banks.map (fun b => { b with dirty := false }) }
/-- A restored tile: its banks and rotator are clean; the latch has the scales that the image had no place for (R124, log 74). -/
def Core.cleanTile (k : Core) (tail : List Byte) : Core :=
  { k with scratch := k.scratch.map (fun p => (p.1, { p.2 with dirty := false })), rot := { k.rot with dirty := false },
           latch := if tail.isEmpty then k.latch else latchOf k.latch.word (fitBytes 32768 k.latch.all ++ tail) }
/-- The states of the shared banks under a restored window (R125): a bank takes the brightest state of its units, and one that another
window shares is no darker than it was. DESIGN CHOICE, log 68. -/
def Core.seatShared (k : Core) (u : WUnit) : Core :=
  (List.range u.shUnits).foldl (fun k i =>
    let b := (u.shBase + i) / 4
    let code := u.shSt.getD i 2
    let old := (k.sbank (128 + b)).code
    if code < old then k.setSbank (128 + b) { bankOf code with dirty := !(u.ownsBank b) } else k) k
/-- The commands of a channel that a save put aside, for one that another unit's command heads: the first keeps its place (R276, R387). -/
def Channel.aside (h : Channel) : List Cmd :=
  match h.q with
  | q :: r => { q with part := some (h.row, h.col), bad := h.stopped } :: r
  | [] => []
/-- Stopped channels of groups that run no handler resume, but those whose fault is yet to be taken (R276, R387). -/
def State.resumeRestored (s : State) (c : Nat) (gids : List Nat) : State :=
  gids.foldl (fun s g => if (s.group c g).inHandler then s else s.resumeEngines c g) s
/-- Re-create one gang or workgroup of a saved unit on core c (R387); a gang in a restartable step starts it again (R46), one without
a TOPB goes on where it stood, its handler with it. -/
def State.restoreOn (s : State) (key : Nat) (u : WUnit) (gs : List (Nat × Group)) (ch : Sparse Channel) (fz : List InFlight)
    (weave : Option Nat) (c : Nat) : State :=
  let s := (s.flush c).firstUnit c
  let k := s.core c
  let tile := !isShader c
  let uid := s.fresh
  let mine := gs.filter (fun p => u.gids.contains p.1)
  let gids := if tile then mine.map (fun p => p.2.gix) else allocGids (k.groups.map Prod.fst) mine.length
  let pairs := (mine.map Prod.fst).zip gids
  let nu (g : Nat) : Nat := ((pairs.find? (fun p => p.1 == g)).map Prod.snd).getD g
  let base := (k.freeRun u.shUnits).getD 0
  let mid := s.midStep u
  let v := { u with gids := gids, shBase := base, t0 := s.now, weave := weave, barDue := none, bound := u.bound }
  let cmd (q : Cmd) : Cmd := { q with core := c, gcore := c, gid := nu q.gid, base := base * 16384 }
  let k := k.prepare tile base u.shUnits
  let k := { k with
    groups := (mine.zip gids).foldl (fun m p => kset p.2 (p.1.2.seat uid (k.pclk + 1)) m) k.groups, units := kset uid v k.units, left := none,
    gfxQ := k.gfxQ ++ (mine.flatMap (fun p => p.2.traces.map (fun q => { cmd q with due := k.eclk + 1 }))),
    freeze := if tile then fz.map (fun f => { f with gid := nu f.gid }) else k.freeze,
    chans := ch.foldl (fun m p =>
      match kget p.1 m with
      | some h => if h.q.isEmpty then kset p.1 { p.2 with q := p.2.q.map cmd, wp := h.wp } m else kset p.1 { h with q := h.q ++ p.2.aside.map cmd } m
      | none => kset p.1 { p.2 with q := p.2.q.map cmd } m) k.chans }
  let k := ch.foldl (fun k p => p.2.q.foldl (fun k q => match q.op with
    | .copy _ o => k.reserve q.id (cpSetOf o q.args c) | _ => k) k) k
  let s := { (s.modCore c (fun _ => k)).trimLines c with fresh := s.fresh + 1 }
  let s := pairs.foldl (fun s p => s.renameGhost p.1 c p.2) s
  let s := s.loadImage c uid
  let s := s.modCore c (fun k =>
    let k := (gids.foldl (fun k g => k.modGroup g Group.cleanBanks) k).seatShared v
    if tile then k.cleanTile v.latchTail else k)
  let done (s : State) : State := s.resumeRestored c gids
  let ros := (s.lpbOf key).roster
  let own (g : Group) : Nat := ((ros[g.gix]?).map (fun r => r.2.dict)).getD g.dict
  match s.topbOf key with
  | some t =>
    if !tile then done s
    else if mid then
      let regs := t.regs ((s.core c).unit uid).stepN
      done <| s.modCore c (fun k => (gids.foldl (fun k g => k.modGroup g (fun x => if x.ended then x else (x.restart (own x)).atStep regs x.rlbl (k.pclk + 1))) k).modUnit uid
        (fun w => { w with stepClk := 0 }))
    else
      done <| s.modCore c (fun k => k.modUnit uid (fun w => { w with stepN := u.stepN, stepDue := if u.govHold then none else some (k.clk + 1) }))
  | none => done <| if tile then s.modCore c (fun k => { k with frozen := gids.find? (fun g => (k.group g).inHandler), frozenClk := k.pclk }) else s

/-! ### Dispatch (R316, R319, R403, R404) -/

/-- Start a chosen unit on its cores. -/
def State.startUnit (s : State) (key index : Nat) (sv : Option Saved) (cores : List Nat) : State :=
  let l := s.lpbOf key
  let isW := l.kind == 2
  let wid := s.fresh
  let s : State := if !isW then s
    else
      let origin := (cores.map coreDie).eraseDups.map (fun d =>
        let ts := cores.filter (fun c => coreDie c == d)
        (d, (lmin (ts.map (fun c => coreIx c % 12))).getD 0, (lmin (ts.map (fun c => coreIx c / 12))).getD 0))
      let w : Weave := { launch := key, tiles := cores, origins := origin, w := 2 * l.quadsW, h := 2 * l.quadsH,
                         step := ((sv.bind Saved.weave).map Prod.fst).getD 0, arrived := [], comm := none, lastLand := 0, len := 0, flying := [], toStart := [] }
      { (s.modLaunch key (fun x => { x with weave := some wid })) with weaves := kset wid w s.weaves, fresh := s.fresh + 1 }
  let weave := if isW then some wid else none
  let s : State := match sv with
    | none => ((List.range cores.length).zip cores).foldl (fun s p => s.startOn key index p.1 weave p.2) s
    | some v => ((List.range cores.length).zip cores).foldl (fun s p =>
        s.restoreOn key (v.units.getD p.1 emptyUnit) v.groups (v.chans.getD p.1 []) (v.freezes.getD p.1 []) weave p.2) s
  let gov := match kget key s.launches with | some x => x.governor && (kget key s.govs).isNone | none => false
  let s : State := if gov then { s with govs := kset key newGov s.govs } else s
  s.modLaunch key (fun x => { x with started := true })

/-- Is a quad ON, or in a hold that has not ended (R403)? -/
def State.quadOn (s : State) (q : Nat) : Bool :=
  match (kget q s.quads).map Quad.power with | some .on => true | some (.hold t) => s.now < t | _ => false
/-- Units whose quads are all ON start (R404). -/
def State.startPending (s : State) : State :=
  s.pending.foldl (fun s p =>
    if p.cores.all (fun c => s.quadOn (quadKey c)) then
      ({ s with pending := s.pending.filter (fun x => !(x.launch == p.launch && x.index == p.index && x.cores == p.cores)) }).startUnit p.launch p.index p.saved p.cores
    else s) s
/-- Quads of cores return from their hold, or are asked to wake (R403). -/
def State.wakeQuads (s : State) (cores : List Nat) : State :=
  let ks := (cores.map quadKey).eraseDups
  { s with quads := ks.foldl (fun m k => kmod k (fun q => match q.power with | .hold t => if s.now < t then { q with power := .on } else q | _ => q) m) s.quads,
           agenda := s.agenda ++ (ks.filter (fun k => !(s.quadOn k))).map (fun k => Instr.quadWakeRequest (k / 64) (k % 64)) }
/-- Dispatch a waiting unit to its cores. -/
def State.dispatch (s : State) (c : Cand) (cores : List Nat) : State :=
  let l := s.lpbOf c.key
  let s : State := match c.sv with
    | some v => s.modLaunch c.key (fun x => { x with saved := x.saved.erase v })
    | none => s.modLaunch c.key (fun x =>
        if x.back.contains c.index then { x with back := x.back.erase c.index } else { x with nextUnit := x.nextUnit + 1 })
  let pick := l.kind != 2 && !((c.sv.map Saved.bound).getD false)
  let s : State := if pick then { s with ptrs := sset 0 (l.cls * 2 + (if l.kind = 0 then 0 else 1)) (cores.headD 0 + 1) s.ptrs } else s
  let s := { s with pending := s.pending ++ [({ launch := c.key, index := c.index, saved := c.sv, cores := cores } : Pend)] }
  (s.wakeQuads cores).startPending

/-! ### Pre-emption (R317) -/

/-- May a resident unit be pre-empted: it runs, so no group of it is stopped, and no save of it is under way (R317)? -/
def State.victimOk (s : State) (c uid : Nat) : Bool :=
  let k := s.core c
  let u := k.unit uid
  !u.preempt && !u.joining && u.gids.all (fun g => (k.group g).halt != .stopped && (k.group g).halt != .debug)
/-- Is a unit being saved to make room for a waiting one? -/
def State.makesRoom (s : State) (d : Cand) : Bool :=
  s.cores.any (fun p => p.2.units.any (fun q => q.2.preempt && q.2.forWhom == some (d.key, d.index)))
/-- The unit that a waiting unit pre-empts: of lowest base level, the most recently dispatched; none while one makes room for it
already (R317). -/
def State.victim (s : State) (c : Cand) : Option (Nat × Nat) :=
  let l := s.lpbOf c.key
  let bound := match c.sv with | some v => if v.bound then some v.cores else none | none => none
  let pool := s.cores.filter (fun p => isShader p.1 == (l.kind == 0) && s.inPool p.1 l.cls && (match bound with | some b => b.contains p.1 | none => true))
  let lev (u : WUnit) : Nat := s.baseLevel u.launch
  if s.makesRoom c then none
  else
    let all := pool.flatMap (fun p => (p.2.units.filter (fun q => lev q.2 < c.e)).map (fun q => (p.1, q.1, q.2)))
    let ok := all.filter (fun x => (s.together x.1 x.2.1).all (fun y => s.victimOk y.1 y.2))
    (ok.foldl (fun (a : Option (Nat × Nat × WUnit)) x =>
      match a with
      | none => some x
      | some y => if lev x.2.2 < lev y.2.2 || (lev x.2.2 == lev y.2.2 && y.2.2.t0 < x.2.2.t0) then some x else a) none).map (fun x => (x.1, x.2.1))
/-- Is a unit that could go to cores held back: an earlier one of its pool, which no core can hold yet, could pre-empt it there, and has
others make room (R318)? R318 bounds the wait of the earlier one, which a unit put into the room made so far would make endless.
DEDUCED, log 78. -/
def State.heldBack (s : State) (l : List Cand) (c : Cand) (cores : List Nat) : Bool :=
  let p := s.lpbOf c.key
  (l.takeWhile (fun d => d.before c)).any (fun d =>
    let q := s.lpbOf d.key
    (q.kind == 0) == (p.kind == 0) && q.cls == p.cls && s.baseLevel c.key < d.e && s.makesRoom d && (s.placeOf d).isNone
      && (match d.sv with | some v => !v.bound || v.cores.any (cores.contains ·) | none => true))
/-- What the dispatcher of a die does next: dispatch a unit, or pre-empt for one that no core can hold. -/
def State.dispatchNext (s : State) (die : Nat) : Option (Cand × Sum (List Nat) (Nat × Nat)) :=
  let l := lsort Cand.before (s.waiting die)
  let room (m : List Cand) : Option (Cand × Nat × Nat) :=
    (m.filter (fun d => (s.placeOf d).isNone)).findSome? (fun d => (s.victim d).map (fun v => (d, v)))
  match l.findSome? (fun c => (s.placeOf c).bind (fun p => if s.heldBack l c p.1 then none else some (c, p.1))) with
  | some (c, cores) =>
    (match room (l.takeWhile (fun d => d.before c)) with
     | some (d, v) => some (d, .inr v)
     | none => some (c, .inl cores))
  | none => (room l).map (fun x => (x.1, .inr x.2))

/-- UNIT_DISPATCH (R315, R316, R319): a unit goes to its cores, or the unit that is to make room for it is asked to (R317). -/
def execUnitDispatch (die : Nat) (s : State) : Out :=
  match s.dispatchNext die with
  | some (c, .inl cores) => .next (s.dispatch c cores)
  | some (c, .inr v) =>
    .next (((s.together v.1 v.2).foldl (fun s p => s.modCore p.1 (fun k => k.modUnit p.2 (fun u => { u with forWhom := some (c.key, c.index) }))) s).sched
      [.preemption v.1 v.2])
  | none => .next s

/-- The array and drain commands that a pre-empted restartable step gives up: those of its recomputable C banks (R290). -/
def State.discardRecomp (s : State) (c uid : Nat) : State :=
  let k := s.core c
  let u := k.unit uid
  let bankOfCmd (q : Cmd) : List Nat := match q.op with | .accrd _ o => [120 + o.bank.val] | op => arrayDest op
  let gone (q : Cmd) : Bool := u.gids.contains q.gid && !q.ran && (bankOfCmd q).any (s.dropBank u.launch)
  let l := (k.arrayQ ++ k.drainQ).filter gone
  let s := s.modCore c (fun k => l.foldl (fun k q => k.release q.id)
    { k with arrayQ := k.arrayQ.filter (fun q => !(gone q)), drainQ := k.drainQ.filter (fun q => !(gone q)), gather := none })
  l.foldl (fun s q => s.ctrDown c q.gid 2) s
/-- Stop a unit that is to be pre-empted, where its boundary is at hand (R46, R47, R51, R380, R381). The spec gives a gang without a
TOPB, which has no steps, no boundary: it stops at the next bundle boundary, as a restartable step does. DESIGN CHOICE, log 50. -/
def State.stopFor (s : State) (c uid : Nat) : State :=
  let u := (s.core c).unit uid
  let comm := (u.weave.bind (fun w => kget w s.weaves)).any (fun w => w.comm.isSome)
  if comm then s
  else if !u.gang then s.modCore c (fun k => k.stopUnit uid)
  else if s.midStep u || (s.topbOf u.launch).isNone then (s.discardRecomp c uid).modCore c (fun k => (k.stopUnit uid).freezeAll 255)
  else s

/-- PREEMPTION (R317, R380, R381): the unit, or every gang of its weave, is asked to stop. -/
def execPreemption (core uid : Nat) (s : State) : Out :=
  let l := s.together core uid
  if (kget uid (s.core core).units).isNone || !(l.all (fun p => s.victimOk p.1 p.2)) then .next s
  else
    let s := l.foldl (fun s p => s.modCore p.1 (fun k => k.modUnit p.2 (fun u => { u with preempt := true }))) s
    .next (l.foldl (fun s p => s.stopFor p.1 p.2) s)

end Sys2Proof.Machine
end

