-- ==== Sys2Proof/Machine/Mesh.lean ====
section
/-! DEFINITION. Weaves (R48 to R51): the release of the weave barrier (R354, R398), the transfers of a communication phase
(R342, R343, R122) and the advance of the step counter (R49). -/

namespace Sys2Proof.Machine

/-- The clk of a weave: that of its first tile. -/
def State.weaveClk (s : State) (w : Weave) : Nat := (s.core (w.tiles.headD 0)).clk
/-- The gang of a tile. -/
def Core.gangOf (k : Core) : WUnit := ((k.units.head?).map Prod.snd).getD emptyUnit
/-- The directory row that a tile runs in superstep n (R339). -/
def tstRow (u : WUnit) (n : Nat) : Nat × Nat × Nat := u.tst.dir.getD (n % max 1 u.tst.used) (0, 0, 0)
/-- May the weave barrier release: every tile has arrived, none is stopped for a save, and every quad is at nominal margin
(R354, R398)? -/
def State.weaveReady (s : State) (w : Weave) : Bool :=
  w.comm.isNone && w.tiles.all (fun c => w.arrived.contains c &&
    (match (kget (quadKey c) s.quads).map Quad.margin with | some .nominal => true | none => true | _ => false)
    && (s.core c).gangOf.gids.all (fun g => ((s.core c).group g).halt != .saving))

/-- WEAVE_BARRIER_RELEASE (R49, R354): clk 0 of the communication phase; its length is the largest of the tiles' rows. The transfers of
offset 0 start in it, and a phase of no length and no transfer is over in it. -/
def execWeaveBarrierRelease (weave : Nat) (s : State) : Out :=
  match kget weave s.weaves with
  | none => .next s
  | some w =>
    if !(s.weaveReady w) then .next s
    else
      let rows : List (Nat × Nat × Nat × Nat) := w.tiles.map (fun c => (c, tstRow (s.core c).gangOf w.step))
      let start : List (Nat × Nat × Nat) := rows.flatMap (fun p => (List.range p.2.2.1).map (fun i =>
        (((s.core p.1).gangOf.tst.entries.getD (p.2.1 + i) (tstEntry [] 0)).at_, p.1, p.2.1 + i)))
      let first := start.filter (fun x => x.1 == 0)
      let s : State := { s with weaves := kset weave { w with
        comm := some (s.weaveClk w), len := rows.foldl (fun a p => max a p.2.2.2) 0, toStart := start, flying := [] } s.weaves }
      .next (s.sched (first.map (fun x => Instr.tstTransferStart weave x.2.1 x.2.2) ++ [Instr.stepCounterAdvance weave]))

/-- The destination tiles of a transfer entry (R340). -/
def Weave.dests (w : Weave) (e : TstEntry) : List Nat :=
  match w.origins[e.die]? with
  | none => []
  | some (d, x, y) => (List.range (e.w * e.h)).map (fun i => d * 256 + (y + e.y + i / e.w) * 12 + x + e.x + i % e.w)
/-- Bytes that a transfer reads: a DARK bank reads as zero, a DIM bank wakes (R122). -/
def Core.tstRead (k : Core) (e : TstEntry) : List Byte × Core :=
  let dark (o : Nat) : Bool := let b := k.sbank (80 + o / 65536); b.st == .dark && b.wakeAt.isNone
  let data := (List.range e.bytes).map (fun i => if dark (e.src + i) then 0 else k.bufByte 2 (e.src + i))
  (data, (spanBanks 2 e.src e.bytes).foldl (fun k b => if (k.sbank b).st == .dim then k.wakeScratch b else k) k)

/-- TST_TRANSFER_START (R342, R343): a scheduled transfer starts at its offset; it takes its reservations without
conflict. Its bytes are read here and written at its landing (log 13). While a channel on its way retrains they are held (R15). -/
def execTstTransferStart (weave core entry : Nat) (s : State) : Out :=
  match kget weave s.weaves with
  | none => .next s
  | some w =>
    match w.comm, w.toStart.find? (fun p => p.2.1 == core && p.2.2 == entry) with
    | some t0, some p =>
      if s.weaveClk w < t0 + p.1 then .next s
      else
        let e := (s.core core).gangOf.tst.entries.getD entry (tstEntry [] 0)
        let ds := w.dests e
        let r := (s.core core).tstRead e
        let far := ds.foldl (fun a d => max a (routeHops core d)) 0
        let link := ds.foldl (fun a d => max a (s.linkWait (coreDie core) (coreDie d))) 0
        let cross := ds.foldl (fun a d => max a (crossings (coreDie core) (coreDie d))) 0
        let t : Transfer := { id := s.fresh, core := core, entry := e, dests := ds, clks := t0 + p.1 + ceilDiv e.bytes 256 + 2 * far,
                              wall := 20 * cross * tickNs + link, land := none, data := r.1 }
        let s := s.modCore core (fun _ => r.2.reserve t.id ((spanBanks 2 e.src e.bytes).map (fun b => (b, 0))))
        let s := ds.foldl (fun s d => s.modCore d (fun k => k.reserve t.id ((spanBanks 2 e.dst e.bytes).map (fun b => (b, 2))))) s
        .next { s with fresh := s.fresh + 1, free := s.free + 1,
                       weaves := kset weave { w with toStart := w.toStart.filter (fun q => !(q.2.1 == core && q.2.2 == entry)), flying := w.flying ++ [t] } s.weaves }
    | _, _ => .next s

/-- TST_TRANSFER_LAND (R342, R122): once its clk parts have ended the transfer crosses the bridge; at its landing it is
written at every destination whose banks are awake, and its reservations are released. -/
def execTstTransferLand (weave id : Nat) (s : State) : Out :=
  match kget weave s.weaves with
  | none => .next s
  | some w =>
    match w.flying.find? (fun t => t.id == id) with
    | none => .next s
    | some t =>
      let put (x : Transfer) : State :=
        { s with weaves := kset weave { w with flying := w.flying.map (fun y => if y.id == id then x else y) } s.weaves }
      match t.land with
      | none => if s.weaveClk w < t.clks then .next s else .next (put { t with land := some (s.now + t.wall) })
      | some tick =>
        if s.now < tick then .next s
        else
          let bs := spanBanks 2 t.entry.dst t.entry.bytes
          let asleep := t.dests.filter (fun d => ((s.core d).wakeFor bs).2 != 0)
          if !asleep.isEmpty then
            let s' := put { t with land := some ((s.core (asleep.headD 0)).edge + 1) }
            .next (t.dests.foldl (fun s d => s.modCore d (fun k => (k.wakeFor bs).1)) s')
          else
            let s := t.dests.foldl (fun s d => s.modCore d (fun k => (k.bufWrite 2 t.entry.dst t.data).release id)) s
            let s := s.modCore t.core (fun k => k.release id)
            .next { s with weaves := kset weave { w with flying := w.flying.filter (fun y => y.id != id), lastLand := s.now } s.weaves }

/-- A quad goes back to reduced margin at a step's advance, unless a three-replay period holds it (R398, log 5). -/
def State.askReduced (s : State) (q : Nat) : State :=
  match kget q s.quads with
  | some x =>
    if x.nominalUntil.isSome then s
    else
      { s with quads := kset q { x with margin := .toReduced (s.now + Config.latency s.free % 2000 * tickNs) } s.quads, free := s.free + 1 }
  | none => s
/-- Has the communication phase of a weave ended (R49)? -/
def State.commOver (s : State) (w : Weave) : Bool :=
  match w.comm with
  | some t0 => t0 + w.len ≤ s.weaveClk w && w.toStart.isEmpty && w.flying.isEmpty && w.lastLand < s.now
  | none => false

/-- STEP_COUNTER_ADVANCE (R49, R51, R354, R398): the step counter rises, the waiting role groups go on in this clk, the quads ask for
reduced margin, and a pre-emption that waited takes effect. -/
def execStepCounterAdvance (weave : Nat) (s : State) : Out :=
  match kget weave s.weaves with
  | none => .next s
  | some w =>
    if !(s.commOver w) then .next s
    else
      let go (g : Group) : Group :=
        { (g.free .weave) with weaveArr := false }
      let s := { s with weaves := kset weave { w with step := (w.step + 1) % 2 ^ 32, comm := none, arrived := [] } s.weaves }
      let s := w.tiles.foldl (fun s c => s.modCore c (fun k => k.gangOf.gids.foldl (fun k g => k.modGroup g go) k)) s
      let s := (w.tiles.map quadKey).eraseDups.foldl State.askReduced s
      let s := w.tiles.foldl (fun s c => (s.core c).units.foldl (fun s p => if p.2.preempt then s.stopFor c p.1 else s) s) s
      .next (w.tiles.foldl (fun s c => s.relist c (s.core c).gangOf.gids) s)

end Sys2Proof.Machine
end

