-- ==== Sys2Proof/Machine/Power.lean ====
section
/-! DEFINITION. Power (R391 to R404): the energy window and its stall clk (R363, R393, R396), replay and margins (R397,
R398), the fast throttle (R399, R400), sensors (R402), quad power and in-rush (R403, R404), and link failures (R15,
R412). -/

namespace Sys2Proof.Machine

/-! ### Energy (R393, R396) -/

/-- The charge of a rate group of the array, named by its clk a block (R280, R393). -/
def rateCharge (c : Nat) : Nat := if c == 128 then 320 else if c == 32 then 400 else 440
/-- The charge of the multiplier array: a product by the slower group of A and W, where W of the latch is of A's group (R285); a latch
load by its format. ACCZ has no format, and is charged as the 16-bit group. DESIGN CHOICE, log 79. -/
def arrayCharge (q : Cmd) : Nat :=
  match q.op with
  | .mma _ o | .mmag _ o =>
    let f := q.args.getD 4 0
    rateCharge (if o.wl then cpb (fld f 0 4) else max (cpb (fld f 0 4)) (cpb (fld f 4 4)))
  | .mxld .. => rateCharge (cpb (mxldFmt q.args))
  | .accz .. => 320
  | _ => 0
/-- The charge of the engines that advance in an engine clk (R393). -/
def Core.engineCharge (k : Core) : Nat :=
  let on (q : Cmd) : Bool := q.start ≤ k.eclk && k.eclk < q.due
  ((k.arrayQ.find? on).elim 0 arrayCharge) + (if k.drainQ.any on then 60 else 0) + (if k.rotQ.isEmpty then 0 else 120)
    + ((List.range 3).foldl (fun a u => if k.gfxQ.any (fun q => gfxUnit q.op == u && q.page.isNone) then a + 40 else a) 0)
/-- Every bank of a core that is not DARK: register banks of its groups and scratch banks. -/
def Core.litBanks (k : Core) : List Bank := (k.groups.flatMap (fun p => p.2.banks)) ++ k.scratch.map Prod.snd
/-- The bank charge of a clk and the remainder carried (R393). -/
def Core.bankCharge (k : Core) : Nat × Nat :=
  let n := k.litBanks.foldl (fun a b => a + (match b.st with | .bright => 2 | .dim => 1 | .dark => 0)) k.carry
  (n / 16, n % 16)
/-- Close the account of the clk that ends (R393, R363). -/
def Core.account (k : Core) : Core :=
  let b := k.bankCharge
  let x := k.weight + k.wakes + b.1
  let old := k.energy.getD 1023 0
  { k with energy := (x :: k.energy).take 1024, esum := k.esum + x - old, carry := b.2, weight := 0, wakes := 0,
           perfClk := [] }
/-- The profile of a core (R396). -/
def State.profile (s : State) (c : Nat) : Nat :=
  let p := (s.classes.getD (s.clsOf c) { granted := false, mhz := 0, mv := 0, grant := 0, profile := 0, k := 14 }).profile
  if isShader c then p / 2 else p
/-- Is a tile between the release of its weave's barrier and the advance of the step counter (R50)? -/
def State.inComm (s : State) (c : Nat) : Bool :=
  ((s.core c).units.any (fun p => (p.2.weave.bind (fun w => kget w s.weaves)).any (fun w => w.comm.isSome)))
/-- Is a core's next clk an inserted stall clk, its last clk's account closed (R396)? -/
def State.stalls (s : State) (c : Nat) : Bool := s.profile c < (s.core c).account.esum && !(s.inComm c)

/-- Performance events of a clk: 1, and 15 under the throttle (R369). -/
def State.clkEvents (s : State) (c : Nat) : State :=
  let s := s.bump c 1 1
  if s.throttle == .off then s else s.bump c 15 1
/-- A clk of a step: its count is a uint(21), which wraps (R10, R348, R358). -/
def WUnit.tickStep (u : WUnit) : WUnit := if u.stepping then { u with stepClk := (u.stepClk + 1) % 2 ^ 21 } else u
/-- INSERTED_STALL_CLK (R396): a clk in which nothing issues and the pipelines and engines stand still. -/
def execInsertedStallClk (core : Nat) (s : State) : Out :=
  if !(s.stalls core) || s.now < (s.core core).edge then .next s
  else
    let t := s.period core
    let s := s.modCore core (fun k => { k.account with
      clk := k.clk + 1, edge := nextEdge t k.edge, issued := [], issuing := false, stalls := min (2 ^ 32 - 1) (k.stalls + 1),
      units := k.units.map (fun p => (p.1, p.2.tickStep)) })
    .next ((s.bump core 11 1).clkEvents core)

/-! ### Replay and margins (R397, R398) -/

/-- The command that a queue's engine runs takes 2 clk more (R397). -/
def repeatStage (eclk : Nat) : List Cmd → List Cmd
  | [] => []
  | q :: r => if q.start ≤ eclk && eclk < q.due then { q with due := q.due + 2 } :: r else q :: repeatStage eclk r
/-- The stream that has last issued on an issue path of a core: its group and PC slot (R22, R54). -/
def Core.pathStream (k : Core) (core p : Nat) : Nat × Nat :=
  if isShader core then ((k.rr.getD p 0 - 1) / 2 * 4 + p, (k.rr.getD p 0 - 1) % 2) else (p, 0)
/-- A bundle is to execute again one clk of the pipelines later (R397): its fixed-latency results land so much later, and so does the
stream issue its next bundle. -/
def Core.again (k : Core) (g slot : Nat) : Core :=
  { (k.modGroup g (fun x => x.setSlot slot { x.slot slot with next := (x.slot slot).next + 1 })) with
    inflight := k.inflight.map (fun f => if f.gid == g && f.issued == (k.pclk : Int) then { f with due := f.due + 1, issued := f.issued + 1 } else f) }
/-- The issue path that part `part` of a timing error names: part 0 the first that issued in this clk, part 3 + p path p. -/
def Core.errPath (k : Core) (part : Nat) : Option Nat := k.issued.find? (fun p => (part == 0 || p + 3 == part) && (kget p k.hits).isNone)
/-- Is a quad at reduced margin, or on its way to nominal, so that replay is armed (R398)? -/
def State.replayArmed (s : State) (q : Nat) : Bool :=
  match (kget q s.quads).map Quad.margin with | some .reduced | some (.toNominal _) => true | _ => false
/-- TIMING_ERROR_REPLAY (R397, R398), at reduced margin, which holds until a change to nominal has settled. `at_` is the core, plus
4,096 times the part. Parts 1 and 2, the multiplier and the rotator array: the stage is repeated within, the command that runs completes
2 clk later, and the core does not freeze. Any other part, the issue pipelines: an error in the bundle that an issue path issued, or
executed again, in this clk. Two replay clk follow, and the path executes the bundle again in the clk after them; the third replay in
succession of one bundle moves its quad to nominal margin for 10 ms. -/
def execTimingErrorReplay (at_ : Nat) (s : State) : Out :=
  let core := at_ % 4096
  let part := at_ / 4096
  let k := s.core core
  let q := quadKey core
  if !(s.replayArmed q) then .next s
  else if part = 1 then .next (s.modCore core (fun k => { k with arrayQ := repeatStage k.eclk k.arrayQ }))
  else if part = 2 then .next (s.modCore core (fun k => { k with rotQ := repeatStage k.eclk k.rotQ }))
  else match k.errPath part with
    | none => .next s
    | some p =>
      let run := sget 0 p k.redo + 1
      let x := k.pathStream core p
      let s := (s.modCore core (fun k => { (k.again x.1 x.2) with
        replays := min (2 ^ 32 - 1) (k.replays + 1), replayLeft := 3, hits := kset p (if run = 3 then 0 else run) k.hits })).bump core 12 1
      if run = 3 then
        .next { s with quads := kmod q (fun x => { x with margin := .nominal, nominalUntil := some (s.now + 10000000 * tickNs) }) s.quads }
      else .next s
/-- Does a quad stand in a communication phase, or does its gang wait at the weave barrier (R398)? -/
def State.quadInWeave (s : State) (q : Nat) : Bool :=
  s.weaves.any (fun p => p.2.tiles.any (fun c => quadKey c == q && (p.2.comm.isSome || p.2.arrived.contains c)))
/-- NOMINAL_PERIOD_EXPIRY (R398). -/
def execNominalPeriodExpiry (die quad : Nat) (s : State) : Out :=
  let k := die * 64 + quad
  match (kget k s.quads).bind Quad.nominalUntil with
  | none => .next s
  | some t =>
    if s.now < t then .next s
    else
      let s := { s with quads := kmod k (fun x => { x with nominalUntil := none }) s.quads }
      if s.quadInWeave k then .next s else .next (s.askReduced k)
/-- MARGIN_SETTLED (R398). -/
def execMarginSettled (die quad : Nat) (s : State) : Out :=
  let k := die * 64 + quad
  match (kget k s.quads).map Quad.margin with
  | some (.toNominal t) => if s.now < t then .next s else .next { s with quads := kmod k (fun x => { x with margin := .nominal }) s.quads }
  | some (.toReduced t) => if s.now < t then .next s else .next { s with quads := kmod k (fun x => { x with margin := .reduced }) s.quads }
  | _ => .next s

/-! ### The fast throttle (R399, R400) -/

/-- The times of things that end after a count of clk, as the cluster clocks change: raises of semaphores up to the bridge, commands
that sort engines run, network barriers, and decisions of governors (R399, R400). -/
def State.retime (s : State) (f : Nat → Nat) : State :=
  { s with
    raises := s.raises.map (fun r => { r with due := f r.due }),
    sortQ := s.sortQ.map (fun p => (p.1, p.2.map (fun q => { q with due := f q.due }))),
    nets := s.nets.map (fun p => (p.1, { p.2 with due := p.2.due.map f })),
    govs := s.govs.map (fun p => (p.1, { p.2 with due := p.2.due.map f })) }
/-- Every cluster clock divides by four: what is left of a count of clk takes four times as long (R399). -/
def State.slow (s : State) : State := s.retime (fun t => if s.now < t then s.now + 4 * (t - s.now) else t)
/-- Every cluster clock returns to its class clock (R400). -/
def State.fast (s : State) : State := s.retime (fun t => if s.now < t then s.now + ceilDiv (t - s.now) 4 else t)
/-- The ALARM_ACT output: high while the throttle is held or holding (R400). -/
def State.alarmAct (s : State) : Bool := s.throttle != .off
/-- An alarm asserts the throttle (R399 to R401). -/
def State.alarm (s : State) (i : Nat) : State :=
  let t : State := if s.throttle == .off then { s.slow with almcount := min (2 ^ 32 - 1) (s.almcount + 1) } else s
  { t with alarms := s.alarms.set i true, throttle := .held }
/-- EXTERNAL_ALARM. -/
def execExternalAlarm (s : State) : Out := .next (s.alarm 0)
/-- CURRENT_ALARM. -/
def execCurrentAlarm (s : State) : Out := .next (s.alarm 1)
/-- DROOP_ALARM. -/
def execDroopAlarm (s : State) : Out := .next (s.alarm 2)
/-- TEMPERATURE_ALARM. -/
def execTemperatureAlarm (s : State) : Out := .next (s.alarm 3)
/-- ALARM_CLEAR (R400): with the last alarm the hold begins. -/
def execAlarmClear (alarm : Fin 4) (s : State) : Out :=
  if !(s.alarms.getD alarm.val false) then .next s
  else
    let l := s.alarms.set alarm.val false
    .next { s with alarms := l, throttle := if l.any id then s.throttle else .holding (s.now + s.thrhold * 1000 * tickNs) }
/-- THROTTLE_HOLD_EXPIRY (R400). -/
def execThrottleHoldExpiry (s : State) : Out :=
  match s.throttle with
  | .holding t => if s.now < t then .next s else .next { s.fast with throttle := .off }
  | _ => .next s

/-! ### Sensors (R402) -/

/-- The temperature band of a temperature in degrees. -/
def tempBand (t : Nat) : Nat := if t < 70 then 0 else min 7 (1 + (t - 70) / 5)
/-- SENSOR_SAMPLE (R402): a core's temperature, and whether its supply was more than 5% low, whatever the power state of its
quad. A sensor at or above the threshold is the temperature alarm (R399, R401). -/
def execSensorSample (core temp : Nat) (droop : Bool) (s : State) : Out :=
  if core / 256 < 10 && core % 256 < dieCores (core / 256) then
    let k := s.core core
    let s := { s with cores := kset core { k with temp := tempBand temp, droops := (droop :: k.droops).take 100 } s.cores }
    .next (if s.templim ≤ temp then s.alarm 3 else s)
  else .next s

/-! ### Quads (R403, R404, R345) -/

/-- The cores of a quad. -/
def quadCores (q : Nat) : List Nat :=
  (List.range (dieCores (q / 64))).filterMap (fun i => let c := q / 64 * 256 + i; if quadKey c == q then some c else none)
/-- Is a core idle: no unit, no accepted command or entry, no wake in progress (R403)? -/
def Core.idle (k : Core) : Bool :=
  k.units.isEmpty && k.arrayQ.isEmpty && k.drainQ.isEmpty && k.rotQ.isEmpty && k.gfxQ.isEmpty && k.chans.all (fun p => p.2.q.isEmpty)
    && k.litBanks.all (fun b => b.wakeAt.isNone) && k.resv.isEmpty && k.accepts.isEmpty
/-- Is a quad idle (R403): its cores are, no sort engine or order unit holds a command of one of them, and where it has an engine and
an order unit of its own, on a raster die, they hold no command? -/
def State.quadIsIdle (s : State) (q : Nat) : Bool :=
  (quadCores q).all (fun c => (s.core c).idle && !(s.chosen c))
    && s.sortQ.all (fun p => p.2.all (fun x => quadKey x.core != q && p.1 / 32 * 64 + p.1 % 32 != q))
    && s.orders.all (fun p => (p.2.toEnter ++ p.2.entered).all (fun x => quadKey x.core != q && p.1 / 32 * 64 + p.1 % 32 != q))
/-- QUAD_IDLE (R403): the 20 µs hold starts. -/
def execQuadIdle (die quad : Nat) (s : State) : Out :=
  let k := die * 64 + quad
  match (kget k s.quads).map Quad.power with
  | some .on =>
    if s.quadIsIdle k then .next { s with quads := kmod k (fun q => { q with power := .hold (s.now + 20000 * tickNs) }) s.quads }
    else .next s
  | _ => .next s
/-- What a core keeps through a power-down: its semaphores and counts (R348, R363, R364, R403). -/
def Core.powerDown (k : Core) : Core :=
  { k with groups := [], inflight := [], sectors := [], scratch := [], buf := [], lines := [], tlb := [], walkF := [], dcache := [], dwait := [],
           latch := Latch.start, rot := Rotator.start, freeze := [], frozen := none, chans := [], lastMxld := none }
/-- A quad powers down (R403): dirty lines go home, every bank goes DARK, TLBs and dictionary caches are emptied, and it is OFF. -/
def State.powerDown (s : State) (k : Nat) : State :=
  let s := (quadCores k).foldl (fun s c => (s.flush c).modCore c Core.powerDown) s
  { s with quads := kmod k (fun q => { q with power := .off }) s.quads }
/-- QUAD_POWER_DOWN (R403), at the end of the hold. -/
def execQuadPowerDown (die quad : Nat) (s : State) : Out :=
  let k := die * 64 + quad
  match (kget k s.quads).map Quad.power with
  | some (.hold t) => if s.now < t || !(s.quadIsIdle k) then .next s else .next (s.powerDown k)
  | _ => .next s
/-- A requester takes a place at the tail of its die's in-rush queue, unless it holds one (R404). -/
def State.inrushPlace (s : State) (die quad : Nat) : State :=
  let l := (kget die s.inrush).getD []
  if l.contains quad then s else { s with inrush := kset die (l ++ [quad]) s.inrush }
/-- QUAD_WAKE_REQUEST (R403, R404): a quad within its hold is ON at once; one whose hold has ended powers down and joins the in-rush
queue, as one that is OFF does. The number after the quads of a die is its L2 and bridge block. -/
def execQuadWakeRequest (die quad : Nat) (s : State) : Out :=
  let k := die * 64 + quad
  match (kget k s.quads).map Quad.power with
  | some (.hold t) =>
    if s.now < t then .next ({ s with quads := kmod k (fun q => { q with power := .on }) s.quads }.startPending)
    else .next ((s.powerDown k).inrushPlace die quad)
  | some .off => .next (s.inrushPlace die quad)
  | some .on => .next s.startPending
  | some (.waking _) => .next s
  | none => .next (if die < 10 && quad == dieQuads die then s.inrushPlace die quad else s)
/-- INRUSH_GRANT (R404): the head of a die's queue is granted; the arbiter is taken for 1.6 µs, and the quad is ready within
2 µs (log 5). The L2 and bridge block has no power state: its grant takes the arbiter and no more. -/
def execInrushGrant (die : Nat) (s : State) : Out :=
  if s.now < sget 0 die s.inrushAt then .next s
  else match (kget die s.inrush).getD [] with
    | [] => .next s
    | q :: r =>
      let t := s.now + Config.latency s.free % 2001 * tickNs
      .next { s with inrush := kset die r s.inrush, inrushAt := sset 0 die (s.now + 1600 * tickNs) s.inrushAt, free := s.free + 1,
                     quads := kmod (die * 64 + q) (fun x => { x with power := .waking t }) s.quads }
/-- A core as its quad becomes ON at a tick, under a period: its clk count has gone on since the last reset (R145 sel 7, log 34), and its
pipelines and engines start again. -/
def Core.powerUp (k : Core) (now boot p : Nat) : Core :=
  { k with clk := k.clk + (now / p - max (k.edge - 1) boot / p), pclk := 0, eclk := 0, edge := nextEdge p now, rr := [0, 0, 0, 0], issued := [], issuing := false, energy := [], esum := 0, carry := 0, weight := 0,
           wakes := 0, arrayB := 0, drainB := 0, rotB := 0, replayLeft := 0, redo := [], hits := [], frozenClk := 0 }
/-- QUAD_READY (R404): the quad is ON with every bank DARK; units that wait for it start. -/
def execQuadReady (die quad : Nat) (s : State) : Out :=
  let k := die * 64 + quad
  match (kget k s.quads).map Quad.power with
  | some (.waking t) =>
    if s.now < t then .next s
    else
      let s := { s with quads := kmod k (fun q => { q with power := .on }) s.quads }
      let s := (quadCores k).foldl (fun s c =>
        { s with cores := kset c ((s.core c).powerUp s.now s.bootAt (s.period c)) s.cores }) s
      .next s.startPending
  | _ => .next s
/-- QUAD_JOIN_POOL (R345). -/
def execQuadJoinPool (die quad : Nat) (s : State) : Out :=
  let k := die * 64 + quad
  match (kget k s.quads).bind Quad.moving with
  | some (c, some t) =>
    if s.now < t || s.quadBusy k then .next s
    else .next { s with quads := kmod k (fun q => { q with cls := c, moving := none }) s.quads }
  | _ => .next s

/-! ### Links (R15, R50, R411, R412) -/

/-- Does the running command of a copy channel send its data over a boundary (R13)? -/
def Channel.crosses (h : Channel) (b dir : Nat) : Bool :=
  match h.q with
  | q :: _ => h.running && (match q.op with
    | .copy _ o => (routeOf (coreDie q.core) (coreDie (cpCore o q.args q.core))).contains (b, dir)
    | _ => false)
  | [] => false
/-- Copy channels whose data cross a boundary are delayed where they use the channel, which is free (R15, log 5, log 6). -/
def State.delayCopies (s : State) (b dir ns : Nat) : State :=
  { s with cores := s.cores.map (fun p => (p.1, { p.2 with chans := p.2.chans.map (fun h =>
      if h.2.crosses b dir && Config.flip (s.free + 2 ^ 41 + p.1 * 8 + h.1) then
        (h.1, { h.2 with tick := max h.2.tick s.now + ns * tickNs }) else h) })) }
/-- Transfers that cross a boundary are delayed where they use the channel, which is free (R15, R50, log 5, log 6). -/
def State.delayTst (s : State) (b dir ns : Nat) : State :=
  let hit (t : Transfer) : Bool := t.dests.any (fun d => (routeOf (coreDie t.core) (coreDie d)).contains (b, dir))
  let f (t : Transfer) : Transfer :=
    if hit t && Config.flip (s.free + t.id) then { t with wall := t.wall + ns * tickNs, land := t.land.map (· + ns * tickNs) } else t
  { s.delayCopies b dir ns with weaves := s.weaves.map (fun p => (p.1, { p.2 with flying := p.2.flying.map f })), free := s.free + s.fresh }
/-- FLIT_CRC_RETRY (R15): the flit is sent again and delivered once; traffic is late, and nothing else changes. -/
def execFlitCrcRetry (boundary dir _ch : Nat) (s : State) : Out :=
  .next ({ s with free := s.free + 1 }.delayTst boundary dir (Config.latency s.free))
/-- Working channels that a boundary reports (R15, R414). The record holds one count a boundary, while a failed channel is one of 48 of
one direction: the spec does not say how the two directions come together. Every disabled channel of either is taken off the one
count. DESIGN CHOICE, log 62. -/
def State.channelsOf (s : State) (b : Nat) : Nat := s.board.channels.getD b 0 - s.bridge.countP (fun p => p.1 / 128 == b && 4 < p.2.failed)
/-- Put the channel count of a boundary into the degradation record (R414). A part that runs with a boundary of no working channel goes to
degraded-halt: it does not run (R16). -/
def State.noteChannels (s : State) (b : Nat) : State :=
  let w := leNat ((s.degrade.drop 48).take 10)
  let s := { s with degrade := s.degrade.take 48 ++ leBytes 10 (putFld w (6 * b) 6 (s.channelsOf b)) ++ s.degrade.drop 58 }
  if s.channelsOf b == 0 && s.bootstat == 3 then { s with bootstat := 4, agenda := [] } else s
/-- BRIDGE_LANE_FAILURE (R15): a spare takes over while the channel retrains, at most 4 µs; with more than four failed
lanes the channel is disabled. -/
def execBridgeLaneFailure (boundary dir ch : Nat) (s : State) : Out :=
  if 13 ≤ boundary || 2 ≤ dir || 48 ≤ ch then .next s
  else
    let k := boundary * 128 + dir * 64 + ch
    let b := (kget k s.bridge).getD { failed := 0, until_ := none }
    let ns := Config.latency s.free % 4001
    let s := { s with free := s.free + 1 }
    if 4 < b.failed then .next s
    else if b.failed = 4 then .next ({ s with bridge := kset k { failed := 5, until_ := none } s.bridge }.noteChannels boundary)
    else .next ({ s with bridge := kset k { failed := b.failed + 1, until_ := some (s.now + ns * tickNs) } s.bridge }.delayTst boundary dir ns)
/-- BRIDGE_RETRAIN_COMPLETE (R15). -/
def execBridgeRetrainComplete (boundary dir ch : Nat) (s : State) : Out :=
  let k := boundary * 128 + dir * 64 + ch
  match (kget k s.bridge).bind BridgeCh.until_ with
  | some t => if s.now < t then .next s else .next { s with bridge := kmod k (fun b => { b with until_ := none }) s.bridge }
  | none => .next s
/-- POD_LANE_FAILURE (R412): a spare replaces the lane; beyond two failures the port runs on fewer lanes, at last on
none. -/
def execPodLaneFailure (port : Nat) (s : State) : Out :=
  if 16 ≤ port then .next s else .next { s with podLanes := sset 0 port (min 34 (sget 0 port s.podLanes + 1)) s.podLanes }

end Sys2Proof.Machine
end

