-- ==== Sys2Proof/Machine/Host.lean ====
section
/-! DEFINITION. The host port and boot: the boot sequence and the degradation record (R413 to R415), management registers
(R407, R370, R401), the BAR2 window (R406), doorbells (R408), resume tokens and service entries (R379), the debugger (R388,
R389), cancellation (R390, R410) and attestation (R416). -/

namespace Sys2Proof.Machine

/-! ### Boot (R413 to R415) -/

/-- Is quad q of die d reported (R415): on a tensor die its quad column stands, on a raster die none of its cores has
failed? -/
def Board.quadOk (b : Board) (d q : Nat) : Bool :=
  if rasterDie d then (List.range 4).all (fun i => !(b.shaders.contains (d * 256 + 4 * q + i)))
  else q % 6 < min 6 ((13 - b.columns.getD (kindIx d) 0) / 2)
/-- Quads that boot reports, as (die, quad). -/
def Board.quadsUp (b : Board) : List (Nat × Nat) :=
  (List.range 10).flatMap (fun d => ((List.range (dieQuads d)).filter (b.quadOk d)).map (fun q => (d, q)))
/-- The quad bits of a die: 5 bytes on a tensor die, 4 on a raster die (R414). -/
def Board.quadBytes (b : Board) (d : Nat) : List Byte :=
  leBytes (if rasterDie d then 4 else 5)
    ((List.range (dieQuads d)).foldl (fun w q => if b.quadOk d q then w + 2 ^ q else w) 0)
/-- The degradation record (R414). -/
def Board.record (b : Board) : List Byte :=
  (List.range 10).flatMap b.quadBytes ++
    leBytes 10 ((List.range 13).foldl (fun w k => w + min 63 (b.channels.getD k 0) * 2 ^ (6 * k)) 0) ++
    leBytes 6 ((List.range 8).foldl (fun w i =>
      w + min 63 (max (b.stackL.getD (2 * i) 0) (b.stackL.getD (2 * i + 1) 0)) * 2 ^ (6 * i)) 0)
/-- Does boot end in degraded-halt: a boundary with no working channel (R16), or a stack beyond its limit (R415)? -/
def Board.halts (b : Board) : Bool :=
  (List.range 13).any (fun k => b.channels.getD k 0 == 0) || b.stackL.any (fun l => 32 < l)
/-- Does the firmware image verify (R413)? -/
def Board.verifies (b : Board) : Bool := b.fwGood && b.fwMin ≤ b.fwVersion
/-- The class table that boot firmware writes (R344): k is 14, and no granted row exceeds the board's limit. -/
def Board.table (b : Board) : List ClassRow :=
  b.rows.map (fun r => { r with k := 14, granted := r.granted && r.grant ≤ b.power })
/-- What boot finds: the board with the channels that its bridge still has (R15, R16). -/
def State.found (s : State) : Board := { s.board with channels := (List.range 13).map s.channelsOf }
/-- Steps 1 to 3 of the boot sequence (R413): the image verifies, or no core starts. -/
def State.verify (s : State) : State := { s with bootstat := if s.board.verifies then 2 else 5 }
/-- Steps 4 and 5 (R413, R344): training, the degradation record, the quads that boot reports, and the class table. -/
def State.train (s : State) : State :=
  let b := s.found
  let s := { s with degrade := b.record }
  if b.halts then { s with bootstat := 4 }
  else
    { s with
      quads := b.quadsUp.foldl (fun m p => kset (p.1 * 64 + p.2) (Quad.start (b.quadCls.getD p.1 2)) m) [],
      classes := b.table, curlim := 100 + Config.choice s.free % 15901, free := s.free + 1, bootstat := 3 }
/-- The whole package goes back to its state at reset, but for memory, time, the board and the lanes of its links that have failed (log
20), and its boot begins: BOOTSTAT shows that the image is being verified (R407). -/
def State.rebooted (s : State) : State :=
  { State.reset with
    now := s.now, bootAt := s.now, inputs := s.inputs, hostWrites := s.hostWrites, mem := s.mem, badMem := s.badMem,
    bridge := s.bridge.map (fun (p : Nat × BridgeCh) => (p.1, { p.2 with until_ := none })), podLanes := s.podLanes, board := s.board,
    bootCount := s.bootCount + 1, ident := s.board.form + s.board.fwVersion * 2 ^ 8 + s.board.pkg * 2 ^ 16, bootstat := 1,
    free := s.free, fresh := s.fresh, agenda := [.resetBoot] }
/-- RESET_BOOT (R413, R407): the controller's next step, to verify or to train where it has begun, and otherwise the reset that begins
the sequence. -/
def execResetBoot (s : State) : Out :=
  .next (if s.bootstat = 1 then (let t := s.verify; if t.bootstat = 2 then t.sched [.resetBoot] else t)
         else if s.bootstat = 2 then s.train else s.rebooted)

/-! ### Registers (R370, R401, R407) -/

/-- A field that keeps its value where the new one is out of range (R401). -/
def ranged (lo hi old v : Nat) : Nat := if lo ≤ v && v ≤ hi then v else old
/-- A valid entry count of the service queue (R407): a power of 2 in 16 to 65,536, or 0 for none. -/
def svcCountOk (v : Nat) : Bool := v == 0 || (List.range 13).any (fun i => v == 2 ^ (i + 4))
/-- Write word w of launch-queue descriptor q: the base, or n with the control bits. A queue is enabled only after boot
(R407, R413). -/
def State.lqWrite (s : State) (q w v : Nat) : State :=
  let x := s.lq q
  match w with
  | 0 => { s with lqs := kset q { x with base := v % 2 ^ 52 } s.lqs }
  | 1 => { s with lqs := kset q { x with n := fld v 0 5, enable := bitN v 8 && s.bootstat == 3, fed := bitN v 9, error := bitN v 10 } s.lqs }
  | _ => s
/-- The core of a PERFSEL register: die order, then core index. -/
def perfCore (i : Nat) : Option Nat :=
  ((List.range 10).flatMap (fun d => (List.range (dieCores d)).map (fun j => d * 256 + j)))[i]?
/-- The trap vectors: six, four of them written by software. -/
def State.vecs (s : State) : List TrapVec :=
  s.vectors ++ List.replicate (6 - s.vectors.length) { dict := 0, enable := false, entry := 0 }
/-- A debugger access to a core whose quad is not ON is a wake request (R403). -/
def State.debugWake (s : State) (core : Nat) : State :=
  match (kget (quadKey core) s.quads).map Quad.power with
  | some .on | none => s
  | _ => s.sched [.quadWakeRequest (coreDie core) (coreQuad core)]
/-- The debugger's command word (R407): the command in the low byte, the entry number above it (log 21). -/
def State.debugCmd (s : State) (v : Nat) : State :=
  let core := fld s.dbgTarget 0 4 * 256 + fld s.dbgTarget 8 8
  let gid := fld s.dbgTarget 16 8
  let s := { s with dbgCmd := v % 2 ^ 16 }.debugWake core
  match fld v 0 8 with
  | 1 => s.sched [.debugStop core gid]
  | 2 => s.sched [.debugStep core gid]
  | 3 => s.sched [.debugResume core gid]
  | 4 => s.sched [.debugCancelFreezeEntry core (fld v 8 8)]
  | _ => s
/-- A mailbox write (R416): the nonce, or a request. -/
def State.mailWrite (s : State) (o v : Nat) : State :=
  let put (s : State) : State := { s with mailbox := (List.range 8).foldl (fun m i => sset 0 (o + i) (BitVec.ofNat 8 (v / 2 ^ (8 * i))) m) s.mailbox }
  if o < 32 then put s
  else if o == 32 then
    (if fld v 0 32 == 1 then (put s).sched [.attestPublicKey]
     else if fld v 0 32 == 2 then (put s).sched [.attestReport ((List.range 32).map (fun i => sget 0 i s.mailbox))]
     else put s)
  else s
/-- The packages of word w of the reachability mask whose bit is clear (R412). -/
def State.maskWrite (s : State) (w v : Nat) : State :=
  { s with podMask := s.podMask.filter (fun p => p / 64 != w) ++ ((List.range 64).filter (fun i => !(bitN v i))).map (fun i => 64 * w + i) }

/-- A write of eight bytes of the debugger's stop view of its target (R388, R407). -/
def State.stopWrite (s : State) (o v : Nat) : State :=
  let core := fld s.dbgTarget 0 4 * 256 + fld s.dbgTarget 8 8
  s.sched ((List.range 8).map (fun i => Instr.debugWrite core (fld s.dbgTarget 16 8) (o + i) (BitVec.ofNat 8 (v / 2 ^ (8 * i)))))
/-- A write of word i of BAR4 (R405): of the MSI-X table, whose bits that PCI Express leaves undefined read zero; the message of a vector
that is no longer masked goes out. PRESUMED, log 80. -/
def State.msixWrite (s : State) (i v : Nat) : State :=
  if 4096 ≤ i then s
  else if i % 2 == 0 then { s with msixTab := sset 0 i (v / 4 * 4) s.msixTab }
  else { s with msixTab := sset 0 i (v % 2 ^ 33 ^^^ 2 ^ 32) s.msixTab,
                msixPend := if bitN v 32 then s.msixPend else s.msixPend.filter (· != i / 2) }
/-- REGISTER_WRITE (R406, R407): the writable fields take the value, whose undefined bits read zero; anything else is discarded. The
reachability mask has no stated place: its eight words stand at 0x3000 in this model; offsets from 2^24 on are those of BAR4 (log
21). -/
def execRegisterWrite (off v : Nat) (s : State) : Out :=
  let v := v % 2 ^ 64
  if off % 8 != 0 then .next s
  else if off == 0x10 then .next { s with winbase := fld v 36 16 * 2 ^ 36 }
  else if 0x1000 ≤ off && off < 0x1800 then .next (s.lqWrite ((off - 0x1000) / 32) (off % 32 / 8) v)
  else if 0x1800 ≤ off && off < 0x1A00 then .next (s.sched [.doorbell (fin 64 ((off - 0x1800) / 8)) (v % 2 ^ 32)])
  else if 0x2000 ≤ off && off < 0x2060 then
    (let i := (off - 0x2000) / 16
     if off % 16 != 0 || 4 ≤ i then .next s
     else .next { s with vectors := s.vecs.set i { dict := fld v 0 8, enable := bitN v 8, entry := fld v 17 31 * 2 } })
  else if off == 0x2100 then .next { s with svcBase := v % 2 ^ 52 }
  else if off == 0x2108 then .next (if svcCountOk v then ({ s with svcCount := v }.sched [.serviceEntryPlace]) else s)
  else if off == 0x2110 then .next ({ s with svcHead := v % 2 ^ 32 }.sched [.serviceEntryPlace])
  else if off == 0x2120 then .next (s.sched [.resumeToken (v % 2 ^ 32)])
  else if off == 0x2140 then (if bitN v 63 then .next s else .next (s.sched [.cancel (fld v 0 32) (fld v 32 8)]))
  else if off == 0x2400 then .next { s with thrhold := ranged 10 10000 s.thrhold (fld v 0 14) }
  else if off == 0x2408 then .next { s with curlim := ranged 100 16000 s.curlim (fld v 0 16) }
  else if off == 0x2410 then .next { s with drooplim := ranged 4 20 s.drooplim (fld v 0 6) }
  else if off == 0x2418 then .next { s with templim := ranged 80 115 s.templim (fld v 0 8) }
  else if 0x4000 ≤ off && off < 0x7000 then
    (match perfCore ((off - 0x4000) / 8) with
     | some c => .next { s with perfsel := sset 0 c (v % 2 ^ 32) s.perfsel }
     | none => .next s)
  else if off == 0x10000 then .next { s with dbgTarget := fld v 0 4 + fld v 8 8 * 2 ^ 8 + fld v 16 8 * 2 ^ 16 }
  else if off == 0x10008 then .next (s.debugCmd v)
  else if 0x11000 ≤ off && off < 0x20000 then .next (s.stopWrite (off - 0x11000) v)
  else if 0x100000 ≤ off && off < 0x101000 then .next (s.mailWrite (off - 0x100000) v)
  else if 0x3000 ≤ off && off < 0x3040 then .next (s.maskWrite ((off - 0x3000) / 8) v)
  else if 2 ^ 24 ≤ off && off < 2 ^ 24 + 2 ^ 16 then .next (s.msixWrite ((off - 2 ^ 24) / 8) v)
  else .next s

/-- Word w of the reachability mask (R412). -/
def State.maskWord (s : State) (w : Nat) : Nat :=
  ((List.range 64).filter (fun i => !(s.podMask.contains (64 * w + i)))).foldl (fun a i => a + 2 ^ i) 0
/-- A byte of the debugger's stop view: the image of the target's unit (R388, R407). -/
def State.stopView (s : State) (o : Nat) : Byte :=
  let core := fld s.dbgTarget 0 4 * 256 + fld s.dbgTarget 8 8
  let uid := (s.group core (fld s.dbgTarget 16 8)).uid
  match (s.image core uid).find? (fun f => f.off ≤ o && o < f.off + f.n) with
  | some f => (f.get s).getD (o - f.off) 0
  | none => 0
/-- The word of a trap vector. -/
def TrapVec.word (v : TrapVec) : Nat := v.dict + v.enable.toNat * 2 ^ 8 + v.entry * 2 ^ 16
/-- ALMSTAT (R401). -/
def State.almstat (s : State) : Nat :=
  (List.range 4).foldl (fun w i => w + (s.alarms.getD i false).toNat * 2 ^ i) 0
    + (match s.throttle with | .off => 0 | .held => 16 | .holding _ => 32)
/-- What a host read of the 8-byte register at an offset of BAR0 returns (R406, R407). -/
def State.regRead (s : State) (off : Nat) : Nat :=
  if off % 8 != 0 then 0
  else if off == 0 then s.bootstat
  else if off == 8 then s.ident
  else if off == 0x10 then s.winbase
  else if 0x40 ≤ off && off < 0x80 then imgNat s.degrade (off - 0x40) 8
  else if 0x1000 ≤ off && off < 0x1800 then
    (let x := s.lq ((off - 0x1000) / 32)
     match off % 32 / 8 with
     | 0 => x.base
     | 1 => x.n + x.enable.toNat * 2 ^ 8 + x.fed.toNat * 2 ^ 9 + x.error.toNat * 2 ^ 10
     | 2 => x.head
     | _ => x.tail)
  else if 0x1800 ≤ off && off < 0x1A00 then (s.lq ((off - 0x1800) / 8)).tail
  else if 0x2000 ≤ off && off < 0x2060 then (if off % 16 == 0 then ((s.vecs[(off - 0x2000) / 16]?).elim 0 TrapVec.word) else 0)
  else if off == 0x2100 then s.svcBase
  else if off == 0x2108 then s.svcCount
  else if off == 0x2110 then s.svcHead
  else if off == 0x2118 then s.svcTail
  else if off == 0x2120 then s.resumeReg
  else if off == 0x2140 then s.cancelReg
  else if off == 0x2400 then s.thrhold
  else if off == 0x2408 then s.curlim
  else if off == 0x2410 then s.drooplim
  else if off == 0x2418 then s.templim
  else if off == 0x2420 then s.almstat
  else if off == 0x2428 then s.almcount
  else if 0x4000 ≤ off && off < 0x7000 then ((perfCore ((off - 0x4000) / 8)).elim 0 (fun c => sget 0 c s.perfsel))
  else if off == 0x10000 then s.dbgTarget
  else if off == 0x10008 then s.dbgCmd
  else if 0x11000 ≤ off && off < 0x20000 then leNat ((List.range 8).map (fun i => s.stopView (off - 0x11000 + i)))
  else if 0x3000 ≤ off && off < 0x3040 then s.maskWord ((off - 0x3000) / 8)
  else if 2 ^ 24 ≤ off && off < 2 ^ 24 + 0x8000 then s.msixWord ((off - 2 ^ 24) / 8)
  else if 2 ^ 24 + 0x8000 ≤ off && off < 2 ^ 24 + 0x8100 then
    ((List.range 64).filter (fun i => s.msixPend.contains ((off - 2 ^ 24 - 0x8000) * 8 + i))).foldl (fun w i => w + 2 ^ i) 0
  else if 0x100000 ≤ off && off < 0x101000 then leNat ((List.range 8).map (fun i => sget 0 (off - 0x100000 + i) s.mailbox))
  else 0

/-! ### The window and the doorbells (R406, R408) -/

/-- HOST_BAR2_ACCESS (R406): a system-scope access of the host at WINBASE + o; one that leaves the window or reaches an
unmapped address writes nothing and returns nothing. -/
def execHostBar2Access (off : Nat) (write : Option (List Byte)) (n : Nat) (s : State) : Out :=
  let n := match write with | some b => b.length | none => n
  let pa := s.winbase + off
  if 2 ^ 36 < off + n || !((List.range n).all (fun i => s.mapped (pa + i))) then .next { s with hostData := [] }
  else match write with
    | some b => .next { (s.homeWrite pa b) with hostData := [] }
    | none => let s := s.settleRange pa n; .next { s with hostData := s.bytes pa n }

/-- DOORBELL (R408). -/
def execDoorbell (q : Fin 64) (tail : Nat) (s : State) : Out :=
  let x := s.lq q.val
  let t := tail % 2 ^ 32
  if x.enable && !x.fed && (t + 2 ^ 32 - x.head) % 2 ^ 32 ≤ 2 ^ x.n then
    .next { s with lqs := kset q.val { x with tail := t } s.lqs }
  else .next ({ s with lqs := kset q.val { x with error := true } s.lqs }.raiseMsix 0)

/-! ### Service entries and tokens (R379) -/

/-- The 32 bytes of a service entry. -/
def Service.bytes (e : Service) : List Byte :=
  leBytes 4 (e.kind + e.cause * 2 ^ 8) ++ leBytes 4 (e.die + e.core * 2 ^ 8 + e.gid % 256 * 2 ^ 16 + e.slot % 2 * 2 ^ 24)
    ++ leBytes 8 e.ident ++ leBytes 8 e.va ++ leBytes 4 e.access ++ leBytes 4 e.token
/-- SERVICE_ENTRY_PLACE (R379, R409): the oldest held entry is placed where the queue has a free place, and vector 1 is
raised for it. -/
def execServiceEntryPlace (s : State) : Out :=
  match s.svcHeld with
  | [] => .next s
  | e :: r =>
    if s.svcCount == 0 || s.svcCount ≤ (s.svcTail + 2 ^ 32 - s.svcHead) % 2 ^ 32 then .next s
    else
      let s := s.homeWrite (s.svcBase + 32 * (s.svcTail % s.svcCount)) e.bytes
      let s := { s with svcHeld := r, svcTail := (s.svcTail + 1) % 2 ^ 32 }.raiseMsix 1
      .next (if r.isEmpty then s else s.sched [.serviceEntryPlace])

/-- Is a group in the debugger's hands (R388)? -/
def State.held (s : State) (core gid : Nat) : Bool := s.dbg.any (fun d => d.core == core && d.gid == gid)
/-- A suspended group retries: its traversals look their pages up again (R200, R379). -/
def State.retryGroup (s : State) (core gid tok : Nat) : State :=
  let h : Wait := if s.held core gid then .debug else .none
  (s.modGroup core gid (fun g => if g.halt == .page tok then { g with halt := h } else g)).modCore core (fun k =>
    { k with gfxQ := k.gfxQ.map (fun q => if q.gid == gid && q.page.isSome then { q with page := none, due := k.eclk + 1 } else q) })
/-- RESUME_TOKEN (R379): the party that waits under the token retries. -/
def execResumeToken (token : Nat) (s : State) : Out :=
  let t := kget token s.tokens
  let s := { s with resumeReg := token, tokens := kdel token s.tokens }
  match t with
  | none => .next s
  | some (.group core gid _) => .next (s.retryGroup core gid token)
  | some (.chan core ch) =>
    .next (s.modCore core (fun k => { k with chans := kmod ch (fun h =>
      if h.page == some token then { h with page := none, nextAt := k.clk + 1 } else h) k.chans }))
  | some (.sort engine id) =>
    .next { s with sortPage := if kget engine s.sortPage == some token then kdel engine s.sortPage else s.sortPage,
                   sortQ := kmod engine (fun l => l.map (fun q => if q.id == id then { q with due := s.now + tickNs } else q)) s.sortQ }
  | some (.gfx core id) =>
    .next (s.modCore core (fun k => { k with gfxQ := k.gfxQ.map (fun q => if q.id == id then { q with page := none, due := k.eclk + 1 } else q) }))

/-! ### The debugger (R388, R389) -/

/-- The groups that a debugger command on group gid concerns: on a tile the whole gang. -/
def State.dbgGroups (s : State) (core gid : Nat) : List Nat :=
  if isShader core then [gid] else ((s.core core).unit (s.group core gid).uid).gids
/-- Stop groups, and freeze a gang (R376, R388). -/
def State.dbgStop (s : State) (core : Nat) (l : List Nat) : State :=
  let s := s.modCore core (fun k => l.foldl (fun k g => k.modGroup g (fun x => if x.halt == .none then { x with halt := .debug } else x)) k)
  if isShader core then s else s.modCore core (fun k => k.freezeAll 255)
/-- DEBUG_STOP_COMPLETE (R388): once the fixed-latency results of a shader group have landed, a service entry of kind 3
reports the stop. -/
def execDebugStopComplete (core gid : Nat) (s : State) : Out :=
  match s.dbg.find? (fun d => d.core == core && d.gid == gid) with
  | none => .next s
  | some d =>
    if d.reported || d.stepping || (isShader core && (s.core core).inflight.any (fun f => f.gid == gid)) then .next s
    else
      let e : Service := { kind := 3, cause := 0, die := coreDie core, core := coreIx core, gid := gid, slot := 0,
                           ident := (s.lpbOf (s.group core gid).launch).ident, va := 0, access := 0, token := 0 }
      .next ({ s with dbg := s.dbg.map (fun (x : DebugStop) => if x.core == core && x.gid == gid then { x with reported := true } else x) }.service e)
/-- A gang runs again: the freeze of a handler stands, otherwise every role group keeps its distance to its next bundle
(R376). -/
def Core.dbgThaw (k : Core) (l : List Nat) : Core :=
  match l.find? (fun g => (k.group g).inHandler) with
  | some g => { k with frozen := some g }
  | none => k.unfreeze 0x1000 (k.pclk + 1)
/-- DEBUG_STEP (R388): the group issues one bundle, and then stops again. -/
def execDebugStep (core gid : Nat) (s : State) : Out :=
  if !(s.held core gid) then .next s
  else
    let s := { s with dbg := s.dbg.map (fun (x : DebugStop) => if x.core == core && x.gid == gid then { x with stepping := true, reported := false } else x) }
    let s := s.modGroup core gid (fun g => if g.halt == .debug || g.halt == .stopped then { g with halt := .none } else g)
    .next (if isShader core then s else s.modCore core (fun k => k.dbgThaw (s.dbgGroups core gid)))
/-- DEBUG_RESUME (R388, R378): a stopped or escalated unit runs again. -/
def execDebugResume (core gid : Nat) (s : State) : Out :=
  if (kget gid (s.core core).groups).isNone then .next s
  else
    let l := s.dbgGroups core gid
    let s := { s with dbg := s.dbg.filter (fun (d : DebugStop) => !(d.core == core && l.contains d.gid)) }
    let go (g : Group) : Group := if g.halt == .debug || g.halt == .stopped then { g with halt := .none } else g
    let s := s.modCore core (fun k => l.foldl (fun k g => k.modGroup g go) k)
    .next (if isShader core then s else s.modCore core (fun k => k.dbgThaw l))
/-- DEBUG_CANCEL_FREEZE_ENTRY (R389). -/
def execDebugCancelFreezeEntry (core entry : Nat) (s : State) : Out :=
  .next (s.modCore core (fun k => { k with freeze := k.freeze.eraseIdx entry }))

/-- What a debugger writes: a scalar, predicate or translation register, or an element of a register bank, by its group's
place in the unit; none for other parts of the image (R384, R385). -/
def imgTarget (n o : Nat) : Option (Nat × Wr) :=
  if 320 ≤ o && o < 320 + 2048 * n then
    (let g := (o - 320) / 2048
     let r := (o - 320) % 2048
     if r < 512 then some (g, .s (r / 8) 0)
     else if r < 544 then some (g, .p ((r - 512) / 4) 0 0)
     else if r < 928 then some (g, .a ((r - 544) / 24) 0)
     else none)
  else if 320 + 2048 * n ≤ o && o < 320 + 43008 * n then
    (let x := o - (320 + 2048 * n)
     some (x / 40960, .m (x % 40960 / 4) 0))
  else none
/-- The place in a buffer of a byte of a unit's image, if it is one: a gang's scratch banks, a workgroup's shared window (R384). -/
def WUnit.imgBuf (u : WUnit) (o : Nat) : Option (Nat × Nat) :=
  let b := 320 + 43008 * u.gids.length
  if o < b then none
  else if u.gang then
    (if o < b + 8388608 then (let k := bankKind ((o - b) / 65536); some (k.1, k.2 * 65536 + (o - b) % 65536)) else none)
  else if o < b + u.shBytes then some (4, u.shBase * 16384 + (o - b)) else none
/-- Byte j of a word replaced. -/
def setByte (x : W32) (j : Nat) (v : Byte) : W32 := BitVec.ofNat 32 (putFld x.toNat (8 * j) 8 v.toNat)
/-- The value that a debugger's writes to an element have given it: one that still waits for its bank's wake, or the element. -/
def Core.elemNow (k : Core) (gid key : Nat) : W32 :=
  (((k.sectors.filter (fun f => f.gid == gid && f.fixed)).flatMap Sector.writes).filterMap (fun w => match w with
    | .m x v => if x == key then some v else none | _ => none)).getLast?.getD ((k.group gid).elem key)
/-- A debugger writes an element of a register bank: the bank is dirty, and where it is not BRIGHT it wakes and the write lands as the
wake completes (R117, R124). -/
def State.debugElem (s : State) (core gid key : Nat) (v : W32) : State :=
  let k := s.core core
  let w := k.wakeReg gid (key / 1024)
  match ((w.group gid).bank (key / 1024)).wakeAt with
  | none => s.modCore core (fun k => k.land1 gid (.m key v))
  | some t =>
    { (s.modCore core (fun _ => { w with sectors := w.sectors ++
        [{ id := s.fresh, due := t, gid := gid, writes := [.m key v], pc := 0, pa := 0, bad := false, ctr := none, slots := 0,
           arr := k.clk, fixed := true, wall := 0, tick := 0 }] })) with fresh := s.fresh + 1 }
/-- DEBUG_WRITE (R388, R389): one byte of the stop view of a stopped unit. Of a core whose quad is not ON it is a wake
request (R403). On a shader core, sectors and engine results that arrive later for the element write nothing there; on a tile a frozen entry stays. -/
def execDebugWrite (core gid off : Nat) (v : Byte) (s : State) : Out :=
  let g := s.group core gid
  if (kget gid (s.core core).groups).isNone || !(g.halt == .debug || g.halt == .stopped || s.held core gid) then .next (if (kget gid (s.core core).groups).isNone then s.debugWake core else s)
  else
    let u := (s.core core).unit g.uid
    match u.imgBuf off with
    | some (b, o) => .next (s.bufStore core gid b o [v])
    | none =>
      match (s.image core g.uid).find? (fun f => f.off ≤ off && off < f.off + f.n) with
      | none => .next s
      | some f =>
        let new := (f.get s).set (off - f.off) v
        match imgTarget u.gids.length off with
        | none => .next (f.put new s)
        | some (i, w) =>
          let gid' := u.gids.getD i gid
          let t : State := if isShader core then s.modCore core (fun k => { k with
              sectors := k.sectors.map (fun x => if x.gid == gid' then { x with writes := x.writes.filter (fun y => !(wrSame y w)) } else x)
              gfxQ := k.gfxQ.map (fun q => if q.gid == gid' then { q with drop := q.drop ++ [w] } else q) })
            else s
          match w with
          | .m key _ => .next (t.debugElem core gid' key (setByte ((s.core core).elemNow gid' key) (off % 4) v))
          | _ => .next (f.put new t)

/-! ### Cancellation (R390, R410) -/

/-- Every unit record, resident or saved. -/
def State.allUnits (s : State) : List WUnit :=
  s.cores.flatMap (fun p => p.2.units.map Prod.snd) ++ s.launches.flatMap (fun p => p.2.saved.flatMap Saved.units)
/-- Every group record, resident or saved. -/
def State.allGroups (s : State) : List Group :=
  s.cores.flatMap (fun p => p.2.groups.map Prod.snd) ++ s.launches.flatMap (fun p => p.2.saved.flatMap (fun v => v.groups.map Prod.snd))
/-- The launches that are inline children of a group (R37). -/
def Group.inlineLaunches (g : Group) : List Nat := if g.inline.isEmpty then [] else g.launch :: g.inline.dropLast.map InlineFrame.launch
/-- Launches that belong to launch k: what its units have spawned and forked, and their descendants. -/
def State.descend (s : State) : Nat → List Nat → List Nat
  | 0, l => l
  | n + 1, l =>
    let homes := (s.allUnits.filter (fun u => l.contains u.launch)).map WUnit.home
    let more := (s.launches.filter (fun p => !(l.contains p.1) &&
      ((match p.2.spawnOf with | some x => l.contains x | none => false) || (match p.2.parent with | some h => homes.contains h | none => false)))).map Prod.fst
    if more.isEmpty then l else State.descend s n (l ++ more)
/-- Does a launch run units of its own: it is no inline child, which is part of the group that runs it (R37)? -/
def State.ownLaunch (s : State) (k : Nat) : Bool := !(s.allGroups.any (fun g => g.inlineLaunches.contains k))
/-- Units of a launch that have not retired. -/
def State.unitsLeft (s : State) (k : Nat) (x : Launch) : Nat :=
  x.lpb.grid - x.nextUnit + x.back.length + x.saved.length + s.pending.countP (fun p => p.launch == k)
    + (s.cores.flatMap (fun p => p.2.units.filterMap (fun q => if q.2.launch == k then some q.2.index else none))).eraseDups.length
/-- Accepted sort commands of cancelled launches complete (R390 step 4): their arrays are written, and they leave. -/
def State.finishSorts (s : State) (ks : List Nat) : State :=
  let mine (q : Cmd) : Bool := ks.contains q.launch
  s.sortQ.foldl (fun s p =>
    let was := (p.2.head?.map mine).getD false
    let s := (p.2.filter mine).foldl (fun s q =>
      let s : State := match q.op with
        | .sort _ o => (let s := if (s.sortStops q).isNone then s.runSort q o else s
                        if o.raise then s.semAdd q.core o.sem.val 1 else s)
        | .merge _ o => (let m := s.runMerge q o (if (p.2.head?.map Cmd.id) == some q.id then sget (0, 0) p.1 s.sortPos else (0, 0))
                         if o.raise then m.s.semAdd q.core o.sem.val 1 else m.s)
        | _ => s
      s.modCore q.core (fun c => c.release q.id)) s
    let rest := p.2.filter (fun q => !(mine q))
    let s := { s with sortQ := kset p.1 rest s.sortQ, sortPage := if was then kdel p.1 s.sortPage else s.sortPage }
    if was && !rest.isEmpty then s.sortBegin p.1 else s) s
/-- Acceptances of launches that stay, by groups that go: they keep no name of the group. -/
def State.orphanAccepts (s : State) (ks : List Nat) : State :=
  let f (k : Core) (a : Nat × Nat × Nat × Nat) : Option (Nat × Nat × Nat × Nat) :=
    if ks.contains a.1 then none
    else if ks.contains (k.unit (k.group a.2.1).uid).launch then some (a.1, ghostBase + s.fresh, a.2.2.1, 0)
    else some a
  { s with fresh := s.fresh + 1, cores := s.cores.map (fun p => (p.1, { p.2 with accepts := p.2.accepts.filterMap (f p.2) })) }
/-- The copy channels stop for the commands of cancelled launches, which end (R390 step 3). -/
def State.stopCopies (s : State) (ks : List Nat) : State :=
  let mine (q : Cmd) : Bool := ks.contains q.launch
  let one (c : Nat) (s : State) (p : Nat × Channel) : State :=
    if !(p.2.q.any mine) then s
    else
      let s := s.modCore c (fun k => (p.2.q.filter mine).foldl (fun k q => k.release q.id)
        { k with chans := kmod p.1 (fun h => { h with q := h.q.filter (fun q => !(mine q)) }) k.chans })
      if (p.2.q.head?.map mine).getD false then s.cpBegin c p.1 else s
  s.cores.foldl (fun s p => p.2.chans.foldl (one p.1) s) s
/-- Cancel launch k and what belongs to it (R390): steps 1 to 3, and the sort commands of step 4. Array, drain and rotator commands run on,
and the rest follows once they have completed; ORDW commands complete with nothing left that could tell, since the region states that
they act on are freed. -/
def State.cancelLaunch (s : State) (k reason : Nat) (x : Launch) : State :=
  let ks := s.descend s.launches.length [k]
  let ks := (ks ++ ks.flatMap (fun j => (((kget j s.launches).bind Launch.cancel).map Prod.fst).getD [])).eraseDups
  let inl := (s.allGroups.filter (fun g => ks.contains (g.inline.getLast?.elim g.launch InlineFrame.launch))).flatMap Group.inlineLaunches
  let all := ks ++ inl
  let left := s.unitsLeft k x
  let s := ((s.finishSorts all).stopCopies all).orphanAccepts ks
  let s : State := { s with pending := s.pending.filter (fun p => !(ks.contains p.launch)),
                            ovf := s.ovf.map (fun p => (p.1, p.2.filter (fun j => !(ks.contains j)))) }
  let us := s.cores.flatMap (fun p => (p.2.units.filter (fun q => ks.contains q.2.launch)).map (fun q => (p.1, q.1)))
  let gone := us.flatMap (fun p => ((s.core p.1).unit p.2).gids.map (fun g => (p.1, g)))
  let s := us.foldl (fun s p => s.removeUnit p.1 p.2) s
  let s : State := { s with weaves := s.weaves.filter (fun p => !(ks.contains p.2.launch)),
                            dbg := s.dbg.filter (fun (d : DebugStop) => !(gone.contains (d.core, d.gid))) }
  if !(s.enginesHold all) then s.cancelEnd x all reason left
  else
    let stop (p : Nat × Launch) : Nat × Launch :=
      if all.contains p.1 then (p.1, { p.2 with nextUnit := p.2.lpb.grid, back := [], saved := [], queued := false, ending := true,
                                                cancel := some (if p.1 == k then (all, reason, left) else ([], 0, 0)) }) else p
    { s with launches := s.launches.map stop }

/-- Settle what CANCEL's look at the launch queues reads: the standing entries and their LPBs (R216). -/
def State.settleQueues (s : State) : State :=
  if s.exact.isEmpty then s
  else s.lqs.foldl (fun s p =>
    if !p.2.enable then s
    else (List.range p.2.used).foldl (fun s i =>
      let at_ := p.2.base + 8 * ((p.2.head + i) % 2 ^ 32 % 2 ^ p.2.n)
      let s := s.settleRange at_ 8
      s.settleRange (fld (s.nat at_ 8) 7 45 * 128) 384) s) s
/-- The entry of a launch queue that names a launch not yet placed, whose identifier matches: queue, index, LPB (R307, R314). -/
def State.queuedLaunch (s : State) (ident : Nat) : Option (Nat × Nat × Lpb) :=
  s.lqs.findSome? (fun p =>
    if !p.2.enable then none
    else ((List.range p.2.used).map (fun i => (p.2.head + i) % 2 ^ 32)).findSome? (fun i =>
      let pa := fld (s.nat (p.2.base + 8 * (i % 2 ^ p.2.n)) 8) 7 45 * 128
      let l := lpbOfImage (s.bytes pa 384) 0 pa
      if !(p.2.void.contains i) && s.mapped pa && fld l.ident 0 32 == ident then some (p.1, i, l) else none))
/-- Cancel a launch that still stands in launch queue q, as entry i: the entry is dropped, nothing else of it exists yet (R390, log
75). -/
def State.cancelQueued (s : State) (q i reason : Nat) (l : Lpb) : State :=
  let s := { s with lqs := kmod q (fun y => { y with void := y.void ++ [i] }) s.lqs, stats := kmod l.ident Stats.roll s.stats }
  ((if l.sigVa == 0 then s else s.signalOr l (0xC000000000000000 + reason))).raiseMsix 0
/-- CANCEL (R410): the launch whose identifier matches is cancelled, and the found bit is set; of a launch that is being cancelled nothing
more happens. An inline child is part of the group that runs it, and no launch that CANCEL finds. DESIGN CHOICE, log 81. -/
def execCancel (low reason : Nat) (s : State) : Out :=
  let base := low % 2 ^ 32 + reason % 256 * 2 ^ 32
  match s.launches.find? (fun p => fld p.2.lpb.ident 0 32 == low % 2 ^ 32 && s.ownLaunch p.1) with
  | some (k, x) => .next { (if x.cancel.isSome then s else s.cancelLaunch k (reason % 256) x) with cancelReg := base + 2 ^ 63 }
  | none =>
    let s := s.settleQueues
    match s.queuedLaunch (low % 2 ^ 32) with
    | some (q, i, l) => .next { (s.cancelQueued q i (reason % 256) l) with cancelReg := base + 2 ^ 63 }
    | none => .next { s with cancelReg := base }

/-! ### Attestation (R416) -/

/-- Put bytes into the mailbox. -/
def State.mailPut (s : State) (o : Nat) (b : List Byte) : State :=
  { s with mailbox := ((List.range b.length).zip b).foldl (fun m p => sset 0 (o + p.1) p.2 m) s.mailbox }
/-- ATTEST_PUBLIC_KEY: discarded while a report is being built. -/
def execAttestPublicKey (s : State) : Out :=
  if s.attest.isSome then .next s else .next (s.mailPut 64 (leBytes 1312 Config.publicKey))
/-- ATTEST_REPORT: within 5 ms (log 5). -/
def execAttestReport (nonce : List Byte) (s : State) : Out :=
  if s.attest.isSome then .next s
  else .next { (s.mailPut 0 (fitBytes 32 nonce)) with
    attest := some (s.now + (1 + Config.latency s.free % 5000000) * tickNs, fitBytes 32 nonce), free := s.free + 1 }
/-- The signed part of a report: bytes 0 to 191. -/
def State.attestBody (s : State) (nonce : List Byte) : List Byte :=
  leBytes 4 1 ++ leBytes 4 s.board.form ++ leBytes 16 Config.serial ++ leBytes 32 (Config.sha3 Config.firmware)
    ++ leBytes 32 (Config.sha3 Config.fused) ++ nonce ++ fitBytes 64 s.degrade ++ leBytes 8 s.bootCount
/-- ATTEST_REPORT_DONE. -/
def execAttestReportDone (s : State) : Out :=
  match s.attest with
  | none => .next s
  | some (t, nonce) =>
    if s.now < t then .next s
    else
      let b := s.attestBody nonce
      .next { (s.mailPut 64 (b ++ leBytes 2420 (Config.sign (Config.sha3 b)))) with attest := none }

end Sys2Proof.Machine
end

