-- ==== Sys2Proof/Machine/Pipe.lean ====
section
/-! DEFINITION. What lands in a core by itself: fixed-latency results (R71), wakes (R117), sectors and scalar answers (R258,
R260), page walks (R226), write-back deadlines and leases (R248). -/

namespace Sys2Proof.Machine

/-- Register banks that writes reach. -/
def writtenBanks (g : Group) (ws : List Wr) : List Nat :=
  (ws.filterMap (fun w => match w with | .m k _ => if k / 1024 < g.budget then some (k / 1024) else none | _ => none)).eraseDups
/-- Scratch banks that writes reach. -/
def writtenScratch (ws : List Wr) : List Nat :=
  (ws.filterMap (fun w => match w with | .b k _ => some (k / 65536) | _ => none)).eraseDups
/-- The banks under writes of group g that are not BRIGHT: register banks, scratch banks. -/
def Core.sleeping (k : Core) (g : Nat) (ws : List Wr) : List Nat × List Nat :=
  ((writtenBanks (k.group g) ws).filter (fun i => !((k.group g).bank i).ready), (writtenScratch ws).filter (fun i => !(k.sbank i).ready))
/-- Start the wakes of banks; the core, and the clk in which the last of them completes (R117, R119). -/
def Core.wakeAll (k : Core) (g : Nat) (bs : List Nat × List Nat) : Core × Nat :=
  let k := bs.2.foldl Core.wakeScratch (bs.1.foldl (fun k i => k.wakeReg g i) k)
  (k, bs.2.foldl (fun a i => max a ((k.sbank i).wakeAt.getD 0)) (bs.1.foldl (fun a i => max a (((k.group g).bank i).wakeAt.getD 0)) (k.clk + 1)))

/-- RESULT_LANDING (R71): in the clk t + λ of the pipelines. A result that reaches a bank which an action has made DIM or DARK since
its bundle issued wakes it and lands as the wake completes (R117, R119). -/
def execResultLanding (core id : Nat) (s : State) : Out :=
  match (s.core core).inflight.find? (fun f => f.id == id) with
  | none => .next s
  | some f =>
    if (s.core core).pclk < f.due then .next s
    else
      let k := { s.core core with inflight := (s.core core).inflight.filter (fun x => x.id != id) }
      let bs := k.sleeping f.gid f.writes
      if bs.1.isEmpty && bs.2.isEmpty then .next (s.modCore core (fun _ => k.land f.gid f.writes))
      else
        let w := k.wakeAll f.gid bs
        .next (s.modCore core (fun _ => { w.1 with sectors := w.1.sectors ++
          [{ id := f.id, due := w.2, gid := f.gid, writes := f.writes, pc := 0, pa := 0, bad := false, ctr := none, slots := 0,
             arr := k.clk, fixed := true, wall := 0, tick := 0 }] }))

/-- A bank whose wake is complete is BRIGHT (R117). -/
def Bank.wakeDone (b : Bank) (clk : Nat) : Bank :=
  match b.wakeAt with
  | some t => if t ≤ clk then { b with st := .bright, wakeAt := none } else b
  | none => b
/-- BANK_WAKE_COMPLETE (R117): of a register bank of a group, or of a scratch bank. -/
def execBankWakeComplete (core : Nat) (gid : Option Nat) (bank : Nat) (s : State) : Out :=
  .next (s.modCore core (fun c =>
    match gid with
    | some g => c.modGroup g (fun x => { x with banks := x.banks.set bank ((x.bank bank).wakeDone c.clk) })
    | none => c.setSbank bank ((c.sbank bank).wakeDone c.clk)))

/-- Has a result arrived before the clk in which it lands, held for a wake (R119)? -/
def Sector.held (f : Sector) : Bool := f.arr < f.due
/-- SECTOR_LANDING (R258, R260): a sector whose clk have passed crosses the bridge first (R13, R17); a sector or scalar answer writes its destinations and lowers its counter, and a group that stopped for
a not-present page is suspended as its last sector lands (R32). A sector with an uncorrectable error writes nothing, and the first such
load of the stream is recorded. A result that reaches a bank that is not BRIGHT wakes it and lands as the wake completes (R117, R119). -/
def execSectorLanding (core id : Nat) (s : State) : Out :=
  let k := s.core core
  match k.sectors.find? (fun f => f.id == id) with
  | none => .next s
  | some f =>
    if k.clk < f.due || s.now < f.tick then .next s
    else if f.wall != 0 then
      .next (s.modCore core (fun c => { c with sectors := c.sectors.map (fun x =>
        if x.id == id then { x with wall := 0, tick := s.now + f.wall } else x) }))
    else
      let bs := if f.bad then ([], []) else k.sleeping f.gid f.writes
      if bs.1.isEmpty && bs.2.isEmpty then
        let s := s.modCore core (fun c => { c with sectors := c.sectors.filter (fun x => x.id != id) })
        let s := if f.bad then s.modGroup core f.gid (fun g => { g with dataErr := g.dataErr.orElse (fun _ => some (f.pc, f.pa)) })
                 else s.modCore core (fun c => c.land f.gid f.writes)
        match f.ctr with
        | some n => .next ((s.ctrDown core f.gid n).drainedPage core f.gid)
        | none => .next s
      else
        let w := k.wakeAll f.gid bs
        .next (s.modCore core (fun _ => { w.1 with sectors := w.1.sectors.map (fun x => if x.id == id then { x with due := w.2, arr := if x.held then x.arr else k.clk } else x) }))

/-- The answer of a walk for a party of a core. -/
def State.answerWalk (s : State) (root va : Nat) (f : WalkRes) (q : Nat × Nat) : State :=
  s.modCore q.1 (fun c => { c with walkF := c.walkF ++ [{ who := q.2, root := root, va := va, f := f }] })
/-- TLB_WALK_COMPLETE (R226, R347): the leaf fills the TLBs of the die and of the core of everyone who asked for it, and the die's holds
the table entries of the walk too; other walks of the die that ask for the same leaf end with it. A fault is kept for those that
asked. A walk that a TLBINV has overtaken installs nothing and serves its requesters with the leaf that it read. -/
def execTlbWalkComplete (die id : Nat) (s : State) : Out :=
  let l := (kget die s.walks).getD []
  match l.find? (fun w => w.id == id) with
  | none => .next s
  | some w =>
    if s.now < w.due then .next s
    else
      let s := s.settleWalk die w.root w.va
      let without (f : Walk → Bool) : State := { s with walks := kset die (l.filter (fun x => !f x)) s.walks }
      match s.walkFrom die w.root w.va with
      | .ok (leaf, size) =>
        if w.stale then .next (w.reqs.foldl (State.answerWalk · w.root w.va (.leaf leaf size)) (without (fun x => x.id == id)))
        else
          let e : TlbEntry := { launch := 0, root := w.root, vpage := w.va / 2 ^ 16 * 2 ^ 16, size := size, leaf := leaf }
          let same (x : Walk) : Bool :=
            x.id == id || (!x.stale && x.root == w.root && x.va / pageBytes size == w.va / pageBytes size)
          let cores := ((l.filter same).flatMap (fun x => x.reqs.map (fun q => (q.1, s.tagOf q.2 q.1)))).eraseDups
          let tabs := (s.tabsOf die w.root w.va).foldl (tlbAdd 16384) ((kget die s.dieTab).getD [])
          .next { (cores.foldl (fun s c => s.modCore c.1 (fun k => { k with tlb := tlbAdd 1024 k.tlb { e with launch := c.2 } })) (without same)) with
            dieTlb := kset die (tlbAdd (max 16384 (32768 - tabs.length)) ((kget die s.dieTlb).getD []) e) s.dieTlb
            dieTab := kset die tabs s.dieTab }
      | .error f => .next (w.reqs.foldl (State.answerWalk · w.root w.va (.fault f)) (without (fun x => x.id == id)))

/-- WRITE_BACK_DEADLINE (R248): a dirty line goes home. -/
def execWriteBackDeadline (core line : Nat) (s : State) : Out := .next (s.cleanLine core line)
/-- LEASE_END (R248): the copy is given up, so that a later read sees newer writes. -/
def execLeaseEnd (core line : Nat) (s : State) : Out :=
  match kget line (s.core core).lines with
  | some l => if (s.core core).clk < l.lease then .next s else .next (s.dropLine core line)
  | none => .next s

end Sys2Proof.Machine
end

