-- ==== Sys2Proof/Machine/Scalar.lean ====
section
/-! DEFINITION. The scalar integer, move, predicate and format instructions of class C (R129 to R136, R145). -/

namespace Sys2Proof.Machine

/-- The result of a slot-0 instruction into a scalar register. -/
def State.toS (s : State) (lam : Nat) (sd : SReg) (v : W64) : State := s.emit 0 lam [.s sd.val v]
/-- The result of a slot-0 instruction into the active lanes of a predicate (R127). -/
def State.toP (s : State) (pd : PReg) (v : W32) : State := s.emit 0 1 [.p pd.val s.active v]

/-! ### The arithmetic (R129, R132, R133) -/

/-- Bits [127:64] of the exact product: 0 both signed, 1 both unsigned, 2 signed by unsigned (R129). -/
def mulHigh (k : Nat) (a b : W64) : W64 :=
  let x : Int := if k == 1 then (a.toNat : Int) else a.toInt
  let y : Int := if k == 0 then b.toInt else (b.toNat : Int)
  BitVec.ofInt 64 (x * y / 2 ^ 64)
/-- A shift count b[5:0] (R129). -/
def shiftCount (b : W64) : Nat := b.toNat % 64
/-- Lesser of two scalars, signed or unsigned (R129). -/
def minOf (u : Bool) (a b : W64) : W64 := if (if u then a.ule b else a.sle b) then a else b
/-- Greater of two scalars, signed or unsigned (R129). -/
def maxOf (u : Bool) (a b : W64) : W64 := if (if u then a.ule b else a.sle b) then b else a
/-- BFX (R132). -/
def bitExtract (signed : Bool) (x c : W64) : W64 :=
  let pos := fld c.toNat 0 6
  let n := min (min (fld c.toNat 8 7) 64) (64 - pos)
  let f := x.toNat / 2 ^ pos % 2 ^ n
  if n = 0 then 0
  else if signed && f / 2 ^ (n - 1) == 1 then BitVec.ofNat 64 (f + (2 ^ 64 - 2 ^ n))
  else BitVec.ofNat 64 f
/-- BFI: insert a into b (R132). -/
def bitInsert (a b c : W64) : W64 :=
  let pos := fld c.toNat 0 6
  let n := min (min (fld c.toNat 8 7) 64) (64 - pos)
  BitVec.ofNat 64 (b.toNat % 2 ^ pos + a.toNat % 2 ^ n * 2 ^ pos + b.toNat / 2 ^ (pos + n) * 2 ^ (pos + n))
/-- Leading zero bits (R132). -/
def leadingZeros (a : W64) : Nat := if a = 0 then 64 else 63 - Nat.log2 a.toNat
/-- One bits (R132). -/
def onesOf (a : W64) : Nat := (List.range 64).countP (fun i => a.getLsbD i)
/-- MOVI (R133). -/
def moviOf (k : Nat) (old : W64) (x : W32) : W64 :=
  if k == 0 then sext64 x else if k == 1 then zext64 x else x ++ low32 old
/-- A whole predicate from a condition (R131). -/
def allOf (b : Bool) : W32 := if b then allLanes else 0

/-! ### Effects -/

/-- IADD (R129). -/
def effIadd (sd sa sb : SReg) (s : State) : State := s.toS 1 sd (s.sr sa.val + s.sr sb.val)
/-- ISUB (R129). -/
def effIsub (sd sa sb : SReg) (s : State) : State := s.toS 1 sd (s.sr sa.val - s.sr sb.val)
/-- IMUL (R129). -/
def effImul (sd sa sb : SReg) (s : State) : State := s.toS 3 sd (s.sr sa.val * s.sr sb.val)
/-- IMULH (R129). -/
def effImulh (k : Fin 3) (sd sa sb : SReg) (s : State) : State := s.toS 3 sd (mulHigh k.val (s.sr sa.val) (s.sr sb.val))
/-- IMAD (R129). -/
def effImad (sd sa sb sc : SReg) (s : State) : State := s.toS 3 sd (s.sr sa.val * s.sr sb.val + s.sr sc.val)
/-- ISHL (R129). -/
def effIshl (sd sa sb : SReg) (s : State) : State := s.toS 1 sd (s.sr sa.val <<< shiftCount (s.sr sb.val))
/-- ISHR (R129). -/
def effIshr (sd sa sb : SReg) (s : State) : State := s.toS 1 sd (s.sr sa.val >>> shiftCount (s.sr sb.val))
/-- ISAR (R129). -/
def effIsar (sd sa sb : SReg) (s : State) : State := s.toS 1 sd ((s.sr sa.val).sshiftRight (shiftCount (s.sr sb.val)))
/-- IAND (R129). -/
def effIand (sd sa sb : SReg) (s : State) : State := s.toS 1 sd (s.sr sa.val &&& s.sr sb.val)
/-- IOR (R129). -/
def effIor (sd sa sb : SReg) (s : State) : State := s.toS 1 sd (s.sr sa.val ||| s.sr sb.val)
/-- IXOR (R129). -/
def effIxor (sd sa sb : SReg) (s : State) : State := s.toS 1 sd (s.sr sa.val ^^^ s.sr sb.val)
/-- IMIN (R129). -/
def effImin (u : Bool) (sd sa sb : SReg) (s : State) : State := s.toS 1 sd (minOf u (s.sr sa.val) (s.sr sb.val))
/-- IMAX (R129). -/
def effImax (u : Bool) (sd sa sb : SReg) (s : State) : State := s.toS 1 sd (maxOf u (s.sr sa.val) (s.sr sb.val))
/-- ICMP (R130, R131). -/
def effIcmp (cc : Fin 10) (pd : PReg) (sa sb : SReg) (s : State) : State :=
  s.toP pd (allOf (condHolds cc.val (s.sr sa.val) (s.sr sb.val)))
/-- ISEL (R131). -/
def effIsel (sd sa sb : SReg) (pc : PReg) (s : State) : State :=
  s.toS 1 sd (if s.pr pc.val &&& s.active != 0 then s.sr sa.val else s.sr sb.val)
/-- MOVS (R134, R35). -/
def effMovs (o : MovsOp) (s : State) : State :=
  match o with
  | .ss sd sa => s.toS 1 sd (s.sr sa.val)
  | .ws wd sa => s.emit 0 2 [.w wd.val (s.sr sa.val)]
  | .sw sd wa => s.toS 2 sd (sget 0 wa.val s.curUnit.wregs)
/-- MOVX subs 0 and 1 (R134). -/
def effMovxToScalar (signed : Bool) (sd : SReg) (v : VSrc) (sa : SReg) (s : State) : State :=
  let x := s.src 0 v ((s.sr sa.val).toNat % 32)
  s.toS 3 sd (if signed then sext64 x else zext64 x)
/-- MOVX sub 2: one element, whatever the active mask (R134). -/
def effMovxToVector (v : View) (sd sa : SReg) (s : State) : State :=
  s.emit 0 2 [.m (vkey v ((s.sr sa.val).toNat % 32)) (low32 (s.sr sd.val))]
/-- BFX (R132). -/
def effBfx (signed : Bool) (sd sa sb : SReg) (s : State) : State := s.toS 1 sd (bitExtract signed (s.sr sa.val) (s.sr sb.val))
/-- BFI (R132). -/
def effBfi (sd sa sb sc : SReg) (s : State) : State := s.toS 1 sd (bitInsert (s.sr sa.val) (s.sr sb.val) (s.sr sc.val))
/-- CLZ (R132). -/
def effClz (sd sa : SReg) (s : State) : State := s.toS 1 sd (BitVec.ofNat 64 (leadingZeros (s.sr sa.val)))
/-- POPC (R132). -/
def effPopc (sd sa : SReg) (s : State) : State := s.toS 1 sd (BitVec.ofNat 64 (onesOf (s.sr sa.val)))
/-- IADD with an immediate (R129). -/
def effIaddImm (sd sa : SReg) (x : W32) (s : State) : State := s.toS 1 sd (s.sr sa.val + sext64 x)
/-- IMUL with an immediate (R129). -/
def effImulImm (sd sa : SReg) (x : W32) (s : State) : State := s.toS 3 sd (s.sr sa.val * sext64 x)
/-- ISHL with an immediate (R129). -/
def effIshlImm (sd sa : SReg) (x : W32) (s : State) : State := s.toS 1 sd (s.sr sa.val <<< shiftCount (sext64 x))
/-- ISHR with an immediate (R129). -/
def effIshrImm (sd sa : SReg) (x : W32) (s : State) : State := s.toS 1 sd (s.sr sa.val >>> shiftCount (sext64 x))
/-- ISAR with an immediate (R129). -/
def effIsarImm (sd sa : SReg) (x : W32) (s : State) : State :=
  s.toS 1 sd ((s.sr sa.val).sshiftRight (shiftCount (sext64 x)))
/-- IAND with an immediate (R129). -/
def effIandImm (sd sa : SReg) (x : W32) (s : State) : State := s.toS 1 sd (s.sr sa.val &&& sext64 x)
/-- IOR with an immediate (R129). -/
def effIorImm (sd sa : SReg) (x : W32) (s : State) : State := s.toS 1 sd (s.sr sa.val ||| sext64 x)
/-- IXOR with an immediate (R129). -/
def effIxorImm (sd sa : SReg) (x : W32) (s : State) : State := s.toS 1 sd (s.sr sa.val ^^^ sext64 x)
/-- IMIN with an immediate (R129). -/
def effIminImm (u : Bool) (sd sa : SReg) (x : W32) (s : State) : State := s.toS 1 sd (minOf u (s.sr sa.val) (sext64 x))
/-- IMAX with an immediate (R129). -/
def effImaxImm (u : Bool) (sd sa : SReg) (x : W32) (s : State) : State := s.toS 1 sd (maxOf u (s.sr sa.val) (sext64 x))
/-- ICMP with an immediate (R130, R131). -/
def effIcmpImm (cc : Fin 10) (pd : PReg) (sa : SReg) (x : W32) (s : State) : State :=
  s.toP pd (allOf (condHolds cc.val (s.sr sa.val) (sext64 x)))
/-- MOVI (R133). -/
def effMovi (k : Fin 3) (sd : SReg) (x : W32) (s : State) : State := s.toS 1 sd (moviOf k.val (s.sr sd.val) x)
/-- LEA (R133). -/
def effLea (n : Fin 5) (sd sa : SReg) (x : W32) (s : State) : State := s.toS 1 sd (s.sr sa.val + sext64 x <<< n.val)
/-- FMT: bits [31:11] are discarded (R136). -/
def effFmt (src : FmtSrc) (s : State) : State :=
  let v := match src with | .imm x => x | .reg sa => low32 (s.sr sa.val)
  s.modS (fun p => { p with fmt := v &&& 0x7FF })
/-- FMTRD (R136). -/
def effFmtrd (sd : SReg) (s : State) : State := s.toS 1 sd (zext64 s.curSlot.fmt)
/-- PMOV (R135). -/
def effPmov (o : PmovOp) (s : State) : State :=
  match o with
  | .pp pd pa => s.toP pd (s.pr pa.val)
  | .ps pd sa => s.toP pd (low32 (s.sr sa.val))
  | .sp sd pa => s.toS 1 sd (zext64 (s.pr pa.val))
/-- PAND (R135). -/
def effPand (pd pa pb : PReg) (s : State) : State := s.toP pd (s.pr pa.val &&& s.pr pb.val)
/-- POR (R135). -/
def effPor (pd pa pb : PReg) (s : State) : State := s.toP pd (s.pr pa.val ||| s.pr pb.val)
/-- PNOT (R135). -/
def effPnot (pd pa : PReg) (s : State) : State := s.toP pd (~~~(s.pr pa.val))

/-- The values of SYS (R145). In an inline child sel 0 and 1 are those of the group that runs it, sel 6 and 10 those of the child's LPB:
DESIGN CHOICE, log 82. -/
def State.sysValue (s : State) (sel : Nat) : Nat :=
  match sel with
  | 0 => s.curGrp.gix
  | 1 => s.curUnit.index
  | 2 => coreIx s.cur.core
  | 3 => coreQuad s.cur.core
  | 4 => coreDie s.cur.core
  | 5 => s.board.pkg
  | 6 => s.lpb.ident
  | 7 => s.curCore.clk
  | 8 => s.ns
  | 9 => s.clsOf s.cur.core
  | 10 => s.lpb.prio
  | 11 => if s.onShader then s.cur.slot else 0
  | 12 => s.active.toNat
  | _ => s.curGrp.budget
/-- SYS (R145). -/
def effSys (sel : Fin 14) (sd : SReg) (s : State) : State := s.toS 1 sd (BitVec.ofNat 64 (s.sysValue sel.val))

/-! ### The instructions, alone in their bundle -/

/-- IADD. -/
def execIadd (g : Guard) (sd sa sb : SReg) (s : State) : Out := s.issueSolo (.iadd g sd sa sb) { eff := effIadd sd sa sb }
/-- ISUB. -/
def execIsub (g : Guard) (sd sa sb : SReg) (s : State) : Out := s.issueSolo (.isub g sd sa sb) { eff := effIsub sd sa sb }
/-- IMUL. -/
def execImul (g : Guard) (sd sa sb : SReg) (s : State) : Out := s.issueSolo (.imul g sd sa sb) { eff := effImul sd sa sb }
/-- IMULH. -/
def execImulh (g : Guard) (k : Fin 3) (sd sa sb : SReg) (s : State) : Out :=
  s.issueSolo (.imulh g k sd sa sb) { eff := effImulh k sd sa sb }
/-- IMAD. -/
def execImad (g : Guard) (sd sa sb sc : SReg) (s : State) : Out :=
  s.issueSolo (.imad g sd sa sb sc) { eff := effImad sd sa sb sc }
/-- ISHL. -/
def execIshl (g : Guard) (sd sa sb : SReg) (s : State) : Out := s.issueSolo (.ishl g sd sa sb) { eff := effIshl sd sa sb }
/-- ISHR. -/
def execIshr (g : Guard) (sd sa sb : SReg) (s : State) : Out := s.issueSolo (.ishr g sd sa sb) { eff := effIshr sd sa sb }
/-- ISAR. -/
def execIsar (g : Guard) (sd sa sb : SReg) (s : State) : Out := s.issueSolo (.isar g sd sa sb) { eff := effIsar sd sa sb }
/-- IAND. -/
def execIand (g : Guard) (sd sa sb : SReg) (s : State) : Out := s.issueSolo (.iand g sd sa sb) { eff := effIand sd sa sb }
/-- IOR. -/
def execIor (g : Guard) (sd sa sb : SReg) (s : State) : Out := s.issueSolo (.ior g sd sa sb) { eff := effIor sd sa sb }
/-- IXOR. -/
def execIxor (g : Guard) (sd sa sb : SReg) (s : State) : Out := s.issueSolo (.ixor g sd sa sb) { eff := effIxor sd sa sb }
/-- IMIN. -/
def execImin (g : Guard) (u : Bool) (sd sa sb : SReg) (s : State) : Out :=
  s.issueSolo (.imin g u sd sa sb) { eff := effImin u sd sa sb }
/-- IMAX. -/
def execImax (g : Guard) (u : Bool) (sd sa sb : SReg) (s : State) : Out :=
  s.issueSolo (.imax g u sd sa sb) { eff := effImax u sd sa sb }
/-- ICMP. -/
def execIcmp (g : Guard) (cc : Fin 10) (pd : PReg) (sa sb : SReg) (s : State) : Out :=
  s.issueSolo (.icmp g cc pd sa sb) { eff := effIcmp cc pd sa sb }
/-- ISEL. -/
def execIsel (g : Guard) (sd sa sb : SReg) (pc : PReg) (s : State) : Out :=
  s.issueSolo (.isel g sd sa sb pc) { eff := effIsel sd sa sb pc }
/-- MOVS. -/
def execMovs (g : Guard) (o : MovsOp) (s : State) : Out := s.issueSolo (.movs g o) { eff := effMovs o }
/-- MOVX toward a scalar. -/
def execMovxToScalar (g : Guard) (signed : Bool) (sd : SReg) (v : VSrc) (sa : SReg) (s : State) : Out :=
  s.issueSolo (.movxToScalar g signed sd v sa) { eff := effMovxToScalar signed sd v sa }
/-- MOVX toward a view. -/
def execMovxToVector (g : Guard) (v : View) (sd sa : SReg) (s : State) : Out :=
  s.issueSolo (.movxToVector g v sd sa) { eff := effMovxToVector v sd sa }
/-- BFX. -/
def execBfx (g : Guard) (signed : Bool) (sd sa sb : SReg) (s : State) : Out :=
  s.issueSolo (.bfx g signed sd sa sb) { eff := effBfx signed sd sa sb }
/-- BFI. -/
def execBfi (g : Guard) (sd sa sb sc : SReg) (s : State) : Out :=
  s.issueSolo (.bfi g sd sa sb sc) { eff := effBfi sd sa sb sc }
/-- CLZ. -/
def execClz (g : Guard) (sd sa : SReg) (s : State) : Out := s.issueSolo (.clz g sd sa) { eff := effClz sd sa }
/-- POPC. -/
def execPopc (g : Guard) (sd sa : SReg) (s : State) : Out := s.issueSolo (.popc g sd sa) { eff := effPopc sd sa }
/-- IADD immediate. -/
def execIaddImm (g : Guard) (sd sa : SReg) (x : W32) (s : State) : Out :=
  s.issueSolo (.iaddImm g sd sa x) { eff := effIaddImm sd sa x }
/-- IMUL immediate. -/
def execImulImm (g : Guard) (sd sa : SReg) (x : W32) (s : State) : Out :=
  s.issueSolo (.imulImm g sd sa x) { eff := effImulImm sd sa x }
/-- ISHL immediate. -/
def execIshlImm (g : Guard) (sd sa : SReg) (x : W32) (s : State) : Out :=
  s.issueSolo (.ishlImm g sd sa x) { eff := effIshlImm sd sa x }
/-- ISHR immediate. -/
def execIshrImm (g : Guard) (sd sa : SReg) (x : W32) (s : State) : Out :=
  s.issueSolo (.ishrImm g sd sa x) { eff := effIshrImm sd sa x }
/-- ISAR immediate. -/
def execIsarImm (g : Guard) (sd sa : SReg) (x : W32) (s : State) : Out :=
  s.issueSolo (.isarImm g sd sa x) { eff := effIsarImm sd sa x }
/-- IAND immediate. -/
def execIandImm (g : Guard) (sd sa : SReg) (x : W32) (s : State) : Out :=
  s.issueSolo (.iandImm g sd sa x) { eff := effIandImm sd sa x }
/-- IOR immediate. -/
def execIorImm (g : Guard) (sd sa : SReg) (x : W32) (s : State) : Out :=
  s.issueSolo (.iorImm g sd sa x) { eff := effIorImm sd sa x }
/-- IXOR immediate. -/
def execIxorImm (g : Guard) (sd sa : SReg) (x : W32) (s : State) : Out :=
  s.issueSolo (.ixorImm g sd sa x) { eff := effIxorImm sd sa x }
/-- IMIN immediate. -/
def execIminImm (g : Guard) (u : Bool) (sd sa : SReg) (x : W32) (s : State) : Out :=
  s.issueSolo (.iminImm g u sd sa x) { eff := effIminImm u sd sa x }
/-- IMAX immediate. -/
def execImaxImm (g : Guard) (u : Bool) (sd sa : SReg) (x : W32) (s : State) : Out :=
  s.issueSolo (.imaxImm g u sd sa x) { eff := effImaxImm u sd sa x }
/-- ICMP immediate. -/
def execIcmpImm (g : Guard) (cc : Fin 10) (pd : PReg) (sa : SReg) (x : W32) (s : State) : Out :=
  s.issueSolo (.icmpImm g cc pd sa x) { eff := effIcmpImm cc pd sa x }
/-- MOVI. -/
def execMovi (g : Guard) (k : Fin 3) (sd : SReg) (x : W32) (s : State) : Out :=
  s.issueSolo (.movi g k sd x) { eff := effMovi k sd x }
/-- LEA. -/
def execLea (g : Guard) (n : Fin 5) (sd sa : SReg) (x : W32) (s : State) : Out :=
  s.issueSolo (.lea g n sd sa x) { eff := effLea n sd sa x }
/-- FMT. -/
def execFmt (g : Guard) (src : FmtSrc) (s : State) : Out := s.issueSolo (.fmt g src) { eff := effFmt src }
/-- FMTRD. -/
def execFmtrd (g : Guard) (sd : SReg) (s : State) : Out := s.issueSolo (.fmtrd g sd) { eff := effFmtrd sd }
/-- PMOV. -/
def execPmov (g : Guard) (o : PmovOp) (s : State) : Out := s.issueSolo (.pmov g o) { eff := effPmov o }
/-- PAND. -/
def execPand (g : Guard) (pd pa pb : PReg) (s : State) : Out := s.issueSolo (.pand g pd pa pb) { eff := effPand pd pa pb }
/-- POR. -/
def execPor (g : Guard) (pd pa pb : PReg) (s : State) : Out := s.issueSolo (.por g pd pa pb) { eff := effPor pd pa pb }
/-- PNOT. -/
def execPnot (g : Guard) (pd pa : PReg) (s : State) : Out := s.issueSolo (.pnot g pd pa) { eff := effPnot pd pa }
/-- SYS. -/
def execSys (g : Guard) (sel : Fin 14) (sd : SReg) (s : State) : Out := s.issueSolo (.sys g sel sd) { eff := effSys sel sd }

end Sys2Proof.Machine
end

