-- ==== Sys2Proof/Machine/Vector.lean ====
section
/-! DEFINITION. The class V instructions (R152 to R171). Each effect takes the number of the slot it stands in. -/

namespace Sys2Proof.Machine

/-! ### Lanes -/

/-- Send a row to a view in the lanes where the slot acts (R155). -/
def State.vput (s : State) (n lam : Nat) (g : Guard) (vd : View) (f : Nat → W32) : State :=
  s.emit n lam (viewWrites vd (s.act g) f)
/-- A lane value of 32 bits. -/
def w32 (x : Nat) : W32 := BitVec.ofNat 32 x
/-- The lane arithmetic of a slot: 0 FP32, 1 FP16 x 2, 2 BF16 x 2 (R152, R158). -/
def State.laneFmt (s : State) (la : Fin 4) : Nat := if la.val = 0 then fmtLane s.curSlot.fmt else la.val - 1
/-- Rounding of the issuing slot. -/
def State.rnd (s : State) : Nat := fmtRnd s.curSlot.fmt
/-- Saturate of the issuing slot. -/
def State.sat (s : State) : Bool := fmtSat s.curSlot.fmt
/-- Element format of the issuing slot. -/
def State.elt (s : State) : Nat := fmtElt s.curSlot.fmt

/-- An operation on a lane under a lane arithmetic: once, or on both halves (R159). -/
def laneOp (f : Nat) (op : Nat → Nat → Nat → Nat) (a b c : W32) : W32 :=
  if f = 0 then w32 (op a.toNat b.toNat c.toNat)
  else
    w32 (op (a.toNat % 2 ^ 16) (b.toNat % 2 ^ 16) (c.toNat % 2 ^ 16)
      + op (a.toNat / 2 ^ 16) (b.toNat / 2 ^ 16) (c.toNat / 2 ^ 16) * 2 ^ 16)
/-- Sign bits of a lane under a lane arithmetic (R160). -/
def signBits (f : Nat) : W32 := if f = 0 then 0x80000000 else 0x80008000

/-! ### Floating (R159 to R162) -/

/-- VADD (R159). -/
def effVadd (g : Guard) (la : Fin 4) (vd : View) (va vb : VSrc) (n : Nat) (s : State) : State :=
  let f := s.laneFmt la
  s.vput n 4 g vd (fun j => laneOp f (fun a b _ => fadd f s.rnd s.sat a b) (s.src n va j) (s.src n vb j) 0)
/-- VSUB (R159). -/
def effVsub (g : Guard) (la : Fin 4) (vd : View) (va vb : VSrc) (n : Nat) (s : State) : State :=
  let f := s.laneFmt la
  s.vput n 4 g vd (fun j => laneOp f (fun a b _ => fsub f s.rnd s.sat a b) (s.src n va j) (s.src n vb j) 0)
/-- VMUL (R159). -/
def effVmul (g : Guard) (la : Fin 4) (vd : View) (va vb : VSrc) (n : Nat) (s : State) : State :=
  let f := s.laneFmt la
  s.vput n 4 g vd (fun j => laneOp f (fun a b _ => fmul f s.rnd s.sat a b) (s.src n va j) (s.src n vb j) 0)
/-- VFMA: negation bit 1 on the product, bit 0 on c (R152, R159). -/
def effVfma (g : Guard) (la neg : Fin 4) (vd : View) (va vb vc : VSrc) (n : Nat) (s : State) : State :=
  let f := s.laneFmt la
  s.vput n 4 g vd (fun j =>
    laneOp f (fun a b c => ffma f s.rnd s.sat (neg.val / 2 == 1) (neg.val % 2 == 1) a b c)
      (s.src n va j) (s.src n vb j) (s.src n vc j))
/-- VMIN (R159). -/
def effVmin (g : Guard) (la : Fin 4) (vd : View) (va vb : VSrc) (n : Nat) (s : State) : State :=
  let f := s.laneFmt la
  s.vput n 4 g vd (fun j => laneOp f (fun a b _ => fminmax f false a b) (s.src n va j) (s.src n vb j) 0)
/-- VMAX (R159). -/
def effVmax (g : Guard) (la : Fin 4) (vd : View) (va vb : VSrc) (n : Nat) (s : State) : State :=
  let f := s.laneFmt la
  s.vput n 4 g vd (fun j => laneOp f (fun a b _ => fminmax f true a b) (s.src n va j) (s.src n vb j) 0)
/-- VABS (R160). -/
def effVabs (g : Guard) (la : Fin 4) (vd : View) (va : VSrc) (n : Nat) (s : State) : State :=
  s.vput n 2 g vd (fun j => s.src n va j &&& ~~~(signBits (s.laneFmt la)))
/-- VNEG (R160). -/
def effVneg (g : Guard) (la : Fin 4) (vd : View) (va : VSrc) (n : Nat) (s : State) : State :=
  s.vput n 2 g vd (fun j => s.src n va j ^^^ signBits (s.laneFmt la))
/-- VCMP (R161). -/
def effVcmp (g : Guard) (cc : Fin 16) (pd : PReg) (va vb : VSrc) (n : Nat) (s : State) : State :=
  s.emit n 2 [.p pd.val (s.act g) (maskOf (fun j => vcmpHolds cc.val (fmtLane s.curSlot.fmt) (s.src n va j) (s.src n vb j)))]
/-- VSEL (R160). -/
def effVsel (g : Guard) (vd : View) (va vb : VSrc) (pc : PReg) (n : Nat) (s : State) : State :=
  s.vput n 2 g vd (fun j => if bitOn (s.pr pc.val) j then s.src n va j else s.src n vb j)
/-- VMOV (R160). -/
def effVmov (g : Guard) (vd : View) (va : VSrc) (n : Nat) (s : State) : State := s.vput n 2 g vd (s.src n va)

/-- VCVT.up of a lane: element i to FP32 (R164). -/
def cvtUp (f mode i : Nat) (x : W32) : W32 := w32 (toF32 f mode (laneElt f x.toNat (i % perLane f)))
/-- VCVT.dn of a lane: FP32 into element i, the other bits from c (R164). -/
def cvtDn (f mode : Nat) (sat : Bool) (i : Nat) (x c : W32) : W32 :=
  w32 (putElt f c.toNat (i % perLane f) (fromF32 f mode sat x.toNat))
/-- VCVT (R164). -/
def effVcvt (g : Guard) (o : CvtOp) (vd : View) (va : VSrc) (n : Nat) (s : State) : State :=
  match o with
  | .up i => s.vput n 4 g vd (fun j => cvtUp s.elt s.rnd i.val (s.src n va j))
  | .dn i vc => s.vput n 4 g vd (fun j => cvtDn s.elt s.rnd s.sat i.val (s.src n va j) (s.src n vc j))

/-- A transcendental of each lane (R162). -/
def State.vmath (s : State) (lam : Nat) (f : Nat → Bool → Nat → Nat) (g : Guard) (vd : View) (va : VSrc) (n : Nat) : State :=
  s.vput n lam g vd (fun j => w32 (f s.rnd s.sat (s.src n va j).toNat))
/-- VEXP2 (R162). -/
def effVexp2 (g : Guard) (vd : View) (va : VSrc) (n : Nat) (s : State) : State := s.vmath 8 fexp2 g vd va n
/-- VLOG2 (R162). -/
def effVlog2 (g : Guard) (vd : View) (va : VSrc) (n : Nat) (s : State) : State := s.vmath 8 flog2F g vd va n
/-- VRCP (R162). -/
def effVrcp (g : Guard) (vd : View) (va : VSrc) (n : Nat) (s : State) : State := s.vmath 8 frcp g vd va n
/-- VRSQ (R162). -/
def effVrsq (g : Guard) (vd : View) (va : VSrc) (n : Nat) (s : State) : State := s.vmath 8 frsq g vd va n
/-- VSIN (R162). -/
def effVsin (g : Guard) (vd : View) (va : VSrc) (n : Nat) (s : State) : State := s.vmath 10 fsin g vd va n
/-- VCOS (R162). -/
def effVcos (g : Guard) (vd : View) (va : VSrc) (n : Nat) (s : State) : State := s.vmath 10 fcos g vd va n

/-! ### Integer (R163) -/

/-- Clamp to int(32). -/
def clampS (v : Int) : W32 := BitVec.ofInt 32 (max (-2147483648) (min 2147483647 v))
/-- Clamp to uint(32). -/
def clampU (v : Int) : W32 := BitVec.ofInt 32 (max 0 (min 4294967295 v))
/-- VIADD on a lane (R163). -/
def laneAdd (k : Nat) (a b : W32) : W32 :=
  if k == 0 then a + b else if k == 1 then clampS (a.toInt + b.toInt) else clampU ((a.toNat : Int) + b.toNat)
/-- VISUB on a lane (R163). -/
def laneSub (k : Nat) (a b : W32) : W32 :=
  if k == 0 then a - b else if k == 1 then clampS (a.toInt - b.toInt) else clampU ((a.toNat : Int) - b.toNat)
/-- VIMUL on a lane (R163). -/
def laneMul (k : Nat) (a b : W32) : W32 :=
  if k == 0 then a * b else if k == 1 then BitVec.ofInt 32 (a.toInt * b.toInt / 2 ^ 32)
  else w32 (a.toNat * b.toNat / 2 ^ 32)
/-- VIADD (R163). -/
def effViadd (g : Guard) (k : Fin 3) (vd : View) (va vb : VSrc) (n : Nat) (s : State) : State :=
  s.vput n 2 g vd (fun j => laneAdd k.val (s.src n va j) (s.src n vb j))
/-- VISUB (R163). -/
def effVisub (g : Guard) (k : Fin 3) (vd : View) (va vb : VSrc) (n : Nat) (s : State) : State :=
  s.vput n 2 g vd (fun j => laneSub k.val (s.src n va j) (s.src n vb j))
/-- VIMUL (R163). -/
def effVimul (g : Guard) (k : Fin 3) (vd : View) (va vb : VSrc) (n : Nat) (s : State) : State :=
  s.vput n 4 g vd (fun j => laneMul k.val (s.src n va j) (s.src n vb j))
/-- VSHL (R163). -/
def effVshl (g : Guard) (vd : View) (va vb : VSrc) (n : Nat) (s : State) : State :=
  s.vput n 2 g vd (fun j => s.src n va j <<< ((s.src n vb j).toNat % 64))
/-- VSHR (R163). -/
def effVshr (g : Guard) (ar : Bool) (vd : View) (va vb : VSrc) (n : Nat) (s : State) : State :=
  s.vput n 2 g vd (fun j =>
    let c := (s.src n vb j).toNat % 64
    if ar then (s.src n va j).sshiftRight c else s.src n va j >>> c)
/-- VAND (R163). -/
def effVand (g : Guard) (vd : View) (va vb : VSrc) (n : Nat) (s : State) : State :=
  s.vput n 2 g vd (fun j => s.src n va j &&& s.src n vb j)
/-- VOR (R163). -/
def effVor (g : Guard) (vd : View) (va vb : VSrc) (n : Nat) (s : State) : State :=
  s.vput n 2 g vd (fun j => s.src n va j ||| s.src n vb j)
/-- VXOR (R163). -/
def effVxor (g : Guard) (vd : View) (va vb : VSrc) (n : Nat) (s : State) : State :=
  s.vput n 2 g vd (fun j => s.src n va j ^^^ s.src n vb j)

/-! ### Packed dots, scaling, quantising (R165 to R167) -/

/-- A packed dot product of one lane with k elements of format f (R167). -/
def dotLane (f k mode : Nat) (sat : Bool) (a b c : W32) : W32 :=
  let es (x : W32) : List Nat := (List.range k).map (laneElt f x.toNat)
  if fInt f then
    BitVec.ofInt 32 (c.toInt + (((es a).zip (es b)).map (fun p => sint (fBits f) p.1 * sint (fBits f) p.2)).foldl (· + ·) 0)
  else w32 (accum mode sat c.toNat (sumProducts (((es a).map (edec f)).zip ((es b).map (edec f)))))
/-- VDOT4 (R167). -/
def effVdot4 (g : Guard) (vd : View) (va vb vc : VSrc) (n : Nat) (s : State) : State :=
  s.vput n 5 g vd (fun j => dotLane s.elt 4 s.rnd s.sat (s.src n va j) (s.src n vb j) (s.src n vc j))
/-- VDOT8 (R167). -/
def effVdot8 (g : Guard) (vd : View) (va vb vc : VSrc) (n : Nat) (s : State) : State :=
  s.vput n 5 g vd (fun j => dotLane s.elt 8 s.rnd s.sat (s.src n va j) (s.src n vb j) (s.src n vc j))

/-- VSCL of a lane (R165). -/
def sclLane (f sh mode : Nat) (sat dv : Bool) (x v : W32) : W32 :=
  let e := v.toNat % 256
  let k0 : Int := if sh = 0 then 0 else (e : Int) - 127
  let k1 := if sh = 1 && f = 8 then k0 - 6 else k0
  let k := if dv then -k1 else k1
  if sh = 1 && e = 0xFF then w32 (genNan 0 2)
  else match fdec 0 x.toNat with
    | .nan _ _ => w32 (quiet 0 x.toNat)
    | .inf _ => x
    | .fin neg m ex => w32 (roundV 0 mode sat neg m (ex + k))
/-- VSCL (R165). -/
def effVscl (g : Guard) (dv : Bool) (vd : View) (va vb : VSrc) (n : Nat) (s : State) : State :=
  s.vput n 4 g vd (fun j => sclLane s.elt (fmtScale s.curSlot.fmt) s.rnd s.sat dv (s.src n va j) (s.src n vb j))

/-- The lanes of a quantised block (R166). -/
def qmxLanes (f sh mode : Nat) (l : List Nat) : List W32 :=
  let b : Nat × List Nat := if sh = 1 then mxBlock f mode l else (0x7F, l.map (fromF32 f mode true))
  let k := perLane f
  let n := 32 / k
  (List.range 32).map (fun j =>
    if j < n then w32 ((List.range k).foldl (fun a i => a + b.2.getD (k * j + i) 0 * 2 ^ (laneStep f * i)) 0)
    else if j = n then w32 b.1 else 0)
/-- VQMX (R166). -/
def effVqmx (g : Guard) (vd : View) (va : VSrc) (n : Nat) (s : State) : State :=
  let act := s.act g
  let l := (List.range 32).map (fun j => if bitOn act j then (s.src n va j).toNat else 0)
  let q := qmxLanes s.elt (fmtScale s.curSlot.fmt) s.rnd l
  s.vput n 6 g vd (fun j => q.getD j 0)

/-! ### Across lanes (R168 to R170) -/

/-- Identity of a reduction (R168). -/
def redId (op : Nat) : W32 :=
  match op with
  | 0 => 0x80000000 | 1 => 0x7F800000 | 2 => 0xFF800000 | 3 => 0 | 4 => 0x7FFFFFFF | 5 => 0x80000000
  | 6 => 0xFFFFFFFF | 7 => 0 | 8 => 0xFFFFFFFF | _ => 0
/-- One step of a reduction (R168). -/
def redOp (op mode : Nat) (sat : Bool) (a b : W32) : W32 :=
  match op with
  | 0 => w32 (fadd 0 mode sat a.toNat b.toNat)
  | 1 => w32 (fminmax 0 false a.toNat b.toNat)
  | 2 => w32 (fminmax 0 true a.toNat b.toNat)
  | 3 => a + b
  | 4 => if a.sle b then a else b
  | 5 => if a.sle b then b else a
  | 6 => if a.ule b then a else b
  | 7 => if a.ule b then b else a
  | 8 => a &&& b
  | 9 => a ||| b
  | _ => a ^^^ b
/-- The running values of a fold over the lanes of `act`: entry j is the value after lane j (R168). -/
def redScan (op mode : Nat) (sat : Bool) (act : W32) (x : Nat → W32) : List W32 :=
  ((List.range 32).foldl (fun (p : W32 × List W32) j =>
    let a := if bitOn act j then redOp op mode sat p.1 (x j) else p.1
    (a, p.2 ++ [a])) (redId op, [])).2
/-- VRED (R168). -/
def effVred (g : Guard) (op : Fin 11) (vd : View) (va : VSrc) (n : Nat) (s : State) : State :=
  let l := redScan op.val s.rnd s.sat (s.act g) (s.src n va)
  s.vput n (if op.val < 3 then 10 else 4) g vd (fun _ => l.getD 31 0)
/-- VSCAN (R168). -/
def effVscan (g : Guard) (op : Fin 11) (vd : View) (va : VSrc) (n : Nat) (s : State) : State :=
  let l := redScan op.val s.rnd s.sat (s.act g) (s.src n va)
  s.vput n (if op.val < 3 then 10 else 4) g vd (fun j => l.getD j 0)
/-- VSHFL (R169). -/
def effVshfl (g : Guard) (mode : ShflMode) (vd : View) (va vb : VSrc) (n : Nat) (s : State) : State :=
  s.vput n 3 g vd (fun j =>
    let k := (s.src n vb j).toNat
    match mode with
    | .idx => s.src n va (k % 32)
    | .up vc => if k % 64 ≤ j then s.src n va (j - k % 64) else s.src n vc j
    | .dn vc => if j + k % 64 < 32 then s.src n va (j + k % 64) else s.src n vc j
    | .xor => s.src n va (j ^^^ k % 32)
    | .rot => s.src n va ((j + k % 32) % 32))
/-- The lowest lane of a mask. -/
def lowLane (m : W32) : Nat := ((List.range 32).find? (bitOn m)).getD 0
/-- VBCAST (R169). -/
def effVbcast (g : Guard) (lane : Option VSrc) (vd : View) (va : VSrc) (n : Nat) (s : State) : State :=
  let l0 := lowLane (s.act g)
  let l := match lane with | none => l0 | some vb => (s.src n vb l0).toNat % 32
  s.vput n 3 g vd (fun _ => s.src n va l)
/-- VBALLOT (R170). -/
def effVballot (g : Guard) (sign : Bool) (vd : View) (va : VSrc) (n : Nat) (s : State) : State :=
  let act := s.act g
  let b := maskOf (fun j => bitOn act j && (if sign then bitOn (s.src n va j) 31 else s.src n va j != 0))
  s.vput n 2 g vd (fun _ => b)
/-- VLANE (R170). -/
def effVlane (g : Guard) (k : Fin 4) (vd : View) (n : Nat) (s : State) : State :=
  let act := s.act g
  s.vput n 2 g vd (fun j =>
    match k.val with
    | 0 => w32 (2 ^ j - 1)
    | 1 => w32 (popc32 (act &&& w32 (2 ^ j - 1)))
    | 2 => w32 (popc32 act)
    | _ => act)

/-! ### The instructions, alone in their bundle (slot 1) -/

/-- VADD. -/
def execVadd (g : Guard) (la : Fin 4) (vd : View) (va vb : VSrc) (s : State) : Out :=
  s.issueSolo (.vadd g la vd va vb) { eff := effVadd g la vd va vb 1 }
/-- VSUB. -/
def execVsub (g : Guard) (la : Fin 4) (vd : View) (va vb : VSrc) (s : State) : Out :=
  s.issueSolo (.vsub g la vd va vb) { eff := effVsub g la vd va vb 1 }
/-- VMUL. -/
def execVmul (g : Guard) (la : Fin 4) (vd : View) (va vb : VSrc) (s : State) : Out :=
  s.issueSolo (.vmul g la vd va vb) { eff := effVmul g la vd va vb 1 }
/-- VFMA. -/
def execVfma (g : Guard) (la neg : Fin 4) (vd : View) (va vb vc : VSrc) (s : State) : Out :=
  s.issueSolo (.vfma g la neg vd va vb vc) { eff := effVfma g la neg vd va vb vc 1 }
/-- VMIN. -/
def execVmin (g : Guard) (la : Fin 4) (vd : View) (va vb : VSrc) (s : State) : Out :=
  s.issueSolo (.vmin g la vd va vb) { eff := effVmin g la vd va vb 1 }
/-- VMAX. -/
def execVmax (g : Guard) (la : Fin 4) (vd : View) (va vb : VSrc) (s : State) : Out :=
  s.issueSolo (.vmax g la vd va vb) { eff := effVmax g la vd va vb 1 }
/-- VABS. -/
def execVabs (g : Guard) (la : Fin 4) (vd : View) (va : VSrc) (s : State) : Out :=
  s.issueSolo (.vabs g la vd va) { eff := effVabs g la vd va 1 }
/-- VNEG. -/
def execVneg (g : Guard) (la : Fin 4) (vd : View) (va : VSrc) (s : State) : Out :=
  s.issueSolo (.vneg g la vd va) { eff := effVneg g la vd va 1 }
/-- VCMP. -/
def execVcmp (g : Guard) (cc : Fin 16) (pd : PReg) (va vb : VSrc) (s : State) : Out :=
  s.issueSolo (.vcmp g cc pd va vb) { eff := effVcmp g cc pd va vb 1 }
/-- VSEL. -/
def execVsel (g : Guard) (vd : View) (va vb : VSrc) (pc : PReg) (s : State) : Out :=
  s.issueSolo (.vsel g vd va vb pc) { eff := effVsel g vd va vb pc 1 }
/-- VMOV. -/
def execVmov (g : Guard) (vd : View) (va : VSrc) (s : State) : Out :=
  s.issueSolo (.vmov g vd va) { eff := effVmov g vd va 1 }
/-- VCVT. -/
def execVcvt (g : Guard) (o : CvtOp) (vd : View) (va : VSrc) (s : State) : Out :=
  s.issueSolo (.vcvt g o vd va) { eff := effVcvt g o vd va 1 }
/-- VEXP2. -/
def execVexp2 (g : Guard) (vd : View) (va : VSrc) (s : State) : Out :=
  s.issueSolo (.vexp2 g vd va) { eff := effVexp2 g vd va 1 }
/-- VLOG2. -/
def execVlog2 (g : Guard) (vd : View) (va : VSrc) (s : State) : Out :=
  s.issueSolo (.vlog2 g vd va) { eff := effVlog2 g vd va 1 }
/-- VRCP. -/
def execVrcp (g : Guard) (vd : View) (va : VSrc) (s : State) : Out :=
  s.issueSolo (.vrcp g vd va) { eff := effVrcp g vd va 1 }
/-- VRSQ. -/
def execVrsq (g : Guard) (vd : View) (va : VSrc) (s : State) : Out :=
  s.issueSolo (.vrsq g vd va) { eff := effVrsq g vd va 1 }
/-- VSIN. -/
def execVsin (g : Guard) (vd : View) (va : VSrc) (s : State) : Out :=
  s.issueSolo (.vsin g vd va) { eff := effVsin g vd va 1 }
/-- VCOS. -/
def execVcos (g : Guard) (vd : View) (va : VSrc) (s : State) : Out :=
  s.issueSolo (.vcos g vd va) { eff := effVcos g vd va 1 }
/-- VIADD. -/
def execViadd (g : Guard) (k : Fin 3) (vd : View) (va vb : VSrc) (s : State) : Out :=
  s.issueSolo (.viadd g k vd va vb) { eff := effViadd g k vd va vb 1 }
/-- VISUB. -/
def execVisub (g : Guard) (k : Fin 3) (vd : View) (va vb : VSrc) (s : State) : Out :=
  s.issueSolo (.visub g k vd va vb) { eff := effVisub g k vd va vb 1 }
/-- VIMUL. -/
def execVimul (g : Guard) (k : Fin 3) (vd : View) (va vb : VSrc) (s : State) : Out :=
  s.issueSolo (.vimul g k vd va vb) { eff := effVimul g k vd va vb 1 }
/-- VSHL. -/
def execVshl (g : Guard) (vd : View) (va vb : VSrc) (s : State) : Out :=
  s.issueSolo (.vshl g vd va vb) { eff := effVshl g vd va vb 1 }
/-- VSHR. -/
def execVshr (g : Guard) (ar : Bool) (vd : View) (va vb : VSrc) (s : State) : Out :=
  s.issueSolo (.vshr g ar vd va vb) { eff := effVshr g ar vd va vb 1 }
/-- VAND. -/
def execVand (g : Guard) (vd : View) (va vb : VSrc) (s : State) : Out :=
  s.issueSolo (.vand g vd va vb) { eff := effVand g vd va vb 1 }
/-- VOR. -/
def execVor (g : Guard) (vd : View) (va vb : VSrc) (s : State) : Out :=
  s.issueSolo (.vor g vd va vb) { eff := effVor g vd va vb 1 }
/-- VXOR. -/
def execVxor (g : Guard) (vd : View) (va vb : VSrc) (s : State) : Out :=
  s.issueSolo (.vxor g vd va vb) { eff := effVxor g vd va vb 1 }
/-- VDOT4. -/
def execVdot4 (g : Guard) (vd : View) (va vb vc : VSrc) (s : State) : Out :=
  s.issueSolo (.vdot4 g vd va vb vc) { eff := effVdot4 g vd va vb vc 1 }
/-- VDOT8. -/
def execVdot8 (g : Guard) (vd : View) (va vb vc : VSrc) (s : State) : Out :=
  s.issueSolo (.vdot8 g vd va vb vc) { eff := effVdot8 g vd va vb vc 1 }
/-- VSCL. -/
def execVscl (g : Guard) (dv : Bool) (vd : View) (va vb : VSrc) (s : State) : Out :=
  s.issueSolo (.vscl g dv vd va vb) { eff := effVscl g dv vd va vb 1 }
/-- VQMX. -/
def execVqmx (g : Guard) (vd : View) (va : VSrc) (s : State) : Out :=
  s.issueSolo (.vqmx g vd va) { eff := effVqmx g vd va 1 }
/-- VRED. -/
def execVred (g : Guard) (op : Fin 11) (vd : View) (va : VSrc) (s : State) : Out :=
  s.issueSolo (.vred g op vd va) { eff := effVred g op vd va 1 }
/-- VSCAN. -/
def execVscan (g : Guard) (op : Fin 11) (vd : View) (va : VSrc) (s : State) : Out :=
  s.issueSolo (.vscan g op vd va) { eff := effVscan g op vd va 1 }
/-- VSHFL. -/
def execVshfl (g : Guard) (mode : ShflMode) (vd : View) (va vb : VSrc) (s : State) : Out :=
  s.issueSolo (.vshfl g mode vd va vb) { eff := effVshfl g mode vd va vb 1 }
/-- VBCAST. -/
def execVbcast (g : Guard) (lane : Option VSrc) (vd : View) (va : VSrc) (s : State) : Out :=
  s.issueSolo (.vbcast g lane vd va) { eff := effVbcast g lane vd va 1 }
/-- VBALLOT. -/
def execVballot (g : Guard) (sign : Bool) (vd : View) (va : VSrc) (s : State) : Out :=
  s.issueSolo (.vballot g sign vd va) { eff := effVballot g sign vd va 1 }
/-- VLANE. -/
def execVlane (g : Guard) (k : Fin 4) (vd : View) (s : State) : Out :=
  s.issueSolo (.vlane g k vd) { eff := effVlane g k vd 1 }

end Sys2Proof.Machine
end

