-- ==== Sys2Proof/Machine/Bundle.lean ====
section
/-! DEFINITION. Issue of a whole bundle: fetch (R56, R78, R79, R332), delta slots (R68, R69), the meanings of its slots taken
together (R61, R372), and BUNDLE_ISSUE (R54, R71). -/

namespace Sys2Proof.Machine

/-! ### Meanings of slots -/

/-- The meaning of an instruction in slot n: that of its own definition, with the slot it stands in. An event has none. -/
def semOf (n : Nat) (i : Instr) : Sem :=
  match i with
  | .nop => { eff := id }
  | .bra _ off => { eff := effBra off }
  | .brc _ cond sa sb off => { eff := effBrc cond sa sb off }
  | .brv g off => { chk := chkBrv g, eff := effBrv g off }
  | .meet _ => { chk := chkMeet, eff := effMeet }
  | .call _ link off => { eff := effCall link off }
  | .ret _ sa => { eff := effRet sa }
  | .loop _ sa off => { eff := effLoop sa off }
  | .exit g => { chk := fun s => chkExit (s.act g) s, eff := effExit g }
  | .braReg _ sa => { eff := effBraReg sa }
  | .callReg _ sd sa => { eff := effCallReg sd sa }
  | .iadd _ sd sa sb => { eff := effIadd sd sa sb }
  | .isub _ sd sa sb => { eff := effIsub sd sa sb }
  | .imul _ sd sa sb => { eff := effImul sd sa sb }
  | .imulh _ k sd sa sb => { eff := effImulh k sd sa sb }
  | .imad _ sd sa sb sc => { eff := effImad sd sa sb sc }
  | .ishl _ sd sa sb => { eff := effIshl sd sa sb }
  | .ishr _ sd sa sb => { eff := effIshr sd sa sb }
  | .isar _ sd sa sb => { eff := effIsar sd sa sb }
  | .iand _ sd sa sb => { eff := effIand sd sa sb }
  | .ior _ sd sa sb => { eff := effIor sd sa sb }
  | .ixor _ sd sa sb => { eff := effIxor sd sa sb }
  | .imin _ u sd sa sb => { eff := effImin u sd sa sb }
  | .imax _ u sd sa sb => { eff := effImax u sd sa sb }
  | .icmp _ cc pd sa sb => { eff := effIcmp cc pd sa sb }
  | .isel _ sd sa sb pc => { eff := effIsel sd sa sb pc }
  | .movs _ o => { eff := effMovs o }
  | .movxToScalar _ signed sd v sa => { eff := effMovxToScalar signed sd v sa }
  | .movxToVector _ v sd sa => { eff := effMovxToVector v sd sa }
  | .bfx _ signed sd sa sb => { eff := effBfx signed sd sa sb }
  | .bfi _ sd sa sb sc => { eff := effBfi sd sa sb sc }
  | .clz _ sd sa => { eff := effClz sd sa }
  | .popc _ sd sa => { eff := effPopc sd sa }
  | .iaddImm _ sd sa x => { eff := effIaddImm sd sa x }
  | .imulImm _ sd sa x => { eff := effImulImm sd sa x }
  | .ishlImm _ sd sa x => { eff := effIshlImm sd sa x }
  | .ishrImm _ sd sa x => { eff := effIshrImm sd sa x }
  | .isarImm _ sd sa x => { eff := effIsarImm sd sa x }
  | .iandImm _ sd sa x => { eff := effIandImm sd sa x }
  | .iorImm _ sd sa x => { eff := effIorImm sd sa x }
  | .ixorImm _ sd sa x => { eff := effIxorImm sd sa x }
  | .iminImm _ u sd sa x => { eff := effIminImm u sd sa x }
  | .imaxImm _ u sd sa x => { eff := effImaxImm u sd sa x }
  | .icmpImm _ cc pd sa x => { eff := effIcmpImm cc pd sa x }
  | .movi _ k sd x => { eff := effMovi k sd x }
  | .lea _ n sd sa x => { eff := effLea n sd sa x }
  | .fmt _ src => { eff := effFmt src }
  | .fmtrd _ sd => { eff := effFmtrd sd }
  | .pmov _ o => { eff := effPmov o }
  | .pand _ pd pa pb => { eff := effPand pd pa pb }
  | .por _ pd pa pb => { eff := effPor pd pa pb }
  | .pnot _ pd pa => { eff := effPnot pd pa }
  | .sys _ sel sd => { eff := effSys sel sd }
  | .trap _ code => { eff := effTrap code }
  | .eret _ => { eff := effEret }
  | .rlbl _ off => { eff := effRlbl off }
  | .quota _ recv n => { chk := chkQuota recv n, hold := holdQuota n, eff := effQuota recv n }
  | .yield _ => { eff := effYield }
  | .waitc _ ctr n => { chk := chkWaitc ctr, hold := holdWaitc ctr n, eff := id }
  | .vadd g la vd va vb => { eff := effVadd g la vd va vb n }
  | .vsub g la vd va vb => { eff := effVsub g la vd va vb n }
  | .vmul g la vd va vb => { eff := effVmul g la vd va vb n }
  | .vfma g la neg vd va vb vc => { eff := effVfma g la neg vd va vb vc n }
  | .vmin g la vd va vb => { eff := effVmin g la vd va vb n }
  | .vmax g la vd va vb => { eff := effVmax g la vd va vb n }
  | .vabs g la vd va => { eff := effVabs g la vd va n }
  | .vneg g la vd va => { eff := effVneg g la vd va n }
  | .vcmp g cc pd va vb => { eff := effVcmp g cc pd va vb n }
  | .vsel g vd va vb pc => { eff := effVsel g vd va vb pc n }
  | .vmov g vd va => { eff := effVmov g vd va n }
  | .vcvt g o vd va => { eff := effVcvt g o vd va n }
  | .vexp2 g vd va => { eff := effVexp2 g vd va n }
  | .vlog2 g vd va => { eff := effVlog2 g vd va n }
  | .vrcp g vd va => { eff := effVrcp g vd va n }
  | .vrsq g vd va => { eff := effVrsq g vd va n }
  | .vsin g vd va => { eff := effVsin g vd va n }
  | .vcos g vd va => { eff := effVcos g vd va n }
  | .viadd g k vd va vb => { eff := effViadd g k vd va vb n }
  | .visub g k vd va vb => { eff := effVisub g k vd va vb n }
  | .vimul g k vd va vb => { eff := effVimul g k vd va vb n }
  | .vshl g vd va vb => { eff := effVshl g vd va vb n }
  | .vshr g ar vd va vb => { eff := effVshr g ar vd va vb n }
  | .vand g vd va vb => { eff := effVand g vd va vb n }
  | .vor g vd va vb => { eff := effVor g vd va vb n }
  | .vxor g vd va vb => { eff := effVxor g vd va vb n }
  | .vdot4 g vd va vb vc => { eff := effVdot4 g vd va vb vc n }
  | .vdot8 g vd va vb vc => { eff := effVdot8 g vd va vb vc n }
  | .vscl g dv vd va vb => { eff := effVscl g dv vd va vb n }
  | .vqmx g vd va => { eff := effVqmx g vd va n }
  | .vred g op vd va => { eff := effVred g op vd va n }
  | .vscan g op vd va => { eff := effVscan g op vd va n }
  | .vshfl g mode vd va vb => { eff := effVshfl g mode vd va vb n }
  | .vbcast g lane vd va => { eff := effVbcast g lane vd va n }
  | .vballot g sign vd va => { eff := effVballot g sign vd va n }
  | .vlane g k vd => { eff := effVlane g k vd n }
  | .ld g sp sz sx vd an vo disp => let x := loadOp g sp sz an vo disp true; { chk := chkLoad x, hold := holdLoad x, banks := accBanks x, eff := effLoad x sx vd }
  | .st g sp sz vd an vo disp => let x := storeOp g sp sz an vo disp true; { chk := chkStore x, hold := holdStore x, eff := effStore x vd }
  | .ldx g sp sz sx vd an vo disp => let x := loadOp g sp sz an vo disp false; { chk := chkLoad x, hold := holdLoad x, banks := accBanks x, eff := effLoad x sx vd }
  | .stx g sp sz vd an vo disp => let x := storeOp g sp sz an vo disp false; { chk := chkStore x, hold := holdStore x, eff := effStore x vd }
  | .atom g shared b64 op vd an vo disp => let x := atomOp g shared b64 an vo disp; { chk := chkAtom x, hold := holdAtom x, banks := accBanks x, eff := effAtom x op.val vd }
  | .atomfAdd g shared vd an vo disp => let x := atomOp g shared false an vo disp; { chk := chkAtom x, hold := holdAtomf x, banks := accBanks x, eff := effAtomf x vd }
  | .atomfAddX g vd an vo disp => let x := atomOp g false false an vo disp; { chk := chkAtomfX x, hold := holdAtomf x, eff := effAtomfX x vd }
  | .settle g vd an vo disp => let x := atomOp g false false an vo disp; { chk := chkLoad x, hold := holdAtom x, eff := effSettle x vd }
  | .fence _ => { eff := effFence }
  | .xlate _ nf an sa => { chk := chkXlate nf sa, eff := effXlate an sa }
  | .probe g sz vd an vo disp => let x := probeOp g sz.bytes an vo disp; { chk := chkProbe x, eff := effProbe x vd }
  | .pref g l2 an vo disp => let x := probeOp g 1 an vo disp; { chk := chkPref x, hold := holdPref x, eff := effPref x l2 }
  | .clean _ r => { chk := chkRange r, eff := effClean r }
  | .inval _ r => { chk := chkRange r, eff := effInval r }
  | .mma g o => { chk := chkMma false o, hold := holdMma false o, banks := banksMma false o, eff := effMma false (.mma g o) o }
  | .mmag g o => { chk := chkMma true o, hold := holdMma true o, banks := banksMma true o, eff := effMma true (.mmag g o) o }
  | .accz g bank m1 n1 => { hold := holdAccz bank, eff := effAccz (.accz g bank m1 n1) bank m1 n1 }
  | .accrd g o => { chk := chkAccrd o, hold := holdAccrd o, banks := fun _ => [120 + o.bank.val], eff := effAccrd (.accrd g o) o }
  | .mxld g sw sW sF n1 nb => { chk := chkMxld sw sW sF n1 nb, hold := holdMxld sw sW sF n1 nb, banks := banksMxld sw sW sF n1 nb, eff := effMxld (.mxld g sw sW sF n1 nb) sw sW sF n1 nb }
  | .copy g o => { chk := chkCopy o, hold := holdCopy o, banks := fun s => s.cpSrcBanks o (s.copyArgs o), eff := effCopy (.copy g o) o }
  | .sort g o => { chk := chkSort o, hold := fun s => s.sortHold (sortArrays o (s.sortArgs o)), banks := fun s => s.sortReads (sortArrays o (s.sortArgs o)), eff := fun s => s.sortAccept (.sort g o) (s.sortArgs o) }
  | .merge g o => { chk := chkMerge o, hold := fun s => s.sortHold (mergeArrays o (s.mergeArgs o)), banks := fun s => s.sortReads (mergeArrays o (s.mergeArgs o)), eff := fun s => s.sortAccept (.merge g o) (s.mergeArgs o) }
  | .ordw g sR sQ m i => { chk := chkOrd sR sQ, hold := holdOrdw sR sQ, eff := effOrdw (.ordw g sR sQ m i) sR sQ m.val i.val }
  | .ordd _ sR sQ => { chk := chkOrd sR sQ, hold := holdOrdd, eff := effOrdd sR sQ }
  | .fork _ sL => { chk := chkFork sL, hold := holdFork sL, eff := effFork sL }
  | .join _ => { chk := chkInline, hold := holdJoin, eff := effJoin }
  | .spawn _ sL => { chk := chkSpawn sL, hold := holdCtr6, eff := effSpawn sL }
  | .taskend _ => { eff := effTaskend }
  | .launch _ sD sL => { chk := chkLaunch sL, hold := holdCtr6, eff := effLaunch sD sL }
  | .qpushT _ sL n => { chk := chkQpushT sL n, hold := holdCtr6, eff := effQpushT sL n }
  | .qpushRBuffer _ n sA => { chk := chkQpushA n sA, hold := holdQpushA n sA, banks := fun s => s.pushSrc n.val sA, eff := effQpushA n sA }
  | .qpushRRegister _ n m i => { chk := chkQpushR n, hold := holdQpushR n, eff := effQpushReg n m i }
  | .qcfgRd _ sD sel => { eff := effQcfgRd sD sel }
  | .qcfgRq _ n sC => { chk := chkQcfgRq n sC, hold := holdQcfgRq n, eff := effQcfgRq n sC }
  | .rget _ full sD ring sS => { chk := chkRing ring 0x27, hold := holdRget full ring sS, eff := effRget sD ring sS }
  | .rput _ ring sS => { chk := chkRing ring 0x28, eff := effRput ring sS }
  | .dictld _ sD sI n => { chk := chkDict n.val, eff := effDictld sD sI n.val }
  | .dictinv _ n => { chk := chkDict n.val, eff := effDictinv n.val }
  | .tlbinv _ sV sB sR => { chk := chkTlbinv sB, eff := effTlbinv sV sB sR }
  | .tlbinvRoot _ sR => { eff := effTlbinvRoot sR }
  | .tlbinvAll _ => { eff := effTlbinvAll }
  | .tstld _ sD sI => { hold := holdTstld, eff := effTstld sD sI }
  | .classWr _ sI sV => { chk := chkClassWr sI sV, eff := effClassWr sI sV }
  | .classMv _ sQ sC => { chk := chkClassMv sQ, eff := effClassMv sQ sC }
  | .classRd _ sD sI => { eff := effClassRd sD sI }
  | .bar _ => { chk := chkBar, eff := effBar }
  | .barWeave _ => { chk := chkBarWeave, eff := effBarWeave }
  | .barNet _ b sC => { chk := chkBarNet b.val sC, hold := holdBarNet b.val, eff := effBarNet b.val sC }
  | .semaddI _ n k t => { chk := chkSemadd t, eff := effSemadd n.val k.val t }
  | .semadd _ n sV t => { chk := chkSemadd t, eff := fun s => effSemadd n.val (fld (s.sr sV.val).toNat 0 32) t s }
  | .semwaitDec _ n k => { hold := holdSemwait n.val k.val, eff := effSemwait n.val k.val }
  | .semwaitGe _ n k => { hold := holdSemwait n.val k.val, eff := effSemwait n.val 0 }
  | .wpwait _ ch sV => { hold := holdWpwait ch.val sV, eff := id }
  | .wpwaitRd _ sD ch => { eff := effWpwaitRd sD ch.val }
  | .stepend _ => { chk := chkStepend, eff := effStepend }
  | .govrd _ sel sD sL => { eff := effGovrd sel.val sD sL }
  | .cntrd _ sD sel => { eff := effCntrd sD sel.val }
  | .cntclr _ n => { eff := effCntclr n.val }
  | .cntclrSnap _ => { eff := effCntclrSnap }
  | .cntclrRoll _ => { eff := effCntclrRoll }
  | .cntclrFree _ => { eff := effCntclrFree }
  | .enrd _ sD sel => { eff := effEnrd sD sel.val }
  | .qrfeed g bf lg sx sy sz n h => (rotSem (.qrfeed g bf lg sx sy sz n h))
  | .qrapplySt g sx sy k n => (rotSem (.qrapplySt g sx sy k n))
  | .qrapplyLog g sx sy sz k h n => (rotSem (.qrapplyLog g sx sy sz k h n))
  | .qrread g b a sx m => (rotSem (.qrread g b a sx m))
  | .qrreadSt g sx => (rotSem (.qrreadSt g sx))
  | .qrzero g => (rotSem (.qrzero g))
  | .qrgainImm g => (rotSem (.qrgainImm g))
  | .qrgainDef g => (rotSem (.qrgainDef g))
  | .angout g rad m i => (rotSem (.angout g rad m i))
  | .angin g rad m i => (anginSem g rad m i)
  | .grot g e sx sy p h => (rotSem (.grot g e sx sy p h))
  | .rast g m sv sc st => { hold := holdGfx, eff := effRast (.rast g m sv sc st) sv sc st }
  | .trace g mO mI sr sf st => { chk := chkTrace mO st, hold := holdTrace mO st, eff := effTrace (.trace g mO mI sr sf st) g mO mI sr sf st }
  | .texs g mO mI sh sl => (texSem (.texs g mO mI sh sl) g (texsOp mI sh sl))
  | .texg g ch mO mI sh => (texSem (.texg g ch mO mI sh) g (texgOp ch mI sh))
  | _ => { eff := id }

/-- Does an instruction replace the running stream of its group, so that slot 0 acts before it: an inline FORK, TASKEND
(R37, R323)? -/
def replacesStream (i : Instr) : Bool :=
  match i with
  | .fork _ _ | .taskend _ => true
  | _ => false
/-- The order in which the slots of a bundle take effect: slot 0, which moves the stream, after the others (log 23). -/
def effOrder (l : List SlotI) : List SlotI :=
  let late := l.filter (fun p => replacesStream p.2)
  l.filter (fun p => p.1 != 0 && !(replacesStream p.2)) ++ l.filter (fun p => p.1 == 0) ++ late
/-- The meaning of the slots of a bundle together: the checks from slot 0 to slot 4 (R372 item 7), the holds of all, the
effects of those that act. -/
def bundleSem (l : List SlotI) : Sem :=
  match l with
  | [(n, i)] => (semOf n i).gated l n i
  | _ =>
    { chk := fun s => Chk.first (l.map (fun p => ((semOf p.1 p.2).gated l p.1 p.2).chk s))
      hold := fun s => l.foldl (fun a p => let r := ((semOf p.1 p.2).gated l p.1 p.2).hold a.2; (a.1 || r.1, r.2)) (false, s)
      banks := fun s => l.flatMap (fun p => ((semOf p.1 p.2).gated l p.1 p.2).banks s)
      eff := fun s => ((effOrder l).filter (fun p => s.acts p.2)).foldl (fun s p => (semOf p.1 p.2).eff s) s }

/-! ### Fetch (R56, R78, R79, R332) -/

/-- The dictionary of a stream, empty where its slot is. -/
def State.streamDict (s : State) : Dict :=
  s.curDict.getD { va := 0, frames := [], count := 0, segLen := 0, tile := false, role := 1, priv := false, pool := [] }
/-- The code segment VA of the issuing stream (R310): in a handler the segment that the loader placed with the handler's
dictionary, or the stream's own where it placed none (log 14). -/
def State.codeSeg (s : State) : Nat :=
  if s.curGrp.inHandler then (kget s.curGrp.dict s.segs).getD s.curGrp.seg else s.curGrp.seg
/-- Byte of the code segment at a VA that translates, as its home slice gives it, and what reading it does there: open exact-sum words
settle (R216). -/
def State.codeByte (s : State) (va : Nat) : Byte × State :=
  let s := if s.exact.isEmpty then s else s.settleWalk (coreDie s.cur.core) s.root (va % 2 ^ 56)
  match s.lookup s.cur.core s.root (va % 2 ^ 56) with
  | some (.ok (leaf, size)) => (let r := s.homeRead (leafPa leaf size (va % 2 ^ 56)) 1 (leafType leaf); (r.1.getD 0 0, r.2))
  | _ => (0, s)
/-- n bytes of the code segment at a VA that translates. -/
def State.codeBytes (s : State) (va n : Nat) : List Byte := (List.range n).map (fun i => (s.codeByte (va + i)).1)
/-- What reading n bytes of the code segment does at their homes (R216, R244). -/
def State.touchCode (s : State) (va n : Nat) : State := (List.range n).foldl (fun s i => (s.codeByte (va + i)).2) s
/-- The physical address of a byte of the code segment. -/
def State.codePa (s : State) (va : Nat) : Nat :=
  match s.lookup s.cur.core s.root (va % 2 ^ 56) with
  | some (.ok (leaf, size)) => leafPa leaf size (va % 2 ^ 56)
  | _ => 0
/-- The check of a fetch of [va, va+n): execute permission, and uncorrectable errors (R219, R373). -/
def State.fetchChk (s : State) (va n : Nat) : Chk :=
  match s.rangeChk 7 va n .x with
  | .ok =>
    (match (List.range n).findSome? (fun i => s.badAt (s.codePa (va + i)) 1) with
     | some pa => .trap (trapOf 0x14 7 0 s.curSlot.pc.toNat pa 0)
     | none => .ok)
  | c => c
/-- An illegal-bundle trap of a fetch, with where = 7 (R373). -/
def fetchTrap (code idx : Nat) : TrapInfo := trapOf 0x01 7 0 (rejectWord code 7 idx 0) 0 0
/-- The trap of a bundle that fails validation: its R76 word (R78, R331). -/
def wordTrap (w : Nat) : TrapInfo := trapOf 0x01 (fld w 8 3) 0 w 0 0

/-- What a fetch comes to: a check that stops it, a fill or a literal's extra clk still to wait for under a key, or a bundle
with its length and entry index. -/
inductive Fetch where
  | stop (c : Chk)
  | wait (key : Nat)
  | bundle (b len idx : Nat)
deriving DecidableEq, Repr

/-- The key under which a literal's extra fetch clk are counted (R79): it lies above every cache key. -/
def State.litKey (s : State) : Nat := 2 ^ 40 + (s.cur.gid * 2 + s.cur.slot) * 2 ^ 32 + s.curSlot.pc.toNat
/-- Is a wait under a key over: a literal's clk have passed? -/
def State.litReady (s : State) : Bool := s.curCore.dwait.any (fun p => p.1 == s.litKey && p.2.1 ≤ s.curCore.clk)
/-- A bundle image that fails the checks of R78 stops its fetch. -/
def Fetch.checked (role : Role) (priv : Bool) (b len idx : Nat) : Fetch :=
  match checkBundle role priv idx b with
  | some w => .stop (.trap (wordTrap w))
  | none => .bundle b len idx
/-- The uncorrectable error of an entry of a dictionary that a fill would meet, for the stream that fetches it (R207, R373). -/
def State.dictErr (s : State) (d : Dict) (h : Nat) : Option Nat := (List.range 48).findSome? (fun i => s.badAt (d.bytePa (256 + 48 * h + i)) 1)
/-- Fetch by the halfword h at pc (R56). -/
def State.fetchBy (s : State) (d : Dict) (pc h : Nat) : Fetch :=
  let g := s.curGrp
  if h < d.count && h < 0xFF00 then
    match kget (g.dict * 65536 + h) s.curCore.dcache with
    | some b => Fetch.checked g.role d.priv (leNat b) 2 h
    | none =>
      match s.dictErr d h with
      | some pa => .stop (.trap (trapOf 0x14 7 0 s.curSlot.pc.toNat pa 0))
      | none => .wait (g.dict * 65536 + h)
  else if h < 0xFF00 then .stop (.trap (fetchTrap 0x11 h))
  else if h != 0xFFFE then .stop (.trap (fetchTrap 0x10 h))
  else if d.segLen < pc + 50 then .stop (.trap (fetchTrap 0x12 h))
  else match s.fetchChk ((s.codeSeg + pc) % 2 ^ 56) 50 with
    | .ok => if s.litReady then Fetch.checked g.role d.priv (leNat (s.codeBytes (s.codeSeg + pc + 2) 48)) 50 0xFFFF else .wait s.litKey
    | c => .stop c
/-- Fetch at the PC of the issuing stream (R56). -/
def State.fetch (s : State) : Fetch :=
  let d := s.streamDict
  let pc := s.curSlot.pc.toNat
  if d.segLen < pc + 2 then .stop (.trap (fetchTrap 0x13 (pc / 2 % 65536)))
  else
    let va := (s.codeSeg + pc) % 2 ^ 56
    match s.fetchChk va 2 with
    | .ok => s.fetchBy d pc (leNat (s.codeBytes va 2))
    | c => .stop c
/-- What the fetch of the halfword at the PC, and of the literal behind an escape, does at the home slices (R216, R244), and the
core-TLB misses that it meets (R369). -/
def State.fetched (s : State) : State :=
  let va := s.codeSeg + s.curSlot.pc.toNat
  let h := leNat (s.codeBytes va 2)
  (s.noteMisses s.cur.core s.root [va % 2 ^ 56]).touchCode va (if h = 0xFFFE then 50 else 2)
/-- Wait for a fill of the dictionary cache, which takes at least one clk and its way over the bridge (R13, R332, log 5), or the two clk
of a literal (R79). -/
def State.fetchWait (s : State) (key : Nat) : State :=
  if s.curCore.dwait.any (fun p => p.1 == key) then s
  else
    let clk := s.curCore.clk
    let n := if 2 ^ 40 ≤ key then 2 else 1 + Config.latency s.free
    let s := if 2 ^ 40 ≤ key then s else s.bump s.cur.core 7 1
    let wall := if 2 ^ 40 ≤ key then 0 else s.homeTicks (coreDie s.cur.core) (s.streamDict.bytePa (256 + 48 * (key % 65536)))
    let tick := if wall = 0 then 0 else s.now + s.period s.cur.core + wall
    { (s.modC (fun c => { c with dwait := c.dwait ++ [(key, clk + n, tick)] })) with free := s.free + 1 }

/-! ### Delta slots (R68, R69) -/

/-- The effective images of the five slots, or the slot at which a delta traps, from slot i on. -/
def effImages (iss : Role) (priv : Bool) (b : Nat) (bases : List Nat) : Nat → Nat → Except Nat (List Nat)
  | _, 0 => .ok []
  | i, k + 1 =>
    let w := slotImg b i
    let base := bases.getD i 0
    if bitN (hdrImg b) i && deltaBad iss priv (hdrScope (hdrImg b)) (Cls.ofSlot i) base w then .error i
    else
      let e := if bitN (hdrImg b) i then effSlot (Cls.ofSlot i) base w else w
      match effImages iss priv b bases (i + 1) k with
      | .ok l => .ok (e :: l)
      | .error j => .error j
/-- The slots other than NOP of a bundle, as instructions. -/
def slotsOf (es : List Nat) : List SlotI :=
  (((List.range 5).zip es).filter (fun p => p.2 != 0)).map (fun p => (p.1, buildSlot (Cls.ofSlot p.1) p.2))

/-- Issue a fetched bundle. -/
def State.issueBundle (s : State) (b len idx : Nat) : State :=
  match effImages s.curGrp.role s.priv b s.curSlot.bases 0 5 with
  | .error i => s.takeTrap (trapOf 0x01 i 0 (rejectWord 0x09 i idx (fld (slotImg b i) 0 8)) 0 0)
  | .ok es =>
    let s := { s with cur := { s.cur with hdr := hdrImg b, tail := tailImg b, len := len, idx := idx, imgs := es, hand := none, pops := [] } }
    s.issueWith (slotsOf es) (bundleSem (slotsOf es))

/-! ### BUNDLE_ISSUE -/

/-- A bundle of a group in the debugger's step has issued, or a trap has been taken: the group stops again (R388). -/
def State.afterStep (old s : State) (core gid : Nat) : State :=
  if old.dbg.any (fun d => d.core == core && d.gid == gid && d.stepping)
      && ((s.core core).issued != (old.core core).issued || (s.group core gid).inHandler != (old.group core gid).inHandler
          || (s.group core gid).halt != .none) then
    let s := s.dbgStop core (s.dbgGroups core gid)
    { s with dbg := s.dbg.map (fun (d : DebugStop) => if d.core == core && d.gid == gid then { d with stepping := false } else d) }.sched
      [.debugStopComplete core gid]
  else s
/-- The literal waits of a stream end when it issues, and it has used the leaves that no TLB holds. -/
def Core.endLit (c0 : Core) (gid slot : Nat) : Core :=
  let c := c0.endServed (gid * 2 + slot)
  if c.dwait.isEmpty then c
  else { c with dwait := c.dwait.filter (fun p => !(2 ^ 40 ≤ p.1 && (p.1 - 2 ^ 40) / 2 ^ 32 == gid * 2 + slot)) }
/-- The issue of a stream that may issue: a deferred fault first (R372 item 1), then the fetch, then the bundle. -/
def State.issueStream (s : State) : State :=
  match s.dueTrap with
  | some t => s.serveDeferred t
  | none =>
    match s.fetch with
    | .stop (.trap t) => (s.onTrap t).takeTrap t
    | .stop (.suspend va a) => s.suspendPage va a
    | .stop (.walk vas) => vas.foldl (fun s va => s.askWalk s.cur.core s.root va) s
    | .stop .ok => s
    | .wait key => s.fetched.fetchWait key
    | .bundle b len idx => s.fetched.issueBundle b len idx
/-- The machine in which a stream is about to issue. -/
def State.at_ (s : State) (core gid slot : Nat) : State := { s with cur := { Cur.none with core := core, gid := gid, slot := slot } }
/-- Would a stream that may issue now be stopped by a fault or trap: does its issue enter a handler, or escalate (R375, R378)? -/
def State.trapsNow (s : State) (core gid slot : Nat) : Bool :=
  s.mayIssue core gid slot && !((s.group core gid).slot slot).skip &&
    (let t := (s.at_ core gid slot).issueStream
     (t.group core gid).inHandler != (s.group core gid).inHandler && (t.group core gid).inHandler
       || ((t.group core gid).halt == .stopped && (s.group core gid).halt != .stopped))
/-- Does a role group that is still to issue in this clk freeze the tile in it (R376)? The freeze takes effect in this clk, so that no
other role group issues in it. -/
def State.freezeAhead (s : State) (core gid : Nat) : Bool :=
  !(isShader core) && s.agenda.any (fun i => match i with
    | .bundleIssue c g sl => c == core && g != gid && s.trapsNow core g sl
    | _ => false)
/-- BUNDLE_ISSUE: the stream tries to issue its next bundle. A stream that has yielded gives up its place in the round
(R150): its next turn, whenever it comes, is the one it gives up, since the spec says no more than "the next round". DESIGN CHOICE,
log 69. -/
def execBundleIssue (core gid slot : Nat) (s : State) : Out :=
  if !(s.mayIssue core gid slot) then .next s
  else
    let s := s.at_ core gid slot
    if s.curSlot.skip then .next (s.modS (fun p => { p with skip := false }))
    else if s.freezeAhead core gid && !(s.trapsNow core gid slot) then .next s
    else
      let t := s.issueStream
      let t := if (t.core core).issued != (s.core core).issued then t.modCore core (fun c => c.endLit gid slot) else t
      .next (s.afterStep t core gid)
/-- DEBUG_STOP (R388): at a bundle boundary. A fault that a stream of the group would take in this clk is taken first, and the stop takes
effect at the handler's first bundle boundary. A quad that is OFF is woken (R403). -/
def execDebugStop (core gid : Nat) (s : State) : Out :=
  if (kget gid (s.core core).groups).isNone then .next (s.sched [.quadWakeRequest (coreDie core) (coreQuad core)])
  else
    let s : State := match (List.range 2).find? (s.trapsNow core gid) with
      | some slot => (s.at_ core gid slot).issueStream
      | none => s
    let s := s.dbgStop core (s.dbgGroups core gid)
    let d : DebugStop := { core := core, gid := gid, stepping := false, reported := false }
    .next ({ s with dbg := s.dbg.filter (fun (x : DebugStop) => !(x.core == core && x.gid == gid)) ++ [d] }.sched [.debugStopComplete core gid])

end Sys2Proof.Machine
end

