-- ==== Sys2Proof/Machine/Dispatch.lean ====
section
/-! DEFINITION. The dispatch of a step to its meaning: one arm per constructor. -/

namespace Sys2Proof.Machine

/-- Execute one step of the device: an instruction alone in its bundle, issued by the stream of `cur`, or an event. -/
def exec (i : Instr) (s : State) : Host.Outcome State Fault Refusal :=
  match i with
  | .nop => Sys2Proof.Machine.execNop s
  | .bra g off => Sys2Proof.Machine.execBra g off s
  | .brc g cond sa sb off => Sys2Proof.Machine.execBrc g cond sa sb off s
  | .brv g off => Sys2Proof.Machine.execBrv g off s
  | .meet g => Sys2Proof.Machine.execMeet g s
  | .call g link off => Sys2Proof.Machine.execCall g link off s
  | .ret g sa => Sys2Proof.Machine.execRet g sa s
  | .loop g sa off => Sys2Proof.Machine.execLoop g sa off s
  | .exit g => Sys2Proof.Machine.execExit g s
  | .braReg g sa => Sys2Proof.Machine.execBraReg g sa s
  | .callReg g sd sa => Sys2Proof.Machine.execCallReg g sd sa s
  | .iadd g sd sa sb => Sys2Proof.Machine.execIadd g sd sa sb s
  | .isub g sd sa sb => Sys2Proof.Machine.execIsub g sd sa sb s
  | .imul g sd sa sb => Sys2Proof.Machine.execImul g sd sa sb s
  | .imulh g k sd sa sb => Sys2Proof.Machine.execImulh g k sd sa sb s
  | .imad g sd sa sb sc => Sys2Proof.Machine.execImad g sd sa sb sc s
  | .ishl g sd sa sb => Sys2Proof.Machine.execIshl g sd sa sb s
  | .ishr g sd sa sb => Sys2Proof.Machine.execIshr g sd sa sb s
  | .isar g sd sa sb => Sys2Proof.Machine.execIsar g sd sa sb s
  | .iand g sd sa sb => Sys2Proof.Machine.execIand g sd sa sb s
  | .ior g sd sa sb => Sys2Proof.Machine.execIor g sd sa sb s
  | .ixor g sd sa sb => Sys2Proof.Machine.execIxor g sd sa sb s
  | .imin g u sd sa sb => Sys2Proof.Machine.execImin g u sd sa sb s
  | .imax g u sd sa sb => Sys2Proof.Machine.execImax g u sd sa sb s
  | .icmp g cc pd sa sb => Sys2Proof.Machine.execIcmp g cc pd sa sb s
  | .isel g sd sa sb pc => Sys2Proof.Machine.execIsel g sd sa sb pc s
  | .movs g o => Sys2Proof.Machine.execMovs g o s
  | .movxToScalar g signed sd v sa => Sys2Proof.Machine.execMovxToScalar g signed sd v sa s
  | .movxToVector g v sd sa => Sys2Proof.Machine.execMovxToVector g v sd sa s
  | .bfx g signed sd sa sb => Sys2Proof.Machine.execBfx g signed sd sa sb s
  | .bfi g sd sa sb sc => Sys2Proof.Machine.execBfi g sd sa sb sc s
  | .clz g sd sa => Sys2Proof.Machine.execClz g sd sa s
  | .popc g sd sa => Sys2Proof.Machine.execPopc g sd sa s
  | .iaddImm g sd sa imm => Sys2Proof.Machine.execIaddImm g sd sa imm s
  | .imulImm g sd sa imm => Sys2Proof.Machine.execImulImm g sd sa imm s
  | .ishlImm g sd sa imm => Sys2Proof.Machine.execIshlImm g sd sa imm s
  | .ishrImm g sd sa imm => Sys2Proof.Machine.execIshrImm g sd sa imm s
  | .isarImm g sd sa imm => Sys2Proof.Machine.execIsarImm g sd sa imm s
  | .iandImm g sd sa imm => Sys2Proof.Machine.execIandImm g sd sa imm s
  | .iorImm g sd sa imm => Sys2Proof.Machine.execIorImm g sd sa imm s
  | .ixorImm g sd sa imm => Sys2Proof.Machine.execIxorImm g sd sa imm s
  | .iminImm g u sd sa imm => Sys2Proof.Machine.execIminImm g u sd sa imm s
  | .imaxImm g u sd sa imm => Sys2Proof.Machine.execImaxImm g u sd sa imm s
  | .icmpImm g cc pd sa imm => Sys2Proof.Machine.execIcmpImm g cc pd sa imm s
  | .movi g k sd imm => Sys2Proof.Machine.execMovi g k sd imm s
  | .lea g n sd sa imm => Sys2Proof.Machine.execLea g n sd sa imm s
  | .fmt g src => Sys2Proof.Machine.execFmt g src s
  | .fmtrd g sd => Sys2Proof.Machine.execFmtrd g sd s
  | .pmov g o => Sys2Proof.Machine.execPmov g o s
  | .pand g pd pa pb => Sys2Proof.Machine.execPand g pd pa pb s
  | .por g pd pa pb => Sys2Proof.Machine.execPor g pd pa pb s
  | .pnot g pd pa => Sys2Proof.Machine.execPnot g pd pa s
  | .sys g sel sd => Sys2Proof.Machine.execSys g sel sd s
  | .trap g code => Sys2Proof.Machine.execTrap g code s
  | .eret g => Sys2Proof.Machine.execEret g s
  | .rlbl g off => Sys2Proof.Machine.execRlbl g off s
  | .quota g recv n => Sys2Proof.Machine.execQuota g recv n s
  | .yield g => Sys2Proof.Machine.execYield g s
  | .waitc g ctr n => Sys2Proof.Machine.execWaitc g ctr n s
  | .vadd g la vd va vb => Sys2Proof.Machine.execVadd g la vd va vb s
  | .vsub g la vd va vb => Sys2Proof.Machine.execVsub g la vd va vb s
  | .vmul g la vd va vb => Sys2Proof.Machine.execVmul g la vd va vb s
  | .vfma g la neg vd va vb vc => Sys2Proof.Machine.execVfma g la neg vd va vb vc s
  | .vmin g la vd va vb => Sys2Proof.Machine.execVmin g la vd va vb s
  | .vmax g la vd va vb => Sys2Proof.Machine.execVmax g la vd va vb s
  | .vabs g la vd va => Sys2Proof.Machine.execVabs g la vd va s
  | .vneg g la vd va => Sys2Proof.Machine.execVneg g la vd va s
  | .vcmp g cc pd va vb => Sys2Proof.Machine.execVcmp g cc pd va vb s
  | .vsel g vd va vb pc => Sys2Proof.Machine.execVsel g vd va vb pc s
  | .vmov g vd va => Sys2Proof.Machine.execVmov g vd va s
  | .vcvt g o vd va => Sys2Proof.Machine.execVcvt g o vd va s
  | .vexp2 g vd va => Sys2Proof.Machine.execVexp2 g vd va s
  | .vlog2 g vd va => Sys2Proof.Machine.execVlog2 g vd va s
  | .vrcp g vd va => Sys2Proof.Machine.execVrcp g vd va s
  | .vrsq g vd va => Sys2Proof.Machine.execVrsq g vd va s
  | .vsin g vd va => Sys2Proof.Machine.execVsin g vd va s
  | .vcos g vd va => Sys2Proof.Machine.execVcos g vd va s
  | .viadd g k vd va vb => Sys2Proof.Machine.execViadd g k vd va vb s
  | .visub g k vd va vb => Sys2Proof.Machine.execVisub g k vd va vb s
  | .vimul g k vd va vb => Sys2Proof.Machine.execVimul g k vd va vb s
  | .vshl g vd va vb => Sys2Proof.Machine.execVshl g vd va vb s
  | .vshr g ar vd va vb => Sys2Proof.Machine.execVshr g ar vd va vb s
  | .vand g vd va vb => Sys2Proof.Machine.execVand g vd va vb s
  | .vor g vd va vb => Sys2Proof.Machine.execVor g vd va vb s
  | .vxor g vd va vb => Sys2Proof.Machine.execVxor g vd va vb s
  | .vdot4 g vd va vb vc => Sys2Proof.Machine.execVdot4 g vd va vb vc s
  | .vdot8 g vd va vb vc => Sys2Proof.Machine.execVdot8 g vd va vb vc s
  | .vscl g div vd va vb => Sys2Proof.Machine.execVscl g div vd va vb s
  | .vqmx g vd va => Sys2Proof.Machine.execVqmx g vd va s
  | .vred g op vd va => Sys2Proof.Machine.execVred g op vd va s
  | .vscan g op vd va => Sys2Proof.Machine.execVscan g op vd va s
  | .vshfl g mode vd va vb => Sys2Proof.Machine.execVshfl g mode vd va vb s
  | .vbcast g lane vd va => Sys2Proof.Machine.execVbcast g lane vd va s
  | .vballot g sign vd va => Sys2Proof.Machine.execVballot g sign vd va s
  | .vlane g k vd => Sys2Proof.Machine.execVlane g k vd s
  | .ld g sp sz sx vd an vo disp => Sys2Proof.Machine.execLd g sp sz sx vd an vo disp s
  | .st g sp sz vd an vo disp => Sys2Proof.Machine.execSt g sp sz vd an vo disp s
  | .ldx g sp sz sx vd an vo disp => Sys2Proof.Machine.execLdx g sp sz sx vd an vo disp s
  | .stx g sp sz vd an vo disp => Sys2Proof.Machine.execStx g sp sz vd an vo disp s
  | .atom g shared b64 op vd an vo disp => Sys2Proof.Machine.execAtom g shared b64 op vd an vo disp s
  | .atomfAdd g shared vd an vo disp => Sys2Proof.Machine.execAtomfAdd g shared vd an vo disp s
  | .atomfAddX g vd an vo disp => Sys2Proof.Machine.execAtomfAddX g vd an vo disp s
  | .settle g vd an vo disp => Sys2Proof.Machine.execSettle g vd an vo disp s
  | .fence g => Sys2Proof.Machine.execFence g s
  | .xlate g nf an sa => Sys2Proof.Machine.execXlate g nf an sa s
  | .probe g sz vd an vo disp => Sys2Proof.Machine.execProbe g sz vd an vo disp s
  | .pref g l2 an vo disp => Sys2Proof.Machine.execPref g l2 an vo disp s
  | .clean g r => Sys2Proof.Machine.execClean g r s
  | .inval g r => Sys2Proof.Machine.execInval g r s
  | .mma g o => Sys2Proof.Machine.execMma g o s
  | .mmag g o => Sys2Proof.Machine.execMmag g o s
  | .accz g bank m1 n1 => Sys2Proof.Machine.execAccz g bank m1 n1 s
  | .accrd g o => Sys2Proof.Machine.execAccrd g o s
  | .mxld g sw sW sF n1 nb => Sys2Proof.Machine.execMxld g sw sW sF n1 nb s
  | .copy g o => Sys2Proof.Machine.execCopy g o s
  | .sort g o => Sys2Proof.Machine.execSort g o s
  | .merge g o => Sys2Proof.Machine.execMerge g o s
  | .ordw g sR sQ m bit => Sys2Proof.Machine.execOrdw g sR sQ m bit s
  | .ordd g sR sQ => Sys2Proof.Machine.execOrdd g sR sQ s
  | .fork g sL => Sys2Proof.Machine.execFork g sL s
  | .join g => Sys2Proof.Machine.execJoin g s
  | .spawn g sL => Sys2Proof.Machine.execSpawn g sL s
  | .taskend g => Sys2Proof.Machine.execTaskend g s
  | .launch g sD sL => Sys2Proof.Machine.execLaunch g sD sL s
  | .qpushT g sL n => Sys2Proof.Machine.execQpushT g sL n s
  | .qpushRBuffer g n sA => Sys2Proof.Machine.execQpushRBuffer g n sA s
  | .qpushRRegister g n m row => Sys2Proof.Machine.execQpushRRegister g n m row s
  | .qcfgRd g sD sel => Sys2Proof.Machine.execQcfgRd g sD sel s
  | .qcfgRq g n sC => Sys2Proof.Machine.execQcfgRq g n sC s
  | .rget g full sD ring sS => Sys2Proof.Machine.execRget g full sD ring sS s
  | .rput g ring sS => Sys2Proof.Machine.execRput g ring sS s
  | .dictld g sD sI n => Sys2Proof.Machine.execDictld g sD sI n s
  | .dictinv g n => Sys2Proof.Machine.execDictinv g n s
  | .tlbinv g sV sB sR => Sys2Proof.Machine.execTlbinv g sV sB sR s
  | .tlbinvRoot g sR => Sys2Proof.Machine.execTlbinvRoot g sR s
  | .tlbinvAll g => Sys2Proof.Machine.execTlbinvAll g s
  | .tstld g sD sI => Sys2Proof.Machine.execTstld g sD sI s
  | .classWr g sI sV => Sys2Proof.Machine.execClassWr g sI sV s
  | .classMv g sQ sC => Sys2Proof.Machine.execClassMv g sQ sC s
  | .classRd g sD sI => Sys2Proof.Machine.execClassRd g sD sI s
  | .bar g => Sys2Proof.Machine.execBar g s
  | .barWeave g => Sys2Proof.Machine.execBarWeave g s
  | .barNet g b sC => Sys2Proof.Machine.execBarNet g b sC s
  | .semaddI g n k target => Sys2Proof.Machine.execSemaddI g n k target s
  | .semadd g n sV target => Sys2Proof.Machine.execSemadd g n sV target s
  | .semwaitDec g n k => Sys2Proof.Machine.execSemwaitDec g n k s
  | .semwaitGe g n k => Sys2Proof.Machine.execSemwaitGe g n k s
  | .wpwait g ch sV => Sys2Proof.Machine.execWpwait g ch sV s
  | .wpwaitRd g sD ch => Sys2Proof.Machine.execWpwaitRd g sD ch s
  | .stepend g => Sys2Proof.Machine.execStepend g s
  | .govrd g sel sD sL => Sys2Proof.Machine.execGovrd g sel sD sL s
  | .cntrd g sD sel => Sys2Proof.Machine.execCntrd g sD sel s
  | .cntclr g n => Sys2Proof.Machine.execCntclr g n s
  | .cntclrSnap g => Sys2Proof.Machine.execCntclrSnap g s
  | .cntclrRoll g => Sys2Proof.Machine.execCntclrRoll g s
  | .cntclrFree g => Sys2Proof.Machine.execCntclrFree g s
  | .enrd g sD sel => Sys2Proof.Machine.execEnrd g sD sel s
  | .qrfeed g bf16 log sx sy sz n h => Sys2Proof.Machine.execQrfeed g bf16 log sx sy sz n h s
  | .qrapplySt g sx sy k n => Sys2Proof.Machine.execQrapplySt g sx sy k n s
  | .qrapplyLog g sx sy sz k h n => Sys2Proof.Machine.execQrapplyLog g sx sy sz k h n s
  | .qrread g blk toA sx m => Sys2Proof.Machine.execQrread g blk toA sx m s
  | .qrreadSt g sx => Sys2Proof.Machine.execQrreadSt g sx s
  | .qrzero g => Sys2Proof.Machine.execQrzero g s
  | .qrgainImm g => Sys2Proof.Machine.execQrgainImm g s
  | .qrgainDef g => Sys2Proof.Machine.execQrgainDef g s
  | .angout g rad m row => Sys2Proof.Machine.execAngout g rad m row s
  | .angin g rad m row => Sys2Proof.Machine.execAngin g rad m row s
  | .grot g e sx sy p h => Sys2Proof.Machine.execGrot g e sx sy p h s
  | .rast g m sv sc st => Sys2Proof.Machine.execRast g m sv sc st s
  | .trace g mO mI sr sf st => Sys2Proof.Machine.execTrace g mO mI sr sf st s
  | .texs g mO mI sh sl => Sys2Proof.Machine.execTexs g mO mI sh sl s
  | .texg g ch mO mI sh => Sys2Proof.Machine.execTexg g ch mO mI sh s
  | .resetBoot => Sys2Proof.Machine.execResetBoot s
  | .registerWrite off v => Sys2Proof.Machine.execRegisterWrite off v s
  | .hostBar2Access off write n => Sys2Proof.Machine.execHostBar2Access off write n s
  | .doorbell q tail => Sys2Proof.Machine.execDoorbell q tail s
  | .cancel low reason => Sys2Proof.Machine.execCancel low reason s
  | .resumeToken token => Sys2Proof.Machine.execResumeToken token s
  | .debugStop core gid => Sys2Proof.Machine.execDebugStop core gid s
  | .debugStopComplete core gid => Sys2Proof.Machine.execDebugStopComplete core gid s
  | .debugStep core gid => Sys2Proof.Machine.execDebugStep core gid s
  | .debugResume core gid => Sys2Proof.Machine.execDebugResume core gid s
  | .debugCancelFreezeEntry core entry => Sys2Proof.Machine.execDebugCancelFreezeEntry core entry s
  | .debugWrite core gid off v => Sys2Proof.Machine.execDebugWrite core gid off v s
  | .attestPublicKey => Sys2Proof.Machine.execAttestPublicKey s
  | .attestReport nonce => Sys2Proof.Machine.execAttestReport nonce s
  | .attestReportDone => Sys2Proof.Machine.execAttestReportDone s
  | .launchQueueTake q => Sys2Proof.Machine.execLaunchQueueTake q s
  | .unitDispatch die => Sys2Proof.Machine.execUnitDispatch die s
  | .preemption core uid => Sys2Proof.Machine.execPreemption core uid s
  | .contextSave core uid => Sys2Proof.Machine.execContextSave core uid s
  | .walkerStepStart core => Sys2Proof.Machine.execWalkerStepStart core s
  | .stepWatchdog core => Sys2Proof.Machine.execStepWatchdog core s
  | .governorDecision launch => Sys2Proof.Machine.execGovernorDecision launch s
  | .groupRetire core gid => Sys2Proof.Machine.execGroupRetire core gid s
  | .launchSignal launch => Sys2Proof.Machine.execLaunchSignal launch s
  | .forkOverflowRefill launch => Sys2Proof.Machine.execForkOverflowRefill launch s
  | .bundleIssue core gid slot => Sys2Proof.Machine.execBundleIssue core gid slot s
  | .dictCacheFill core dslot idx => Sys2Proof.Machine.execDictCacheFill core dslot idx s
  | .resultLanding core id => Sys2Proof.Machine.execResultLanding core id s
  | .bankWakeComplete core gid bank => Sys2Proof.Machine.execBankWakeComplete core gid bank s
  | .sectorLanding core id => Sys2Proof.Machine.execSectorLanding core id s
  | .tlbWalkComplete die id => Sys2Proof.Machine.execTlbWalkComplete die id s
  | .writeBackDeadline core line => Sys2Proof.Machine.execWriteBackDeadline core line s
  | .insertedStallClk core => Sys2Proof.Machine.execInsertedStallClk core s
  | .timingErrorReplay core => Sys2Proof.Machine.execTimingErrorReplay core s
  | .nominalPeriodExpiry die quad => Sys2Proof.Machine.execNominalPeriodExpiry die quad s
  | .marginSettled die quad => Sys2Proof.Machine.execMarginSettled die quad s
  | .weaveBarrierRelease weave => Sys2Proof.Machine.execWeaveBarrierRelease weave s
  | .tstTransferStart weave core entry => Sys2Proof.Machine.execTstTransferStart weave core entry s
  | .tstTransferLand weave id => Sys2Proof.Machine.execTstTransferLand weave id s
  | .stepCounterAdvance weave => Sys2Proof.Machine.execStepCounterAdvance weave s
  | .barrierComplete core uid gid => Sys2Proof.Machine.execBarrierComplete core uid gid s
  | .netBarrierComplete id => Sys2Proof.Machine.execNetBarrierComplete id s
  | .semaphoreRaiseArrival id => Sys2Proof.Machine.execSemaphoreRaiseArrival id s
  | .copyProgress core ch => Sys2Proof.Machine.execCopyProgress core ch s
  | .copyComplete core ch => Sys2Proof.Machine.execCopyComplete core ch s
  | .copyPageFault core ch => Sys2Proof.Machine.execCopyPageFault core ch s
  | .arrayCommandComplete core id => Sys2Proof.Machine.execArrayCommandComplete core id s
  | .accrdComplete core id => Sys2Proof.Machine.execAccrdComplete core id s
  | .rotatorCommandComplete core id => Sys2Proof.Machine.execRotatorCommandComplete core id s
  | .sortComplete engine id => Sys2Proof.Machine.execSortComplete engine id s
  | .sortEngineFault engine id => Sys2Proof.Machine.execSortEngineFault engine id s
  | .ordwEnter ounit id => Sys2Proof.Machine.execOrdwEnter ounit id s
  | .ordwComplete ounit id => Sys2Proof.Machine.execOrdwComplete ounit id s
  | .shaderEngineComplete core id => Sys2Proof.Machine.execShaderEngineComplete core id s
  | .roleQueueEntryReady core q => Sys2Proof.Machine.execRoleQueueEntryReady core q s
  | .queueAccept core id => Sys2Proof.Machine.execQueueAccept core id s
  | .quadJoinPool die quad => Sys2Proof.Machine.execQuadJoinPool die quad s
  | .alarmClear alarm => Sys2Proof.Machine.execAlarmClear alarm s
  | .sensorSample core temp droop => Sys2Proof.Machine.execSensorSample core temp droop s
  | .quadIdle die quad => Sys2Proof.Machine.execQuadIdle die quad s
  | .quadPowerDown die quad => Sys2Proof.Machine.execQuadPowerDown die quad s
  | .quadWakeRequest die quad => Sys2Proof.Machine.execQuadWakeRequest die quad s
  | .inrushGrant die => Sys2Proof.Machine.execInrushGrant die s
  | .quadReady die quad => Sys2Proof.Machine.execQuadReady die quad s
  | .flitCrcRetry boundary dir ch => Sys2Proof.Machine.execFlitCrcRetry boundary dir ch s
  | .bridgeLaneFailure boundary dir ch => Sys2Proof.Machine.execBridgeLaneFailure boundary dir ch s
  | .bridgeRetrainComplete boundary dir ch => Sys2Proof.Machine.execBridgeRetrainComplete boundary dir ch s
  | .podLaneFailure port => Sys2Proof.Machine.execPodLaneFailure port s
  | .traceTranslationFault core id => Sys2Proof.Machine.execTraceTranslationFault core id s
  | .leaseEnd core line => Sys2Proof.Machine.execLeaseEnd core line s
  | .externalAlarm => Sys2Proof.Machine.execExternalAlarm s
  | .currentAlarm => Sys2Proof.Machine.execCurrentAlarm s
  | .droopAlarm => Sys2Proof.Machine.execDroopAlarm s
  | .temperatureAlarm => Sys2Proof.Machine.execTemperatureAlarm s
  | .throttleHoldExpiry => Sys2Proof.Machine.execThrottleHoldExpiry s
  | .serviceEntryPlace => Sys2Proof.Machine.execServiceEntryPlace s

end Sys2Proof.Machine
end

