-- ==== Sys2Proof/Machine/Load.lean ====
section
/-! DEFINITION. A program placed from outside: a unit of work that has just started, whose next fetch is a given literal. The
device itself loads programs by launches (R308, R313); this stands for the steps that the host takes before (log 24). -/

namespace Sys2Proof.Machine

/-- The LPB of a launch with one role group of the widest budget, whose code segment is one page at VA 0. -/
def literalLpb (r : Role) : Lpb :=
  { emptyLpb with kind := if r == .shader then 0 else 1,
                  roles := [{ seg := 0, entry := 0, budget := 10, count := 1, role := roleCode r, dict := 0 }] }
/-- Its launch. -/
def literalLaunch (r : Role) : Launch :=
  { lpb := literalLpb r, topb := none, edges := [], level := 0, queue := 0, t0 := 0, nextUnit := 1, back := [], retired := 0, lastStep := none, target := 1,
    waits := 0, saved := [], parent := none, forkDie := none, inOvf := false, spawnOf := none, issuer := 0, started := true,
    queued := true, ending := false, cancel := none, weave := none, governor := false }
/-- A privileged dictionary without entries over a segment of one literal (R56, R330). -/
def literalDict (r : Role) : Dict :=
  { va := 0, frames := [], count := 0, segLen := 50, tile := r != .shader, role := roleCode r, priv := true, pool := [] }
/-- The page at VA 0: 64 KiB at PA 0, readable, writable and executable (R218). -/
def literalPage (launch root : Nat) : TlbEntry := { launch := launch, root := root, vpage := 0, size := 0, leaf := 0x1F }
/-- The machine in which bundle image b stands as a literal at the PC of a unit that has just started on the first core of
its issuer's kind, its literal wait already over, and tries to issue next. -/
def State.placeLiteral (s : State) (b : Nat) : State :=
  let r := (issuerOf b).getD .shader
  let c := if r == .shader then 512 else 0
  let key := s.fresh
  let s := (s.putBytes 0 (leBytes 2 0xFFFE ++ leBytes 48 b))
  let s := { s with fresh := key + 1, launches := kset key (literalLaunch r) s.launches, dicts := kset 0 (literalDict r) s.dicts,
                    cores := kset c (Core.start s.now) s.cores }
  let s := s.startOn key 0 0 none c
  let s := s.modCore c (fun k => { k with tlb := [literalPage key 0], dwait := [(2 ^ 40, 0, 0)] })
  let s := s.modGroup c 0 (fun g => g.modSlot 0 (fun p => { p with next := 0 }))
  { s with agenda := [.bundleIssue c 0 0] }

end Sys2Proof.Machine
end

