-- ==== Sys2Proof/Machine/Time.lean ====
section
/-! DEFINITION. The passing of time: what is to happen at an instant, in order. A clk of a core (R71, R72, R396, R397), what falls
due in it (R71, R117, R248, R258, R274), the choice of the streams that try to issue (R54), the timed events of the package, and
the actions that need only be possible (R314, R316). -/

namespace Sys2Proof.Machine

/-! ### What falls due in a clk of a core -/

/-- Wakes that are complete. -/
def Core.wakeEvents (k : Core) (c : Nat) : List Instr :=
  let due (b : Bank) : Bool := match b.wakeAt with | some t => t ≤ k.clk | none => false
  k.groups.flatMap (fun p => ((List.range p.2.budget).filter (fun i => due (p.2.bank i))).map (fun i => Instr.bankWakeComplete c (some p.1) i))
    ++ (k.scratch.filter (fun p => due p.2)).map (fun p => Instr.bankWakeComplete c none p.1)
/-- The order of landings of one clk (R35, R54, R71, R128): the later-issued bundle stands, then the higher group index or role-group
number, then the higher slot. -/
def InFlight.before (a b : InFlight) : Bool :=
  if a.issued != b.issued then a.issued < b.issued
  else if a.gix != b.gix then a.gix < b.gix
  else if a.gid != b.gid then a.gid < b.gid else a.slot < b.slot
/-- Fixed-latency results that land. -/
def Core.landEvents (k : Core) (c : Nat) : List Instr :=
  (lsort InFlight.before (k.inflight.filter (fun f => f.due ≤ k.pclk))).map (fun f => Instr.resultLanding c f.id)
/-- Results held for a wake land in the order in which they arrived (R119). -/
def Core.heldEvents (k : Core) (c : Nat) : List Instr :=
  (lsort (fun a b => a.arr < b.arr) (k.sectors.filter (fun f => f.held && f.due ≤ k.clk))).map (fun f => Instr.sectorLanding c f.id)
/-- Sectors and scalar answers that arrive by some tick, and lines that go home or whose lease ends. -/
def Core.memEvents (k : Core) (c now : Nat) : List Instr :=
  (k.sectors.filter (fun f => !f.held && f.due ≤ k.clk && f.tick ≤ now)).map (fun f => Instr.sectorLanding c f.id) ++
    k.lines.flatMap (fun p =>
      (match p.2.since with | some t => if t + 4096 ≤ k.clk then [Instr.writeBackDeadline c p.1] else [] | none => []) ++
      (if p.2.lease ≤ k.clk then [Instr.leaseEnd c p.1] else []))
/-- Progress and completion of copy channels, which no stall clk holds (R274, R396). -/
def Core.copyEvents (k : Core) (c now : Nat) : List Instr :=
  k.chans.flatMap (fun p =>
    match p.2.q with
    | q :: _ =>
      if !p.2.running || p.2.stopped || p.2.page.isSome || k.clk < p.2.nextAt || now < p.2.tick then []
      else if cpRows q.args ≤ p.2.row then [Instr.copyComplete c p.1] else [Instr.copyProgress c p.1]
    | [] => [])
/-- Do the array, the gather and drain units and the rotator stand still: their gang is frozen and runs no handler, and no save waits
for their commands (R194, R290, R376, R378; log 31)? -/
def Core.enginesStand (k : Core) : Bool := k.frozen == some 255 && k.units.all (fun p => !(p.2.preempt || p.2.joining))
/-- Engine commands that complete (R289, R293, R193, R206). -/
def Core.engineEvents (k : Core) (c now : Nat) : List Instr :=
  if k.enginesStand then [] else
  (k.arrayQ.filter (fun q => q.due ≤ k.eclk)).map (fun q => Instr.arrayCommandComplete c q.id) ++
    (k.drainQ.filter (fun q => q.due ≤ k.eclk)).map (fun q => Instr.accrdComplete c q.id) ++
    ((k.rotQ.take 1).filter (fun q => q.due ≤ k.eclk)).map (fun q => Instr.rotatorCommandComplete c q.id) ++
    (k.gfxQ.filter (fun q => q.due ≤ k.eclk && q.tick ≤ now && q.page.isNone)).map (fun q => Instr.shaderEngineComplete c q.id)
/-- Entries, acceptances, barriers and fills whose clk has come (R322, R324, R332, R353). -/
def Core.unitEvents (k : Core) (c now : Nat) : List Instr :=
  k.units.flatMap (fun p =>
    (List.range 4).flatMap (fun i => ((p.2.rq i).coming.takeWhile (fun x => x.1 ≤ k.clk)).map
      (fun _ => Instr.roleQueueEntryReady c (p.1 * 4 + i))) ++
    (match p.2.barDue with | some t => if t ≤ k.clk then [Instr.barrierComplete c p.1 (p.2.gids.headD 0)] else [] | none => [])) ++
  (k.accepts.filter (fun a => a.2.2.1 ≤ k.clk)).map (fun a => Instr.queueAccept c a.1) ++
  (k.dwait.filter (fun p => p.1 < 2 ^ 40 && p.2.1 ≤ k.clk && p.2.2 ≤ now)).map (fun p => Instr.dictCacheFill c (p.1 / 65536) (p.1 % 65536))
/-- The next step of a gang (R44). -/
def Core.stepEvents (k : Core) (c : Nat) : List Instr :=
  if k.units.any (fun p => p.2.atBoundary k.clk) then [Instr.walkerStepStart c] else []
/-- The watchdog of a step, which counts every clk of it (R47, R358). -/
def Core.watchEvents (k : Core) (c : Nat) : List Instr :=
  if k.units.any (fun p => p.2.gang && p.2.stepping && p.2.stepClk == 2 ^ 20) then [Instr.stepWatchdog c] else []
/-- The communication phases of weaves whose clk a core counts (R49, R342). -/
def State.weaveEvents (s : State) (c : Nat) : List Instr :=
  s.weaves.flatMap (fun p =>
    let w := p.2
    if w.tiles.headD 0 != c then []
    else match w.comm with
      | none => if s.weaveReady w then [Instr.weaveBarrierRelease p.1] else []
      | some t0 =>
        (w.toStart.filter (fun x => t0 + x.1 ≤ s.weaveClk w)).map (fun x => Instr.tstTransferStart p.1 x.2.1 x.2.2) ++
        (w.flying.filter (fun t => t.land.isNone && t.clks ≤ s.weaveClk w)).map (fun t => Instr.tstTransferLand p.1 t.id) ++
        (if s.commOver w then [Instr.stepCounterAdvance p.1] else []))
/-- Units that leave their core: saved, or retired (R143, R359, R380). -/
def Core.leaveEvents (k : Core) (c : Nat) : List Instr :=
  (k.units.filter (fun p => p.2.preempt || p.2.joining)).map (fun p => Instr.contextSave c p.1) ++
  (k.units.filter (fun p => p.2.gids.all (fun g => (k.group g).ended))).map (fun p => Instr.groupRetire c (p.2.gids.headD 0))
/-- Stops of the debugger that may be complete (R388). -/
def State.debugEvents (s : State) (c : Nat) : List Instr :=
  (s.dbg.filter (fun d => d.core == c && !d.reported && !d.stepping)).map (fun d => Instr.debugStopComplete c d.gid)

/-! ### A clk of a core -/

/-- A wait for a clk that has come ends. -/
def PcSlot.wakeUp (p : PcSlot) (clk : Nat) : PcSlot :=
  match p.wait with
  | .untilClk t => if t ≤ clk then { p with wait := .none } else p
  | _ => p
/-- Step clk of gangs, and waits that end, at the start of a clk. -/
def Core.tickUnits (k : Core) : Core :=
  { k with
    units := k.units.map (fun p => (p.1, p.2.tickStep)),
    groups := k.groups.map (fun p => (p.1, { p.2 with slot0 := p.2.slot0.wakeUp k.clk, slot1 := p.2.slot1.wakeUp k.clk })) }
/-- A clk of a core begins (R71, R72, R393): the account of the last one closes; in a replay clk the pipelines stand still, and in the
clk after the second the issue paths that execute a bundle again issue nothing else (R397). -/
def Core.tick (k : Core) (t : Nat) (replay : Bool) : Core :=
  let k := { k.account with
    clk := k.clk + 1, eclk := if k.enginesStand then k.eclk else k.eclk + 1, edge := nextEdge t k.edge, issued := if k.replayLeft == 1 then k.hits.map Prod.fst else [], issuing := !replay,
    pclk := if replay then k.pclk else k.pclk + 1, replayLeft := k.replayLeft - 1,
    redo := if k.replayLeft == 1 then k.hits else [], hits := if replay then k.hits else [] }
  { k.tickUnits with weight := if k.enginesStand then 0 else k.engineCharge }
/-- The next clk of core c: what is to happen in it, in order. -/
def State.clock (s : State) (c : Nat) : State :=
  let s := { s with now := max s.now (s.core c).edge }
  let q := quadKey c
  -- what a clk without issue holds back no more than any other (R72, R396, R397)
  let side (s : State) : List Instr :=
    let k := s.core c
    k.wakeEvents c ++ k.heldEvents c ++ k.memEvents c s.now ++ k.copyEvents c s.now ++ k.unitEvents c s.now ++ k.watchEvents c
  if s.stalls c then
    (match execInsertedStallClk c s with
     | .next t => s.sched (.insertedStallClk c :: side t)
     | _ => s)
  else
    let replay := 1 < (s.core c).replayLeft
    let s := (s.modCore c (fun k => k.tick (s.period c) replay)).clkEvents c
    let s := (s.core c).units.foldl (fun s p => if p.2.weave.isSome then s.weaveCheck c p.1 else s) s
    let k := s.core c
    if replay then s.sched (side s ++ k.engineEvents c s.now)
    else
      s.sched (k.wakeEvents c ++ k.heldEvents c ++ k.landEvents c ++ k.memEvents c s.now ++ k.engineEvents c s.now ++ k.copyEvents c s.now ++ k.unitEvents c s.now
        ++ k.watchEvents c ++ k.stepEvents c ++ s.weaveEvents c ++ s.debugEvents c ++ k.leaveEvents c ++ s.issueEvents c
        ++ (if s.quadIsIdle q && (match (kget q s.quads).map Quad.power with | some .on => true | _ => false)
            then [Instr.quadIdle (q / 64) (q % 64)] else []))

/-! ### Actions that need no time -/

/-- May the head of launch queue n be taken: it is rejected, or its task queue has room (R314)? -/
def State.takeable (s : State) (n : Nat) : Bool :=
  match execLaunchQueueTake (fin 64 n) s with
  | .next t => (t.lq n).head != (s.lq n).head
  | _ => false
/-- The first action that is possible now (R38, R52, R303, R314, R316). -/
def State.possible (s : State) : Option Instr :=
  match (s.lqs.filter (fun p => p.2.enable && p.2.head != p.2.tail)).find? (fun p => s.takeable p.1) with
  | some p => some (.launchQueueTake (fin 64 p.1))
  | none =>
  match s.launches.find? (fun p => s.endable p.2) with
  | some p => some (.launchSignal p.1)
  | none =>
  match s.ovf.find? (fun p => match p.2 with
      | c :: _ => s.forkCount (((kget c s.launches).bind Launch.forkDie).getD 2) < 1024 | [] => false) with
  | some p => some (.forkOverflowRefill p.1)
  | none =>
  match s.orders.findSome? (fun p => (p.2.toEnter.find? (fun c => c.due ≤ s.now && (p.2.verdict c).isSome)).map (fun c => (p.1, c.id))) with
  | some x => some (.ordwEnter x.1 x.2)
  | none =>
  match s.orders.findSome? (fun p => (p.2.entered.find? p.2.clear).map (fun c => (p.1, c.id))) with
  | some x => some (.ordwComplete x.1 x.2)
  | none => ((List.range 10).find? (fun d => (s.dispatchNext d).isSome)).map Instr.unitDispatch

/-! ### Timed events -/

/-- Timed events of a quad (R345, R398, R403, R404). -/
def State.quadTimers (s : State) (p : Nat × Quad) : List (Nat × Instr) :=
  let d := p.1 / 64
  let q := p.1 % 64
  (match p.2.power with
   | .hold t => if s.quadIsIdle p.1 then [(t, Instr.quadPowerDown d q)] else []
   | .waking t => [(t, Instr.quadReady d q)]
   | _ => []) ++
  (match p.2.margin with | .toNominal t => [(t, Instr.marginSettled d q)] | .toReduced t => [(t, Instr.marginSettled d q)] | _ => []) ++
  (match p.2.nominalUntil with | some t => [(t, Instr.nominalPeriodExpiry d q)] | none => []) ++
  (match p.2.moving with | some (_, some t) => if s.quadBusy p.1 then [] else [(t, Instr.quadJoinPool d q)] | _ => [])
/-- Has the part stopped in degraded-halt, with only its controller running (R16, R413)? -/
def State.halted (s : State) : Bool := s.bootstat == 4
/-- Timed events of the controller and the links, which run whatever the state of the part. -/
def State.linkTimers (s : State) : List (Nat × Instr) :=
  (match s.attest with | some (t, _) => [(t, Instr.attestReportDone)] | none => []) ++
  s.bridge.filterMap (fun p => p.2.until_.map (fun t => (t, Instr.bridgeRetrainComplete (p.1 / 128) (p.1 / 64 % 2) (p.1 % 64))))
/-- The timed events of the package with their ticks. -/
def State.timers (s : State) : List (Nat × Instr) :=
  if s.halted then s.linkTimers else
  s.walks.flatMap (fun p => (p.2.take 32).map (fun w => (w.due, Instr.tlbWalkComplete p.1 w.id))) ++
  s.raises.map (fun r => (max r.due r.tick, Instr.semaphoreRaiseArrival r.id)) ++
  s.sortQ.flatMap (fun p => match p.2 with
    | q :: _ => if q.bad || (kget p.1 s.sortPage).isSome then [] else [(max q.due q.tick, Instr.sortComplete p.1 q.id)]
    | [] => []) ++
  s.orders.flatMap (fun p => (p.2.toEnter.filter (fun c => s.now < c.due)).map (fun c => (c.due, Instr.ordwEnter p.1 c.id))) ++
  s.nets.flatMap (fun p => match p.2.due with | some t => [(t, Instr.netBarrierComplete p.1)] | none => []) ++
  s.govs.flatMap (fun p => match p.2.due with | some t => [(t, Instr.governorDecision p.1)] | none => []) ++
  s.weaves.flatMap (fun p => p.2.flying.filterMap (fun t => t.land.map (fun x => (x, Instr.tstTransferLand p.1 t.id)))) ++
  s.quads.flatMap s.quadTimers ++
  s.inrush.flatMap (fun p => if p.2.isEmpty then [] else [(sget 0 p.1 s.inrushAt, Instr.inrushGrant p.1)]) ++
  (match s.throttle with | .holding t => [(t, Instr.throttleHoldExpiry)] | _ => []) ++
  s.linkTimers
/-- The earliest of a list of timed things, the first of equals. -/
def earliest {α : Type} : List (Nat × α) → Option (Nat × α)
  | [] => none
  | x :: r => match earliest r with
    | some y => some (if x.1 ≤ y.1 then x else y)
    | none => some x
/-- Is a core powered, so that its clk run (R403)? -/
def State.clocked (s : State) (c : Nat) : Bool :=
  (match (kget (quadKey c) s.quads).map Quad.power with | some .on => true | some (.hold _) => true | _ => false) && !s.halted
/-- The core whose clk comes next. -/
def State.nextCore (s : State) : Option (Nat × Nat) :=
  earliest ((s.cores.filter (fun p => s.clocked p.1)).map (fun p => (p.2.edge, p.1)))

/-- Bytes that a host processor writes to its own memory: they pass no device, so that a home slice may keep an older copy (R244). A
byte outside host memory is none of its own. -/
def State.hostPut (s : State) (l : List (Nat × Byte)) : State :=
  { s with mem := (l.filter (fun p => regionOf p.1 == some 2)).foldl (fun m p => sset 0 p.1 p.2 m) s.mem }
/-- Time passes to the next thing that happens: an action that is possible now, an input of the outside world, a timed event, or
a clk of a core. Where nothing can happen the package stands still. -/
def State.pass (s : State) : State :=
  match if s.halted then none else s.possible with
  | some i => { s with agenda := [i] }
  | none =>
    let input := lmin ([s.inputs.head?.map Prod.fst, s.hostWrites.head?.map Prod.fst].filterMap id)
    let timer := earliest s.timers
    let core := s.nextCore
    let t := lmin ([input, timer.map Prod.fst, core.map Prod.fst].filterMap id)
    match t with
    | none => s
    | some t =>
      let s := { s with now := max s.now t }
      if input == some t then s
      else match timer, core with
        | some (u, i), _ => if u == t then { s with agenda := [i] } else match core with | some (_, c) => s.clock c | none => s
        | none, some (_, c) => s.clock c
        | none, none => s
/-- What a device with nothing left to do at this instant does: a host processor's writes that are due reach host memory (R244), else
time passes. -/
def State.advance (s : State) : State :=
  match s.hostWrites with
  | (t, l) :: r => if t ≤ s.now then { s.hostPut l with hostWrites := r } else s.pass
  | [] => s.pass

end Sys2Proof.Machine
end

