-- ==== Sys2Proof/Machine/Step.lean ====
section
/-! DEFINITION. One step of the device: the next event of this instant, an input of the outside world that is due, or the
passing of time; and the machine in which a given bundle is the next one that a stream fetches. -/

namespace Sys2Proof.Machine

/-- One step: the first event of the agenda; without one, the first input that is due; else time passes. -/
def step (s : State) : Host.Outcome State Fault Refusal :=
  match s.agenda with
  | i :: r => exec i { s with agenda := r }
  | [] =>
    match s.inputs with
    | (t, i) :: r => if t ≤ s.now then exec i { s with inputs := r } else .next s.advance
    | [] => .next s.advance

/-- The machine in which the bundle image w is the literal that a stream fetches next (log 24): it stands behind the literal
escape at the start of the code of a unit of work that has just started on a core whose issuers may use it. -/
def State.withFetchWord (s : State) (nbits w : Nat) : State := s.placeLiteral (w % 2 ^ nbits)

end Sys2Proof.Machine
end

