-- ==== Sys2Proof/Safety.lean ====
section
/-! DEFINITION. What claims about the device speak of: the stream that issues, the condition under which a bundle issues, results
on their way, and the canonical forms of memory and register files. -/

namespace Sys2Proof.Machine

/-- The stream of `cur` exists: its core, its group and its PC slot. -/
def State.live (s : State) : Bool :=
  (kget s.cur.core s.cores).isSome && (kget s.cur.gid s.curCore.groups).isSome && s.cur.slot < 2

/-- The meaning of an instruction alone in its bundle, under its guard. -/
def soloSem (i : Instr) : Sem := (semOf (soloSlot i) i).gated (soloSlots i) (soloSlot i) i

/-- What the checks of R372 items 1 to 7 say of an instruction alone in its bundle: nothing. -/
def State.passes (s : State) (i : Instr) : Bool :=
  let l := soloSlots i
  s.dueTrap.isNone && (s.precheck l).isNone && (soloSem i).chk s == .ok

/-- Nothing holds the bundle: its slots' own holds, its tail and pops, wakes of banks (R119, R120, R156, R211); under the
checking scoreboard no stall-count trap takes their place (R73). -/
def State.unheld (s : State) (i : Instr) : Bool :=
  let l := soloSlots i
  let m := soloSem i
  let bs := s.popBanks l ++ m.banks s
  let asleep := bs.filter (fun b => !(s.curCore.sbank b).ready)
  !(m.hold s).1 && !s.bundleHold l &&
    (if s.lpb.scoreboard then (s.stallTrap l asleep).isNone
     else asleep.isEmpty && ((((m.hold s).2.wakeBanks l).wakeScratchL bs).wakeHold l).isNone)

/-- The stream of `cur` issues instruction i, alone in its bundle under the header and tail in `cur`: R372 finds no fault, trap,
suspension or hold. Each of these conditions is one of the state and of the operands. -/
def State.issues (s : State) (i : Instr) : Bool := s.live && s.passes i && s.unheld i

/-- The state in which the slots of a lone instruction act (R71, R72): the stream has moved on to the next bundle. -/
def State.begun (s : State) (i : Instr) : State := ((soloSem i).hold s).2.start (soloSlots i)

/-- A fixed-latency result of the stream of s is on its way in t: it lands lam clk after the issue and makes the writes ws
(R71). -/
def Lands (s t : State) (lam : Nat) (ws : List Wr) : Prop :=
  ∃ f ∈ (t.core s.cur.core).inflight,
    f.gid = s.cur.gid ∧ f.issued = s.curCore.pclk ∧ f.due = s.curCore.pclk + lam ∧ f.writes = ws

/-- Instruction i at s answers a next state of which P holds. -/
def Yields (i : Instr) (s : State) (P : State → Prop) : Prop := ∃ t, exec i s = .next t ∧ P t

/-- Instruction i at s answers a next state in which its fixed-latency result is on its way. -/
def Results (i : Instr) (s : State) (lam : Nat) (ws : List Wr) : Prop := Yields i s (fun t => Lands s t lam ws)

/-- Lane j of a source operand of instruction i as its slot sees it: a row popped for it (R156), or what stands there (R65). -/
def State.seen (s : State) (i : Instr) (x : VSrc) (j : Nat) : W32 := (s.begun i).src (soloSlot i) x j

/-- The PC slot of the stream of s, in t. -/
def State.slotIn (s t : State) : PcSlot := (t.group s.cur.core s.cur.gid).slot s.cur.slot
/-- The group of the stream of s, in t. -/
def State.groupIn (s t : State) : Group := t.group s.cur.core s.cur.gid
/-- The core of the stream of s, in t. -/
def State.coreIn (s t : State) : Core := t.core s.cur.core

/-- The bundle's successor and the first clk at which it may issue, without a branch (R56, R71). -/
def State.succPc (s : State) : W32 := s.curSlot.pc + BitVec.ofNat 32 s.cur.len
/-- The first clk at which the stream may issue again, without a branch (R71). -/
def State.succClk (s : State) : Nat := s.curCore.pclk + 1 + hdrStall s.cur.hdr

/-- Instructions whose one effect is a fixed-latency result (R129 to R136, R145, R152): the arithmetic, comparisons and moves of
class C and every instruction of class V. -/
def sendsResult (i : Instr) : Bool :=
  match i with
  | .iadd .. | .isub .. | .imul .. | .imulh .. | .imad .. | .ishl .. | .ishr .. | .isar .. | .iand .. | .ior .. | .ixor ..
  | .imin .. | .imax .. | .icmp .. | .isel .. | .movs .. | .movxToScalar .. | .movxToVector .. | .bfx .. | .bfi .. | .clz ..
  | .popc .. | .iaddImm .. | .imulImm .. | .ishlImm .. | .ishrImm .. | .isarImm .. | .iandImm .. | .iorImm .. | .ixorImm ..
  | .iminImm .. | .imaxImm .. | .icmpImm .. | .movi .. | .lea .. | .fmtrd .. | .pmov .. | .pand .. | .por .. | .pnot .. | .sys ..
  | .vadd .. | .vsub .. | .vmul .. | .vfma .. | .vmin .. | .vmax .. | .vabs .. | .vneg .. | .vcmp .. | .vsel .. | .vmov ..
  | .vcvt .. | .vexp2 .. | .vlog2 .. | .vrcp .. | .vrsq .. | .vsin .. | .vcos .. | .viadd .. | .visub .. | .vimul ..
  | .vshl .. | .vshr .. | .vand .. | .vor .. | .vxor .. | .vdot4 .. | .vdot8 .. | .vscl .. | .vqmx .. | .vred .. | .vscan ..
  | .vshfl .. | .vbcast .. | .vballot .. | .vlane .. => true
  | _ => false

/-- Everything of the package outside the issuing core is as it was, but for the issue's own bookkeeping: the counters of free
values and identifiers, the rows popped and the bundle's images. -/
def SameElsewhere (s t : State) : Prop :=
  t = { s with cores := t.cores, cur := { s.cur with pops := t.cur.pops, hand := t.cur.hand, imgs := t.cur.imgs, views := t.cur.views }, free := t.free, fresh := t.fresh }
    ∧ ∀ d, d ≠ s.cur.core → t.core d = s.core d

/-- The registers of the issuing group are as they were, and so are its other PC slot and its own slot's mask, depth and format;
banks may be in other states, and the restart label is that of a restart mark. -/
def SameRegisters (s t : State) : Prop :=
  s.groupIn t = { s.curGrp with banks := (s.groupIn t).banks, mat := (s.groupIn t).mat, rlbl := (s.groupIn t).rlbl,
                                slot0 := (s.groupIn t).slot0, slot1 := (s.groupIn t).slot1 }
    ∧ (s.slotIn t).mask = s.curSlot.mask ∧ (s.slotIn t).depth = s.curSlot.depth ∧ (s.slotIn t).fmt = s.curSlot.fmt
    ∧ (s.slotIn t).wait = s.curSlot.wait
    ∧ ((s.groupIn t).slot (1 - s.cur.slot)) = s.curGrp.slot (1 - s.cur.slot)

/-- The issuing core is as it was, but for its groups, its units' role queues, results in flight, banks, and the counts that every
issue makes; other groups are as they were; buffer bytes go only where the tail turns a scratch bank DARK. -/
def SameCore (s t : State) : Prop :=
  s.coreIn t = { s.curCore with
    groups := (s.coreIn t).groups, units := (s.coreIn t).units, inflight := (s.coreIn t).inflight, freeze := (s.coreIn t).freeze,
    issued := (s.coreIn t).issued, weight := (s.coreIn t).weight, rr := (s.coreIn t).rr, wakes := (s.coreIn t).wakes,
    perf := (s.coreIn t).perf, perfClk := (s.coreIn t).perfClk, scratch := (s.coreIn t).scratch, buf := (s.coreIn t).buf }
    ∧ (∀ g, g ≠ s.cur.gid → (s.coreIn t).group g = s.curCore.group g)
    ∧ (fld s.cur.tail 12 2 ≠ 2 → (s.coreIn t).buf = s.curCore.buf)

/-- What an instruction that only sends a result leaves alone when it answers t: memory and the rest of the package, the registers
of the group, the core; matrix elements go only where the tail turns a bank DARK. The stream stands at the successor. -/
def OnlyIssued (s t : State) : Prop :=
  SameElsewhere s t ∧ SameRegisters s t ∧ SameCore s t ∧ (fld s.cur.tail 10 2 ≠ 2 → (s.groupIn t).mat = s.curGrp.mat)
    ∧ (s.slotIn t).pc = s.succPc ∧ (s.slotIn t).next = s.succClk

/-- What a bank action of a tail makes of bank b, at clk clk with wakes of lat clk (R117, R118): 1 DIM, which leaves a DARK bank; 2 DARK
and clean; 3 wake, which a bank that is BRIGHT or already waking does not need. -/
def ActedOn (a clk lat : Nat) (b c : Bank) : Prop :=
  (a = 1 → (b.st = .dark → c = b) ∧ (b.st ≠ .dark → c.st = .dim ∧ c.wakeAt = none))
    ∧ (a = 2 → c.st = .dark ∧ c.wakeAt = none ∧ c.dirty = false)
    ∧ (a = 3 → (b.st = .bright ∨ b.wakeAt.isSome → c = b) ∧ (b.st ≠ .bright → b.wakeAt = none → c.wakeAt = some (clk + lat)))

/-- The tail of the bundle in issue has acted on the banks that it names, which stood as in b before, and a restart mark has been
honoured (R59 to R61, R118): register banks within the budget, and scratch banks of a tile or whole within the unit's window, whose
contents go as they turn DARK. -/
def TailActed (s b t : State) (i : Instr) : Prop :=
  let a := fld s.cur.tail 10 2
  let sa := fld s.cur.tail 12 2
  let clk := s.curCore.clk
  let own (n : Nat) : Prop := n < 128 ∨ (s.curUnit.shBase ≤ 4 * (n - 128) ∧ 4 * (n - 128) + 4 ≤ s.curUnit.shBase + s.curUnit.shUnits)
  (∀ n, n < 10 → bitN s.cur.tail n = true → n < s.curGrp.budget →
      ActedOn a clk 6 ((s.groupIn b).bank n) ((s.groupIn t).bank n)
      ∧ (a = 2 → ∀ k, k < 1024 → (s.groupIn t).elem (1024 * n + k) = 0))
    ∧ (swf Bank.start s.curCore.scratch = true → ∀ n ∈ tailScratch s.cur.tail, own n →
        ActedOn sa clk 40 (s.curCore.sbank n) ((s.coreIn t).sbank n)
        ∧ (sa = 2 → ∀ k, k < 65536 → sget 0 (65536 * n + k) (s.coreIn t).buf = 0))
    ∧ (s.groupIn t).rlbl = (if hdrMark s.cur.hdr then s.curSlot.pc else s.curGrp.rlbl)
    ∧ (s.slotIn t).bases = (if hdrMark s.cur.hdr then [0, 0, 0, 0, 0] else s.cur.images (soloSlots i))

/-- The clk in which the wake of a bank ends (R117): the one already set, or lat clk from now. -/
def Bank.wakeEnd (b : Bank) (clk lat : Nat) : Nat := b.wakeAt.getD (clk + lat)

/-- The lines of a core's path stand in order under the addresses that the package itself gives them, each once, and so do the open
exact sums, at whole words; memory is canonical. -/
def State.linesOk (s : State) (c : Nat) : Bool :=
  srising (s.core c).lines && (s.core c).lines.all (fun p => s.canon (p.1 * 128) == p.1 * 128) && srising s.exact
    && s.exact.all (fun p => p.1 % 4 == 0 && s.canon p.1 == p.1) && swf (0 : Byte) s.mem

/-- The dirty bytes that line k of core c holds in s stand at their home in t: none was dropped (R248, R271). -/
def HomeBytes (s t : State) (c k : Nat) : Prop :=
  ∀ l, kget k (s.core c).lines = some l → ∀ n, n < 128 → l.dirty.getD n false = true → t.byte (k * 128 + n) = l.data.getD n 0

/-- The canonical form of memory: addresses strictly rising, no entry 0, which is what an unlisted address reads as. -/
def State.memOk (s : State) : Bool := swf (0 : Byte) s.mem

/-- The canonical form of the registers of a group. -/
def Group.regsOk (g : Group) : Bool := swf (0 : W64) g.sregs && swf (0 : W32) g.pregs && swf (0 : BitVec 192) g.aregs && swf (0 : W32) g.mat

/-- The trap area of the issuing stream can be written by the stream itself: its 768 bytes are mapped by entries that the core
holds, with write permission at the launch's level. -/
def State.trapWritable (s : State) : Bool := (List.range 768).all (fun i =>
  match tlbFind s.curCore.tlb s.root ((s.trapArea + i) % 2 ^ 56) with
  | some (leaf, _) => permits (leafPerm leaf) .w s.priv
  | none => false)

/-- What an instruction leaves alone that writes no register: scalars, predicates, translation registers, the pool, fault mask and
records, dictionary, segment and budget; matrix elements go only where the tail turns a bank DARK. The slot keeps its lanes, depth
and format and stands at the successor. -/
def Kept (s t : State) : Prop :=
  let g := s.groupIn t
  let o := s.curGrp
  g.sregs = o.sregs ∧ g.pregs = o.pregs ∧ g.aregs = o.aregs ∧ (fld s.cur.tail 10 2 ≠ 2 → g.mat = o.mat) ∧ g.pool = o.pool
    ∧ g.faultMask = o.faultMask ∧ g.laneRecs = o.laneRecs ∧ g.dict = o.dict ∧ g.seg = o.seg ∧ g.banks.length = o.banks.length
    ∧ (s.slotIn t).mask = s.curSlot.mask ∧ (s.slotIn t).depth = s.curSlot.depth ∧ (s.slotIn t).fmt = s.curSlot.fmt
    ∧ (s.slotIn t).pc = s.succPc

/-- A freed PC slot has taken the path that record k, q, holds (R142): its lanes, PC, format and delta bases, with depth k. -/
def Refilled (q : Rec) (k : Nat) (p : PcSlot) : Prop :=
  p.mask = BitVec.ofNat 32 (imgNat q 20 4) ∧ p.pc = BitVec.ofNat 32 (imgNat q 24 4) ∧ p.depth = k ∧ p.fmt = recF q
    ∧ p.bases = (List.range 5).map (fun i => imgNat q (32 + 8 * i) 8)

/-- Outstanding counter n of the issuing group has risen by one (R151). -/
def Counts (s t : State) (n : Nat) : Prop := (s.groupIn t).ctrs = s.curGrp.ctrs.set n (s.curGrp.ctrs.getD n 0 + 1)

/-- An engine has accepted a command: no register and no byte of memory changes, counter n rises, and the command's bank set l
stands in the reservation table (R210). -/
def Accepted (s t : State) (n : Nat) (l : List (Nat × Nat)) : Prop :=
  Kept s t ∧ t.mem = s.mem ∧ Counts s t n ∧ (s.coreIn t).resv = (s.curCore.reserve s.fresh l).resv ∧ t.fresh = s.fresh + 1

/-- Outstanding counter n of group g of core c has fallen by one, and nothing else of the group has changed but banks and
registers that a result wrote. -/
def Falls (s t : State) (c g n : Nat) : Prop := (t.group c g).ctrs = (s.group c g).ctrs.set n ((s.group c g).ctrs.getD n 0 - 1)

/-- The stream waits for an answer that comes n clk on at the earliest: the writes ws land, under no counter, as the wait ends
(R333, R368). -/
def Answers (s t : State) (n : Nat) (ws : List Wr) : Prop :=
  ∃ f ∈ (s.coreIn t).sectors, f.gid = s.cur.gid ∧ f.writes = ws ∧ f.ctr = none ∧ s.curCore.clk + n ≤ f.due
    ∧ (s.slotIn t).wait = .untilClk f.due

/-- The issuing group's unit is there. -/
def State.housed (s : State) : Bool := (kget s.curGrp.uid s.curCore.units).isSome
/-- The unit of the stream of s, in t. -/
def State.unitIn (s t : State) : WUnit := (s.coreIn t).unit s.curGrp.uid

/-- A group that a core has: a command's issuer, resident. -/
def State.hasGroup (s : State) (c g : Nat) : Bool := g < ghostBase && (kget c s.cores).isSome && (kget g (s.core c).groups).isSome

/-- The commands of the rotator (R172, R184 to R190). -/
def rotatorCommand (i : Instr) : Bool :=
  match i with
  | .qrfeed .. | .qrapplySt .. | .qrapplyLog .. | .qrread .. | .qrreadSt .. | .qrzero .. | .qrgainImm .. | .qrgainDef ..
  | .angout .. | .angin .. | .grot .. => true
  | _ => false

end Sys2Proof.Machine
end

