-- ==== Sys2Proof/WellFormed.lean ====
section
/-! DEFINITION. Well-formed instructions: which issuers may use each (R74), and the rules of its operands, one named check each
(R64, R65, R67, R126, R152, R153, R176, R250, R251, R272, R282, R291, R295, R302, R320, R333, R349). It is written over the
operands, not over the bits, so that decoding and well-formedness can be held against each other. -/

namespace Sys2Proof

/-! ### Checks on operands -/

/-- A queue pop is an operand of a V slot on a tile only (R65, R153). -/
def VSrc.popOk (r : Role) : VSrc → Bool
  | .qpop _ => r != .shader
  | _ => true
/-- Sources of the M slot and of MOVX name no queue (R65, R134, R251). -/
def VSrc.noPop : VSrc → Bool
  | .qpop _ => false
  | _ => true
/-- The index field of a source (R65). -/
def VSrc.index : VSrc → Nat
  | .view x => x.i.val
  | .bcast i => i.val
  | .pool i => i.val
  | .const i => i.val
  | .lane i => i.val
  | .qpop q => q.val
/-- Data of eight bytes take two views, so index 31 has no second (R251, R257). -/
def pairOk (sz : Size) (i : Nat) : Bool := sz != .b64 || i != 31
/-- M-slot spaces of an issuer (R67). -/
def Space.okFor (r : Role) : Space → Bool
  | .g => r != .matrix
  | .s => r == .shader
  | .a => r == .copy || r == .vector
  | .c => r == .vector
/-- Atomics act on global memory, and on shared memory from shader groups (R67, R250). -/
def sharedOk (r : Role) (shared : Bool) : Bool := !shared || r == .shader
/-- Views of an atomic: two for b64, and for compare-and-swap the replacement above the comparand (R250, R263). -/
def atomViewsOk (b64 : Bool) (op : Fin 10) (vd : View) : Bool :=
  if op.val == 9 then vd.i.val ≤ (if b64 then 28 else 30) else !b64 || vd.i.val ≤ 30
/-- Register number of an E slot (R172). -/
def mOk (m : Fin 16) : Bool := m.val ≤ 9
/-- A number between bounds. -/
def within {n : Nat} (x : Fin n) (a b : Nat) : Bool := a ≤ x.val && x.val ≤ b
/-- Pairs of COPY spaces of an issuer (R67, R272). -/
def copyPairOk (r : Role) (x y : CSpace) : Bool :=
  match r with
  | .shader => (x == .g || x == .s) && (y == .g || y == .a || y == .s)
  | _ => (x == .g || x == .a) && y != .s
/-- Source and destination spaces of the sort engines (R295). -/
def Space.sortOk (r : Role) : Space → Bool
  | .g => true
  | .s => r == .shader
  | .a => r == .copy
  | .c => false
/-- Operands of MMA and MMAG (R282). -/
def MmaOp.ok (o : MmaOp) : Bool := o.sA.val ≤ 62 && (o.wl || o.sW.val ≤ 62) && o.nb.val != 0
/-- Operands of ACCRD (R291): the fields a form does not use are zero, and N and M fit the form and its format. -/
def AccrdOp.ok (o : AccrdOp) : Bool :=
  let n := o.n1.val + 1
  !(o.reg && o.mx) && (!o.reg || o.sy == 0) && (o.mx || o.sz == 0) && !(o.reg && o.m1.val + 1 > 32)
    && !(o.reg && n > 32) && (!o.mx || n % 32 == 0) && (fmtBits o.fmt.val != 6 || n % 4 == 0) && (o.fmt.val != 7 || n % 2 == 0)
    && accrdFmtOk o.i32 o.reg o.mx o.fmt.val && (if o.reg then mOk o.mreg else o.mreg == 0)
/-- Operands of COPY (R272). -/
def CopyOp.ok (r : Role) (o : CopyOp) : Bool :=
  copyPairOk r o.src o.dst && o.sz.val ≤ 62 && o.ch.val ≤ (if r == .shader then 3 else 7)
    && (!o.remote || (r == .shader && o.dst == .a))
/-- Operands of SORT (limit 62) and MERGE (limit 60) (R295). -/
def SortOp.ok (r : Role) (limit : Nat) (o : SortOp) : Bool :=
  o.sx.val ≤ limit && o.sy.val ≤ 62 && o.src.sortOk r && o.dst.sortOk r

/-! ### Who may issue what (R74) -/

/-- The issuers of an instruction and whether its dictionary must be privileged (R74). -/
def Instr.issuer (i : Instr) : Where × Bool :=
  match i with
  | .brv .. | .meet .. => (.s, false)
  | .movxToScalar .. | .movxToVector .. | .fmt .. | .fmtrd .. => (.sv, false)
  | .movs _ (.ss _ _) => (.all, false)
  | .movs _ _ => (.s, false)
  | .eret .. => (.all, true)
  | .rlbl .. | .quota .. => (.cmv, false)
  | .vadd .. | .vsub .. | .vmul .. | .vfma .. | .vmin .. | .vmax .. | .vabs .. | .vneg .. | .vcmp .. | .vsel .. | .vmov ..
  | .vcvt .. | .vexp2 .. | .vlog2 .. | .vrcp .. | .vrsq .. | .vsin .. | .vcos .. | .viadd .. | .visub .. | .vimul ..
  | .vshl .. | .vshr .. | .vand .. | .vor .. | .vxor .. | .vdot4 .. | .vdot8 .. | .vscl .. | .vqmx .. | .vred ..
  | .vscan .. | .vshfl .. | .vbcast .. | .vballot .. | .vlane .. => (.sv, false)
  | .ld .. | .st .. | .ldx .. | .stx .. | .atom .. | .atomfAdd .. | .atomfAddX .. | .settle .. | .fence .. | .xlate ..
  | .probe .. | .pref .. | .clean .. | .inval .. => (.scv, false)
  | .mma .. | .mmag .. | .accz .. | .mxld .. => (.m, false)
  | .accrd .. => (.mv, false)
  | .copy .. | .sort .. | .merge .. => (.sc, false)
  | .ordw .. | .ordd .. | .fork .. | .join .. | .spawn .. | .taskend .. => (.s, false)
  | .launch .. => (.sc, false)
  | .qpushT .. => (.scv, false)
  | .qpushRBuffer .. => (.cv, false)
  | .qpushRRegister .. => (.v, false)
  | .qcfgRd _ _ sel => (if sel.val ≤ 9 then .s else .c, false)
  | .qcfgRq .. => (.c, false)
  | .rget .. | .rput .. => (.cmv, false)
  | .dictld .. | .dictinv .. | .tlbinv .. | .tlbinvRoot .. | .tlbinvAll .. => (.sc, true)
  | .tstld .. => (.c, false)
  | .classWr .. | .classMv .. | .classRd .. => (.s, true)
  | .barWeave .. => (.cmv, false)
  | .wpwait .. | .wpwaitRd .. | .stepend .. => (.cmv, false)
  | .govrd .. => (.scv, false)
  | .qrfeed .. | .qrapplySt .. | .qrapplyLog .. | .qrread .. | .qrreadSt .. | .qrzero .. | .qrgainImm .. | .qrgainDef ..
  | .grot .. => (.m, false)
  | .angout .. | .angin .. => (.mv, false)
  | .rast .. | .trace .. | .texs .. | .texg .. => (.s, false)
  | _ => (.all, false)

/-- May an issuer use an instruction (R74)? -/
def Instr.allowed (r : Role) (priv : Bool) (i : Instr) : Bool := i.issuer.1.ok r && (priv || !i.issuer.2)

/-! ### Operand rules -/

/-- The operand rules of a slot instruction for an issuer, under a header scope. -/
def Instr.operandsOk (r : Role) (scope : Nat) (i : Instr) : Bool :=
  match i with
  | .brc _ cond sa sb _ => cond.val < 10 || (sa.val < 8 && sb == 0)
  | .movxToScalar _ _ _ v _ => v.noPop
  | .quota _ _ n => 1 ≤ n.toNat && n.toNat ≤ 10
  | .vadd _ _ _ va vb | .vsub _ _ _ va vb | .vmul _ _ _ va vb | .vmin _ _ _ va vb | .vmax _ _ _ va vb | .vcmp _ _ _ va vb
  | .vsel _ _ va vb _ | .viadd _ _ _ va vb | .visub _ _ _ va vb | .vimul _ _ _ va vb | .vshl _ _ va vb | .vshr _ _ _ va vb
  | .vand _ _ va vb | .vor _ _ va vb | .vxor _ _ va vb | .vscl _ _ _ va vb => va.popOk r && vb.popOk r
  | .vfma _ _ _ _ va vb vc | .vdot4 _ _ va vb vc | .vdot8 _ _ va vb vc => va.popOk r && vb.popOk r && vc.popOk r
  | .vabs _ _ _ va | .vneg _ _ _ va | .vmov _ _ va | .vexp2 _ _ va | .vlog2 _ _ va | .vrcp _ _ va | .vrsq _ _ va
  | .vsin _ _ va | .vcos _ _ va | .vqmx _ _ va | .vred _ _ _ va | .vscan _ _ _ va | .vballot _ _ _ va => va.popOk r
  | .vcvt _ (.up _) _ va => va.popOk r
  | .vcvt _ (.dn _ vc) _ va => va.popOk r && vc.popOk r
  | .vshfl _ (.up vc) _ va vb | .vshfl _ (.dn vc) _ va vb => va.popOk r && vb.popOk r && vc.popOk r
  | .vshfl _ _ _ va vb => va.popOk r && vb.popOk r
  | .vbcast _ none _ va => va.popOk r
  | .vbcast _ (some vb) _ va => va.popOk r && vb.popOk r
  | .ld _ sp sz sx vd _ vo _ | .ldx _ sp sz sx vd _ vo _ =>
    sp.okFor r && pairOk sz vd.i.val && vo.noPop && (!sx || sz == .b8 || sz == .b16)
  | .st _ sp sz vd _ vo _ | .stx _ sp sz vd _ vo _ => sp.okFor r && vd.noPop && pairOk sz vd.index && vo.noPop
  | .atom _ sh b64 op vd _ vo _ => sharedOk r sh && atomViewsOk b64 op vd && vo.noPop
  | .atomfAdd _ sh vd _ vo _ => sharedOk r sh && vd.noPop && vo.noPop
  | .atomfAddX _ vd _ vo _ => vd.noPop && vo.noPop
  | .settle _ _ _ vo _ => vo.noPop
  | .probe _ sz vd _ vo _ => pairOk sz vd.i.val && vo.noPop
  | .pref _ _ _ vo _ => vo.noPop
  | .mma _ o | .mmag _ o => o.ok
  | .accrd _ o => o.ok
  | .mxld _ _ sW _ _ nb => sW.val ≤ 62 && nb.val != 0
  | .copy _ o => o.ok r
  | .sort _ o => o.ok r 62
  | .merge _ o => o.ok r 60
  | .ordw _ _ _ m _ => mOk m
  | .qpushRRegister _ _ m _ => mOk m
  | .qcfgRd _ _ sel => sel.val ≤ 13
  | .barNet .. => scope != 0 && scope != 5 && scope != 6
  | .govrd _ sel _ _ => sel.val ≤ 6
  | .cntrd _ _ sel => sel.val ≤ 4 || within sel 8 22
  | .cntclr _ n => n.val ≤ 8
  | .qrfeed _ _ lg _ _ sz n h => (lg || sz == 0) && within n 1 64 && within h 1 1023
  | .qrapplySt _ _ _ k n => within k 1 64 && within n 1 64
  | .qrapplyLog _ _ _ _ k h n => within k 1 64 && within h 1 1023 && within n 1 64
  | .qrread _ _ a sx m => if a then m == 0 else sx == 0 && mOk m
  | .angout _ _ m i | .angin _ _ m i => mOk m && i.val ≤ 30
  | .grot _ e _ _ p h => within p 1 64 && p.val % 2 ^ e.val == 0 && within h 1 1023
  | .rast _ m sv _ _ => mOk m && sv.val ≤ 61
  | .trace _ mO mI _ _ _ | .texs _ mO mI _ _ | .texg _ _ mO mI _ => mOk mO && mOk mI
  | _ => true

/-- Is a slot instruction well formed for an issuer with this privilege, under a header scope? -/
def Instr.wellFormedFor (r : Role) (priv : Bool) (scope : Nat) (i : Instr) : Bool :=
  i.isSlot && i.allowed r priv && i.operandsOk r scope

/-! ### Events -/

/-- A core of the package: tensor dies hold 144 tiles, raster dies 128 shader cores (R18, R21). -/
def coreOk (c : Nat) : Bool := c / 256 < 10 && c % 256 < (if c / 256 == 2 || c / 256 == 7 then 128 else 144)
/-- A quad of the package (R18, R21). -/
def quadOf (die quad : Nat) : Bool := die < 10 && quad < (if die == 2 || die == 7 then 32 else 36)
/-- A direction of a channel of a bridge boundary (R15). -/
def bridgeOf (b dir ch : Nat) : Bool := b < 13 && dir < 2 && ch < 48

/-- Does an event name places that the package has? -/
def Instr.eventOk (i : Instr) : Bool :=
  match i with
  | .debugStop c _ | .debugStopComplete c _ | .debugStep c _ | .debugResume c _ | .debugCancelFreezeEntry c _
  | .debugWrite c _ _ _ | .preemption c _ | .contextSave c _ | .walkerStepStart c | .stepWatchdog c | .groupRetire c _
  | .dictCacheFill c _ _ | .resultLanding c _ | .bankWakeComplete c _ _ | .sectorLanding c _ | .writeBackDeadline c _
  | .leaseEnd c _ | .insertedStallClk c | .tstTransferStart _ c _ | .barrierComplete c _ _
  | .copyProgress c _ | .copyComplete c _ | .copyPageFault c _ | .arrayCommandComplete c _ | .accrdComplete c _
  | .rotatorCommandComplete c _ | .shaderEngineComplete c _ | .roleQueueEntryReady c _ | .queueAccept c _
  | .sensorSample c _ _ | .traceTranslationFault c _ => coreOk c
  | .bundleIssue c _ slot => coreOk c && slot < 2
  | .unitDispatch d | .tlbWalkComplete d _ | .inrushGrant d => d < 10
  | .nominalPeriodExpiry d q | .marginSettled d q | .quadJoinPool d q | .quadIdle d q | .quadPowerDown d q
  | .quadWakeRequest d q | .quadReady d q => quadOf d q
  | .flitCrcRetry b d ch | .bridgeLaneFailure b d ch | .bridgeRetrainComplete b d ch => bridgeOf b d ch
  | .timingErrorReplay c => coreOk (c % 4096) && c < 3 * 4096
  | .attestReport nonce => nonce.length == 32
  | _ => true

/-- The issuers with a scope each, for which an instruction may be well formed at all. -/
def anyIssuer (p : Role → Bool) : Bool := [Role.shader, .vector, .copy, .matrix].any p

/-- A well-formed step: a slot instruction that some privileged issuer may issue, or an event that names what exists. -/
def Instr.wellFormed (i : Instr) : Bool :=
  if i.isSlot then anyIssuer (fun r => i.wellFormedFor r true 1) else i.eventOk

end Sys2Proof
end

