-- ==== Sys2Proof/Certificates/Slice0/Obligations.lean ====
section
/-! DEFINITION. The statements for the provers. -/

open Sys2Proof Sys2Proof.Machine

/-! ## Class C and class V: results -/

/-- R129 (with R71 for the latency): the sum, difference, logic, shifts, minimum and maximum of scalars, with a register or a
sign-extended immediate as the second operand, land one clk after the issue.
R129, R132, R133: products (three clk), bit fields, counts of bits, immediates and addresses. The bit-field functions are the
model's `bitExtract` and `bitInsert`, whose own definition states R132. -/
def Obligations.ScalarResults : Prop :=
  (∀ (s : State) (g : Guard) (u : Bool) (d a b : SReg) (x : W32), s.act g ≠ 0 →
    (s.issues (.iadd g d a b) → Results (.iadd g d a b) s 1 [.s d.val (s.sr a.val + s.sr b.val)])
    ∧ (s.issues (.isub g d a b) → Results (.isub g d a b) s 1 [.s d.val (s.sr a.val - s.sr b.val)])
    ∧ (s.issues (.iand g d a b) → Results (.iand g d a b) s 1 [.s d.val (s.sr a.val &&& s.sr b.val)])
    ∧ (s.issues (.ior g d a b) → Results (.ior g d a b) s 1 [.s d.val (s.sr a.val ||| s.sr b.val)])
    ∧ (s.issues (.ixor g d a b) → Results (.ixor g d a b) s 1 [.s d.val (s.sr a.val ^^^ s.sr b.val)])
    ∧ (s.issues (.ishl g d a b) → Results (.ishl g d a b) s 1 [.s d.val (s.sr a.val <<< ((s.sr b.val).toNat % 64))])
    ∧ (s.issues (.ishr g d a b) → Results (.ishr g d a b) s 1 [.s d.val (s.sr a.val >>> ((s.sr b.val).toNat % 64))])
    ∧ (s.issues (.isar g d a b) → Results (.isar g d a b) s 1 [.s d.val ((s.sr a.val).sshiftRight ((s.sr b.val).toNat % 64))])
    ∧ (s.issues (.imin g u d a b) → Results (.imin g u d a b) s 1
        [.s d.val (if (if u then (s.sr a.val).toNat ≤ (s.sr b.val).toNat else (s.sr a.val).toInt ≤ (s.sr b.val).toInt)
          then s.sr a.val else s.sr b.val)])
    ∧ (s.issues (.imax g u d a b) → Results (.imax g u d a b) s 1
        [.s d.val (if (if u then (s.sr a.val).toNat ≤ (s.sr b.val).toNat else (s.sr a.val).toInt ≤ (s.sr b.val).toInt)
          then s.sr b.val else s.sr a.val)])
    ∧ (s.issues (.iaddImm g d a x) → Results (.iaddImm g d a x) s 1 [.s d.val (s.sr a.val + x.signExtend 64)])
    ∧ (s.issues (.iandImm g d a x) → Results (.iandImm g d a x) s 1 [.s d.val (s.sr a.val &&& x.signExtend 64)])
    ∧ (s.issues (.iorImm g d a x) → Results (.iorImm g d a x) s 1 [.s d.val (s.sr a.val ||| x.signExtend 64)])
    ∧ (s.issues (.ixorImm g d a x) → Results (.ixorImm g d a x) s 1 [.s d.val (s.sr a.val ^^^ x.signExtend 64)])
    ∧ (s.issues (.ishlImm g d a x) → Results (.ishlImm g d a x) s 1 [.s d.val (s.sr a.val <<< (x.toNat % 64))])
    ∧ (s.issues (.ishrImm g d a x) → Results (.ishrImm g d a x) s 1 [.s d.val (s.sr a.val >>> (x.toNat % 64))])
    ∧ (s.issues (.isarImm g d a x) → Results (.isarImm g d a x) s 1 [.s d.val ((s.sr a.val).sshiftRight (x.toNat % 64))])
    ∧ (s.issues (.iminImm g u d a x) → Results (.iminImm g u d a x) s 1
        [.s d.val (if (if u then (s.sr a.val).toNat ≤ (x.signExtend 64).toNat else (s.sr a.val).toInt ≤ x.toInt)
          then s.sr a.val else x.signExtend 64)])
    ∧ (s.issues (.imaxImm g u d a x) → Results (.imaxImm g u d a x) s 1
        [.s d.val (if (if u then (s.sr a.val).toNat ≤ (x.signExtend 64).toNat else (s.sr a.val).toInt ≤ x.toInt)
          then x.signExtend 64 else s.sr a.val)]))
  ∧ ∀ (s : State) (g : Guard) (k : Fin 3) (n : Fin 5) (signed : Bool) (d a b c : SReg) (x : W32), s.act g ≠ 0 →
    (s.issues (.imul g d a b) → Results (.imul g d a b) s 3 [.s d.val (s.sr a.val * s.sr b.val)])
    ∧ (s.issues (.imulImm g d a x) → Results (.imulImm g d a x) s 3 [.s d.val (s.sr a.val * x.signExtend 64)])
    ∧ (s.issues (.imad g d a b c) → Results (.imad g d a b c) s 3 [.s d.val (s.sr a.val * s.sr b.val + s.sr c.val)])
    ∧ (s.issues (.imulh g k d a b) → Results (.imulh g k d a b) s 3 [.s d.val (BitVec.ofInt 64
        ((if k = 1 then ((s.sr a.val).toNat : Int) else (s.sr a.val).toInt)
          * (if k = 0 then (s.sr b.val).toInt else ((s.sr b.val).toNat : Int)) / 2 ^ 64))])
    ∧ (s.issues (.bfx g signed d a b) → Results (.bfx g signed d a b) s 1 [.s d.val (bitExtract signed (s.sr a.val) (s.sr b.val))])
    ∧ (s.issues (.bfi g d a b c) → Results (.bfi g d a b c) s 1 [.s d.val (bitInsert (s.sr a.val) (s.sr b.val) (s.sr c.val))])
    ∧ (s.issues (.clz g d a) → Results (.clz g d a) s 1 [.s d.val (BitVec.ofNat 64 (leadingZeros (s.sr a.val)))])
    ∧ (s.issues (.popc g d a) → Results (.popc g d a) s 1 [.s d.val (BitVec.ofNat 64 (onesOf (s.sr a.val)))])
    ∧ (s.issues (.lea g n d a x) → Results (.lea g n d a x) s 1 [.s d.val (s.sr a.val + x.signExtend 64 <<< n.val)])
    ∧ (s.issues (.movi g k d x) → Results (.movi g k d x) s 1 [.s d.val
        (if k = 0 then x.signExtend 64 else if k = 1 then x.setWidth 64 else x ++ (s.sr d.val).setWidth 32)])

/-- R130, R131, R135: comparisons write a whole predicate, in the active lanes; selection takes a if some active lane of the
predicate is set; the predicate moves and logic. p0 is no destination that holds anything (R127): see LandingResults. -/
def Obligations.PredicateResults : Prop :=
  ∀ (s : State) (g : Guard) (cc : Fin 10) (p q r : PReg) (d a b : SReg) (x : W32), s.act g ≠ 0 →
    (s.issues (.icmp g cc p a b) → Results (.icmp g cc p a b) s 1
        [.p p.val s.active (if condHolds cc.val (s.sr a.val) (s.sr b.val) then allLanes else 0)])
    ∧ (s.issues (.icmpImm g cc p a x) → Results (.icmpImm g cc p a x) s 1
        [.p p.val s.active (if condHolds cc.val (s.sr a.val) (x.signExtend 64) then allLanes else 0)])
    ∧ (s.issues (.isel g d a b p) → Results (.isel g d a b p) s 1
        [.s d.val (if s.pr p.val &&& s.active ≠ 0 then s.sr a.val else s.sr b.val)])
    ∧ (s.issues (.pmov g (.pp p q)) → Results (.pmov g (.pp p q)) s 1 [.p p.val s.active (s.pr q.val)])
    ∧ (s.issues (.pmov g (.ps p a)) → Results (.pmov g (.ps p a)) s 1 [.p p.val s.active ((s.sr a.val).setWidth 32)])
    ∧ (s.issues (.pmov g (.sp d q)) → Results (.pmov g (.sp d q)) s 1 [.s d.val ((s.pr q.val).setWidth 64)])
    ∧ (s.issues (.pand g p q r) → Results (.pand g p q r) s 1 [.p p.val s.active (s.pr q.val &&& s.pr r.val)])
    ∧ (s.issues (.por g p q r) → Results (.por g p q r) s 1 [.p p.val s.active (s.pr q.val ||| s.pr r.val)])
    ∧ (s.issues (.pnot g p q) → Results (.pnot g p q) s 1 [.p p.val s.active (~~~(s.pr q.val))])

/-- R134, R136, R145: moves between scalars, workgroup scalars and vector lanes, the format register, and what SYS reads: group
index, unit index, core, quad, die, package, launch identifier, clk count, dispatcher time, class, priority, PC slot, active mask
and budget. FMT writes bits 10:0 of the slot's format at once. -/
def Obligations.MoveResults : Prop :=
  ∀ (s : State) (g : Guard) (d a : SReg) (w : Fin 32) (v : View) (x : VSrc) (signed : Bool) (imm : W32) (sel : Fin 14), s.act g ≠ 0 →
    (s.issues (.movs g (.ss d a)) → Results (.movs g (.ss d a)) s 1 [.s d.val (s.sr a.val)])
    ∧ (s.issues (.movs g (.ws w a)) → Results (.movs g (.ws w a)) s 2 [.w w.val (s.sr a.val)])
    ∧ (s.issues (.movs g (.sw d w)) → Results (.movs g (.sw d w)) s 2 [.s d.val (sget 0 w.val s.curUnit.wregs)])
    ∧ (s.issues (.movxToScalar g signed d x a) → let i := Instr.movxToScalar g signed d x a
      Results i s 3 [.s d.val (if signed then (s.seen i x ((s.sr a.val).toNat % 32)).signExtend 64
                               else (s.seen i x ((s.sr a.val).toNat % 32)).setWidth 64)])
    ∧ (s.issues (.movxToVector g v d a) → Results (.movxToVector g v d a) s 2
        [.m (vkey v ((s.sr a.val).toNat % 32)) ((s.sr d.val).setWidth 32)])
    ∧ (s.issues (.fmtrd g d) → Results (.fmtrd g d) s 1 [.s d.val (s.curSlot.fmt.setWidth 64)])
    ∧ (s.issues (.sys g sel d) → Results (.sys g sel d) s 1 [.s d.val (BitVec.ofNat 64
        ([s.curGrp.gix, s.curUnit.index, coreIx s.cur.core, coreQuad s.cur.core, coreDie s.cur.core, s.board.pkg, s.lpb.ident,
          s.curCore.clk, s.ns, s.clsOf s.cur.core, s.lpb.prio, if s.onShader then s.cur.slot else 0, s.active.toNat,
          s.curGrp.budget].getD sel.val 0))])
    ∧ (s.issues (.fmt g (.imm imm)) → Yields (.fmt g (.imm imm)) s (fun t => (s.slotIn t).fmt = imm &&& 0x7FF))
    ∧ (s.issues (.fmt g (.reg a)) → Yields (.fmt g (.reg a)) s (fun t => (s.slotIn t).fmt = (s.sr a.val).setWidth 32 &&& 0x7FF))

/-- R159 to R161: the floating results of lanes, in every lane where the slot acts, under the lane arithmetic of the instruction or
of the format register; `fadd` and its companions are the exact operation rounded once (R96).
R162: the six functions of a lane, correctly rounded under the slot's rounding and saturation. The model's choice: the enclosures
by which exp2, log2, sine and cosine are rounded correctly (log 9). -/
def Obligations.VectorFloatResults : Prop :=
  (∀ (s : State) (g : Guard) (la n : Fin 4) (cc : Fin 16) (d : View) (p : PReg) (a b c : VSrc), s.act g ≠ 0 →
    let f := s.laneFmt la
    (s.issues (.vadd g la d a b) → let i := Instr.vadd g la d a b
      Results i s 4 (viewWrites d (s.act g) (fun j => laneOp f (fun x y _ => fadd f s.rnd s.sat x y) (s.seen i a j) (s.seen i b j) 0)))
    ∧ (s.issues (.vsub g la d a b) → let i := Instr.vsub g la d a b
      Results i s 4 (viewWrites d (s.act g) (fun j => laneOp f (fun x y _ => fsub f s.rnd s.sat x y) (s.seen i a j) (s.seen i b j) 0)))
    ∧ (s.issues (.vmul g la d a b) → let i := Instr.vmul g la d a b
      Results i s 4 (viewWrites d (s.act g) (fun j => laneOp f (fun x y _ => fmul f s.rnd s.sat x y) (s.seen i a j) (s.seen i b j) 0)))
    ∧ (s.issues (.vfma g la n d a b c) → let i := Instr.vfma g la n d a b c
      Results i s 4 (viewWrites d (s.act g) (fun j => laneOp f
        (fun x y z => ffma f s.rnd s.sat (n.val / 2 == 1) (n.val % 2 == 1) x y z) (s.seen i a j) (s.seen i b j) (s.seen i c j))))
    ∧ (s.issues (.vmin g la d a b) → let i := Instr.vmin g la d a b
      Results i s 4 (viewWrites d (s.act g) (fun j => laneOp f (fun x y _ => fminmax f false x y) (s.seen i a j) (s.seen i b j) 0)))
    ∧ (s.issues (.vmax g la d a b) → let i := Instr.vmax g la d a b
      Results i s 4 (viewWrites d (s.act g) (fun j => laneOp f (fun x y _ => fminmax f true x y) (s.seen i a j) (s.seen i b j) 0)))
    ∧ (s.issues (.vabs g la d a) → let i := Instr.vabs g la d a
      Results i s 2 (viewWrites d (s.act g) (fun j => s.seen i a j &&& ~~~(if f = 0 then 0x80000000 else 0x80008000))))
    ∧ (s.issues (.vneg g la d a) → let i := Instr.vneg g la d a
      Results i s 2 (viewWrites d (s.act g) (fun j => s.seen i a j ^^^ (if f = 0 then 0x80000000 else 0x80008000))))
    ∧ (s.issues (.vcmp g cc p a b) → let i := Instr.vcmp g cc p a b
      Results i s 2 [.p p.val (s.act g) (maskOf (fun j => vcmpHolds cc.val (fmtLane s.curSlot.fmt) (s.seen i a j) (s.seen i b j)))])
    ∧ (s.issues (.vsel g d a b p) → let i := Instr.vsel g d a b p
      Results i s 2 (viewWrites d (s.act g) (fun j => if bitOn (s.pr p.val) j then s.seen i a j else s.seen i b j)))
    ∧ (s.issues (.vmov g d a) → let i := Instr.vmov g d a
      Results i s 2 (viewWrites d (s.act g) (s.seen i a))))
  ∧ ∀ (s : State) (g : Guard) (d : View) (a : VSrc), s.act g ≠ 0 →
    (s.issues (.vexp2 g d a) → let i := Instr.vexp2 g d a
      Results i s 8 (viewWrites d (s.act g) (fun j => BitVec.ofNat 32 (fexp2 s.rnd s.sat (s.seen i a j).toNat))))
    ∧ (s.issues (.vlog2 g d a) → let i := Instr.vlog2 g d a
      Results i s 8 (viewWrites d (s.act g) (fun j => BitVec.ofNat 32 (flog2F s.rnd s.sat (s.seen i a j).toNat))))
    ∧ (s.issues (.vrcp g d a) → let i := Instr.vrcp g d a
      Results i s 8 (viewWrites d (s.act g) (fun j => BitVec.ofNat 32 (frcp s.rnd s.sat (s.seen i a j).toNat))))
    ∧ (s.issues (.vrsq g d a) → let i := Instr.vrsq g d a
      Results i s 8 (viewWrites d (s.act g) (fun j => BitVec.ofNat 32 (frsq s.rnd s.sat (s.seen i a j).toNat))))
    ∧ (s.issues (.vsin g d a) → let i := Instr.vsin g d a
      Results i s 10 (viewWrites d (s.act g) (fun j => BitVec.ofNat 32 (fsin s.rnd s.sat (s.seen i a j).toNat))))
    ∧ (s.issues (.vcos g d a) → let i := Instr.vcos g d a
      Results i s 10 (viewWrites d (s.act g) (fun j => BitVec.ofNat 32 (fcos s.rnd s.sat (s.seen i a j).toNat))))

/-- R163: integer lanes: sums and differences that wrap or clamp, products low or high, shifts by b[5:0], logic. -/
def Obligations.VectorIntegerResults : Prop :=
  ∀ (s : State) (g : Guard) (k : Fin 3) (ar : Bool) (d : View) (a b : VSrc), s.act g ≠ 0 →
    (s.issues (.viadd g k d a b) → let i := Instr.viadd g k d a b
      Results i s 2 (viewWrites d (s.act g) (fun j =>
        let x := s.seen i a j; let y := s.seen i b j
        if k = 0 then x + y
        else if k = 1 then BitVec.ofInt 32 (max (-2147483648) (min 2147483647 (x.toInt + y.toInt)))
        else BitVec.ofNat 32 (min 4294967295 (x.toNat + y.toNat)))))
    ∧ (s.issues (.visub g k d a b) → let i := Instr.visub g k d a b
      Results i s 2 (viewWrites d (s.act g) (fun j =>
        let x := s.seen i a j; let y := s.seen i b j
        if k = 0 then x - y
        else if k = 1 then BitVec.ofInt 32 (max (-2147483648) (min 2147483647 (x.toInt - y.toInt)))
        else BitVec.ofNat 32 (x.toNat - y.toNat))))
    ∧ (s.issues (.vimul g k d a b) → let i := Instr.vimul g k d a b
      Results i s 4 (viewWrites d (s.act g) (fun j =>
        let x := s.seen i a j; let y := s.seen i b j
        if k = 0 then x * y
        else if k = 1 then BitVec.ofInt 32 (x.toInt * y.toInt / 2 ^ 32)
        else BitVec.ofNat 32 (x.toNat * y.toNat / 2 ^ 32))))
    ∧ (s.issues (.vshl g d a b) → let i := Instr.vshl g d a b
      Results i s 2 (viewWrites d (s.act g) (fun j => s.seen i a j <<< ((s.seen i b j).toNat % 64))))
    ∧ (s.issues (.vshr g ar d a b) → let i := Instr.vshr g ar d a b
      Results i s 2 (viewWrites d (s.act g) (fun j =>
        if ar then (s.seen i a j).sshiftRight ((s.seen i b j).toNat % 64) else s.seen i a j >>> ((s.seen i b j).toNat % 64))))
    ∧ (s.issues (.vand g d a b) → let i := Instr.vand g d a b
      Results i s 2 (viewWrites d (s.act g) (fun j => s.seen i a j &&& s.seen i b j)))
    ∧ (s.issues (.vor g d a b) → let i := Instr.vor g d a b
      Results i s 2 (viewWrites d (s.act g) (fun j => s.seen i a j ||| s.seen i b j)))
    ∧ (s.issues (.vxor g d a b) → let i := Instr.vxor g d a b
      Results i s 2 (viewWrites d (s.act g) (fun j => s.seen i a j ^^^ s.seen i b j)))

/-- R164 to R167: conversions of element i of the lane, scaling, quantising the acting lanes as one block, and packed dot
products, under the format register; the lane functions are the model's, each with its rule. -/
def Obligations.VectorFormatResults : Prop :=
  ∀ (s : State) (g : Guard) (n : Fin 8) (dv : Bool) (d : View) (a b c : VSrc), s.act g ≠ 0 →
    (s.issues (.vcvt g (.up n) d a) → let i := Instr.vcvt g (.up n) d a
      Results i s 4 (viewWrites d (s.act g) (fun j => cvtUp s.elt s.rnd n.val (s.seen i a j))))
    ∧ (s.issues (.vcvt g (.dn n c) d a) → let i := Instr.vcvt g (.dn n c) d a
      Results i s 4 (viewWrites d (s.act g) (fun j => cvtDn s.elt s.rnd s.sat n.val (s.seen i a j) (s.seen i c j))))
    ∧ (s.issues (.vscl g dv d a b) → let i := Instr.vscl g dv d a b
      Results i s 4 (viewWrites d (s.act g) (fun j =>
        sclLane s.elt (fmtScale s.curSlot.fmt) s.rnd s.sat dv (s.seen i a j) (s.seen i b j))))
    ∧ (s.issues (.vqmx g d a) → let i := Instr.vqmx g d a
      Results i s 6 (viewWrites d (s.act g) (fun j => (qmxLanes s.elt (fmtScale s.curSlot.fmt) s.rnd
        ((List.range 32).map (fun j => if bitOn (s.act g) j then (s.seen i a j).toNat else 0))).getD j 0)))
    ∧ (s.issues (.vdot4 g d a b c) → let i := Instr.vdot4 g d a b c
      Results i s 5 (viewWrites d (s.act g) (fun j => dotLane s.elt 4 s.rnd s.sat (s.seen i a j) (s.seen i b j) (s.seen i c j))))
    ∧ (s.issues (.vdot8 g d a b c) → let i := Instr.vdot8 g d a b c
      Results i s 5 (viewWrites d (s.act g) (fun j => dotLane s.elt 8 s.rnd s.sat (s.seen i a j) (s.seen i b j) (s.seen i c j))))

/-- R168 to R170: folds over the acting lanes in ascending order (ten clk for the floating ones), shuffles, broadcasts from the
lowest acting lane or the lane that it names, ballots and lane masks. -/
def Obligations.VectorLaneResults : Prop :=
  ∀ (s : State) (g : Guard) (op : Fin 11) (k : Fin 4) (sign : Bool) (d : View) (a b c : VSrc), s.act g ≠ 0 →
    let m := s.act g
    (s.issues (.vred g op d a) → let i := Instr.vred g op d a
      Results i s (if op.val < 3 then 10 else 4)
        (viewWrites d m (fun _ => (redScan op.val s.rnd s.sat m (s.seen i a)).getD 31 0)))
    ∧ (s.issues (.vscan g op d a) → let i := Instr.vscan g op d a
      Results i s (if op.val < 3 then 10 else 4)
        (viewWrites d m (fun j => (redScan op.val s.rnd s.sat m (s.seen i a)).getD j 0)))
    ∧ (s.issues (.vshfl g .idx d a b) → let i := Instr.vshfl g .idx d a b
      Results i s 3 (viewWrites d m (fun j => s.seen i a ((s.seen i b j).toNat % 32))))
    ∧ (s.issues (.vshfl g (.up c) d a b) → let i := Instr.vshfl g (.up c) d a b
      Results i s 3 (viewWrites d m (fun j => let h := (s.seen i b j).toNat % 64
        if h ≤ j then s.seen i a (j - h) else s.seen i c j)))
    ∧ (s.issues (.vshfl g (.dn c) d a b) → let i := Instr.vshfl g (.dn c) d a b
      Results i s 3 (viewWrites d m (fun j => let h := (s.seen i b j).toNat % 64
        if j + h < 32 then s.seen i a (j + h) else s.seen i c j)))
    ∧ (s.issues (.vshfl g .xor d a b) → let i := Instr.vshfl g .xor d a b
      Results i s 3 (viewWrites d m (fun j => s.seen i a (j ^^^ (s.seen i b j).toNat % 32))))
    ∧ (s.issues (.vshfl g .rot d a b) → let i := Instr.vshfl g .rot d a b
      Results i s 3 (viewWrites d m (fun j => s.seen i a ((j + (s.seen i b j).toNat % 32) % 32))))
    ∧ (s.issues (.vbcast g none d a) → let i := Instr.vbcast g none d a
      Results i s 3 (viewWrites d m (fun _ => s.seen i a (lowLane m))))
    ∧ (s.issues (.vbcast g (some b) d a) → let i := Instr.vbcast g (some b) d a
      Results i s 3 (viewWrites d m (fun _ => s.seen i a ((s.seen i b (lowLane m)).toNat % 32))))
    ∧ (s.issues (.vballot g sign d a) → let i := Instr.vballot g sign d a
      Results i s 2 (viewWrites d m (fun _ => maskOf (fun j => bitOn m j &&
        (if sign then bitOn (s.seen i a j) 31 else s.seen i a j != 0)))))
    ∧ (s.issues (.vlane g k d) →
      Results (.vlane g k d) s 2 (viewWrites d m (fun j =>
        if k = 0 then BitVec.ofNat 32 (2 ^ j - 1)
        else if k = 1 then BitVec.ofNat 32 (popc32 (m &&& BitVec.ofNat 32 (2 ^ j - 1)))
        else if k = 2 then BitVec.ofNat 32 (popc32 m) else m)))

/-- The frame of every instruction that only sends a result, and of every instruction under a guard that lets it act nowhere
(R62, R71): memory, the other cores, the other groups, the registers, the counters and the buffers are as they were, and the
stream stands at the successor. R59 to R61, R117, R118: the tail then dims, darkens and wakes the banks that it names, and a restart
mark sets the restart label and clears the delta bases. -/
def Obligations.ResultFrame : Prop :=
  ∀ (s : State) (i : Instr), i.isSlot = true → s.issues i →
    (sendsResult i = true ∨ s.act (opInfo i).guard = 0) → Yields i s (fun t => OnlyIssued s t ∧ TailActed s (s.begun i) t i)

/-! ## Control -/

/-- R71, R137, R138: where a stream stands after a branch, taken or not, and in which clk its next bundle issues; CALL links the
successor, LOOP counts its register down. -/
def Obligations.BranchResults : Prop :=
  ∀ (s : State) (g : Guard) (off : W32) (sa sb : SReg) (c : Fin 13),
    let at_ (pc : W32) (k : Nat) (t : State) : Prop := (s.slotIn t).pc = pc ∧ (s.slotIn t).next = s.succClk + k
    let label : W32 := s.curSlot.pc + 2 * off
    let reg : W32 := (s.sr sb.val).setWidth 32 &&& 0xFFFFFFFE
    let link (d : SReg) (t : State) : Prop := Lands s t 1 [.s d.val (s.succPc.setWidth 64)]
    (s.issues .nop → Yields .nop s (at_ s.succPc 0))
    ∧ (s.act g ≠ 0 →
      (s.issues (.bra g off) → Yields (.bra g off) s (at_ label 1))
      ∧ (s.issues (.brc g c sa sb off) → Yields (.brc g c sa sb off) s
          (if (if c.val < 10 then condHolds c.val (s.sr sa.val) (s.sr sb.val)
               else predHolds c.val (s.pr (sa.val % 8)) s.active) then at_ label 1 else at_ s.succPc 0))
      ∧ (s.issues (.loop g sa off) → Yields (.loop g sa off) s (fun t =>
          (if s.sr sa.val - 1 ≠ 0 then at_ label 1 t else at_ s.succPc 0 t) ∧ Lands s t 1 [.s sa.val (s.sr sa.val - 1)]))
      ∧ (s.issues (.call g sa off) → Yields (.call g sa off) s (fun t => at_ label 1 t ∧ link sa t))
      ∧ (s.issues (.ret g sb) → Yields (.ret g sb) s (at_ reg 2))
      ∧ (s.issues (.braReg g sb) → Yields (.braReg g sb) s (at_ reg 2))
      ∧ (s.issues (.callReg g sa sb) → Yields (.callReg g sa sb) s (fun t => at_ reg 2 t ∧ link sa t)))

/-- R148, R149, R150, R151: RLBL, QUOTA, YIELD and WAITC. WAITC issues only when no counter that it selects stands above its
number; QUOTA gives banks, DARK, to another role group of the tile and loses what the group held in them.
R151: a WAITC whose counter stands above its number, and that nothing else stops, does not issue: the stream stands where it
stood. -/
def Obligations.StreamControlResults : Prop :=
  (∀ (s : State) (g : Guard) (off n : W32) (c : Fin 8) (q : Fin 6), s.act g ≠ 0 →
    (s.issues (.rlbl g off) → Yields (.rlbl g off) s (fun t => (s.groupIn t).rlbl = s.curSlot.pc + 2 * off))
    ∧ (s.issues (.yield g) → Yields (.yield g) s (fun t =>
        if s.onShader then (s.slotIn t).skip = true ∧ (s.slotIn t).next = s.succClk
        else (s.slotIn t).next = max s.succClk (s.curCore.pclk + 2)))
    ∧ (s.issues (.waitc g c n) →
        (∀ k, k < 7 → (c.val = 7 ∨ c.val = k) → s.curGrp.ctrs.getD k 0 ≤ n.toNat)
        ∧ Yields (.waitc g c n) s (fun t => (s.slotIn t).pc = s.succPc ∧ (s.slotIn t).next = s.succClk))
    ∧ (s.issues (.quota g q n) → Yields (.quota g q n) s (fun t =>
        (s.groupIn t).budget = s.curGrp.budget - n.toNat
        ∧ (t.group s.cur.core q.val).banks = (s.curCore.group q.val).banks ++ List.replicate n.toNat Bank.start
        ∧ ∀ k, 1024 * (s.curGrp.budget - n.toNat) ≤ k → k < 1024 * s.curGrp.budget → (s.groupIn t).elem k = 0)))
  ∧ ∀ (s : State) (g : Guard) (c : Fin 8) (n : W32) (k : Nat), s.live → s.passes (.waitc g c n) → s.act g ≠ 0 →
    k < 7 → (c.val = 7 ∨ c.val = k) → n.toNat < s.curGrp.ctrs.getD k 0 →
    Yields (.waitc g c n) s (fun t => s.slotIn t = s.curSlot ∧ t.mem = s.mem ∧ (s.coreIn t).inflight = s.curCore.inflight)

/-- R139: BRV. No lane taken: nothing. Every active lane taken: a branch. Otherwise a record is pushed with the lanes and the
format; the lanes that are not taken go on, the taken ones start at the label in the other PC slot two clk on if it is free, and
are kept in the record, with the label, if it is not.
R141: MEET. At depth 0, nothing. Otherwise the record of the slot's depth takes in the active lanes; when they are all there, the
record is popped and the slot goes on with its lanes, format and parent depth.
R142: when they are not, the slot takes the spilled path of the highest live record that holds one, whose valid bit is cleared, or
stays empty where no record does. -/
def Obligations.DivergenceResults : Prop :=
  (∀ (s : State) (g : Guard) (off : W32), s.issues (.brv g off) →
    let taken := s.act g
    let label : W32 := s.curSlot.pc + 2 * off
    let k := s.curGrp.stackTop + 1
    let o := 1 - s.cur.slot
    let b := s.begun (.brv g off)
    let r (spill : Option (W32 × W32 × List Nat)) : Rec := recNew k s.active s.curSlot.fmt s.curSlot.depth spill
    let stored (t u : State) : Prop := t.mem = u.mem ∧ (s.coreIn t).lines = u.curCore.lines
    (taken = 0 → Yields (.brv g off) s (fun t => (s.slotIn t).pc = s.succPc ∧ (s.slotIn t).mask = s.curSlot.mask))
    ∧ (taken ≠ 0 → taken = s.active → Yields (.brv g off) s (fun t => (s.slotIn t).pc = label ∧ (s.slotIn t).next = s.succClk + 1))
    ∧ (taken ≠ 0 → taken ≠ s.active → Yields (.brv g off) s (fun t =>
        (s.slotIn t).pc = s.succPc ∧ (s.slotIn t).mask = s.active &&& ~~~taken ∧ (s.slotIn t).depth = k ∧ (s.groupIn t).stackTop = k
        ∧ (if (s.curGrp.slot o).mask = 0 then
             ((s.groupIn t).slot o).pc = label ∧ ((s.groupIn t).slot o).mask = taken ∧ ((s.groupIn t).slot o).depth = k
             ∧ ((s.groupIn t).slot o).fmt = s.curSlot.fmt ∧ ((s.groupIn t).slot o).next = s.curCore.pclk + 2
             ∧ stored t (b.putRec k (r none))
           else (s.groupIn t).slot o = s.curGrp.slot o ∧ stored t (b.putRec k (r (some (taken, label, b.curSlot.bases))))))))
  ∧ ∀ (s : State) (g : Guard), s.issues (.meet g) → s.act g ≠ 0 →
    let d := s.curSlot.depth
    let b := (s.begun (.meet g)).settleRec d
    let r := b.getRec d
    let p := b.putRec d (recPut (recPut r 4 4 (recA r ||| s.active).toNat) 12 4 s.succPc.toNat)
    let v := { p with free := p.free + 1 }
    let stored (t u : State) : Prop := t.mem = u.mem ∧ (s.coreIn t).lines = u.curCore.lines ∧ (s.groupIn t).stackTop = u.curGrp.stackTop
    (d = 0 → Yields (.meet g) s (fun t => (s.slotIn t).pc = s.succPc ∧ (s.slotIn t).mask = s.curSlot.mask ∧ (s.slotIn t).depth = 0))
    ∧ (d ≠ 0 → recA r ||| s.active = recU r → Yields (.meet g) s (fun t =>
        (s.slotIn t).pc = s.succPc ∧ (s.slotIn t).mask = recU r ∧ (s.slotIn t).depth = recParent r ∧ (s.slotIn t).fmt = recF r
        ∧ stored t ((v.modS (fun q => { q with mask := recU r, depth := recParent r, fmt := recF r,
                                               next := q.next + Config.latency p.free })).popRec d)))
    ∧ (d ≠ 0 → recA r ||| s.active ≠ recU r →
        let w := v.modS (fun q => { q with mask := 0 })
        let u := w.seenBy.foldl State.settleRec w
        (u.findSpill u.curGrp.stackTop = none → Yields (.meet g) s (fun t => (s.slotIn t).mask = 0 ∧ stored t u))
        ∧ ∀ k, u.findSpill u.curGrp.stackTop = some k →
            let q := u.getRec k
            Yields (.meet g) s (fun t => Refilled q k (s.slotIn t) ∧ stored t (u.putRec k (recPut q 16 4 (putFld (recWord q) 0 1 0)))))

/-- R33, R143: EXIT at depth 0. Lanes that remain go on; a shader group with no lane left, in either slot or in a record, ends
and is retired; on a tile the role group ends.
At any depth the lanes leave the slot and every record of its chain, which is walked down (`leaveLanes`): where the slot is left with
lanes, those that remain or those of a record that is complete, it goes on with them; where it is empty it takes the spilled path of
the highest live record that holds one (R142). -/
def Obligations.ExitEnds : Prop :=
  ∀ (s : State) (g : Guard), s.issues (.exit g) → s.act g ≠ 0 →
    let left := s.curSlot.mask &&& ~~~(s.act g)
    let ends (t : State) : Prop := (s.groupIn t).ended = true ∧ ∃ l, t.agenda = l ++ [.groupRetire s.cur.core s.cur.gid]
      ∧ (s.curUnit.weave = none → l = s.agenda)
    let w := (s.begun (.exit g)).leaveLanes (s.act g)
    let u := w.seenBy.foldl State.settleRec w
    let stored (t u : State) : Prop := t.mem = u.mem ∧ (s.coreIn t).lines = u.curCore.lines ∧ (s.groupIn t).stackTop = u.curGrp.stackTop
    (s.onShader = true → s.curSlot.depth = 0 → left ≠ 0 → Yields (.exit g) s (fun t => (s.slotIn t).mask = left))
    ∧ (s.onShader = true → s.curSlot.depth = 0 → left = 0 → (s.curGrp.slot (1 - s.cur.slot)).mask = 0 → s.curGrp.stackTop = 0 →
        s.curGrp.inline = [] → Yields (.exit g) s ends)
    ∧ (s.onShader = false → Yields (.exit g) s ends)
    ∧ (s.onShader = true → w.curSlot.mask ≠ 0 → Yields (.exit g) s (fun t =>
        (s.slotIn t).mask = w.curSlot.mask ∧ (s.slotIn t).pc = w.curSlot.pc ∧ (s.slotIn t).depth = w.curSlot.depth
        ∧ (s.slotIn t).fmt = w.curSlot.fmt ∧ (s.slotIn t).bases = w.curSlot.bases ∧ stored t w))
    ∧ (s.onShader = true → w.curSlot.mask = 0 → ∀ k, u.findSpill u.curGrp.stackTop = some k →
        let q := u.getRec k
        BitVec.ofNat 32 (imgNat q 20 4) ≠ 0 →
        Yields (.exit g) s (fun t => Refilled q k (s.slotIn t) ∧ stored t (u.putRec k (recPut q 16 4 (putFld (recWord q) 0 1 0)))))

/-! ## Traps -/

/-- R375, R376: taking a fault or trap at a stream whose role has an enabled handler and whose trap area can be written: the
record goes to the trap area, PC slot 0 stands at the handler's entry with every lane and depth 0, slot 1 is empty. The stream keeps
every register. On a tile every fixed-latency result in flight goes to the freeze store with the clk that remain, no other role group
issues, and what loads have sent and the engines have accepted goes on.
R378: an event that no handler may take, or whose record cannot be written, stops the group, raises the fault vector and leaves a
service entry of kind 2; no register and no byte of memory changes.
The model's choices: the handler's code segment (log 14), its first clk (log 33), the whole group stops at an escalation (log 32). -/
def Obligations.TrapEntry : Prop :=
  (∀ (s : State) (t : TrapInfo) (v : TrapVec), s.live → s.handler = some v → s.trapWritable →
    let u := s.takeTrap t
    let g := s.groupIn u
    g.inHandler = true ∧ g.dict = v.dict
    ∧ g.slot0.pc = BitVec.ofNat 32 v.entry ∧ g.slot0.mask = allLanes ∧ g.slot0.depth = 0 ∧ g.slot0.bases = [0, 0, 0, 0, 0]
    ∧ g.slot0.fmt = s.curGrp.slot0.fmt ∧ g.slot1.mask = 0
    ∧ g.sregs = s.curGrp.sregs ∧ g.pregs = s.curGrp.pregs ∧ g.aregs = s.curGrp.aregs ∧ g.mat = s.curGrp.mat ∧ g.banks = s.curGrp.banks
    ∧ (∀ w, s.storeOwn s.cur.core s.curGrp.launch s.root s.priv s.trapArea (s.trapRecord t) = some w →
        u.mem = w.mem ∧ (s.coreIn u).lines = (s.coreIn w).lines)
    ∧ (s.onShader = false → (s.coreIn u).inflight = [] ∧ (s.coreIn u).frozen = some s.cur.gid
        ∧ (s.coreIn u).freeze.length = s.curCore.freeze.length + s.curCore.inflight.length
        ∧ (∀ f ∈ s.curCore.freeze, f ∈ (s.coreIn u).freeze)
        ∧ (∀ f ∈ s.curCore.inflight, ∃ x ∈ (s.coreIn u).freeze,
            x.gid = f.gid ∧ x.writes = f.writes ∧ x.dest = f.dest ∧ x.due = f.due - s.curCore.pclk ∧ x.issued = f.issued - s.curCore.pclk)
        ∧ (∀ o n, o ≠ s.cur.gid → u.mayIssue s.cur.core o n = false)
        ∧ (s.coreIn u).sectors = s.curCore.sectors ∧ (s.coreIn u).arrayQ = s.curCore.arrayQ ∧ (s.coreIn u).drainQ = s.curCore.drainQ
        ∧ (s.coreIn u).rotQ = s.curCore.rotQ ∧ (s.coreIn u).chans = s.curCore.chans))
  ∧ ∀ (s : State) (t : TrapInfo), s.live →
    (s.handler = none ∨ s.storeOwn s.cur.core s.curGrp.launch s.root s.priv s.trapArea (s.trapRecord t) = none) →
    let u := s.takeTrap t
    (s.groupIn u).halt = .stopped ∧ u.msix = s.msix ++ [0] ∧ u.mem = s.mem
    ∧ (∃ e, u.svcHeld = s.svcHeld ++ [e] ∧ e.kind = 2 ∧ e.cause = t.cause ∧ e.gid = s.cur.gid)
    ∧ (s.groupIn u).sregs = s.curGrp.sregs ∧ (s.groupIn u).pregs = s.curGrp.pregs ∧ (s.groupIn u).mat = s.curGrp.mat

/-- R146, R375: TRAP. On a shader core the handler starts in place of the successor; on a tile the trap stands first in the
stream's list, with the bundle's PC, and the successor's issue takes it.
R371: a fault of class N that waits is taken before the stream's next bundle, which does not issue; while its handler runs, later
ones of the stream wait (`serving`).
The model's choice: the handler's code segment (log 14). -/
def Obligations.TrapOrder : Prop :=
  (∀ (s : State) (g : Guard) (code : BitVec 16), s.issues (.trap g code) → s.act g ≠ 0 →
    (∀ v, s.onShader = true → s.handler = some v → s.trapWritable → Yields (.trap g code) s (fun t =>
        (s.groupIn t).inHandler = true ∧ (s.groupIn t).dict = v.dict ∧ (s.groupIn t).slot0.pc = BitVec.ofNat 32 v.entry
        ∧ (s.groupIn t).slot0.mask = allLanes ∧ (s.groupIn t).slot1.mask = 0))
    ∧ (s.onShader = false → Yields (.trap g code) s (fun t =>
        (s.groupIn t).deferred = {
            cause := 7, slot := 0, field := 0, d0 := code.toNat, d1 := 0, d2 := 0,
            pc := some s.curSlot.pc, strm := s.cur.slot } :: s.curGrp.deferred
        ∧ (s.slotIn t).pc = s.succPc)))
  ∧ ∀ (s : State) (i : Instr) (t : TrapInfo), i.isSlot = true → s.live → s.dueTrap = some t →
    exec i s = .next (((s.modG (fun g => { g with deferred := g.deferred.erase t })).takeTrap t).modG
      (fun g => { g with serving := g.inHandler && t.pc.isNone }))

/-- R377: ERET through a sound record: both PC slots, the fault mask and the dictionary are those of the record, fmt in the bits
that R94 gives it, and the stream runs no handler any more. A record that may not be returned through is escalated.
R376: with the first bundle that issues after a freeze the freeze store is empty again and every entry of it counts down from that clk.
The model's choice: the free time of the return (log 5). -/
def Obligations.HandlerReturn : Prop :=
  (∀ (s : State) (i : Instr), i.isSlot = true → sendsResult i = true → s.issues i → s.curCore.frozen = none →
    Yields i s (fun t => (s.coreIn t).freeze = [] ∧ ∀ f ∈ s.curCore.freeze,
      { f with due := f.due + s.curCore.pclk, issued := f.issued + s.curCore.pclk } ∈ (s.coreIn t).inflight))
  ∧ ∀ (s : State) (g : Guard) (m : List Byte) (w : State), s.issues (.eret g) → s.act g ≠ 0 →
    let b := s.begun (.eret g)
    b.loadOwn b.cur.core b.curGrp.launch b.root b.priv b.trapArea 768 = .ok (m, w) →
    (b.badReturn m = none → Yields (.eret g) s (fun t =>
        let r := s.groupIn t
        r.inHandler = false ∧ r.dict = imgNat m 156 1 ∧ r.faultMask = BitVec.ofNat 32 (imgNat m 152 4)
        ∧ r.slot0.pc = BitVec.ofNat 32 (imgNat m 32 4) ∧ r.slot0.mask = BitVec.ofNat 32 (imgNat m 36 4) ∧ r.slot0.depth = imgNat m 40 1
        ∧ r.slot0.fmt = fmtReg (BitVec.ofNat 32 (imgNat m 64 4))
        ∧ r.slot1.pc = BitVec.ofNat 32 (imgNat m 48 4) ∧ r.slot1.mask = BitVec.ofNat 32 (imgNat m 52 4) ∧ r.slot1.depth = imgNat m 56 1
        ∧ r.slot1.fmt = fmtReg (BitVec.ofNat 32 (imgNat m 68 4))))
    ∧ (b.badReturn m ≠ none → Yields (.eret g) s (fun t => (s.groupIn t).halt = .stopped ∧ t.msix = s.msix ++ [0]))

/-! ## Class M -/

/-- R253, R254: the lanes of an access to a buffer or to the shared window that passes its checks outside record mode: the acting
lanes in ascending order, each at the low 32 bits of the base register plus the lane's offset, aligned to the access and inside
the buffer or window.
R223, R254, R255: the lanes of a .g access that passes its checks outside record mode lie at the virtual base plus the lane's
offset, aligned; within the register's limit they go to the physical base on the fast path, through its page's swizzle. DEDUCED: the
alignment of a .g access is that of the base plus the offset (log 29). -/
def Obligations.AccessAddresses : Prop :=
  (∀ (s : State) (x : AccOp), x.sp ≠ .g → 0 < x.n → s.recordMode = false → (s.plan x).chk = .ok →
    let a (j : Nat) : Nat := (s.sr x.an.val).toNat % 2 ^ 32 + s.laneOff x j
    (s.plan x).lanes.map (fun l => (l.j, l.va)) = (lanesOf (s.act x.g)).map (fun j => (j, a j))
    ∧ ∀ j ∈ lanesOf (s.act x.g), a j % x.n = 0
        ∧ a j + x.n ≤ (if x.sp = .s then s.curUnit.shBytes else bufSize (spBuf x.sp)))
  ∧ ∀ (s : State) (x : AccOp), x.sp = .g → 0 < x.n → s.recordMode = false → (s.plan x).chk = .ok →
    let a := s.curGrp.areg x.an.val
    (s.plan x).lanes.map (fun l => (l.j, l.va)) = (lanesOf (s.act x.g)).map (fun j => (j, aVb a + s.laneOff x j))
    ∧ (∀ j ∈ lanesOf (s.act x.g), (aVb a + s.laneOff x j) % x.n = 0 ∧ aVb a + s.laneOff x j + x.n ≤ 2 ^ 56)
    ∧ ∀ l ∈ (s.plan x).lanes, s.laneOff x l.j + x.n ≤ aLimit a →
        l.pa = aPa a (s.laneOff x l.j) ∧ l.ty = aType a ∧ l.home = aHome a ∧ permits (aPerm a) x.acc s.priv = true

/-- R257, R258: LD and LDX from an accumulator buffer land eight clk after the issue, of a b64 load one word in each destination
view; from shared memory, as one landing that
lowers outstanding counter 0, which the issue raises.
The model's choice: the clk of a shared landing beyond its least is free (log 5). -/
def Obligations.BufferLoadResults : Prop :=
  ∀ (s : State) (g : Guard) (sp : Space) (sz : Size) (sx row : Bool) (vd : View) (an : AReg) (vo : VSrc) (disp : BitVec 16),
    let i : Instr := if row then .ld g sp sz sx vd an vo disp else .ldx g sp sz sx vd an vo disp
    let x := loadOp g sp sz an vo disp row
    let b := s.begun i
    let l := (b.plan x).lanes
    let at_ (p : Lane) : Nat := if sp = .s then s.curUnit.shBase * 16384 + p.va else p.va
    let val (p : Lane) : Nat := extendTo x.n sx (s.curCore.bufNat (spBuf sp) (at_ p) x.n)
    let ws := l.flatMap (fun p => laneWrites vd x.n p.j (val p))
    s.issues i → s.act g ≠ 0 → sp ≠ .g → l ≠ [] →
    (sp ≠ .s → Yields i s (fun t => Lands s t 8 (l.map (fun p => .m (vkey vd p.j) (BitVec.ofNat 32 (val p))))
      ∧ (x.n = 8 → Lands s t 8 (l.map (fun p => .m (vkey (vnext vd 1) p.j) (BitVec.ofNat 32 (val p / 2 ^ 32)))))))
    ∧ (sp = .s → Yields i s (fun t =>
        (s.groupIn t).ctrs = s.curGrp.ctrs.set 0 (s.curGrp.ctrs.getD 0 0 + 1)
        ∧ ∃ f ∈ (s.coreIn t).sectors, f.gid = s.cur.gid ∧ f.writes = ws ∧ f.ctr = some 0 ∧ s.curCore.clk + 20 ≤ f.due))

/-- R257, R258: LD and LDX from global memory: counter 0 rises by the number of 32-byte sectors touched, and each lane's value, as
the issuing core reads it at its address, is among the writes of a landing that lowers the counter.
The model's choices: the clk of a landing is free (log 5) and a core reads its own path as log 3 says. -/
def Obligations.GlobalLoadResults : Prop :=
  ∀ (s : State) (g : Guard) (sz : Size) (sx row : Bool) (vd : View) (an : AReg) (vo : VSrc) (disp : BitVec 16),
    let i : Instr := if row then .ld g .g sz sx vd an vo disp else .ldx g .g sz sx vd an vo disp
    let x := loadOp g .g sz an vo disp row
    let b := s.begun i
    let p := b.plan x
    let r := ((b.noteX x).recordMarks p.marks).readLanes x.n p.lanes
    s.issues i → s.act g ≠ 0 → Yields i s (fun t =>
      (s.groupIn t).ctrs = s.curGrp.ctrs.set 0 (s.curGrp.ctrs.getD 0 0 + (sectorsOf p.lanes).length)
      ∧ ∀ q ∈ r.1, ∃ f ∈ (s.coreIn t).sectors, f.gid = s.cur.gid ∧ f.ctr = some 0 ∧ s.curCore.clk + 1 ≤ f.due
          ∧ ∀ w ∈ laneWrites vd x.n q.1.j (extendTo x.n sx q.2), w ∈ f.writes)

/-- R232, R257, R261: what a core stores, within one line whose home is not in host memory, it reads back, whatever copies it holds.
The model's choice: when a core keeps a copy (log 3). -/
def Obligations.CoreReadsItsStore : Prop :=
  ∀ (s : State) (c launch pa scope ty : Nat) (v : List Byte), s.memOk → srising s.exact → (kget c s.cores).isSome →
    s.canon pa % 128 + v.length ≤ 128 → regionOf (s.canon pa) ≠ some 2 →
    (∀ l, kget (s.canon pa / 128) (s.core c).lines = some l → l.data.length = 128 ∧ l.dirty.length = 128) →
    ((s.storeG c launch pa v scope ty).loadG c launch pa v.length scope ty).1 = v

/-- R261: ST and STX to an accumulator buffer or to shared memory. Where every bank stored to is BRIGHT a lane's bytes stand in the
buffer unless a higher lane stores over them, and no other byte of any buffer changes; no byte of memory does.
R117: a lane that stores into a bank that is not BRIGHT has its bytes on their way, to land when the last wake of its banks ends: the one
that runs, or 40 clk on.
The model's choice: a store takes effect at its issue and not after a send stage (log 76). -/
def Obligations.BufferStoreResults : Prop :=
  ∀ (s : State) (g : Guard) (sp : Space) (sz : Size) (row : Bool) (vd : VSrc) (an : AReg) (vo : VSrc) (disp : BitVec 16),
    let i : Instr := if row then .st g sp sz vd an vo disp else .stx g sp sz vd an vo disp
    let x := storeOp g sp sz an vo disp row
    let b := s.begun i
    let l := (b.plan x).lanes
    let key (p : Lane) : Nat := bufKey (spBuf sp) (b.bufAt sp p.va)
    s.issues i → s.act g ≠ 0 → sp ≠ .g → swf (0 : Byte) s.curCore.buf → fld s.cur.tail 12 2 ≠ 2 → Yields i s (fun t =>
      t.mem = s.mem
      ∧ ((∀ p ∈ l, ∀ k ∈ spanBanks (spBuf sp) (b.bufAt sp p.va) x.n, (s.curCore.sbank k).ready = true) →
          (∀ k, (∀ p ∈ l, k < key p ∨ key p + x.n ≤ k) → sget (0 : Byte) k (s.coreIn t).buf = sget (0 : Byte) k s.curCore.buf)
          ∧ ∀ p ∈ l, (∀ q ∈ l, p.j < q.j → key q + x.n ≤ key p ∨ key p + x.n ≤ key q) →
              ∀ n, n < x.n → sget (0 : Byte) (key p + n) (s.coreIn t).buf = (leBytes x.n (b.storeData x.n vd p.j)).getD n 0)
      ∧ ∀ p ∈ l, ∀ k ∈ spanBanks (spBuf sp) (b.bufAt sp p.va) x.n, (s.curCore.sbank k).ready = false →
          let ends (k : Nat) : Nat := (s.curCore.sbank k).wakeEnd s.curCore.clk 40
          ∃ f ∈ (s.coreIn t).sectors, f.gid = s.cur.gid ∧ f.fixed = true ∧ s.curCore.clk + 1 ≤ f.due
            ∧ (swf Bank.start s.curCore.scratch = true → ends k ≤ f.due
                ∧ (f.due = s.curCore.clk + 1 ∨ ∃ m ∈ spanBanks (spBuf sp) (b.bufAt sp p.va) x.n, f.due = ends m))
            ∧ f.writes = ((List.range x.n).zip (leBytes x.n (b.storeData x.n vd p.j))).map (fun q => .b (key p + q.1) q.2))

/-- R261: ST and STX to global memory where the store acts at the home (a scope above the core's, or a memory type that the core
keeps no copy of), with no exact-sum line open: a lane's bytes stand at their home unless a higher lane stores over them, and no
other byte of memory changes.
R207, R261: ST and STX to global memory that act in the core's own path change no byte of memory on a shader core that has room
for their lines: the bytes stay in its lines.
The model's choices: which accesses act in the core's own path, and which line makes room in a full one (log 3); a store takes effect
at its issue (log 76). -/
def Obligations.StoreResults : Prop :=
  (∀ (s : State) (g : Guard) (sz : Size) (row : Bool) (vd : VSrc) (an : AReg) (vo : VSrc) (disp : BitVec 16),
    let i : Instr := if row then .st g .g sz vd an vo disp else .stx g .g sz vd an vo disp
    let x := storeOp g .g sz an vo disp row
    let b := s.begun i
    let l := (b.plan x).lanes
    let key (p : Lane) (n : Nat) : Nat := s.canon (s.canon p.pa + n)
    s.issues i → s.act g ≠ 0 → s.memOk → s.exact = [] → (∀ p ∈ l, s.ownPath s.cur.core s.scope p.ty = false) → Yields i s (fun t =>
      (∀ a, (∀ p ∈ l, ∀ n, n < x.n → key p n ≠ s.canon a) → t.byte a = s.byte a)
      ∧ ∀ p ∈ l, (∀ q ∈ l, p.j < q.j → ∀ n m, n < x.n → m < x.n → key p n ≠ key q m) →
          ∀ n, n < x.n → t.byte (s.canon p.pa + n) = (leBytes x.n (b.storeData x.n vd p.j)).getD n 0))
  ∧ ∀ (s : State) (g : Guard) (sz : Size) (row : Bool) (vd : VSrc) (an : AReg) (vo : VSrc) (disp : BitVec 16),
    let i : Instr := if row then .st g .g sz vd an vo disp else .stx g .g sz vd an vo disp
    let l := ((s.begun i).plan (storeOp g .g sz an vo disp row)).lanes
    s.issues i → s.act g ≠ 0 → s.onShader = true → s.exact = [] → (∀ p ∈ l, s.ownPath s.cur.core s.scope p.ty = true) →
    s.curCore.lines.length + l.length ≤ s.curCore.lineRoom true →
    Yields i s (fun t => t.mem = s.mem ∧ ∀ p ∈ l, (kget (s.canon p.pa / 128) (s.coreIn t).lines).isSome)

/-- R262: ATOM. The lanes act in ascending order, each reading and rewriting its word; memory and buffers are what that leaves, and
every old value comes back in a landing that lowers counter 0.
R234, R262, R263: one lane of an atomic in memory, on a word of whose line the core holds no copy. The old value is the word at its
home, the new one stands there after, and no other byte of memory changes; the same for a word of the shared window.
The model's choices: the clk of a landing (log 5); an atomic acts at its issue (log 76). -/
def Obligations.AtomicResults : Prop :=
  (∀ (s : State) (g : Guard) (shared b64 : Bool) (op : Fin 10) (vd : View) (an : AReg) (vo : VSrc) (disp : BitVec 16),
    let i : Instr := .atom g shared b64 op vd an vo disp
    let x := atomOp g shared b64 an vo disp
    let b := s.begun i
    let p := b.plan x
    let k := if b64 then 2 else 1
    let r := ((b.noteX x).recordMarks p.marks).atomLanes x.sp x.n
      (fun j old => atomNew op.val x.n old (b.atomData vd x.n 0 j) (b.atomData vd x.n k j)) p.lanes
    s.issues i → s.act g ≠ 0 → fld s.cur.tail 12 2 ≠ 2 → Yields i s (fun t =>
      t.mem = r.2.mem ∧ (s.coreIn t).buf = r.2.curCore.buf
      ∧ ∀ q ∈ r.1, ∃ f ∈ (s.coreIn t).sectors, f.gid = s.cur.gid ∧ f.ctr = some 0
          ∧ ∀ w ∈ laneWrites vd x.n q.1.j q.2, w ∈ f.writes))
  ∧ ∀ (s : State) (n : Nat) (l : Lane) (f : Nat → Nat), s.exact = [] → n = 4 ∨ n = 8 →
    (s.memOk → kget (s.canon l.pa / 128) s.curCore.lines = none →
      let r := s.rmw .g n l f
      r.1 = s.nat l.pa n
      ∧ (∀ k, k < n → r.2.byte (l.pa + k) = (leBytes n (f (s.nat l.pa n))).getD k 0)
      ∧ ∀ a, (∀ k, k < n → s.canon (l.pa + k) ≠ s.canon a) → r.2.byte a = s.byte a)
    ∧ (s.live → swf (0 : Byte) s.curCore.buf →
      let r := s.rmw .s n l f
      let o := s.curUnit.shBase * 16384 + l.va
      r.1 = s.curCore.bufNat 4 o n
      ∧ (∀ k, k < n → r.2.curCore.bufByte 4 (o + k) = (leBytes n (f r.1)).getD k 0) ∧ r.2.mem = s.mem)

/-- R263, R264, R265: ATOMF.add adds each acting lane's operand to its word, rounding to nearest even; ATOMF.add.x adds it into the
exact-sum line of its word, which opens and stays open, since no core holds a copy of a line with an open word (R266).
R109, R265: SETTLE closes the line of a word, leaves its settled value at the word's home and returns it.
The model's choice: an atomic, an exact add among them, acts at its issue (log 76). -/
def Obligations.FloatAtomicResults : Prop :=
  ∀ (s : State) (g : Guard) (shared : Bool) (vd : VSrc) (vr : View) (an : AReg) (vo : VSrc) (disp : BitVec 16), s.act g ≠ 0 →
    (let i : Instr := .atomfAdd g shared vd an vo disp
     let x := atomOp g shared false an vo disp
     let b := s.begun i
     let r := ((b.noteX x).recordMarks (b.plan x).marks).atomLanes x.sp 4 (fun j old => fadd 0 0 false old (b.src 3 vd j).toNat) (b.plan x).lanes
     s.issues i → fld s.cur.tail 12 2 ≠ 2 → Yields i s (fun t => t.mem = r.2.mem ∧ (s.coreIn t).buf = r.2.curCore.buf))
    ∧ (let i : Instr := .atomfAddX g vd an vo disp
       let x := atomOp g false false an vo disp
       let b := s.begun i
       s.issues i → Yields i s (fun t =>
         t.exact = ((b.plan x).lanes.foldl (fun u l => u.addExact (s.canon l.pa) (b.src 3 vd l.j).toNat)
           ((b.noteX x).recordMarks (b.plan x).marks)).exact
         ∧ ((∀ c w, (kget w s.exact).isSome → kget (w / 128) (s.core c).lines = none) →
             (∀ l ∈ (b.plan x).lanes, s.canon l.pa % 4 = 0) → ∀ l ∈ (b.plan x).lanes, (kget (s.canon l.pa) t.exact).isSome)))
    ∧ (let i : Instr := .settle g vr an vo disp
       let x := atomOp g false false an vo disp
       let b := s.begun i
       let r := ((b.noteX x).recordMarks (b.plan x).marks).settleLanes (b.plan x).lanes
       s.issues i → Yields i s (fun t => t.mem = r.2.mem ∧ t.exact = r.2.exact
         ∧ (s.linesOk s.cur.core → ∀ l ∈ (b.plan x).lanes, ∀ e, let w := s.canon l.pa
             kget w s.exact = some e → w % 4 = 0 → s.badAt l.pa 4 = none → kget (w / 128) s.curCore.lines = none →
             let v := exactSettle e.u e.w e.nan e.pinf e.ninf
             kget w t.exact = none ∧ t.bytes w 4 = leBytes 4 v
             ∧ ∃ f ∈ (s.coreIn t).sectors, f.ctr = some 0 ∧ .m (vkey vr l.j) (BitVec.ofNat 32 v) ∈ f.writes)
         ∧ ∀ q ∈ r.1, ∃ f ∈ (s.coreIn t).sectors, f.gid = s.cur.gid ∧ f.ctr = some 0 ∧ ∀ w ∈ laneWrites vr 4 q.1.j q.2, w ∈ f.writes))

/-- R238, R267, R270, R271: FENCE delays the next bundle by its scope's guide, exactly so below pod scope and where the stream has
stored nothing outside the package, and above core scope leaves the core no copy; CLEAN leaves the lines of its range clean, INVAL
drops them; the dirty bytes of the lines that any of the three cleans or drops stand at their homes after it; PREF changes no register, and no byte of memory where no exact-sum line is open and the core holds no dirty byte that a
line making room would write home.
The model's choices: what a fence drops (log 3), and its free time (log 5). -/
def Obligations.OrderingResults : Prop :=
  ∀ (s : State) (g : Guard) (l2 : Bool) (an : AReg) (vo : VSrc) (disp : BitVec 16) (r : RangeSel), s.act g ≠ 0 →
    (s.issues (.fence g) → Yields (.fence g) s (fun t =>
      let n := s.curCore.pclk + (if s.scope = 0 ∨ s.scope = 6 then 2 else if s.scope ≤ 2 then 40 else 200)
      n ≤ (s.slotIn t).next
      ∧ (s.scope ≤ 3 ∨ s.scope = 6 ∨ s.curGrp.far.getD s.cur.slot false = false → (s.slotIn t).next = max s.succClk n)
      ∧ (1 ≤ s.scope → s.scope ≤ 5 → (s.coreIn t).lines = [] ∧ (s.linesOk s.cur.core → ∀ k, HomeBytes s t s.cur.core k))))
    ∧ (s.issues (.clean g r) → Yields (.clean g r) s (fun t => s.curCore.pclk + 1 ≤ (s.slotIn t).next
        ∧ ∀ k ∈ ((s.begun (.clean g r)).linesIn r).1, (∀ l, kget k (s.coreIn t).lines = some l → l.dirty = List.replicate 128 false)
            ∧ (s.linesOk s.cur.core → HomeBytes s t s.cur.core k)))
    ∧ (s.issues (.inval g r) → Yields (.inval g r) s (fun t => s.curCore.pclk + 1 ≤ (s.slotIn t).next
        ∧ ∀ k ∈ ((s.begun (.inval g r)).linesIn r).1, kget k (s.coreIn t).lines = none
            ∧ (s.linesOk s.cur.core → HomeBytes s t s.cur.core k)))
    ∧ (s.issues (.pref g l2 an vo disp) → Yields (.pref g l2 an vo disp) s (fun t =>
        (s.exact = [] → (∀ p ∈ s.curCore.lines, ∀ k, p.2.dirty.getD k false = false) → t.mem = s.mem)
        ∧ SameRegisters s t ∧ (s.slotIn t).pc = s.succPc ∧ (s.slotIn t).next = s.succClk))

/-- R222, R268, R269: XLATE writes the translation of its address to its register before the next bundle, four clk on; PROBE
lands the status of each acting lane's address after four clk and never faults. -/
def Obligations.TranslationResults : Prop :=
  ∀ (s : State) (g : Guard) (nf : Bool) (an : AReg) (sa : SReg) (sz : Size) (vd : View) (vo : VSrc) (disp : BitVec 16), s.act g ≠ 0 →
    (let va := (s.sr sa.val).toNat % 2 ^ 56
     s.issues (.xlate g nf an sa) → swf (0 : BitVec 192) s.curGrp.aregs → Yields (.xlate g nf an sa) s (fun t =>
       (s.groupIn t).areg an.val = (match s.lookup s.cur.core s.root va with
         | some (.ok (leaf, size)) => xlateWord va leaf size
         | _ => BitVec.ofNat 192 va)
       ∧ s.curCore.pclk + 4 ≤ (s.slotIn t).next))
    ∧ (let i : Instr := .probe g sz vd an vo disp
       let x := probeOp g sz.bytes an vo disp
       let b := s.begun i
       s.issues i → Yields i s (fun t => s.curCore.pclk + 4 ≤ (s.slotIn t).next
         ∧ Lands s t 4 ((lanesOf (s.act g)).map (fun j =>
             Wr.m (vkey vd j) (BitVec.ofNat 32 (b.probeWord (s.curGrp.areg an.val) x.n (b.laneOff x j)))))))

/-! ## Class X: engines -/

/-- R283, R286 to R289, R291, R293: the multiplier array accepts MMA, MMAG, ACCZ and MXLD at the end of its queue, to begin two
engine clk on at the earliest and when its predecessor has streamed; ACCRD joins the drain queue. The operands are captured, the
bank set is reserved, and counter 2 rises.
The model's choice: the row list of MMAG is read at its issue (log 37). -/
def Obligations.ArrayAcceptance : Prop :=
  ∀ (s : State) (g : Guard) (o : MmaOp) (od : AccrdOp) (bank : Fin 8) (m n : Fin 128) (sw : Bool) (sW sF : SReg) (nb : Fin 1024),
    s.act g ≠ 0 →
    let c := s.curCore
    let took (i : Instr) (args : List Nat) (stream tail : Nat) (l : List (Nat × Nat)) (t : State) : Prop :=
      let b := max (c.eclk + 2) c.arrayB
      Accepted s t 2 l ∧ (s.coreIn t).arrayQ = c.arrayQ ++ [s.cmdOf i args allLanes [] b (b + stream + tail)]
        ∧ (s.coreIn t).arrayB = b + stream
    let a := s.mmaArgs o
    let rate := o.nb.val * max (cpb (fmtA a)) (cpb (fmtW o c.latchDesc a))
    (s.issues (.mma g o) → Yields (.mma g o) s (took (.mma g o) (a ++ c.mmaRows false o a) rate 24 (s.mmaSet false o)))
    ∧ (s.issues (.mmag g o) → Yields (.mmag g o) s (fun t =>
        took (.mmag g o) (a ++ c.mmaRows true o a) rate 24 (s.mmaSet true o) t ∧ (s.coreIn t).gather = none))
    ∧ (s.issues (.accz g bank m n) → Yields (.accz g bank m n) s
        (took (.accz g bank m n) [] (ceilDiv ((m.val + 1) * (n.val + 1) * 4) 1024) 4 [(120 + bank.val, 1)]))
    ∧ (s.issues (.mxld g sw sW sF n nb) → let x := s.mxldArgs sw sW sF
        Yields (.mxld g sw sW sF n nb) s (fun t =>
          took (.mxld g sw sW sF n nb) x (ceilDiv (latchBytes (mxldFmt x) (n.val + 1) nb.val) 512) 4 (s.mxldSet sw sW sF n nb) t
          ∧ (s.coreIn t).lastMxld = some { valid := true, fmt := mxldFmt x, scaled := sw, n1 := n.val, nb := nb.val, rows := [], scales := [] }))
    ∧ (s.issues (.accrd g od) → Yields (.accrd g od) s (fun t =>
        Accepted s t 2 (s.accrdSet od)
        ∧ ∃ q, (s.coreIn t).drainQ = c.drainQ ++ [q] ∧ q.op = .accrd g od ∧ q.gid = s.cur.gid ∧ q.args = s.accrdArgs od
            ∧ q.start = max (c.eclk + 2) c.drainB ∧ (s.coreIn t).drainB ≤ q.due ∧ q.due = (s.coreIn t).drainB + 12))

/-- R281, R286, R287, R288, R289: the command at the head of the array queue, once due and its bank awake, acts: MMA and MMAG leave
in C element (i, j) the accumulation of row i of A (the row that the list names) with row j of W, from zero or from what stood
there; rows of 0xFFFF and all other bytes keep their contents; ACCZ leaves zeros; MXLD fills the latch. Then its reservations go
and counter 2 falls.
R291, R292, R293: the drain command that is due converts a rectangle of a C bank: into register rows, of the banks within the
group's budget, or into rows of the A buffer, where it packs the converted words; then its reservations go and counter 2 falls.
The model's choice: a command acts as a whole at its completion (log 13). -/
def Obligations.ArrayResults : Prop :=
  (∀ (s : State) (core id : Nat) (q : Cmd) (r : List Cmd), (kget core s.cores).isSome → q.id = id →
    let c := s.core core
    c.arrayQ = q :: r → (∀ x ∈ r, x.id ≠ id) → q.ran = false → q.due ≤ c.eclk → (c.wakeFor (arrayDest q.op)).2 = 0 →
    q.gid < ghostBase → (kget q.gid c.groups).isSome → swf (0 : Byte) c.buf →
    ∃ t, exec (.arrayCommandComplete core id) s = .next t ∧ t.mem = s.mem ∧ (t.core core).arrayQ = r
      ∧ (t.core core).resv = c.resv.filter (fun x => x.cmd != id) ∧ Falls s t core q.gid 2
      ∧ (∀ g b m n, q.op = .accz g b m n → ∀ i j, i ≤ m.val → j ≤ n.val → (t.core core).bufNat 3 (cOff b.val i j) 4 = 0)
      ∧ (∀ g sw sW sF n nb, q.op = .mxld g sw sW sF n nb → (t.core core).buf = c.buf ∧ (t.core core).latch =
          { valid := true, fmt := mxldFmt q.args, scaled := sw, n1 := n.val, nb := nb.val
            rows := (List.range (n.val + 1)).map (fun j => c.bufRead 1
              (fld (q.args.getD 0 0) 0 23 + j * fld (q.args.getD 0 0) 32 23) (rowBytes (mxldFmt q.args) nb.val))
            scales := if sw then (List.range (n.val + 1)).map (fun j => c.bufRead 1
              (fld (q.args.getD 1 0) 0 23 + j * fld (q.args.getD 1 0) 32 23) nb.val) else [] })
      ∧ (∀ g o gat, (q.op = .mma g o ∧ gat = false ∨ q.op = .mmag g o ∧ gat = true) →
          (∀ x ∈ mmaSpans gat o q.args (q.args.drop 5), x.beyond = none) →
          let a := q.args
          let nb := o.nb.val
          let fa := fmtA a
          let fw := fmtW o c.latch a
          let row (i : Nat) : Nat := (a.drop 5).getD i 0xFFFF
          (∀ i j, i ≤ o.m1.val → j ≤ o.n1.val → row i ≠ 0xFFFF →
            let xs := eltsOf fa (32 * nb) (c.bufRead 2 (fld (a.getD 0 0) 0 22 + row i * fld (a.getD 0 0) 32 22) (rowBytes fa nb))
            let sx := c.scalesAt 2 (fld (a.getD 1 0) 0 22 + row i * fld (a.getD 1 0) 32 22) nb o.sa
            let ys := eltsOf fw (32 * nb) (if o.wl then c.latch.rows.getD j []
              else c.bufRead 1 (fld (a.getD 2 0) 0 23 + j * fld (a.getD 2 0) 32 23) (rowBytes fw nb))
            let sy := if o.wl then (if o.sw then (c.latch.scales.getD j []).map BitVec.toNat else List.replicate nb 127)
              else c.scalesAt 1 (fld (a.getD 3 0) 0 23 + j * fld (a.getD 3 0) 32 23) nb o.sw
            (t.core core).bufNat 3 (cOff o.bank.val i j) 4
              = mmaElt (fa == 8 && !o.sa) fa fw xs sx ys sy nb (if o.acc then c.bufNat 3 (cOff o.bank.val i j) 4 else 0) % 2 ^ 32)
          ∧ ∀ k, (∀ i j, i ≤ o.m1.val → j ≤ o.n1.val → row i ≠ 0xFFFF →
                k < bufKey 3 (cOff o.bank.val i j) ∨ bufKey 3 (cOff o.bank.val i j) + 4 ≤ k) →
              sget (0 : Byte) k (t.core core).buf = sget (0 : Byte) k c.buf))
  ∧ ∀ (s : State) (core id : Nat) (q : Cmd) (g : Guard) (o : AccrdOp), (kget core s.cores).isSome → q.op = .accrd g o →
    let c := s.core core
    c.drainQ.find? (fun x => x.id == id) = some q → q.due ≤ c.eclk → q.gid < ghostBase → (kget q.gid c.groups).isSome →
    (if o.reg then (c.wakeRegs q.gid [o.mreg.val]).2 else (c.wakeFor ((accrdSpans o q.args).flatMap Span.banks)).2) = 0 →
    let x := q.args.getD 0 0
    let word (i j : Nat) : Nat := c.bufNat 3 (cOff o.bank.val (fld x 0 7 + i) (fld x 8 7 + j)) 4
    let conv (i j : Nat) : Nat := accrdConv (if o.i32 then 10 else 0) o.fmt.val (word i j)
    ∃ t, exec (.accrdComplete core id) s = .next t ∧ t.mem = s.mem ∧ (t.core core).drainQ = c.drainQ.filter (fun y => y.id != id)
      ∧ (t.core core).resv = c.resv.filter (fun y => y.cmd != id) ∧ Falls s t core q.gid 2
      ∧ (o.reg = true → (t.core core).buf = c.buf
          ∧ (swf (0 : W32) (c.group q.gid).mat → o.mreg.val < (c.group q.gid).budget → o.m1.val < 32 → o.n1.val < 32 →
              ∀ i j, i ≤ o.m1.val → j ≤ o.n1.val → (t.group core q.gid).elem (elemKey o.mreg.val i j)
                = BitVec.ofNat 32 (accrdWord (if o.i32 then 10 else 0) o.fmt.val (word i j))))
      ∧ (o.reg = false → (t.core core).buf = (c.runAccrd o q.args).buf)
      ∧ (o.reg = false → o.mx = false → swf (0 : Byte) c.buf →
          let y := q.args.getD 1 0
          let n := (o.n1.val + 1) * fBits o.fmt.val / 8
          let at_ (i : Nat) : Nat := fld y 0 22 + i * fld y 32 22
          ∀ i, i ≤ o.m1.val → (∀ k, i < k → k ≤ o.m1.val → at_ i + n ≤ at_ k ∨ at_ k + n ≤ at_ i) →
            (t.core core).bufRead 2 (at_ i) n = packElts o.fmt.val ((List.range (o.n1.val + 1)).map (conv i)))

/-- R272, R274, R352: COPY is accepted at the end of its channel's queue, with its operands and the channel's next command number;
counter 1 rises. In an empty channel it begins: the write pointer takes its number and start, and the first bytes come nine clk
on at the earliest.
R233, R274, R275, R276: a running channel whose clk has come and whose next bytes nothing stops copies the pieces that end with a
unit of the destination and moves its pointer; at a fault it stops and the fault waits at the stream that issued the command; at a
page that is absent it waits under a service entry; after its last row it raises the semaphore that the command asks for, counter 1
falls, and the next command follows. R13: a raise on another die is sent first, and stands when its crossings are over.
The model's choices: the raise comes at completion (log 39); traffic waits for a channel that retrains as the free choice of its
channel says (log 6). -/
def Obligations.CopyResults : Prop :=
  (∀ (s : State) (g : Guard) (o : CopyOp), s.issues (.copy g o) → s.act g ≠ 0 →
    let ch := (kget o.ch.val s.curCore.chans).getD Channel.start
    let a := s.copyArgs o ++ [ch.cmdNo]
    Yields (.copy g o) s (fun t => Accepted s t 1 (s.cpSet o)
      ∧ ∃ h, kget o.ch.val (s.coreIn t).chans = some h
          ∧ h.q = ch.q ++ [s.cmdOf (.copy g o) a allLanes [] s.curCore.clk 0] ∧ h.cmdNo = (ch.cmdNo + 1) % 256
          ∧ (ch.q = [] → h.running = true ∧ h.row = 0 ∧ h.col = 0 ∧ h.wp = cpPtr ch.cmdNo (cpDst o a 0).toNat
              ∧ s.curCore.clk + 9 ≤ h.nextAt)))
  ∧ ∀ (s : State) (core ch : Nat) (h : Channel) (q : Cmd) (r : List Cmd) (g : Guard) (o : CopyOp), (kget core s.cores).isSome →
    let c := s.core core
    kget ch c.chans = some h → h.q = q :: r → q.op = .copy g o → h.running = true →
    (let l := s.cpGoes q o ch h
     let n := cpLen l
     let x := (cpSrc o q.args h.row + h.col).toNat
     let y := (cpDst o q.args h.row + h.col).toNat
     let p := s.cpPlan q o ch h l
     let b := s.cpBanks q o y n
     let f := s.cpRead q o p.runs
     let v := h.held ++ f.1
     let e := cpAfter q.args l h.row h.col
     ∀ m, s.cpDest q o ch h = .ok m → h.stopped = false → h.page = none → h.row < cpRows q.args → h.nextAt ≤ c.clk → h.tick ≤ s.now → h.wall = 0 →
     s.cpStop q o ch h = none → c.slotsUsed + (s.cpSectors q p m o.src y n).length ≤ 512 → ((s.core b.1).wakeFor b.2).2 = 0 →
     s.cpLink q o p m y n = 0 →
     let w := f.2.cpWrite q o m y (v.take n)
     ∃ t, exec (.copyProgress core ch) s = .next t ∧ t.mem = w.mem ∧ (∀ d, (t.core d).buf = (w.core d).buf)
       ∧ (q.core = core → o.src = .a → o.dst = .w → h.held = [] → l = [(h.row, h.col, n)] → p.stop = none →
           swf (0 : Byte) c.buf → y + n ≤ bufSize 1 →
           t.mem = s.mem ∧ ∀ i, i < n → (t.core core).bufByte 1 (y + i) = c.bufByte 2 (x + i))
       ∧ ∃ h', kget ch (t.core core).chans = some h' ∧ h'.q = q :: r ∧ h'.row = e.1 ∧ h'.col = e.2 ∧ h'.held = v.drop n
           ∧ h'.wp = cpPtr (q.args.getD 4 0) (cpAt o q.args e) ∧ h'.nextAt = c.clk + 1)
    ∧ (∀ addr, h.stopped = false → h.page = none → h.row < cpRows q.args → s.cpStop q o ch h = some (.fault addr) → q.gid < ghostBase →
        q.gcore = core → (kget q.gid c.groups).isSome →
        ∃ t, exec (.copyPageFault core ch) s = .next t ∧ t.mem = s.mem
          ∧ kget ch (t.core core).chans = some { h with stopped := true }
          ∧ (t.group core q.gid).deferred = (s.group core q.gid).deferred
              ++ [{ trapOf 0x18 4 0 (ch + q.args.getD 4 0 % 256 * 2 ^ 8) addr h.wp with strm := q.slot }])
    ∧ (∀ va a, h.stopped = false → h.page = none → h.row < cpRows q.args → s.cpStop q o ch h = some (.page va a) →
        ∃ t, exec (.copyPageFault core ch) s = .next t ∧ t.mem = s.mem
          ∧ kget ch (t.core core).chans = some { h with page := some s.fresh }
          ∧ ∃ e, t.svcHeld = s.svcHeld ++ [e] ∧ e.kind = 4 ∧ e.va = va ∧ e.access = a.code ∧ e.token = s.fresh)
    ∧ (cpRows q.args ≤ h.row → q.gid < ghostBase → (kget q.gid c.groups).isSome →
        let d := if o.remote then cpCore o q.args core else core
        let ticks := cpOver o q + s.linkWait (coreDie core) (coreDie (cpCore o q.args core))
        (o.raise = true → o.remote = true → h.sent = false → ticks ≠ 0 → ∃ t, exec (.copyComplete core ch) s = .next t ∧ t.mem = s.mem
          ∧ kget ch (t.core core).chans = some { h with sent := true, tick := s.now + ticks }
          ∧ t.group core q.gid = s.group core q.gid)
        ∧ ((o.raise = true → o.remote = true → h.sent = false → ticks = 0) → h.tick ≤ s.now →
          ∃ t, exec (.copyComplete core ch) s = .next t ∧ t.mem = s.mem ∧ Falls s t core q.gid 1
          ∧ (∃ h', kget ch (t.core core).chans = some h' ∧ h'.q = r ∧ (r = [] → h'.running = false))
          ∧ (t.core core).resv = c.resv.filter (fun y => y.cmd != q.id)
          ∧ (o.raise = true → (kget d s.cores).isSome → (t.core d).sem o.sem.val = min (2 ^ 32 - 1) ((s.core d).sem o.sem.val + 1))))

/-- R294, R295, R300: SORT and MERGE join the queue of their core's engine, and counter 4 rises.
R297, R298, R299, R300: a sort engine's head command that is due: SORT leaves its records in the stable order of their keys,
MERGE merges its runs from the record that it has reached; a fault ends a SORT with no byte written, and stops a MERGE, and waits
at the stream that issued the command. Counter 4 falls as a command ends. R13: what crosses the bridge takes its time first.
R298: the records that a SORT on buffers leaves in its destination are a permutation of those of its source, in the order of their
keys, equal keys in their order of the source; the same for a SORT in memory that acts at the homes, through pages that the core's TLB
holds; a MERGE on a buffer leaves such a permutation of its two runs, which are in order, run A before run B among equal keys.
The model's choices: a SORT acts at its completion (log 13); its number in a record (log 39). -/
def Obligations.SortResults : Prop :=
  (∀ (s : State) (g : Guard) (o : SortOp), s.act g ≠ 0 →
    let e := sortEngine s.cur.core
    let took (i : Instr) (a : List Nat) (t : State) : Prop := Accepted s t 4 (arrSet (cmdArrays i a))
      ∧ ∃ q, t.engineQ e = s.engineQ e ++ [q] ∧ q.op = i ∧ q.args = a ∧ q.core = s.cur.core ∧ q.gcore = s.cur.core ∧ q.gid = s.cur.gid ∧ q.scope = s.scope
          ∧ (s.engineQ e = [] → q.start = s.now ∧ s.now + 200 * s.period (e / 32 * 256 + e % 32 * 4) ≤ q.due)
    (s.issues (.sort g o) → Yields (.sort g o) s (took (.sort g o) (s.sortArgs o)))
    ∧ (s.issues (.merge g o) → Yields (.merge g o) s (took (.merge g o) (s.mergeArgs o))))
  ∧ (∀ (o : SortOp) (l : List (Nat × Nat)),
    let r := lsort (fun x y => precedes o x.1 y.1) l
    r.Perm l ∧ r.Pairwise (fun x y => precedes o y.1 x.1 = false)
      ∧ ∀ k, r.filter (fun x => keyT o.key.val x.1 == k) = l.filter (fun x => keyT o.key.val x.1 == k))
  ∧ ∀ (s : State) (engine id : Nat) (q : Cmd) (r : List Cmd) (g : Guard) (o : SortOp),
    s.engineQ engine = q :: r → q.id = id → q.bad = false → kget engine s.sortPage = none → q.due ≤ s.now → q.tick ≤ s.now →
    (kget q.core s.cores).isSome → s.hasGroup q.gcore q.gid →
    let ended (t : State) : Prop := (t.engineQ engine).map Cmd.id = r.map Cmd.id ∧ Falls s t q.gcore q.gid 4
      ∧ (t.core q.core).resv = (s.core q.core).resv.filter (fun y => y.cmd != id)
    let fault (a n : Nat) (t : State) : Prop := (t.group q.gcore q.gid).deferred = (s.group q.gcore q.gid).deferred
      ++ [{ trapOf 0x1B 4 0 (engine / 32 + engine % 32 * 2 ^ 8 + id % 2 ^ 16 * 2 ^ 16) a n with strm := q.slot }]
    let x (i : Nat) : Nat := q.args.getD i 0
    let kb := keyBytes o
    -- bytes of a buffer operand: shared memory through the unit's window, else the A buffer
    let at_ (k : Core) (sp : Space) (a n : Nat) : Nat := if sp = .s then k.bufNat 4 (q.base + a) n else k.bufNat 2 a n
    let rec_ (k : Core) (sp : Space) (ka va i : Nat) : Nat × Nat :=
      (at_ k sp (ka + i * kb) kb, if o.vals then at_ k sp (va + i * 4) 4 else at_ k sp (ka + i * kb) kb)
    let recs (ka va n : Nat) : List (Nat × Nat) := (List.range n).map (rec_ (s.core q.core) o.src ka va)
    let ordered (l : List (Nat × Nat)) : Prop := l.Pairwise (fun y z => precedes o z.1 y.1 = false)
    let sorts (m l : List (Nat × Nat)) : Prop := l.Perm m ∧ ordered l
      ∧ ∀ k, l.filter (fun y => keyT o.key.val y.1 == k) = m.filter (fun y => keyT o.key.val y.1 == k)
    let apart (ka va n : Nat) : Prop := o.vals = false ∨ ka + n * kb ≤ va ∨ va + n * 4 ≤ ka
    let holds (t : State) (ka va : Nat) (l : List (Nat × Nat)) : Prop := ∀ i, i < l.length →
      at_ (t.core q.core) o.dst (ka + i * kb) kb = (l.getD i (0, 0)).1
      ∧ (o.vals = true → at_ (t.core q.core) o.dst (va + i * 4) 4 = (l.getD i (0, 0)).2)
    (q.wall ≠ 0 → (∀ y ∈ r, y.id ≠ id) → ∃ t, exec (.sortComplete engine id) s = .next t ∧ t.mem = s.mem ∧ t.cores = s.cores
        ∧ t.engineQ engine = { q with wall := 0, tick := s.now + q.wall } :: r)
    ∧ (q.wall = 0 → (s.sortWake q).2 = 0 → q.op = .sort g o → s.sortStops q = none → ∃ t, exec (.sortComplete engine id) s = .next t
        ∧ t.mem = (s.runSort q o).mem ∧ (t.core q.core).buf = ((s.runSort q o).core q.core).buf ∧ ended t
        ∧ (o.raise = true → (t.core q.core).sem o.sem.val = min (2 ^ 32 - 1) ((s.core q.core).sem o.sem.val + 1))
        ∧ (o.src ≠ .g → o.dst ≠ .g → swf (0 : Byte) (s.core q.core).buf → apart (x 2) (x 3) (x 4) →
            ∃ l, sorts (recs (x 0) (x 1) (x 4)) l ∧ holds t (x 2) (x 3) l)
        ∧ (o.src = .g → o.dst = .g → o.vals = false → q.away = false → q.scope ≠ 0 → q.scope ≠ 6 → s.memOk → s.exact = [] →
            (s.core q.core).lines = [] →
            let pa (i j : Nat) : Nat := s.canon (s.cpPa q.core q.root (x i + j * kb)).1
            (∀ j, j < x 4 → (tlbFind (s.core q.core).tlb q.root ((x 2 + j * kb) % 2 ^ 56)).isSome ∧ regionOf (pa 0 j) ≠ some 2
              ∧ ∀ k, k < x 4 → k ≠ j → ∀ m n, m < kb → n < kb → s.canon (pa 2 j + m) ≠ s.canon (pa 2 k + n)) →
            ∃ l, sorts ((List.range (x 4)).map (fun j => (s.nat (pa 0 j) kb, s.nat (pa 0 j) kb))) l
              ∧ ∀ j, j < x 4 → t.nat (pa 2 j) kb = (l.getD j (0, 0)).1))
    ∧ (q.wall = 0 → (s.sortWake q).2 = 0 → q.op = .merge g o → (s.runMerge q o (sget (0, 0) engine s.sortPos)).stop = none →
        ∃ t, exec (.sortComplete engine id) s = .next t ∧ t.mem = (s.runMerge q o (sget (0, 0) engine s.sortPos)).s.mem ∧ ended t
          ∧ (sget (0, 0) engine s.sortPos = (0, 0) → o.src = o.dst → o.src ≠ .g → swf (0 : Byte) (s.core q.core).buf →
              apart (x 4) (x 5) (x 6 + x 7) → (∀ d ∈ cmdArrays q.op q.args, ∀ y ∈ cmdArrays q.op q.args,
                d.dest = true → y.dest = false → d.overlaps y = false) →
              ordered (recs (x 0) (x 1) (x 6)) → ordered (recs (x 2) (x 3) (x 7)) →
              ∃ l, sorts (recs (x 0) (x 1) (x 6) ++ recs (x 2) (x 3) (x 7)) l ∧ holds t (x 4) (x 5) l))
    ∧ (∀ a, q.op = .sort g o → s.sortStops q = some (.fault a) → ∃ t, exec (.sortEngineFault engine id) s = .next t
        ∧ t.mem = s.mem ∧ (∀ d, (t.core d).buf = (s.core d).buf) ∧ ended t ∧ fault a 0 t)
    ∧ (∀ a n, q.op = .merge g o → (s.runMerge q o (sget (0, 0) engine s.sortPos)).stop = some (.fault a, n) →
        ∃ t, exec (.sortEngineFault engine id) s = .next t ∧ t.mem = s.mem
          ∧ t.engineQ engine = { q with bad := true } :: r.map (fun x => if x.id == id then { x with bad := true } else x) ∧ fault a n t)

/-- R301 to R306, R366: ORDW goes to its region's order unit, where it creates the region state with E = 0, and counter 4 rises; at
the unit it enters its window in the order of its numbers, E advances, and a number that has entered before is the
ordered-sequence fault; it completes when no earlier entry that overlaps it is left. ORDD frees its entry and commits its samples,
or raises that fault.
R151: ORDD counts in counter 4 until its answer is back.
The model's choice: ORDW reaches its unit, and ORDD's answer comes back, after a free time (log 5). -/
def Obligations.OrderResults : Prop :=
  (∀ (s : State) (g : Guard) (sR sQ : SReg) (m : Fin 16) (i : Fin 32), s.act g ≠ 0 →
    let r := fld (s.sr sR.val).toNat 0 32
    let n := fld (s.sr sQ.val).toNat 0 32
    let l := s.countsIn s.curGrp.launch
    let u := s.ounit (orderUnit r)
    (s.issues (.ordw g sR sQ m i) → Yields (.ordw g sR sQ m i) s (fun t => Kept s t ∧ t.mem = s.mem ∧ Counts s t 4
      ∧ (∃ c, (t.ounit (orderUnit r)).toEnter = u.toEnter ++ [c] ∧ c.args = [r, n, s.ordMask m.val i.val] ∧ c.launch = l
          ∧ c.gcore = s.cur.core ∧ c.gid = s.cur.gid)
      ∧ (t.ounit (orderUnit r)).regions = (if (u.region l r).isSome then u.regions else u.regions ++ [{ launch := l, r := r, e := 0, window := [] }])))
    ∧ (s.issues (.ordd g sR sQ) → ∀ x e, u.region l r = some x → x.window.find? (fun y => y.q == n) = some e →
        Yields (.ordd g sR sQ) s (fun t => Kept s t ∧ (s.scope = 0 ∨ s.scope = 6 → t.mem = s.mem) ∧ Counts s t 4
          ∧ (∃ f ∈ (s.coreIn t).sectors, f.gid = s.cur.gid ∧ f.ctr = some 4 ∧ f.writes = [] ∧ s.curCore.clk + 1 ≤ f.due)
          ∧ (∃ y, (t.ounit (orderUnit r)).region l r = some y ∧ y.e = x.e ∧ y.window = x.window.filter (fun z => z.q != n))
          ∧ (∀ c, kget s.lpb.ident s.stats = some c → kget s.lpb.ident t.stats
              = some { c with samples := (c.samples + (List.range 256).countP (fun k => bitN e.mask k)) % 2 ^ 64 })))
    ∧ (s.issues (.ordd g sR sQ) → s.cur.gid < ghostBase → (∀ x, u.region l r = some x → x.window.find? (fun y => y.q == n) = none) →
        Yields (.ordd g sR sQ) s (fun t => Kept s t ∧ Counts s t 4
          ∧ (s.groupIn t).deferred = s.curGrp.deferred ++ [{ trapOf 0x1C 4 0 r n 0 with strm := s.cur.slot }])))
  ∧ ∀ (s : State) (ou id : Nat) (c : Cmd) (x : Region), s.hasGroup c.gcore c.gid →
    let u := s.ounit ou
    let r := c.args.getD 0 0
    let n := c.args.getD 1 0
    u.region c.launch r = some x →
    (u.toEnter.find? (fun y => y.id == id) = some c → c.due ≤ s.now →
      (n = x.e → x.window.length < 64 → u.pool < 1024 → ∃ t, exec (.ordwEnter ou id) s = .next t ∧ t.mem = s.mem
          ∧ (t.ounit ou).entered = u.entered ++ [c] ∧ (t.ounit ou).toEnter = u.toEnter.filter (fun y => y.id != id)
          ∧ ∃ y, (t.ounit ou).region c.launch r = some y ∧ y.e = n + 1
              ∧ y.window = x.window ++ [{ q := n, mask := c.args.getD 2 0, cmd := id }])
      ∧ (n < x.e → ∃ t, exec (.ordwEnter ou id) s = .next t ∧ t.mem = s.mem ∧ Falls s t c.gcore c.gid 4
          ∧ (t.group c.gcore c.gid).deferred = (s.group c.gcore c.gid).deferred ++ [{ trapOf 0x1C 4 0 r n 0 with strm := c.slot }]
          ∧ (t.ounit ou).toEnter = u.toEnter.filter (fun y => y.id != id)))
    ∧ (u.entered.find? (fun y => y.id == id) = some c →
      ((∀ e ∈ x.window, e.q < n → e.mask &&& c.args.getD 2 0 = 0) → ∃ t, exec (.ordwComplete ou id) s = .next t
          ∧ Falls s t c.gcore c.gid 4 ∧ (t.ounit ou).entered = u.entered.filter (fun y => y.id != id)
          ∧ (c.scope = 0 ∨ c.scope = 6 → t.mem = s.mem))
      ∧ ((∃ e ∈ x.window, e.q < n ∧ e.mask &&& c.args.getD 2 0 ≠ 0) → exec (.ordwComplete ou id) s = .next s))

/-! ## Class E: queues, tables, counters -/

/-- R36, R37, R151, R322, R323: FORK enters its child in the fork queue or the overflow area, or runs it at once in the issuing
group; SPAWN adds its grid to its launch; LAUNCH enters an independent launch or answers the reject code; JOIN goes on without
children, its core's dirty bytes gone home and no copy kept (R239), and waits with them; TASKEND ends the group, or returns from an
inline child, which ends as a JOIN does. The LPB that they name is read and checked by the model's `readLpb`. The model's choices: an
inline child (logs 15, 82); the bytes of an overflow entry (log 6); a JOIN by one PC slot is the group's (log 64); what a fence leaves
of its core's copies (logs 3, 41). -/
def Obligations.TaskResults : Prop :=
  ∀ (s : State) (g : Guard) (sL sD : SReg), s.act g ≠ 0 → s.housed →
    (let i : Instr := .fork g sL
     let b := s.begun i
     s.issues i → ∀ l t e, b.readLpb (b.lpbVa sL) true = .ok l t e →
      let child := { b.forkChild l t e with forkDie := some (coreDie s.cur.core) }
      (b.forkTo l = .queue → Yields i s (fun u => Kept s u ∧ Counts s u 6 ∧ u.launches = kset s.fresh child s.launches
        ∧ (s.unitIn u).children = s.curUnit.children + 1
        ∧ (s.coreIn u).accepts = s.curCore.accepts ++ [(s.fresh, s.cur.gid, s.curCore.clk + 40, 0)]))
      ∧ (b.forkTo l = .spill → Yields i s (fun u => Kept s u ∧ Counts s u 6
        ∧ u.launches = kset s.fresh { child with inOvf := true } s.launches ∧ (s.unitIn u).children = s.curUnit.children + 1
        ∧ kget s.curGrp.launch u.ovf = some (((kget s.curGrp.launch s.ovf).getD []) ++ [s.fresh])))
      ∧ (b.forkTo l = .inline → Yields i s (fun u => Counts s u 6 ∧ (s.groupIn u).launch = s.fresh
        ∧ (s.groupIn u).inline.length = s.curGrp.inline.length + 1 ∧ (s.groupIn u).inlineDepth = min 15 (s.curGrp.inlineDepth + 1)
        ∧ (s.groupIn u).slot0.pc = BitVec.ofNat 32 (l.roles.headD { seg := 0, entry := 0, budget := 1, count := 1, role := 1, dict := 0 }).entry
        ∧ (s.groupIn u).slot0.mask = allLanes ∧ (s.groupIn u).slot1.mask = 0 ∧ (s.unitIn u).children = s.curUnit.children)))
    ∧ (let i : Instr := .spawn g sL
       let b := s.begun i
       s.issues i → ∀ l t e, b.readLpb (b.lpbVa sL) true = .ok l t e → Yields i s (fun u => Kept s u ∧ Counts s u 6
        ∧ u.launches = kset s.fresh { b.mkLaunch (childLpb l b.curLevel) t e with level := b.curLevel, spawnOf := some b.homeLaunch, issuer := b.lpb.va }
            (kmod b.homeLaunch (fun y => { y with target := y.target + l.grid }) s.launches)))
    ∧ (let i : Instr := .launch g sD sL
       let b := s.begun i
       s.issues i →
        (∀ l t e, b.readLpb (b.lpbVa sL) false = .ok l t e → Yields i s (fun u => Kept s u ∧ Counts s u 6
          ∧ u.launches = kset s.fresh (b.mkLaunch l t e) s.launches
          ∧ (s.coreIn u).accepts = s.curCore.accepts ++ [(s.fresh, s.cur.gid, s.curCore.clk + 40, sD.val + 1)]))
        ∧ ∀ c, b.readLpb (b.lpbVa sL) false = .bad c → Yields i s (fun u => Kept s u ∧ Counts s u 6 ∧ u.mem = (b.lpbRead (b.lpbVa sL)).mem
          ∧ u.launches = s.launches ∧ ∃ f ∈ (s.coreIn u).sectors, f.gid = s.cur.gid ∧ f.ctr = some 6
            ∧ f.writes = [.s sD.val (BitVec.ofNat 64 c)] ∧ s.curCore.clk + 40 ≤ f.due))
    ∧ (s.issues (.join g) →
        (s.curUnit.children = 0 → Yields (.join g) s (fun u => Kept s u ∧ (s.groupIn u).ctrs = s.curGrp.ctrs
          ∧ (s.slotIn u).wait = s.curSlot.wait ∧ (s.coreIn u).lines = [] ∧ (s.linesOk s.cur.core → ∀ k, HomeBytes s u s.cur.core k)
          ∧ ((∀ p ∈ s.curCore.lines, ∀ k, p.2.dirty.getD k false = false) → u.mem = s.mem)))
        ∧ (s.curUnit.children ≠ 0 → Yields (.join g) s (fun u => Kept s u ∧ u.mem = s.mem ∧ (s.groupIn u).joined = true
          ∧ (s.slotIn u).wait = .saving
          ∧ ((∀ k ∈ s.curUnit.gids, k ≠ s.cur.gid → (s.curCore.group k).joined = true ∨ (s.curCore.group k).ended = true) →
              (s.unitIn u).joining = true))))
    ∧ (s.issues (.taskend g) →
        (s.curGrp.inline = [] → Yields (.taskend g) s (fun u => (s.groupIn u).ended = true ∧ (s.groupIn u).slot0.mask = 0
          ∧ (s.groupIn u).slot1.mask = 0 ∧ (s.groupIn u).stackTop = 0
          ∧ ∃ l, u.agenda = l ++ [.groupRetire s.cur.core s.cur.gid] ∧ (s.curUnit.weave = none → l = s.agenda)))
        ∧ ∀ f r, s.curGrp.inline = f :: r →
          (s.lpb.grid ≤ f.unitIx + 1 → Yields (.taskend g) s (fun u => u.launches = kdel s.curGrp.launch s.launches
            ∧ (s.groupIn u).launch = f.launch ∧ (s.groupIn u).dict = f.dict ∧ (s.groupIn u).inline = r
            ∧ (s.groupIn u).slot0.pc = f.slot0.pc ∧ (s.groupIn u).slot0.mask = f.slot0.mask
            ∧ (s.groupIn u).slot0.fmt = s.curGrp.slot0.fmt ∧ (s.groupIn u).inlineDepth = s.curGrp.inlineDepth - 1
            ∧ (s.coreIn u).lines = [] ∧ (s.linesOk s.cur.core → ∀ k, HomeBytes s u s.cur.core k)
            ∧ (s.groupIn u).ctrs = s.curGrp.ctrs.set 6 (s.curGrp.ctrs.getD 6 0 - 1)))
          ∧ (f.unitIx + 1 < s.lpb.grid → Yields (.taskend g) s (fun u => (s.groupIn u).launch = s.curGrp.launch
            ∧ (s.groupIn u).inline = { f with unitIx := f.unitIx + 1 } :: r ∧ (s.groupIn u).slot0.mask = allLanes)))

/-- R324, R327, R328, R408: QPUSH.t writes the LPB's address at the tail of a device-fed queue that has room, and waits in line for
one that has none; at any other queue it leaves the queue fault. QPUSH.r reserves an entry, which becomes poppable eight clk on
from the A buffer and four from a register row, in push order.
The model's choice: operands are captured at issue (log 35). -/
def Obligations.PushResults : Prop :=
  ∀ (s : State) (g : Guard) (sL sA : SReg) (n : Fin 64) (k : Fin 4) (m : Fin 16) (r : Fin 32), s.act g ≠ 0 →
    (let i : Instr := .qpushT g sL n
     let b := s.begun i
     let q := s.lq n.val
     let a := q.base + 8 * (q.tail % 2 ^ q.n)
     s.issues i →
      (q.pushable = false → Yields i s (fun t => Kept s t ∧ t.mem = s.mem ∧ t.lqs = s.lqs
        ∧ (s.groupIn t).deferred = s.curGrp.deferred ++ [{ trapOf 0x1F 4 1 n.val 0x25 0 with strm := s.cur.slot }]))
      ∧ ∀ leaf size, q.pushable = true → b.xlatNow s.cur.core s.root (s.lpbVa sL % 2 ^ 56) = .ok (leaf, size) →
        let pa := leafPa leaf size (s.lpbVa sL % 2 ^ 56)
        (q.used < 2 ^ q.n → s.pushWait.any (fun p => p.1 == n.val) = false → s.memOk → Yields i s (fun t => Kept s t ∧ Counts s t 6
          ∧ t.lq n.val = { q with tail := (q.tail + 1) % 2 ^ 32 } ∧ (∀ j, j < 8 → t.byte (a + j) = (leBytes 8 pa).getD j 0)
          ∧ ∃ f ∈ (s.coreIn t).sectors, f.gid = s.cur.gid ∧ f.ctr = some 6 ∧ f.writes = []))
        ∧ ((2 ^ q.n ≤ q.used ∨ s.pushWait.any (fun p => p.1 == n.val) = true) → Yields i s (fun t => Kept s t ∧ Counts s t 6
          ∧ t.lqs = s.lqs ∧ t.pushWait = s.pushWait ++ [(n.val, s.cur.core, s.cur.gid, pa)])))
    ∧ (let x := s.curUnit.rq k.val
       let pushed (clk : Nat) (bytes : List Byte) (t : State) : Prop := Kept s t ∧ t.mem = s.mem ∧ Counts s t 6
         ∧ ((s.unitIn t).rq k.val).head = x.head ∧ ((s.unitIn t).rq k.val).count = x.count
         ∧ ∃ due, s.curCore.clk + clk ≤ due ∧ (∀ p ∈ x.coming, p.1 ≤ due)
           ∧ ((s.unitIn t).rq k.val).coming = x.coming ++ [(due, s.cur.gid, bytes)]
       (s.issues (.qpushRBuffer g k sA) → Yields (.qpushRBuffer g k sA) s
          (pushed 8 (s.curCore.bufRead 2 (s.sr sA.val).toNat (rqBytes x.desc))))
       ∧ (s.issues (.qpushRRegister g k m r) → Yields (.qpushRRegister g k m r) s
          (pushed 4 (((List.range 32).flatMap (fun j => leBytes 4 (s.curGrp.elem (elemKey m.val r.val j)).toNat)).take (rqBytes x.desc)))))

/-- R316, R322: an acceptance that is due and finds room places its launch, whose units age from now; counter 6 of the group falls
at once, or, for LAUNCH, with the answer 0.
R324, R327: an entry of a role queue that is due, and whose banks are BRIGHT, is written to the A buffer behind the poppable ones and
becomes poppable; counter 6 of its pusher falls. R117: where a bank is not BRIGHT the entry waits until its wake is over, 40 clk after
it began.
The model's choice: an accepted fork's entry (log 42). -/
def Obligations.QueueEvents : Prop :=
  (∀ (s : State) (core id g due dest : Nat) (x : Launch),
    (s.core core).accepts.find? (fun p => p.1 == id) = some (id, g, due, dest) → due ≤ (s.core core).clk → s.hasGroup core g →
    kget id s.launches = some x → (x.parent.isSome = true ∨ s.taskRoom x = true) →
    ∃ t, exec (.queueAccept core id) s = .next t ∧ t.mem = s.mem ∧ kget id t.launches = some { x with queued := true, t0 := s.ns }
      ∧ (t.core core).accepts = (s.core core).accepts.filter (fun p => p.1 != id)
      ∧ (dest = 0 → Falls s t core g 6)
      ∧ (dest ≠ 0 → ∃ f ∈ (t.core core).sectors, f.gid = g ∧ f.writes = [.s (dest - 1) 0] ∧ f.ctr = some 6
          ∧ f.due = (s.core core).clk + 1))
  ∧ ∀ (s : State) (core q due g : Nat) (b : List Byte) (r : List (Nat × Nat × List Byte)),
    let x := ((s.core core).unit (q / 4)).rq (q % 4)
    let banks := spanBanks 2 (rqEntry x.desc (x.head + x.count)) b.length
    x.coming = (due, g, b) :: r → due ≤ (s.core core).clk → s.hasGroup core g → swf (0 : Byte) (s.core core).buf →
    ((∀ k ∈ banks, ((s.core core).sbank k).ready = true) →
      ∃ t, exec (.roleQueueEntryReady core q) s = .next t ∧ t.mem = s.mem ∧ Falls s t core g 6
        ∧ ((t.core core).unit (q / 4)).rq (q % 4) = { x with count := x.count + 1, coming := r }
        ∧ ∀ i, i < b.length → (t.core core).bufByte 2 (rqEntry x.desc (x.head + x.count) + i) = b.getD i 0)
    ∧ ∀ k ∈ banks, ((s.core core).sbank k).ready = false →
      ∃ t, exec (.roleQueueEntryReady core q) s = .next t ∧ t.mem = s.mem ∧ t.group core g = s.group core g
        ∧ (t.core core).buf = (s.core core).buf
        ∧ ∃ later, (s.core core).clk < later ∧ ((t.core core).unit (q / 4)).rq (q % 4) = { x with coming := (later, g, b) :: r }
          ∧ (swf Bank.start (s.core core).scratch → let ends (m : Nat) : Nat := ((s.core core).sbank m).wakeEnd (s.core core).clk 40
              (∀ m ∈ banks, ((s.core core).sbank m).ready = false → ends m ≤ later)
              ∧ (later = (s.core core).clk + 1 ∨ ∃ m ∈ banks, ((s.core core).sbank m).ready = false ∧ later = ends m))

/-- R325, R326: QCFG reads occupancy and capacity (what does not fit 16 bits, or is of no queue, is open: log 6) and sets a queue's
descriptor; RGET answers the offset of the slot that shows its phase; RPUT flips the phase bit of its slot.
The model's choice: a zero descriptor in QCFG.rq (log 44). -/
def Obligations.RingResults : Prop :=
  ∀ (s : State) (g : Guard) (sD sC sS : SReg) (sel : Fin 16) (n : Fin 4) (full : Bool) (ring : Fin 8), s.act g ≠ 0 →
    (s.issues (.qcfgRd g sD sel) → ∃ v, v < 2 ^ 32 ∧ Results (.qcfgRd g sD sel) s 2 [.s sD.val (BitVec.ofNat 64 v)]
      ∧ (∀ o, (s.qStatus sel.val).1 = some o → o < 2 ^ 16 → v % 2 ^ 16 = o)
      ∧ (∀ c, (s.qStatus sel.val).2 = some c → c < 2 ^ 16 → v / 2 ^ 16 = c))
    ∧ (s.issues (.qcfgRq g n sC) → n.val < s.curUnit.queues.length → s.housed → Yields (.qcfgRq g n sC) s (fun t => Kept s t ∧ t.mem = s.mem
        ∧ (s.unitIn t).rq n.val = { s.curUnit.rq n.val with desc := (s.sr sC.val).toNat }))
    ∧ (s.issues (.rget g full sD ring sS) → let d := s.ring ring.val
        s.phaseSeen ring.val (s.ringSlot ring.val sS) = full
        ∧ Results (.rget g full sD ring sS) s 1
            [.s sD.val (BitVec.ofNat 64 (fld d 0 22 + (s.sr sS.val).toNat % (fld d 32 6 + 1) * (16 * (fld d 40 12 + 1))))])
    ∧ (s.issues (.rput g ring sS) → ring.val < s.curUnit.phases.length → s.housed → Yields (.rput g ring sS) s (fun t => Kept s t ∧ t.mem = s.mem
        ∧ ∀ j, j < 64 → bitN ((s.unitIn t).phases.getD ring.val 0) j
            = xor (bitN (s.curUnit.phases.getD ring.val 0) j) (j == s.ringSlot ring.val sS)))

/-- R330, R332, R334, R335: DICTLD installs an image that passes its checks and answers 0, or answers the reject word and installs
nothing; DICTINV empties its slot; both leave no cached entry of the slot. A fill that is due puts the 48 bytes of its entry into
the core's cache.
The model's choices: the operations act at issue, the answer comes later (log 35), after a free time (log 5). -/
def Obligations.DictionaryResults : Prop :=
  (∀ (s : State) (g : Guard) (sD sI : SReg) (n : Fin 256), s.act g ≠ 0 →
    let clean (t : State) : Prop := ∀ c k, n.val * 65536 ≤ k → k < n.val * 65536 + 65536 → kget k (t.core c).dcache = none
    (let i : Instr := .dictld g sD sI n
     let va := (s.sr sI.val).toNat
     let b := ((s.begun i).flush s.cur.core).settleDict va
     s.issues i →
      (b.dictImage va = none → Yields i s (fun t => Kept s t ∧ t.dicts = s.dicts
        ∧ Answers s t 40 [.s sD.val (BitVec.ofNat 64 (rejectWord 0x0C 7 0 0))]))
      ∧ ∀ x, b.dictImage va = some x →
        (dictWord x ≠ 0 → Yields i s (fun t => Kept s t ∧ t.dicts = s.dicts ∧ Answers s t 40 [.s sD.val (BitVec.ofNat 64 (dictWord x))]))
        ∧ (dictWord x = 0 → Yields i s (fun t => Kept s t ∧ t.dicts = kset n.val (b.dictOf va x) s.dicts ∧ clean t
          ∧ Answers s t (40 + 4 * imgNat x 0 4) [.s sD.val 0])))
    ∧ (s.issues (.dictinv g n) → Yields (.dictinv g n) s (fun t => Kept s t ∧ t.mem = s.mem ∧ kget n.val t.dicts = none ∧ clean t
        ∧ Answers s t 1 [])))
  ∧ ∀ (s : State) (core dslot idx due tick : Nat) (d : Dict), (kget core s.cores).isSome →
    (s.core core).dwait.find? (fun p => p.1 == dslot * 65536 + idx) = some (dslot * 65536 + idx, due, tick) → kget dslot s.dicts = some d →
    let x := s.dictBytes d (256 + 48 * idx) 48
    due ≤ (s.core core).clk → tick ≤ s.now → ∃ t, exec (.dictCacheFill core dslot idx) s = .next t ∧ t.mem = x.2.mem ∧ (s.exact = [] → t.mem = s.mem)
      ∧ kget (dslot * 65536 + idx) (t.core core).dcache = some x.1

/-- R226, R339 to R341, R344, R345, R347: TLBINV drops every entry that it names from the TLBs of every core and every die, and no
walk in progress installs what it has read; TSTLD installs an image or answers its code; CLASS writes and reads rows and closes a
quad for its move to another pool.
The model's choices: order of TSTLD's codes and class counts (log 45); the operations act at issue, the answer comes later (log 35),
after a free time (log 5). -/
def Obligations.TableResults : Prop :=
  ∀ (s : State) (g : Guard) (sV sB sR sD : SReg), s.act g ≠ 0 →
    let drops (f : TlbEntry → Bool) (t : State) : Prop := (∀ c, (t.core c).tlb = (s.core c).tlb.filter (fun e => !f e))
      ∧ (∀ d, (kget d t.dieTlb).getD [] = ((kget d s.dieTlb).getD []).filter (fun e => !f e))
      ∧ (∀ d, (kget d t.dieTab).getD [] = ((kget d s.dieTab).getD []).filter (fun e => !f e))
      ∧ ∀ d, ∀ w ∈ (kget d t.walks).getD [], w.stale = true
    (s.issues (.tlbinv g sV sB sR) → Yields (.tlbinv g sV sB sR) s (fun t => Kept s t ∧ t.mem = s.mem ∧ Answers s t 1000 []
      ∧ drops (fun e => e.root == rootOf (s.sr sR.val).toNat && e.covers (fld (s.sr sV.val).toNat 0 56) (s.sr sB.val).toNat) t))
    ∧ (s.issues (.tlbinvRoot g sR) → Yields (.tlbinvRoot g sR) s (fun t => Kept s t ∧ t.mem = s.mem ∧ Answers s t 1000 []
      ∧ drops (fun e => e.root == rootOf (s.sr sR.val).toNat) t))
    ∧ (s.issues (.tlbinvAll g) → Yields (.tlbinvAll g) s (fun t => Kept s t ∧ t.mem = s.mem ∧ Answers s t 1000 []
      ∧ drops (fun _ => true) t))
    ∧ (let i : Instr := .tstld g sD sV
       let b := ((s.begun i).flush s.cur.core).settleTst (s.sr sV.val).toNat
       s.issues i → s.housed →
        (∀ x, b.tstRead (s.sr sV.val).toNat s.curWeave = .ok x → Yields i s (fun t => Kept s t ∧ (s.unitIn t).tst = x
          ∧ Answers s t (40 + x.entries.length) [.s sD.val 0]))
        ∧ ∀ c n, b.tstRead (s.sr sV.val).toNat s.curWeave = .error (c, n) → Yields i s (fun t => Kept s t
          ∧ (s.unitIn t).tst = s.curUnit.tst ∧ Answers s t 40 [.s sD.val (BitVec.ofNat 64 (c + n * 2 ^ 16))]))
    ∧ (s.issues (.classWr g sB sV) → let x := (s.sr sB.val).toNat
        Yields (.classWr g sB sV) s (fun t => Kept s t ∧ t.mem = s.mem ∧ Answers s t 100 []
          ∧ t.classes = s.classes.set (fld x 0 2) ((s.classRow (fld x 0 2)).put (fld x 2 2) (s.sr sV.val).toNat)))
    ∧ (s.issues (.classRd g sD sB) → let x := (s.sr sB.val).toNat
        Yields (.classRd g sD sB) s (fun t => Kept s t ∧ t.mem = s.mem ∧ t.classes = s.classes
          ∧ Answers s t 100 [.s sD.val (BitVec.ofNat 64 (s.classWord (fld x 0 2) (fld x 2 2)))]))
    ∧ (s.issues (.classMv g sB sR) → let x := (s.sr sB.val).toNat
        Yields (.classMv g sB sR) s (fun t => Kept s t ∧ t.mem = s.mem ∧ Answers s t 100 []
          ∧ t.agenda = s.agenda ++ [.quadWakeRequest (fld x 0 4) (fld x 8 6)]
          ∧ ∃ y u, kget (fld x 0 4 * 64 + fld x 8 6) t.quads = some y ∧ y.moving = some (fld (s.sr sR.val).toNat 0 2, u)))

/-- R34, R239, R353 to R357: the arrivals. BAR waits for its workgroup or gang, or in group scope for the other PC slot, and is
nothing on a tile; `bar.weave` waits for its weave, `bar.net` at the record of its number, which it opens if there is none;
STEPEND ends the step of its role group, and with the last one the next step may start four clk on.
R239, R353, R356: a barrier that is complete lets go of every slot that waits at it, flips its phase, and leaves its core no
copy; a network record that is complete lets go of its slots and is freed.
The model's choice: what departure drops (log 41). -/
def Obligations.BarrierResults : Prop :=
  (∀ (s : State) (g : Guard) (b : Fin 16) (sC : SReg), s.act g ≠ 0 → s.housed → s.curGrp.ended = false → s.curSlot.mask ≠ 0 →
    let alone : Prop := (s.curGrp.slot (1 - s.cur.slot)).mask = 0
    let u := s.curUnit
    (s.issues (.bar g) →
      (s.scope = 6 → s.onShader = false → Yields (.bar g) s (fun t => Kept s t ∧ t.mem = s.mem ∧ (s.slotIn t).wait = s.curSlot.wait))
      ∧ (s.scope = 6 → s.onShader = true → alone → Yields (.bar g) s (fun t => Kept s t ∧ t.mem = s.mem
          ∧ (s.slotIn t).wait = .untilClk (s.curCore.clk + 2)))
      ∧ (s.scope ≠ 6 → Yields (.bar g) s (fun t => Kept s t ∧ (s.slotIn t).wait = .barrier ∧ (s.scope = 0 → t.mem = s.mem)
          ∧ (alone → s.cur.gid ∈ u.gids → s.curGrp.gix < 32 → bitOn (s.unitIn t).arrived s.curGrp.gix = true)
          ∧ (u.gids = [s.cur.gid] → alone → u.barDue = none → s.curGrp.gix < 32 → (s.unitIn t).barDue = some (s.curCore.clk + 2)))))
    ∧ (s.issues (.barWeave g) → Yields (.barWeave g) s (fun t => Kept s t ∧ (s.groupIn t).weaveArr = true ∧ (s.slotIn t).wait = .weave))
    ∧ (s.issues (.barNet g b sC) →
      (s.netRec b.val = none → Yields (.barNet g b sC) s (fun t => Kept s t ∧ (s.slotIn t).wait = .net s.fresh
        ∧ ∃ n, kget s.fresh t.nets = some n ∧ n.count = fld (s.sr sC.val).toNat 0 24 ∧ n.scope = s.scope ∧ n.b = b.val
          ∧ (alone → n.arrived = [(s.cur.core, s.cur.gid, 0)]) ∧ (alone → n.count = 1 → n.due.isSome = true)))
      ∧ ∀ k n, s.netRec b.val = some (k, n) → kget k s.nets = some n → Yields (.barNet g b sC) s (fun t => Kept s t
        ∧ (s.slotIn t).wait = .net k ∧ ∃ n', kget k t.nets = some n' ∧ n'.count = n.count
          ∧ (alone → (s.cur.core, s.cur.gid, 0) ∉ n.arrived → n'.arrived = n.arrived ++ [(s.cur.core, s.cur.gid, 0)]
              ∧ (n.arrived.length + 1 = n.count → n'.due.isSome = true))))
    ∧ (s.issues (.stepend g) → Yields (.stepend g) s (fun t => Kept s t ∧ t.mem = s.mem ∧ (s.groupIn t).stepDone = true
        ∧ (s.slotIn t).wait = .stepEnd
        ∧ (u.gang = true → u.stepping = true → s.cur.gid ∈ u.gids → kget u.launch s.govs = none →
            (∀ k ∈ u.gids, k ≠ s.cur.gid → (s.curCore.group k).ended = true ∨ (s.curCore.group k).stepDone = true) →
            (s.unitIn t).stepping = false ∧ (s.unitIn t).stepDue = some (s.curCore.clk + 4)))))
  ∧ (∀ (s : State) (core uid gid d : Nat), (kget core s.cores).isSome → (kget uid (s.core core).units).isSome →
    let u := (s.core core).unit uid
    u.barDue = some d → d ≤ (s.core core).clk → gid ∈ u.gids →
    ∃ t, exec (.barrierComplete core uid gid) s = .next t ∧ ((t.core core).unit uid).phase = !u.phase ∧ (t.core core).lines = []
      ∧ (∀ g ∈ u.gids, t.group core g = (s.group core g).free .barrier)
      ∧ ∀ g, g ∉ u.gids → t.group core g = s.group core g)
  ∧ ∀ (s : State) (id d : Nat) (n : NetBar), kget id s.nets = some n → n.due = some d → d ≤ s.now →
    ∃ t, exec (.netBarrierComplete id) s = .next t ∧ t.nets = kdel id s.nets ∧ ∀ c g, t.group c g = (s.group c g).free (.net id)

/-- R349 to R352, R397: SEMADD sends a raise, to its own core for two clk on and to another core by its transit; a core adds a
raise, saturating, as it arrives, whether or not that core's quad was ever ON (R348); SEMWAIT issues when its semaphore has reached
its number and it is first in line, and `.dec` subtracts; below the number it stays where it is. WPWAIT issues once the write
pointer has reached its value; WPWAIT.rd reads it. The model's choice: the free part of a raise's transit (log 5). -/
def Obligations.SemaphoreResults : Prop :=
  (∀ (s : State) (g : Guard) (n : Fin 64) (k : Fin 1024) (sV r : SReg) (ch : Fin 8), s.act g ≠ 0 → srising s.curCore.sems →
    let local_ (t : State) : Prop := s.scope = 0 ∨ s.scope = 6 → t.mem = s.mem
    let up (a : Nat) (t : State) : Prop := Kept s t ∧ local_ t ∧ (s.coreIn t).sems = s.curCore.sems
      ∧ ∃ x, t.raises = s.raises ++ [x] ∧ x.core = s.cur.core ∧ x.n = n.val ∧ x.a = a ∧ x.due = s.now + 2 * s.period s.cur.core
    let away (a : Nat) (t : State) : Prop := let c := semTarget (s.sr r.val).toNat
      Kept s t ∧ local_ t ∧ (s.coreIn t).sems = s.curCore.sems
        ∧ ∃ x, t.raises = s.raises ++ [x] ∧ x.core = c ∧ x.n = n.val ∧ x.a = a
          ∧ x.due = s.now + transitClk s.cur.core c * s.period s.cur.core ∧ transitWall s.cur.core c ≤ x.wall
    let add := fld (s.sr sV.val).toNat 0 32
    (s.issues (.semaddI g n k none) → Yields (.semaddI g n k none) s (up k.val))
    ∧ (s.issues (.semadd g n sV none) → Yields (.semadd g n sV none) s (up add))
    ∧ (s.issues (.semaddI g n k (some r)) → Yields (.semaddI g n k (some r)) s
        (if semTarget (s.sr r.val).toNat = s.cur.core then up k.val else away k.val))
    ∧ (s.issues (.semadd g n sV (some r)) → Yields (.semadd g n sV (some r)) s
        (if semTarget (s.sr r.val).toNat = s.cur.core then up add else away add))
    ∧ (s.issues (.semwaitDec g n k) → k.val ≤ s.curCore.sem n.val
        ∧ Yields (.semwaitDec g n k) s (fun t => Kept s t ∧ local_ t ∧ (s.coreIn t).sem n.val = s.curCore.sem n.val - k.val))
    ∧ (s.issues (.semwaitGe g n k) → k.val ≤ s.curCore.sem n.val
        ∧ Yields (.semwaitGe g n k) s (fun t => Kept s t ∧ local_ t ∧ (s.coreIn t).sem n.val = s.curCore.sem n.val))
    ∧ (s.live → s.passes (.semwaitDec g n k) → s.curCore.sem n.val < k.val → Yields (.semwaitDec g n k) s (fun t =>
        s.slotIn t = s.curSlot ∧ t.mem = s.mem ∧ (s.coreIn t).sems = s.curCore.sems))
    ∧ (s.issues (.wpwait g ch sV) → reached (s.wptr ch.val) (s.sr sV.val).toNat = true
        ∧ Yields (.wpwait g ch sV) s (fun t => Kept s t ∧ t.mem = s.mem ∧ (s.slotIn t).next = s.succClk))
    ∧ (s.issues (.wpwaitRd g sV ch) → Results (.wpwaitRd g sV ch) s 2 [.s sV.val (BitVec.ofNat 64 (s.wptr ch.val))]))
  ∧ ∀ (s : State) (id : Nat) (r : Raise), s.raises.find? (fun x => x.id == id) = some r → r.due ≤ s.now → r.tick ≤ s.now →
    (r.wall ≠ 0 → ∃ t, exec (.semaphoreRaiseArrival id) s = .next t ∧ t.mem = s.mem ∧ t.cores = s.cores
      ∧ t.raises.find? (fun x => x.id == id) = some { r with wall := 0, tick := s.now + r.wall })
    ∧ (r.wall = 0 → ((kget r.core s.cores).isSome ∨ coreExists r.core = true) → srising (s.core r.core).sems → ∃ t, exec (.semaphoreRaiseArrival id) s = .next t ∧ t.mem = s.mem
      ∧ t.raises = s.raises.filter (fun x => x.id != id) ∧ (t.core r.core).sem r.n = min (2 ^ 32 - 1) ((s.core r.core).sem r.n + r.a))

/-- R357, R360 to R369: GOVRD answers a field of a launch's governor, all ones without one; CNTRD reads counters, those of the core
in two clk and the others as an answer; CNTCLR leaves performance counters with what they have counted in this clk, takes a
snapshot, returns to it, or frees the set; ENRD reads energy and banks. The model's choice: held clk are counted by their first
cause (log 43). -/
def Obligations.CounterResults : Prop :=
  ∀ (s : State) (g : Guard) (sD sL : SReg) (sel : Fin 16) (c : Fin 64) (e : Fin 4), s.act g ≠ 0 →
    (s.issues (.govrd g sel sD sL) → (s.sr sL.val).toNat = 0 → let l := s.countsIn s.curGrp.launch
      (kget l s.govs = none → Yields (.govrd g sel sD sL) s (fun t => Kept s t ∧ t.mem = s.mem
        ∧ Answers s t 100 [.s sD.val (BitVec.ofNat 64 (2 ^ 64 - 1))]))
      ∧ ∀ v, kget l s.govs = some v → sel.val < 6 → Yields (.govrd g sel sD sL) s (fun t => Kept s t ∧ t.mem = s.mem
        ∧ Answers s t 100 [.s sD.val (BitVec.ofNat 64 ([v.frame, s.ns - v.start, v.longest, v.m, v.misses, v.last].getD sel.val 0))]))
    ∧ (s.issues (.govrd g sel sD sL) → Yields (.govrd g sel sD sL) s (fun t => Kept s t ∧ t.mem = s.mem
        ∧ ∃ v, Answers s t 100 [.s sD.val v]))
    ∧ (let i : Instr := .cntrd g sD c
       let w := [Wr.s sD.val (BitVec.ofNat 64 ((s.begun i).cntVal c.val))]
       s.issues i → (cntFast c.val = true → Yields i s (fun t => Kept s t ∧ t.mem = s.mem ∧ Lands s t 2 w ∧ s.curCore.pclk + 2 ≤ (s.slotIn t).next))
        ∧ (cntFast c.val = false → Yields i s (fun t => Kept s t ∧ t.mem = s.mem ∧ Answers s t 100 w)))
    ∧ (s.issues (.cntclr g sel) → srising s.curCore.perf → Yields (.cntclr g sel) s (fun t => Kept s t ∧ t.mem = s.mem
        ∧ let now := (s.begun (.cntclr g sel)).curCore.perfClk
          (if sel.val = 8 then (s.coreIn t).perf = now else sget 0 sel.val (s.coreIn t).perf = sget 0 sel.val now)))
    ∧ (∀ x, kget s.lpb.ident s.stats = some x →
        (s.issues (.cntclrSnap g) → Yields (.cntclrSnap g) s (fun t => Kept s t ∧ t.mem = s.mem
          ∧ kget s.lpb.ident t.stats = some { x with snap := some (x.prims, x.culled, x.samples) }))
        ∧ (s.issues (.cntclrRoll g) → Yields (.cntclrRoll g) s (fun t => Kept s t ∧ t.mem = s.mem ∧ kget s.lpb.ident t.stats =
            some (match x.snap with | some (p, d, n) => { x with prims := p, culled := d, samples := n } | none => x))))
    ∧ (s.issues (.cntclrSnap g) → Yields (.cntclrSnap g) s (fun t => Kept s t ∧ t.mem = s.mem))
    ∧ (s.issues (.cntclrRoll g) → Yields (.cntclrRoll g) s (fun t => Kept s t ∧ t.mem = s.mem))
    ∧ (s.issues (.cntclrFree g) → Yields (.cntclrFree g) s (fun t => Kept s t ∧ t.mem = s.mem ∧ kget s.lpb.ident t.stats = none))
    ∧ (s.issues (.enrd g sD e) → Results (.enrd g sD e) s 2 [.s sD.val (BitVec.ofNat 64 (
        let k := s.curCore
        let b := k.bankCount .bright
        let d := k.bankCount .dim
        [k.esum, (s.classRow (s.clsOf s.cur.core)).profile, k.stalls, b + d * 2 ^ 10 + (coreBanks s.onShader - b - d) * 2 ^ 20].getD e.val 0))])

/-! ## Class E: rotator and shader engines -/

/-- R173, R184, R192, R193: the rotator accepts each of its commands (QRFEED, QRAPPLY, QRREAD, QRZERO,
QRGAIN, ANGOUT, ANGIN and GROT, in every form) at the end of its queue, with operands captured, ANGIN's lanes
too; counter 3 rises. In an empty queue the command begins at once.
R184 to R193: the rotator's head command that is due, its banks awake, acts on the rows, angles and buffer as the model's
`runRot` says; QRZERO leaves every row zero and every angle the identity word, QRGAIN folds the gains or defers them, QRREAD.st
reads the status word, QRREAD a block, ANGIN loads the angle store and ANGOUT reads it. Its reservations go, counter 3 falls.
The model's choice: a command acts as a whole at its completion (log 13). -/
def Obligations.RotatorResults : Prop :=
  (∀ (s : State) (i : Instr), rotatorCommand i = true → s.issues i → s.act (opInfo i).guard ≠ 0 → Yields i s (fun t =>
    Accepted s t 3 (rotSet i (s.rotArgs i))
    ∧ ∃ q, (s.coreIn t).rotQ = s.curCore.rotQ ++ [q] ∧ q.op = i ∧ q.args = s.rotArgs i ∧ q.gid = s.cur.gid ∧ q.core = s.cur.core
        ∧ (s.curCore.rotQ = [] → q.start = s.curCore.eclk ∧ q.start ≤ q.due)
        ∧ (∀ g rad m n, i = .angin g rad m n → q.data = s.angRows m.val n.val)))
  ∧ ∀ (s : State) (core id : Nat) (q : Cmd) (r : List Cmd), (s.core core).rotQ = q :: r → q.id = id → q.due ≤ (s.core core).eclk →
    s.hasGroup core q.gid →
    let c := s.core core
    let w := c.wakeFor ((rotSpans q.op q.args).2.flatMap Span.banks)
    w.2 = 0 → (w.1.wakeRegs q.gid (rotRegs q.op)).2 = 0 →
    ∃ t, exec (.rotatorCommandComplete core id) s = .next t ∧ t.mem = s.mem ∧ (t.core core).rotQ.map Cmd.id = r.map Cmd.id
      ∧ Falls s t core q.gid 3 ∧ (t.core core).resv = c.resv.filter (fun y => y.cmd != id)
      ∧ (t.core core).rot = (c.runRot q).rot ∧ (t.core core).buf = (c.runRot q).buf
      ∧ (∀ g, q.op = .qrzero g → (t.core core).rot.deferred = c.rot.deferred ∧ (t.core core).rot.sticky = false
          ∧ (∀ n, ((t.core core).rot.row n).m = List.replicate 64 0) ∧ ∀ k, (t.core core).rot.ang k = angId)
      ∧ (∀ g, q.op = .qrgainDef g → (t.core core).rot.deferred = true ∧ (t.core core).rot.rows = c.rot.rows)
      ∧ (∀ g, q.op = .qrgainImm g → (t.core core).rot.deferred = false)
      ∧ (∀ g rad m i, q.op = .angin g rad m i → ∀ k, k < 64 → k < q.data.length → let v := (q.data.getD k 0).toNat
          rad = false → (t.core core).rot.ang k = if angBad v then angId else v)
      ∧ (∀ g sx, q.op = .qrreadSt g sx → swf (0 : W64) (c.group q.gid).sregs →
          (t.group core q.gid).sreg sx.val = BitVec.ofNat 64 c.rot.status)
      ∧ (∀ g b sx m, q.op = .qrread g b false sx m → swf (0 : W32) (c.group q.gid).mat → m.val < (c.group q.gid).budget →
          ∀ i j, i < 32 → j < 32 → (t.group core q.gid).elem (elemKey m.val i j) = BitVec.ofNat 32 (c.rot.blk b.val i j))
      ∧ (∀ g m i, q.op = .angout g false m i → swf (0 : W32) (c.group q.gid).mat → m.val < (c.group q.gid).budget → i.val < 31 →
          ∀ k, k < 64 → (t.group core q.gid).elem (elemKey m.val (i.val + k / 32) (k % 32)) = BitVec.ofNat 32 (c.rot.ang k))

/-- R195 to R206, R366: RAST, TRACE, TEXS and TEXG join the queue of the shader engines and counter 5 rises. RAST captures up to 32
covered samples and its next token, and takes 20 clk and one for every 16 candidates; a first TRACE parks the rays of its lanes
under a token; TEXS and TEXG capture 128 words, zero for a lane whose coordinates are not finite.
R197, R200, R201, R204 to R206: a command that is due, the oldest of its group on its unit, lands its rows from h0 in the lanes
that it acts in, RAST and TRACE their token too (TRACE 0 where no lane is left pending), and counter 5 falls; a traversal that meets a
page that is absent waits for it. R13: a command whose data cross dies waits for its crossings once its clk are over.
The model's choice: a command acts at its completion (log 13), after a free time (log 5); TRACE in its corners as log 48. -/
def Obligations.ShaderResults : Prop :=
  (∀ (s : State) (g : Guard) (m mI : Fin 16) (a b c : SReg) (ch : Fin 4), s.act g ≠ 0 →
    (let i : Instr := .rast g m a b c
     let x := s.rastArgs a b c
     let r := rastRun x.1 x.2
     s.issues i → Yields i s (fun t => Kept s t ∧ t.mem = s.mem ∧ Counts s t 5
       ∧ (s.coreIn t).gfxQ = s.curCore.gfxQ ++ [s.cmdOf i [r.2.1] allLanes r.1 s.curCore.eclk (s.curCore.eclk + (20 + ceilDiv r.2.2 16))]
       ∧ ∀ k, kget s.lpb.ident s.stats = some k → bitN x.2 63 = false → fld x.2 0 32 = 0 → x.1.degenerate = false →
           (let p := (max 0 (min 65534 (x.1.v0.1 / 256))).toNat
            let q := (max 0 (min 65534 (x.1.v0.2 / 256))).toNat
            x.1.x0 ≤ p ∧ p < x.1.x1 ∧ x.1.y0 ≤ q ∧ q < x.1.y1) →
           kget s.lpb.ident t.stats = some { k with prims := (k.prims + 1) % 2 ^ 64 }))
    ∧ (let i : Instr := .trace g m mI a b c
       s.issues i → s.continues c = none → Yields i s (fun t => t.mem = s.mem ∧ (s.groupIn t).ctrs = s.curGrp.ctrs.set 5 (s.curGrp.ctrs.getD 5 0 + 1)
         ∧ (∃ p, (s.groupIn t).parked = s.curGrp.parked ++ [p] ∧ p.token = s.fresh ∧ p.root = (s.sr a.val).toNat
             ∧ p.flags = (s.sr b.val).toNat ∧ p.pending = s.act g ∧ p.reports = []
             ∧ p.rays = (lanesOf (s.act g)).map (fun j => (j, (List.range 8).map (fun k => s.curGrp.elem (elemKey mI.val k j)))))
         ∧ ∃ q, (s.coreIn t).gfxQ = s.curCore.gfxQ ++ [q] ∧ q.op = i ∧ q.act = s.act g ∧ q.args.getD 0 0 = s.fresh
             ∧ s.curCore.eclk + 1 ≤ q.due))
    ∧ (∀ i : Instr, (i = .texs g m mI a b ∨ i = .texg g ch m mI a) → s.issues i → Yields i s (fun t => Counts s t 5
         ∧ (s.slotIn t).pc = s.succPc
         ∧ ∃ q, (s.coreIn t).gfxQ = s.curCore.gfxQ ++ [q] ∧ q.op = i ∧ q.data.length = 128 ∧ s.curCore.eclk + 40 ≤ q.due
             ∧ ∀ j, j < 32 → (finOf (s.curGrp.elem (elemKey mI.val 0 j)).toNat = none ∨ finOf (s.curGrp.elem (elemKey mI.val 1 j)).toNat = none) →
                 ∀ k, k < 4 → q.data.getD (32 * k + j) 0 = 0)))
  ∧ ∀ (s : State) (core id : Nat) (q : Cmd), (s.core core).gfxQ.find? (fun x => x.id == id) = some q → q.core = core → q.id = id →
    (s.core core).gfxFirst q = true → q.due ≤ (s.core core).eclk → q.tick ≤ s.now → q.page = none → s.hasGroup core q.gid →
    let c := s.core core
    (q.wall ≠ 0 → ∃ t, exec (.shaderEngineComplete core id) s = .next t ∧ t.mem = s.mem ∧ t.group core q.gid = s.group core q.gid
      ∧ (t.core core).gfxQ = c.gfxQ.map (fun y => if y.id == id then { y with wall := 0, tick := s.now + q.wall } else y)) ∧
    (q.wall = 0 → q.drop = [] →
    let awake : Prop := (c.wakeRegs q.gid ((opInfo q.op).mwr.map Prod.snd)).2 = 0
    let gone (t : State) : Prop := Falls s t core q.gid 5 ∧ (t.core core).gfxQ = c.gfxQ.filter (fun x => x.id != id)
    let rows (t : State) (m : Fin 16) (act : W32) : Prop := swf (0 : W32) (c.group q.gid).mat → m.val < (c.group q.gid).budget →
      ∀ k j, j < 32 → 32 * k + j < q.data.length → q.data.length ≤ 1024 → bitOn act j = true →
        (t.group core q.gid).elem (elemKey m.val k j) = q.data.getD (32 * k + j) 0
    (∀ g m a b x, q.op = .rast g m a b x → awake → ∃ t, exec (.shaderEngineComplete core id) s = .next t ∧ t.mem = s.mem ∧ gone t
        ∧ rows t m allLanes ∧ (swf (0 : W64) (c.group q.gid).sregs → (t.group core q.gid).sreg x.val = BitVec.ofNat 64 (q.args.getD 0 0)))
    ∧ (∀ g m n a b, q.op = .texs g m n a b → awake → ∃ t, exec (.shaderEngineComplete core id) s = .next t ∧ t.mem = s.mem ∧ gone t
        ∧ rows t m q.act)
    ∧ (∀ g ch m n a, q.op = .texg g ch m n a → awake → ∃ t, exec (.shaderEngineComplete core id) s = .next t ∧ t.mem = s.mem ∧ gone t
        ∧ rows t m q.act)
    ∧ (∀ g m n a b x, q.op = .trace g m n a b x →
        (∀ u va, s.traceRun q = (u, .error va) → ∃ t, exec (.traceTranslationFault core id) s = .next t ∧ t.mem = u.mem
          ∧ (t.core core).gfxQ = c.gfxQ.map (fun y => if y.id == id then { y with page := some va } else y))
        ∧ ∀ u l, s.traceRun q = (u, .ok l) → awake → swf (0 : W32) (c.group q.gid).mat → swf (0 : W64) (c.group q.gid).sregs →
            m.val < (c.group q.gid).budget →
            let p := u.traceRec q
            let others := p.pending &&& ~~~q.act
            ∃ t, exec (.shaderEngineComplete core id) s = .next t ∧ t.mem = u.mem ∧ gone t
              ∧ (∀ y ∈ l, ∀ k, k < 6 → k < y.2.1.length → (t.group core q.gid).elem (elemKey m.val k y.1) = BitVec.ofNat 32 (y.2.1.getD k 0))
              ∧ (others = 0 → (∀ y ∈ l, y.2.2 = false) → (t.group core q.gid).sreg x.val = 0)
              ∧ (others ≠ 0 → (t.group core q.gid).sreg x.val = BitVec.ofNat 64 p.token)
              ∧ ((∃ y ∈ l, y.2.2 = true) → (t.group core q.gid).sreg x.val = BitVec.ofNat 64 p.token)))

/-! ## Boot, registers and the host -/

/-- R16, R413 to R415, R344, R407: boot, in three steps. The reset empties the package and BOOTSTAT shows 1; the image that does not
verify leaves BOOTSTAT at 5 and no core starts, one that does leaves 2; then links and quads are found: a boundary without a working
channel or a stack beyond its limit leaves 4, otherwise BOOTSTAT is 3, the quads that stand are OFF at nominal margin, and the class
table is written. Memory stays (log 20). The model's choices: the board that boot finds (log 8), the count of a boundary's channels
(log 62), what a reset keeps and the steps, which take no time (log 20), CURLIM (log 25). -/
def Obligations.BootResults : Prop :=
  ∀ s : State,
    (s.bootstat ≠ 1 → s.bootstat ≠ 2 → ∃ t, exec .resetBoot s = .next t ∧ t.bootstat = 1 ∧ t.agenda = [.resetBoot] ∧ t.mem = s.mem
      ∧ t.board = s.board ∧ t.bootCount = s.bootCount + 1 ∧ t.bootAt = s.now ∧ t.cores = [] ∧ t.launches = [] ∧ t.dicts = []
      ∧ t.quads = State.resetQuads ∧ t.throttle = .off ∧ t.lqs = [] ∧ t.degrade = List.replicate 64 0 ∧ t.msix = []
      ∧ (∀ b, t.channelsOf b = s.channelsOf b) ∧ ∀ p ∈ t.bridge, p.2.until_ = none)
    ∧ (s.bootstat = 1 →
      (s.board.verifies = false → exec .resetBoot s = .next { s with bootstat := 5 })
      ∧ (s.board.verifies = true → exec .resetBoot s = .next { s with bootstat := 2, agenda := .resetBoot :: s.agenda }))
    ∧ (s.bootstat = 2 →
      let found : Board := { s.board with channels := (List.range 13).map s.channelsOf }
      ∃ t, exec .resetBoot s = .next t ∧ t.mem = s.mem ∧ t.cores = s.cores ∧ t.degrade = found.record
        ∧ (found.halts = true → t.bootstat = 4 ∧ t.quads = s.quads)
        ∧ (found.halts = false → t.bootstat = 3
          ∧ t.classes = s.board.rows.map (fun r => { r with k := 14, granted := r.granted && r.grant ≤ s.board.power })
          ∧ 100 ≤ t.curlim ∧ t.curlim ≤ 16000
          ∧ ∀ d q, d < 10 → q < dieQuads d → kget (d * 64 + q) t.quads
              = if s.board.quadOk d q = true then some (Quad.start (s.board.quadCls.getD d 2)) else none))

/-- R401, R405, R406, R407, R370, R410, R408, R412: writes of registers through BAR0. A field takes the value, whose undefined bits read
zero (R7), one with a range keeps the old value outside it; the doorbells, SVCHEAD, SVCRES and CANCEL have their effects next; a
read-only register (IDENT, DEGRADE and the counts among them: log 59), a hole and an address that is no multiple of 8 discard the
write. A vector of the MSI-X table of BAR4 takes its address and data, and loses its pending bit as it is unmasked.
The model's choices: the debugger's command word and the place of the mask (log 21); running indices of the service queue and what
is read-only (log 59); the MSI-X table's words (log 80). -/
def Obligations.RegisterResults : Prop :=
  ∀ (s : State) (v q : Nat), v < 2 ^ 64 → q < 64 →
    let w (off : Nat) : Host.Outcome State Fault Refusal := exec (.registerWrite off v) s
    w 0x10 = .next { s with winbase := fld v 36 16 * 2 ^ 36 }
    ∧ w (0x1000 + 32 * q) = .next { s with lqs := kset q { s.lq q with base := v % 2 ^ 52 } s.lqs }
    ∧ w (0x1008 + 32 * q) = .next { s with lqs := kset q { s.lq q with
        n := fld v 0 5, enable := bitN v 8 && s.bootstat == 3, fed := bitN v 9, error := bitN v 10 } s.lqs }
    ∧ w (0x1800 + 8 * q) = .next { s with agenda := .doorbell (fin 64 q) (v % 2 ^ 32) :: s.agenda }
    ∧ w 0x2100 = .next { s with svcBase := v % 2 ^ 52 }
    ∧ w 0x2110 = .next { s with svcHead := v % 2 ^ 32, agenda := .serviceEntryPlace :: s.agenda }
    ∧ w 0x2120 = .next { s with agenda := .resumeToken (v % 2 ^ 32) :: s.agenda }
    ∧ w 0x2140 = .next (if bitN v 63 then s else { s with agenda := .cancel (fld v 0 32) (fld v 32 8) :: s.agenda })
    ∧ w 0x2400 = .next (if 10 ≤ fld v 0 14 ∧ fld v 0 14 ≤ 10000 then { s with thrhold := fld v 0 14 } else s)
    ∧ w 0x2408 = .next (if 100 ≤ fld v 0 16 ∧ fld v 0 16 ≤ 16000 then { s with curlim := fld v 0 16 } else s)
    ∧ w 0x2410 = .next (if 4 ≤ fld v 0 6 ∧ fld v 0 6 ≤ 20 then { s with drooplim := fld v 0 6 } else s)
    ∧ w 0x2418 = .next (if 80 ≤ fld v 0 8 ∧ fld v 0 8 ≤ 115 then { s with templim := fld v 0 8 } else s)
    ∧ (q < 4 → w (0x2000 + 16 * q) = .next { s with
        vectors := s.vecs.set q { dict := fld v 0 8, enable := bitN v 8, entry := fld v 17 31 * 2 } })
    ∧ (∀ off ∈ [0, 8, 0x40, 0x78, 0x1010 + 32 * q, 0x1018 + 32 * q, 0x2040, 0x2050, 0x2118, 0x2420, 0x2428, 0x3040], w off = .next s)
    ∧ (q < 8 → ∃ t, w (0x3000 + 8 * q) = .next t ∧ t = { s with podMask := t.podMask }
        ∧ ∀ p, p < 512 → (p ∈ t.podMask ↔ if p / 64 = q then bitN v (p % 64) = false else p ∈ s.podMask))
    ∧ w (2 ^ 24 + 16 * q) = .next { s with msixTab := sset 0 (2 * q) (v / 4 * 4) s.msixTab }
    ∧ (∃ t, w (2 ^ 24 + 16 * q + 8) = .next t ∧ t = { s with msixTab := t.msixTab, msixPend := t.msixPend }
        ∧ (swf 0 s.msixTab → t.msixWord (2 * q + 1) = v % 2 ^ 33)
        ∧ ∀ i, i ∈ t.msixPend ↔ i ∈ s.msixPend ∧ (i = q → bitN v 32 = true))
    ∧ ∀ off, off % 8 ≠ 0 → w off = .next s

/-- R406, R408, R379, R409, R410: the window reads and writes memory where every byte of the access lies in it and exists; a
doorbell moves the tail of a host-fed queue, or sets its error bit and raises vector 0; a service entry goes to its place when there
is room, vector 1 is raised; SVCRES lets the party of a token retry; CANCEL sets its found bit and the launch is gone, once the
commands that its engines have accepted are complete, or, where it still stands in a launch queue, its entry is void; of a launch that
is being cancelled nothing more happens. The model's choices: running indices of the service queue (log 59), a launch still queued
(log 75), inline children and what is left of a SPAWN (log 81). -/
def Obligations.HostResults : Prop :=
  ∀ s : State,
    (∀ (off : Nat) (b : List Byte) (n : Nat), let pa := s.winbase + off
      (off + b.length ≤ 2 ^ 36 → (∀ i, i < b.length → s.mapped (pa + i) = true) → s.memOk → ∃ t,
        exec (.hostBar2Access off (some b) n) s = .next t ∧ t.hostData = [] ∧ t.cores = s.cores
          ∧ ∀ i, i < b.length → t.byte (pa + i) = b.getD i 0)
      ∧ (off + n ≤ 2 ^ 36 → (∀ i, i < n → s.mapped (pa + i) = true) → ∃ t,
        exec (.hostBar2Access off none n) s = .next t ∧ t.cores = s.cores ∧ t.hostData = (s.settleRange pa n).bytes pa n)
      ∧ ((2 ^ 36 < off + n ∨ ∃ i, i < n ∧ s.mapped (pa + i) = false) →
        exec (.hostBar2Access off none n) s = .next { s with hostData := [] }))
    ∧ (∀ (q : Fin 64) (tail : Nat), let x := s.lq q.val
      exec (.doorbell q tail) s = .next (
        if x.enable = true ∧ x.fed = false ∧ (tail % 2 ^ 32 + 2 ^ 32 - x.head) % 2 ^ 32 ≤ 2 ^ x.n
        then { s with lqs := kset q.val { x with tail := tail % 2 ^ 32 } s.lqs }
        else { s with lqs := kset q.val { x with error := true } s.lqs }.raiseMsix 0))
    ∧ (∀ v, (s.raiseMsix v).msix = s.msix ++ [v] ∧ (s.msixMasked v = true → v ∈ (s.raiseMsix v).msixPend)
        ∧ (s.msixMasked v = false → (s.raiseMsix v).msixPend = s.msixPend))
    ∧ (∀ e r, s.svcHeld = e :: r →
      let used := (s.svcTail + 2 ^ 32 - s.svcHead) % 2 ^ 32
      (s.svcCount ≤ used → exec .serviceEntryPlace s = .next s)
      ∧ (used < s.svcCount → s.memOk → ∃ t, exec .serviceEntryPlace s = .next t ∧ t.svcHeld = r ∧ t.svcTail = (s.svcTail + 1) % 2 ^ 32
          ∧ t.msix = s.msix ++ [1]
          ∧ ∀ i, i < 32 → t.byte (s.svcBase + 32 * (s.svcTail % s.svcCount) + i) = e.bytes.getD i 0))
    ∧ (∀ (tok c x y : Nat),
      (kget tok s.tokens = none → exec (.resumeToken tok) s = .next { s with resumeReg := tok, tokens := kdel tok s.tokens })
      ∧ (kget tok s.tokens = some (.group c x y) → s.hasGroup c x → (s.group c x).halt = .page tok → ∃ t,
          exec (.resumeToken tok) s = .next t ∧ t.mem = s.mem ∧ t.resumeReg = tok ∧ kget tok t.tokens = none
            ∧ (t.group c x).halt = if s.held c x then .debug else .none)
      ∧ (∀ h, kget tok s.tokens = some (.chan c x) → (kget c s.cores).isSome → kget x (s.core c).chans = some h → h.page = some tok → ∃ t,
          exec (.resumeToken tok) s = .next t ∧ t.mem = s.mem
            ∧ kget x (t.core c).chans = some { h with page := none, nextAt := (s.core c).clk + 1 })
      ∧ (kget tok s.tokens = some (.sort c x) → kget c s.sortPage = some tok → ∃ t,
          exec (.resumeToken tok) s = .next t ∧ t.mem = s.mem ∧ kget c t.sortPage = none)
      ∧ (kget tok s.tokens = some (.gfx c x) → (kget c s.cores).isSome → ∃ t,
          exec (.resumeToken tok) s = .next t ∧ t.mem = s.mem ∧ ∀ q ∈ (t.core c).gfxQ, q.id = x → q.page = none))
    ∧ (∀ (low reason : Nat),
      let base := low % 2 ^ 32 + reason % 256 * 2 ^ 32
      let find := s.launches.find? (fun p => fld p.2.lpb.ident 0 32 == low % 2 ^ 32 && s.ownLaunch p.1)
      let u := s.settleQueues
      (s.exact = [] → u = s)
      ∧ (find = none → u.queuedLaunch (low % 2 ^ 32) = none → exec (.cancel low reason) s = .next { u with cancelReg := base })
      ∧ (∀ q i l, find = none → u.queuedLaunch (low % 2 ^ 32) = some (q, i, l) → srising s.lqs → ∃ t, exec (.cancel low reason) s = .next t
          ∧ t.cancelReg = base + 2 ^ 63 ∧ t.lq q = { s.lq q with void := (s.lq q).void ++ [i] } ∧ 0 ∈ t.msix)
      ∧ (∀ k x, find = some (k, x) → x.cancel.isSome = true → exec (.cancel low reason) s = .next { s with cancelReg := base + 2 ^ 63 })
      ∧ ∀ k x, find = some (k, x) → x.cancel = none → ∃ t, exec (.cancel low reason) s = .next t ∧ t.cancelReg = base + 2 ^ 63
          ∧ ((∀ p ∈ s.cores, p.2.arrayQ = [] ∧ p.2.drainQ = [] ∧ p.2.rotQ = []) → kget k t.launches = none ∧ 0 ∈ t.msix)
          ∧ ((kget k t.launches = none ∧ 0 ∈ t.msix)
            ∨ ∃ y, kget k t.launches = some y ∧ y.cancel.isSome = true ∧ y.queued = false ∧ y.nextUnit = y.lpb.grid ∧ y.saved = [] ∧ y.back = []))

/-- R388, R389, R378: a stop halts a group that no fault takes in this clk, on a tile its gang with its results put aside; the stop
is reported by a service entry of kind 3 once the results of a shader group have landed. A step or a resume lets the group run
again. A freeze entry can be dropped, and a byte of the image of a stopped unit written. The model's choices: the command's layout
(log 21), a stop's wake (log 59). -/
def Obligations.DebugResults : Prop :=
  ∀ (s : State) (core gid : Nat),
    (kget gid (s.core core).groups = none →
      exec (.debugStop core gid) s = .next { s with agenda := .quadWakeRequest (coreDie core) (coreQuad core) :: s.agenda })
    ∧ (s.hasGroup core gid →
      let g := s.group core gid
      let stopped (x : Group) : Wait := if x.halt = .none then .debug else x.halt
      let again (x : Group) : Wait := if x.halt = .debug ∨ x.halt = .stopped then .none else x.halt
      let d : DebugStop := { core := core, gid := gid, stepping := false, reported := false }
      ((∀ slot, slot < 2 → s.trapsNow core gid slot = false) → ∃ t, exec (.debugStop core gid) s = .next t ∧ t.mem = s.mem ∧ d ∈ t.dbg
          ∧ t.agenda = .debugStopComplete core gid :: s.agenda
          ∧ (∀ x ∈ s.dbgGroups core gid, (kget x (s.core core).groups).isSome → (t.group core x).halt = stopped (s.group core x))
          ∧ (∀ x, x ∉ s.dbgGroups core gid → t.group core x = s.group core x)
          ∧ (isShader core = true → (t.core core).inflight = (s.core core).inflight)
          ∧ (isShader core = false → (t.core core).inflight = [] ∧ (t.core core).freeze.length = (s.core core).freeze.length + (s.core core).inflight.length))
      ∧ (∀ e, s.dbg.find? (fun d => d.core == core && d.gid == gid) = some e → e.reported = false → e.stepping = false →
          (isShader core = true → ∀ f ∈ (s.core core).inflight, f.gid ≠ gid) → ∃ t, exec (.debugStopComplete core gid) s = .next t
            ∧ t.mem = s.mem ∧ (∃ v, t.svcHeld = s.svcHeld ++ [v] ∧ v.kind = 3 ∧ v.gid = gid)
            ∧ ∀ x ∈ t.dbg, x.core = core → x.gid = gid → x.reported = true)
      ∧ (s.held core gid = true → ∃ t, exec (.debugStep core gid) s = .next t ∧ t.mem = s.mem ∧ (t.group core gid).halt = again g
          ∧ ∀ x ∈ t.dbg, x.core = core → x.gid = gid → x.stepping = true)
      ∧ (∃ t, exec (.debugResume core gid) s = .next t ∧ t.mem = s.mem
          ∧ (∀ x ∈ s.dbgGroups core gid, (kget x (s.core core).groups).isSome → (t.group core x).halt = again (s.group core x))
          ∧ ∀ x ∈ t.dbg, x.core = core → x.gid ∉ s.dbgGroups core gid)
      ∧ (∀ n, ∃ t, exec (.debugCancelFreezeEntry core n) s = .next t ∧ t.mem = s.mem ∧ (t.core core).freeze = (s.core core).freeze.eraseIdx n)
      ∧ (∀ off v, g.halt ≠ .debug → g.halt ≠ .stopped → s.held core gid = false → exec (.debugWrite core gid off v) s = .next s)
      ∧ (∀ r k v, r < 64 → k < 8 → (g.halt = .debug ∨ g.halt = .stopped) →
          ((s.core core).unit g.uid).gids.head? = some gid → swf (0 : W64) g.sregs → ∃ t,
          exec (.debugWrite core gid (320 + 8 * r + k) v) s = .next t ∧ t.mem = s.mem
            ∧ (t.group core gid).sreg r = BitVec.ofNat 64 (leNat ((leBytes 8 (g.sreg r).toNat).set k v))
            ∧ ∀ j, j < 64 → j ≠ r → (t.group core gid).sreg j = g.sreg j))

/-- R416: the public key goes to the mailbox; a report is built within 5 ms of its request, with the nonce at the start of the
mailbox, and then stands there with its signature; while one is built other requests are discarded. Key, digests and signature are
open functions (log 7). -/
def Obligations.AttestationResults : Prop :=
  ∀ (s : State) (nonce : List Byte), swf (0 : Byte) s.mailbox →
    (s.attest = none →
      (∃ t, exec .attestPublicKey s = .next t ∧ t.mem = s.mem
        ∧ ∀ i, i < 1312 → sget 0 (64 + i) t.mailbox = (leBytes 1312 Config.publicKey).getD i 0)
      ∧ (nonce.length = 32 → ∃ t u, exec (.attestReport nonce) s = .next t ∧ t.mem = s.mem ∧ t.attest = some (u, nonce)
        ∧ s.now < u ∧ u ≤ s.now + 5000000 * tickNs ∧ ∀ i, i < 32 → sget 0 i t.mailbox = nonce.getD i 0))
    ∧ (s.attest.isSome → exec .attestPublicKey s = .next s ∧ exec (.attestReport nonce) s = .next s)
    ∧ ∀ u n, s.attest = some (u, n) → u ≤ s.now → n.length = 32 → ∃ t, exec .attestReportDone s = .next t ∧ t.mem = s.mem ∧ t.attest = none
        ∧ let b := leBytes 4 1 ++ leBytes 4 s.board.form ++ leBytes 16 Config.serial ++ leBytes 32 (Config.sha3 Config.firmware)
            ++ leBytes 32 (Config.sha3 Config.fused) ++ n ++ fitBytes 64 s.degrade ++ leBytes 8 s.bootCount
          let m := b ++ leBytes 2420 (Config.sign (Config.sha3 b))
          ∀ i, i < m.length → sget 0 (64 + i) t.mailbox = m.getD i 0

/-! ## Time in a core -/

/-- R71, R117, R119, R120, R127, R135, R155, R258, R260: what lands. A fixed-latency result that is due writes its register: a
scalar, the lanes of a predicate (p0 discards), the lanes of a view of a bank of the budget that is BRIGHT; it waits for the wake of
one that is not. A sector or scalar answer that is due writes and lowers its counter; one with an uncorrectable error writes nothing
and is recorded. A wake takes 6 clk for a register bank and leaves its bank BRIGHT. R13: what a sector still has to cross, it crosses
once its clk are over. R226, R347, R248: a walk that ends puts its leaf into the TLBs of
the die and of every core that asked, or keeps its fault for those that asked; one that a TLBINV has overtaken installs nothing and
serves those that asked (log 22). A dirty line goes home at its deadline and stays, clean; at the end of its lease it goes home and
the copy is dropped (what a core's path keeps: log 3). -/
def Obligations.LandingResults : Prop :=
  (∀ (s : State) (core : Nat), (kget core s.cores).isSome →
    let c := s.core core
    (∀ id f, c.inflight.find? (fun f => f.id == id) = some f → f.due ≤ c.pclk → (kget f.gid c.groups).isSome →
      let g := s.group core f.gid
      let lands (p : Group → Prop) : Prop := ∃ t, exec (.resultLanding core id) s = .next t ∧ t.mem = s.mem
        ∧ (t.core core).inflight = c.inflight.filter (fun x => x.id != id) ∧ (∀ x, x ≠ f.gid → t.group core x = s.group core x)
        ∧ p (t.group core f.gid)
      (∀ r v, f.writes = [.s r v] → swf (0 : W64) g.sregs → lands (fun h => h.sreg r = v ∧ (∀ j, j ≠ r → h.sreg j = g.sreg j)
          ∧ h.mat = g.mat ∧ h.pregs = g.pregs))
      ∧ (∀ r m v, f.writes = [.p r m v] → swf (0 : W32) g.pregs → lands (fun h =>
          h.preg r = (if r = 0 then allLanes else (g.preg r &&& ~~~m) ||| (v &&& m)) ∧ (∀ j, j ≠ r → h.preg j = g.preg j)
            ∧ h.sregs = g.sregs ∧ h.mat = g.mat))
      ∧ (∀ (d : View) act v, f.writes = viewWrites d act v → swf (0 : W32) g.mat → d.m.val < g.budget →
          ((g.bank d.m.val).ready = true → lands (fun h =>
            (∀ j, j < 32 → h.elem (vkey d j) = if bitOn act j then v j else g.elem (vkey d j))
              ∧ (∀ k, (∀ j, j < 32 → k ≠ vkey d j) → h.elem k = g.elem k) ∧ h.sregs = g.sregs ∧ h.pregs = g.pregs))
          ∧ ((g.bank d.m.val).ready = false → f.writes ≠ [] → ∃ t, exec (.resultLanding core id) s = .next t ∧ t.mem = s.mem
            ∧ (t.core core).inflight = c.inflight.filter (fun x => x.id != id) ∧ (t.group core f.gid).mat = g.mat
            ∧ ∃ x ∈ (t.core core).sectors, x.id = f.id ∧ x.gid = f.gid ∧ x.writes = f.writes ∧ x.ctr = none ∧ x.due = max (c.clk + 1) ((g.bank d.m.val).wakeEnd c.clk 6))))
    ∧ (∀ id f, c.sectors.find? (fun f => f.id == id) = some f → f.due ≤ c.clk → f.tick ≤ s.now → s.hasGroup core f.gid →
      let g := s.group core f.gid
      (f.wall ≠ 0 → ∃ t, exec (.sectorLanding core id) s = .next t ∧ t.mem = s.mem ∧ t.group core f.gid = g
        ∧ (t.core core).sectors = c.sectors.map (fun x => if x.id == id then { x with wall := 0, tick := s.now + f.wall } else x)) ∧
      (f.wall = 0 →
      (∀ r v n, f.bad = false → f.writes = [.s r v] → f.ctr = some n → swf (0 : W64) g.sregs → ∃ t, exec (.sectorLanding core id) s = .next t
          ∧ t.mem = s.mem ∧ Falls s t core f.gid n ∧ (t.group core f.gid).sreg r = v ∧ (t.core core).sectors = c.sectors.filter (fun x => x.id != id))
      ∧ (∀ n, f.bad = true → f.ctr = some n → ∃ t, exec (.sectorLanding core id) s = .next t ∧ t.mem = s.mem ∧ Falls s t core f.gid n
          ∧ (t.group core f.gid).mat = g.mat ∧ (t.group core f.gid).sregs = g.sregs
          ∧ (t.group core f.gid).dataErr = (match g.dataErr with | some e => some e | none => some (f.pc, f.pa)))
      ∧ (∀ n, f.bad = false → (∀ w ∈ f.writes, ∃ k v, w = .m k v ∧ k / 1024 < g.budget ∧ (g.bank (k / 1024)).ready = true) → f.ctr = some n →
          swf (0 : W32) g.mat → (f.writes.map (fun w => match w with | .m k _ => k | _ => 0)).Nodup → ∃ t, exec (.sectorLanding core id) s = .next t
          ∧ t.mem = s.mem ∧ Falls s t core f.gid n ∧ ∀ k v, Wr.m k v ∈ f.writes → (t.group core f.gid).elem k = v)
      ∧ (∀ m, f.bad = false → f.writes ≠ [] → (∀ w ∈ f.writes, ∃ k v, w = .m k v ∧ k / 1024 = m) → m < g.budget → (g.bank m).ready = false → ∃ t,
          exec (.sectorLanding core id) s = .next t ∧ t.mem = s.mem ∧ (t.group core f.gid).mat = g.mat ∧ (t.group core f.gid).ctrs = g.ctrs
            ∧ ∃ x ∈ (t.core core).sectors, x.id = id ∧ x.gid = f.gid ∧ x.writes = f.writes ∧ x.ctr = f.ctr
              ∧ x.due = max (c.clk + 1) ((g.bank m).wakeEnd c.clk 6))))
    ∧ (∀ g i u, (kget g c.groups).isSome → i < (s.group core g).budget → ((s.group core g).bank i).wakeAt = some u → u ≤ c.clk → ∃ t,
        exec (.bankWakeComplete core (some g) i) s = .next t ∧ t.mem = s.mem
          ∧ (t.group core g).bank i = { (s.group core g).bank i with st := .bright, wakeAt := none })
    ∧ (∀ i u, swf Bank.start c.scratch → (c.sbank i).wakeAt = some u → u ≤ c.clk → ∃ t, exec (.bankWakeComplete core none i) s = .next t
        ∧ t.mem = s.mem ∧ (t.core core).sbank i = { c.sbank i with st := .bright, wakeAt := none }))
  ∧ ∀ s : State,
    (∀ die id w, ((kget die s.walks).getD []).find? (fun w => w.id == id) = some w → w.due ≤ s.now →
      let u := s.settleWalk die w.root w.va
      (∀ leaf size, u.walkFrom die w.root w.va = .ok (leaf, size) → ∃ t, exec (.tlbWalkComplete die id) s = .next t ∧ t.mem = u.mem
        ∧ (s.exact = [] → t.mem = s.mem)
        ∧ (w.stale = true → t.dieTlb = s.dieTlb ∧ (∀ c, (t.core c).tlb = (s.core c).tlb)
          ∧ ∀ q ∈ w.reqs, (kget q.1 s.cores).isSome →
              { who := q.2, root := w.root, va := w.va, f := .leaf leaf size } ∈ (t.core q.1).walkF)
        ∧ (w.stale = false → ∀ q ∈ w.reqs, (kget q.1 s.cores).isSome →
          let e : TlbEntry := { launch := 0, root := w.root, vpage := w.va / 2 ^ 16 * 2 ^ 16, size := size, leaf := leaf }
          { e with launch := s.tagOf q.2 q.1 } ∈ (t.core q.1).tlb ∧ e ∈ (kget die t.dieTlb).getD []))
      ∧ ∀ f, u.walkFrom die w.root w.va = .error f → ∃ t, exec (.tlbWalkComplete die id) s = .next t ∧ t.mem = u.mem
          ∧ t.dieTlb = s.dieTlb ∧ (∀ c, (t.core c).tlb = (s.core c).tlb)
          ∧ ∀ q ∈ w.reqs, (kget q.1 s.cores).isSome → { who := q.2, root := w.root, va := w.va, f := .fault f } ∈ (t.core q.1).walkF)
    ∧ ∀ core line l, (kget core s.cores).isSome → kget line (s.core core).lines = some l → s.memOk →
      let home (t : State) : Prop := ∀ i, i < 128 → l.dirty.getD i false = true → t.byte (line * 128 + i) = l.data.getD i 0
      (∃ t l', exec (.writeBackDeadline core line) s = .next t ∧ home t ∧ kget line (t.core core).lines = some l' ∧ l'.data = l.data
        ∧ (∀ i, l'.dirty.getD i false = false) ∧ l'.since = none)
      ∧ ((s.core core).clk < l.lease → exec (.leaseEnd core line) s = .next s)
      ∧ (l.lease ≤ (s.core core).clk → ∃ t, exec (.leaseEnd core line) s = .next t ∧ home t ∧ kget line (t.core core).lines = none)

/-! ## Launches and units -/

/-- R312, R314, R337, R390, R38, R52, R346, R359, R452: a launch queue's head is placed, or rejected, its signal word taking 2^63 and
the code and the fault vector following, or passed over where a cancellation has dropped it; the codes of an LPB come in the order of
R312, those of a TOPB and its edges after them. An entry of an overflow area returns to the fork queue, and ages from there; a launch
that has ended serves its edges, whose regions go home, those that find the store full staying, signals and is gone; a cancelled one
goes once no engine holds a command of it; a unit whose groups have ended leaves its core, and its launch's retired count rises.
The model's choices: edges are served as the launch ends (log 44), the LPB's VA of a host's launch (log 52), an entry that a cancellation
drops stays in its queue (log 75). -/
def Obligations.LaunchResults : Prop :=
  ∀ s : State,
    (∀ q : Fin 64, let x := s.lq q.val
      let h := s.queueHead q.val
      let taken (t : State) : Prop := (t.lq q.val).head = (x.head + 1) % 2 ^ 32
      x.enable = true → x.head ≠ x.tail →
      (s.exact = [] → h.s = s ∧ h.entry = s.nat (x.base + 8 * (x.head % 2 ^ x.n)) 8 ∧ h.pa = fld h.entry 7 45 * 128
          ∧ (s.mapped h.pa = true → s.badAt h.pa 384 = none → h.img = some (s.bytes h.pa 384)))
      ∧ (x.void.contains x.head = true → ∃ t, exec (.launchQueueTake q) s = .next t ∧ taken t ∧ t.launches.map Prod.fst = s.launches.map Prod.fst)
      ∧ (x.void.contains x.head = false → entryBad h.entry = true → ∃ t, exec (.launchQueueTake q) s = .next t ∧ taken t
          ∧ 0 ∈ t.msix.drop s.msix.length)
      ∧ (∀ c, x.void.contains x.head = false → (if entryBad h.entry = true then c = 0x20 else h.s.validate h.img h.va h.pa none false = .error c) →
          s.pushWait.find? (fun p => p.1 == q.val) = none →
          let l := (h.img.map (fun b => lpbOfImage b h.va h.pa)).getD emptyLpb
          let u := { h.s with free := h.s.free + 1 }
          ∃ t, exec (.launchQueueTake q) s = .next t ∧ taken t ∧ t.launches = s.launches ∧ t.cores = s.cores
            ∧ (l.sigVa = 0 → t.mem = h.s.mem ∧ t.msix = s.msix ++ [0])
            ∧ (l.sigVa ≠ 0 → ∀ w, u.writeV 0x10000 l.root true l.sigVa (leBytes 8 (2 ^ 63 + c)) = some w → t.mem = w.mem ∧ t.msix = s.msix ++ [0])
            ∧ (l.sigVa ≠ 0 → u.writeV 0x10000 l.root true l.sigVa (leBytes 8 (2 ^ 63 + c)) = none → t.mem = h.s.mem
                ∧ t.msix = s.msix ++ [0, 0] ∧ ∃ v, t.svcHeld = s.svcHeld ++ [v] ∧ v.kind = 6 ∧ v.ident = l.ident))
      ∧ (∀ l tb ed, x.void.contains x.head = false → entryBad h.entry = false → h.s.validate h.img h.va h.pa none false = .ok (l, tb, ed) →
          h.s.taskRoom (h.s.mkLaunch l tb ed) = true → ∃ t y, exec (.launchQueueTake q) s = .next t ∧ taken t
            ∧ kget h.s.fresh t.launches = some y ∧ y.lpb = l ∧ y.topb = tb ∧ y.edges = ed ∧ y.queue = q.val ∧ y.queued = true ∧ y.nextUnit = 0
            ∧ y.level = l.prio ∧ y.target = l.grid))
    ∧ (∀ (b : List Byte) (va pa : Nat) (dev : Option (Nat × Bool)), let l := lpbOfImage b va pa
      let code : Option Nat := match s.validate (some b) va pa dev false with | .error c => some c | .ok _ => none
      let row := s.classes.getD l.cls { granted := false, mhz := 0, mv := 0, grant := 0, profile := 0, k := 14 }
      s.validate none va pa dev false = .error 0x20
      ∧ (lpbReserved b = true → code = some 0x20)
      ∧ (lpbReserved b = false → (roleShape l = false → code = some 0x21)
        ∧ (roleShape l = true →
          (l.kind = 0 → (393216 < l.shBytes ∨ 160 < l.live.foldl (fun a r => a + r.budget * r.count) 0) → code = some 0x22)
          ∧ (code = some 0x23 → row.granted = false)
          ∧ (code = some 0x24 → row.granted = true ∧ lpbInconsistent l = true)
          ∧ (code = some 0x25 → lpbInconsistent l = false ∧ ∃ r, dev = some (r, false) ∧ r ≠ l.root)
          ∧ (code = some 0x26 → ∃ r ∈ l.live, s.dictFits r.dict (l.kind != 0) r.role = false)
          ∧ (code = some 0x27 → descriptorsOk l.kind l.rings l.queues = false))
        ∧ (s.lpbCode l dev false = none → l.topbVa ≠ 0 → (l.topbVa % 64 ≠ 0 ∨ s.readL l.root l.topbVa 256 = none) → code = some 0x28)
        ∧ (s.lpbCode l dev false = none → l.topbVa = 0 → s.edgesOf l = none → code = some 0x2E)))
    ∧ (∀ k c r x, kget k s.ovf = some (c :: r) → kget c s.launches = some x → s.forkCount (x.forkDie.getD 2) < 1024 → ∃ t,
        exec (.forkOverflowRefill k) s = .next t ∧ t.mem = s.mem ∧ kget k t.ovf = some r ∧ kget c t.launches = some { x with inOvf := false, t0 := s.ns })
    ∧ (∀ k x ks reason left, kget k s.launches = some x → x.cancel = some (ks, reason, left) → k ∈ ks →
        (s.enginesHold ks = true → exec (.launchSignal k) s = .next s)
        ∧ (s.enginesHold ks = false → ∃ t, exec (.launchSignal k) s = .next t ∧ kget k t.launches = none ∧ 0 ∈ t.msix.drop s.msix.length))
    ∧ (∀ k x, kget k s.launches = some x → x.cancel = none → x.ending = true →
        let b := (s.serveEdges x).1
        (x.edges = [] → b = s ∧ (s.serveEdges x).2 = []) ∧
        ((s.serveEdges x).2 ≠ [] → exec (.launchSignal k) s = .next (b.modLaunch k (fun y => { y with edges := (s.serveEdges x).2 }))) ∧
        ((s.serveEdges x).2 = [] →
        (x.parent = none → ∀ w, b.signal x.lpb x.lpb.sigVal = some w → ∃ t, exec (.launchSignal k) s = .next t ∧ t.mem = w.mem
            ∧ kget k t.launches = none ∧ t.msix = if x.lpb.msix then s.msix ++ [x.lpb.vector] else s.msix)
        ∧ (x.parent = none → b.signal x.lpb x.lpb.sigVal = none → ∃ t, exec (.launchSignal k) s = .next t ∧ t.mem = b.mem
            ∧ kget k t.launches = none ∧ t.msix = s.msix ++ [0] ∧ ∃ v, t.svcHeld = s.svcHeld ++ [v] ∧ v.kind = 6 ∧ v.ident = x.lpb.ident)
        ∧ (∀ h, x.parent = some h → ∃ t, exec (.launchSignal k) s = .next t ∧ kget k t.launches = none ∧ t.msix = s.msix
            ∧ ∀ c uid, ((t.core c).unit uid).children = ((s.core c).unit uid).children - (if ((s.core c).unit uid).home = h then 1 else 0))))
    ∧ ∀ core gid, s.hasGroup core gid →
        let uid := (s.group core gid).uid
        let k := s.countsIn ((s.core core).unit uid).launch
        ((s.core core).unit uid).weave = none → s.unitDone core uid = true → ∀ y, kget k s.launches = some y → ∃ t y',
          exec (.groupRetire core gid) s = .next t ∧ kget uid (t.core core).units = none
            ∧ (∀ g ∈ ((s.core core).unit uid).gids, kget g (t.core core).groups = none)
            ∧ kget k t.launches = some y' ∧ y'.retired = y.retired + 1 ∧ y'.ending = (y.ending || decide (y.target ≤ y.retired + 1))

/-- R315, R316, R318, R319, R317, R46, R51, R313, R380, R381, R384 to R387: a die's dispatcher dispatches a unit that can be placed, and
no unit that comes before it in the order of R316 can, but for one held back for a unit that others make room for; where one that
comes before waits for a unit of lower level, that unit is pre-empted, with every gang of its weave: a workgroup stops at once, a
gang in a restartable step freezes at once, another stops at the end of its step. Once all have stopped and drained, the lines go
home, the image is written after them, and the unit leaves its core for its launch's list of saved units.
A unit that starts has its groups with the registers of R313, every lane at the entry of its role and its banks DARK. In the image the
registers and elements of group i stand at their offsets, a bank that is DARK or clean is not saved, and a restore sets them from
those bytes.
The model's choices: seats of groups (log 16), saves that take no time (log 19), gangs without a TOPB (log 50), who is held back (log
78). -/
def Obligations.DispatchResults : Prop :=
  (∀ s : State,
    (∀ d c cores, s.dispatchNext d = some (c, .inl cores) → exec (.unitDispatch d) s = .next (s.dispatch c cores)
        ∧ c ∈ s.waiting d ∧ (∃ o, s.placeOf c = some (cores, o))
        ∧ ∀ x ∈ s.waiting d, ∀ p o, s.placeOf x = some (p, o) → s.heldBack (lsort Cand.before (s.waiting d)) x p = false → x.before c = false)
    ∧ (∀ d c v, s.dispatchNext d = some (c, .inr v) → (∃ t, exec (.unitDispatch d) s = .next t ∧ t.mem = s.mem
          ∧ t.agenda = .preemption v.1 v.2 :: s.agenda
          ∧ ((kget v.1 s.cores).isSome → (kget v.2 (s.core v.1).units).isSome → ((t.core v.1).unit v.2).forWhom = some (c.key, c.index)))
        ∧ c ∈ s.waiting d ∧ s.placeOf c = none ∧ s.victim c = some v)
    ∧ (∀ core uid u, kget core s.cores = some (s.core core) → kget uid (s.core core).units = some u →
        (∀ p ∈ s.together core uid, s.victimOk p.1 p.2 = true) →
        let stopped (t : State) : Prop := (∀ g ∈ u.gids, (kget g (s.core core).groups).isSome →
              (t.group core g).halt = if (s.group core g).halt = .none then .saving else (s.group core g).halt)
          ∧ ∀ g, g ∉ u.gids → t.group core g = s.group core g
        (∃ t, exec (.preemption core uid) s = .next t ∧ t.mem = s.mem
          ∧ ∀ p ∈ s.together core uid, (kget p.2 (s.core p.1).units).isSome → ((t.core p.1).unit p.2).preempt = true)
        ∧ (u.gang = false → u.weave = none → ∃ t, exec (.preemption core uid) s = .next t ∧ stopped t)
        ∧ (u.gang = true → u.weave = none → (s.midStep u = true ∨ s.topbOf u.launch = none) → ∃ t, exec (.preemption core uid) s = .next t
            ∧ stopped t ∧ (t.core core).frozen = some 255 ∧ (t.core core).inflight = []
            ∧ (t.core core).freeze.length = (s.core core).freeze.length + (s.core core).inflight.length)
        ∧ (u.gang = true → u.weave = none → s.midStep u = false → (s.topbOf u.launch).isSome → ∃ t, exec (.preemption core uid) s = .next t
            ∧ (t.core core).groups = (s.core core).groups ∧ (t.core core).frozen = (s.core core).frozen)
        ∧ ∀ w x, u.weave = some w → kget w s.weaves = some x → x.comm.isSome → srising s.cores = true → srising (s.core core).units = true → ∃ t,
            exec (.preemption core uid) s = .next t ∧ t.weaves = s.weaves ∧ (t.core core).groups = (s.core core).groups)
    ∧ (∀ core uid u x, kget core s.cores = some (s.core core) → kget uid (s.core core).units = some u → u.weave = none →
        (u.preempt = true ∨ u.joining = true) → s.drained core uid = true →
        (∀ g ∈ u.gids, (s.group core g).ended = true ∨ (s.group core g).halt = .saving ∨ ∃ k, (s.group core g).halt = .page k) →
        kget u.launch s.launches = some x →
        let f := s.flush core
        (s.linesOk core → ∀ k, HomeBytes s f core k) ∧ ∃ t y sv, exec (.contextSave core uid) s = .next t
          ∧ t.mem = (f.saveImage core uid).mem ∧ kget uid (t.core core).units = none
          ∧ (∀ g ∈ u.gids, kget g (t.core core).groups = none) ∧ kget u.launch t.launches = some y ∧ y.saved = x.saved ++ [sv]
          ∧ sv.index = u.index ∧ sv.joined = u.joining ∧ (t.core core).lines = [])
    ∧ ∀ key index gpos weave c, (kget c s.cores).isSome → (∀ p ∈ (s.core c).groups, p.2.uid ≠ s.fresh) →
        let l := s.lpbOf key
        let t := s.startOn key index gpos weave c
        let u := (t.core c).unit s.fresh
        u.launch = key ∧ u.index = index ∧ u.gpos = gpos ∧ u.gids.length = l.roster.length ∧ u.gang = !isShader c
        ∧ ∀ g x, kget g (t.core c).groups = some x → x.uid = s.fresh → ∃ i r, l.roster[i]?.map Prod.snd = some r ∧ x.gix = i ∧ x.launch = key
          ∧ x.dict = r.dict ∧ x.budget = r.budget ∧ (∀ k, k < r.budget → x.bank k = Bank.start) ∧ x.mat = [] ∧ x.pregs = [] ∧ x.aregs = []
          ∧ x.slot0.pc = BitVec.ofNat 32 r.entry ∧ x.slot0.mask = allLanes ∧ x.slot1.mask = 0 ∧ x.slot0.fmt = 0
          ∧ x.sreg 48 = BitVec.ofNat 64 l.param ∧ x.sreg 49 = BitVec.ofNat 64 index ∧ x.sreg 50 = BitVec.ofNat 64 i
          ∧ x.sreg 51 = BitVec.ofNat 64 l.grid ∧ x.sreg 52 = BitVec.ofNat 64 (l.privOf index gpos i) ∧ x.sreg 53 = BitVec.ofNat 64 l.ident
          ∧ x.sreg 54 = BitVec.ofNat 64 (((kget key s.launches).map Launch.issuer).getD 0)
          ∧ ∀ k, (k < 48 ∨ 54 < k) → x.sreg k = 0)
  ∧ ∀ (s : State) (core uid i : Nat), i < ((s.core core).unit uid).gids.length →
    let u := (s.core core).unit uid
    let n := u.gids.length
    let gid := u.gids.getD i 0
    let g := s.group core gid
    (∃ f ∈ s.image core uid, f.off = 320 + 2048 * i ∧ f.n = 512 ∧ (∀ r, r < 64 → imgNat (f.get s) (8 * r) 8 = (g.sreg r).toNat)
      ∧ ∀ (v : State) b r, v.hasGroup core gid → swf (0 : W64) (v.group core gid).sregs → r < 64 →
          ((f.load b v).group core gid).sreg r = BitVec.ofNat 64 (imgNat b (8 * r) 8))
    ∧ (∃ f ∈ s.image core uid, f.off = 320 + 2048 * i + 512 ∧ f.n = 32 ∧ (∀ r, r < 8 → imgNat (f.get s) (4 * r) 4 = (g.preg r).toNat)
      ∧ ∀ (v : State) b r, v.hasGroup core gid → swf (0 : W32) (v.group core gid).pregs → 0 < r → r < 8 →
          ((f.load b v).group core gid).preg r = BitVec.ofNat 32 (imgNat b (4 * r) 4))
    ∧ (∃ f ∈ s.image core uid, f.off = 320 + 2048 * i + 544 ∧ f.n = 384 ∧ ∀ r, r < 16 → imgNat (f.get s) (24 * r) 24 = (g.areg r).toNat)
    ∧ (∃ f ∈ s.image core uid, f.off = 320 + 2048 * i + 928 ∧ f.n = 32
      ∧ ∀ k, k < 2 → imgNat (f.get s) (16 * k) 4 = (g.slot k).pc.toNat ∧ imgNat (f.get s) (16 * k + 4) 4 = (g.slot k).mask.toNat)
    ∧ ∀ b, b < 10 → ∃ f ∈ s.image core uid, f.off = 320 + 2048 * n + 40960 * i + 4096 * b ∧ f.n = 4096
      ∧ (∀ k, k < 1024 → imgNat (f.get s) (4 * k) 4 = (g.elem (1024 * b + k)).toNat)
      ∧ f.save s = (decide (b < g.budget) && (g.bank b).st != .dark && (g.bank b).dirty)
      ∧ ∀ (v : State) w k, v.hasGroup core gid → swf (0 : W32) (v.group core gid).mat → k < 1024 →
          ((f.load w v).group core gid).elem (1024 * b + k) = BitVec.ofNat 32 (imgNat w (4 * k) 4)

/-- R42 to R44, R47, R357, R361, R378: the walker starts the next step of a gang: every role group that has not ended stands at the
step's entry of its record with every lane, and s48 to s55 describe the step; after the last step every group has ended; a gang that is
to be pre-empted stops for its save instead, once its results have landed (R47, R381). A step of
2^20 clk that may not restart stops the gang and leaves a service entry of kind 2. A governor's decision releases its walkers for
the step that it names.
The model's choices: log 55. -/
def Obligations.WalkerResults : Prop :=
  (∀ (s : State) (core uid : Nat) (u : WUnit) (d : Nat) (tb : Topb), (kget core s.cores).isSome →
    (s.core core).units.find? (fun p => p.2.atBoundary (s.core core).clk) = some (uid, u) → kget uid (s.core core).units = some u →
    u.stepDue = some d → d ≤ (s.core core).clk → u.govHold = false → s.topbOf u.launch = some tb →
    (tb.steps ≤ u.nextStep → ∃ t, exec (.walkerStepStart core) s = .next t ∧ t.mem = s.mem
        ∧ ∀ g ∈ u.gids, (kget g (s.core core).groups).isSome → (t.group core g).ended = true)
    ∧ (u.nextStep < tb.steps → u.preempt = false → ∃ t, exec (.walkerStepStart core) s = .next t ∧ t.mem = s.mem
        ∧ (let v := (t.core core).unit uid
           v.stepN = u.nextStep ∧ v.idx = tb.idx u.nextStep ∧ v.stepClk = 0 ∧ v.stepping = true ∧ v.stepDue = none)
        ∧ ∀ g ∈ u.gids, (kget g (s.core core).groups).isSome → (s.group core g).ended = false →
            let x := t.group core g
            let pc : W32 := BitVec.ofNat 32 (stepEntry (s.lpbOf u.launch) tb (s.group core g).gix)
            x.slot0.pc = pc ∧ x.slot0.mask = allLanes ∧ x.slot0.wait = .none ∧ x.rlbl = pc ∧ x.stepDone = false
            ∧ (swf (0 : W64) (s.group core g).sregs → ∀ k, k < 8 → x.sreg (48 + k) = BitVec.ofNat 64 ((tb.regs u.nextStep).getD k 0)))
    ∧ (u.nextStep < tb.steps → u.preempt = true → (s.core core).flying u = false → ∃ t, exec (.walkerStepStart core) s = .next t ∧ t.mem = s.mem
        ∧ ∀ g ∈ u.gids, (kget g (s.core core).groups).isSome → (t.group core g).halt = if (s.group core g).halt = .none then .saving else (s.group core g).halt))
  ∧ (∀ (s : State) (core uid g : Nat) (u : WUnit) (r : List Nat), isShader core = false → (kget core s.cores).isSome →
    (s.core core).units.find? (fun p => p.2.gang && p.2.stepping && 2 ^ 20 ≤ p.2.stepClk) = some (uid, u) → u.gids = g :: r →
    (kget g (s.core core).groups).isSome → ((s.topbOf u.launch).map Topb.restart).getD false = false →
    (∀ x ∈ u.gids, (s.group core x).halt ≠ .stopped) → ∃ t, exec (.stepWatchdog core) s = .next t ∧ t.mem = s.mem
      ∧ (t.group core g).halt = .stopped ∧ (t.core core).inflight = [] ∧ (t.core core).frozen = some 255 ∧ t.msix = s.msix ++ [0]
      ∧ ∃ e, t.svcHeld = s.svcHeld ++ [e] ∧ e.kind = 2 ∧ e.cause = 0x0E)
  ∧ ∀ (s : State) (k d : Nat) (g : Gov) (tb : Topb), kget k s.govs = some g → s.topbOf k = some tb → g.due = some d → d ≤ s.now →
    ∃ t, exec (.governorDecision k) s = .next t ∧ t.mem = s.mem ∧ kget k t.govs = some (g.decide tb).1
      ∧ ∀ c uid, (kget uid (s.core c).units).isSome → let u := (s.core c).unit uid
          (t.core c).unit uid = if u.launch = k ∧ u.govHold = true
            then { u with govHold := false, stepN := (g.decide tb).2 - 1, stepDue := some (s.core c).clk } else u

/-! ## Weaves -/

/-- R49, R51, R342, R343, R354: the release of the weave barrier fixes the length of the communication phase and what is to start in
it; a transfer that starts holds its bytes and names its destinations; it lands in every destination's A buffer once its clk parts
and its crossing are over; at the end of the phase the step counter rises and the role groups go on.
The model's choice: a transfer's bytes are those of its start (log 13). -/
def Obligations.WeaveResults : Prop :=
  ∀ (s : State) (k : Nat) (w : Weave), kget k s.weaves = some w →
    (s.weaveReady w = true → ∃ t w', exec (.weaveBarrierRelease k) s = .next t ∧ t.mem = s.mem ∧ t.cores = s.cores
        ∧ kget k t.weaves = some w' ∧ w'.comm = some (s.weaveClk w) ∧ w'.flying = [] ∧ w'.step = w.step
        ∧ ∀ c ∈ w.tiles, let r := tstRow (s.core c).gangOf w.step
            r.2.2 ≤ w'.len ∧ ∀ i, i < r.2.1 → (((s.core c).gangOf.tst.entries.getD (r.1 + i) (tstEntry [] 0)).at_, c, r.1 + i) ∈ w'.toStart)
    ∧ (∀ core entry t0 p, w.comm = some t0 → w.toStart.find? (fun p => p.2.1 == core && p.2.2 == entry) = some p → t0 + p.1 ≤ s.weaveClk w →
        let e := (s.core core).gangOf.tst.entries.getD entry (tstEntry [] 0)
        ∃ t w' x, exec (.tstTransferStart k core entry) s = .next t ∧ t.mem = s.mem ∧ kget k t.weaves = some w'
          ∧ w'.flying = w.flying ++ [x] ∧ x.entry = e ∧ x.dests = w.dests e ∧ x.land = none ∧ x.data.length = e.bytes
          ∧ w'.toStart = w.toStart.filter (fun q => !(q.2.1 == core && q.2.2 == entry)))
    ∧ (∀ id x, w.flying.find? (fun t => t.id == id) = some x →
        (x.land = none → x.clks ≤ s.weaveClk w → ∃ t w', exec (.tstTransferLand k id) s = .next t ∧ t.mem = s.mem ∧ t.cores = s.cores
            ∧ kget k t.weaves = some w' ∧ ∀ y ∈ w'.flying, y.id = id → y.land = some (s.now + x.wall))
        ∧ (∀ n, x.land = some n → n ≤ s.now → (∀ d ∈ x.dests, ((s.core d).wakeFor (spanBanks 2 x.entry.dst x.entry.bytes)).2 = 0) →
            ∃ t w', exec (.tstTransferLand k id) s = .next t ∧ t.mem = s.mem ∧ kget k t.weaves = some w'
              ∧ w'.flying = w.flying.filter (fun y => y.id != id) ∧ w'.lastLand = s.now
              ∧ ∀ d ∈ x.dests, (kget d s.cores).isSome → swf (0 : Byte) (s.core d).buf →
                  ∀ i, i < x.data.length → (t.core d).bufByte 2 (x.entry.dst + i) = x.data.getD i 0))
    ∧ (s.commOver w = true → ∃ t w', exec (.stepCounterAdvance k) s = .next t ∧ t.mem = s.mem ∧ kget k t.weaves = some w'
        ∧ w' = { w with step := (w.step + 1) % 2 ^ 32, comm := none, arrived := [] }
        ∧ ∀ c ∈ w.tiles, ∀ g ∈ (s.core c).gangOf.gids, (t.group c g).weaveArr = false)

/-! ## Power and links -/

/-- R399 to R402: an alarm asserts the throttle, and the count of assertions rises when it was off: what is left of a count of clk then
takes four times as long; when the last alarm clears the hold begins, and at its end the throttle is off. A sensor sample gives a core
its temperature band and its droop history, and is the temperature alarm at or above the threshold. R15, R16,
R412: a flit that is sent again delays transfers and copies and changes nothing else; a lane that fails has its spare, and with a
fifth the channel is disabled; a part whose boundary is left without a channel halts degraded; a retraining ends; a pod port counts
its failed lanes. The model's choices: the throttle changes at once (log 53), delays of links are free (log 6), the count of a
boundary's channels (log 62). -/
def Obligations.AlarmAndLinkResults : Prop :=
  (∀ (s : State) (a : Fin 4),
    let rose (i : Nat) : State :=
      if s.throttle = .off then { s.slow with alarms := s.alarms.set i true, throttle := .held, almcount := min (2 ^ 32 - 1) (s.almcount + 1) }
      else { s with alarms := s.alarms.set i true, throttle := .held }
    exec .externalAlarm s = .next (rose 0) ∧ exec .currentAlarm s = .next (rose 1) ∧ exec .droopAlarm s = .next (rose 2)
    ∧ exec .temperatureAlarm s = .next (rose 3)
    ∧ (s.alarms.getD a.val false = false → exec (.alarmClear a) s = .next s)
    ∧ (s.alarms.getD a.val false = true → let l := s.alarms.set a.val false
        exec (.alarmClear a) s = .next { s with
          alarms := l,
          throttle := if true ∈ l then s.throttle else .holding (s.now + s.thrhold * 1000 * tickNs) })
    ∧ (∀ n, s.throttle = .holding n → exec .throttleHoldExpiry s = .next (if n ≤ s.now then { s.fast with throttle := .off } else s))
    ∧ (let later (n : Nat) : Nat := if s.now < n then s.now + 4 * (n - s.now) else n
       let sooner (n : Nat) : Nat := if s.now < n then s.now + (n - s.now + 3) / 4 else n
       s.slow.raises = s.raises.map (fun r => { r with due := later r.due }) ∧ s.fast.raises = s.raises.map (fun r => { r with due := sooner r.due })
       ∧ s.slow.cores = s.cores ∧ s.fast.cores = s.cores ∧ s.slow.mem = s.mem ∧ s.fast.mem = s.mem)
    ∧ ∀ core temp droop, core / 256 < 10 → core % 256 < dieCores (core / 256) → ∃ t, exec (.sensorSample core temp droop) s = .next t ∧ t.mem = s.mem
        ∧ t.core core = { s.core core with
          temp := (if temp < 70 then 0 else min 7 (1 + (temp - 70) / 5)),
                                           droops := (droop :: (s.core core).droops).take 100 }
        ∧ (∀ d, d ≠ core → t.core d = s.core d)
        ∧ (temp < s.templim → t.throttle = s.throttle ∧ t.alarms = s.alarms)
        ∧ (s.templim ≤ temp → t.throttle = .held ∧ t.alarms = s.alarms.set 3 true))
  ∧ ∀ (s : State) (b d c : Nat), b < 13 → d < 2 → c < 48 →
    let k := b * 128 + d * 64 + c
    let x := (kget k s.bridge).getD { failed := 0, until_ := none }
    (∃ t, exec (.flitCrcRetry b d c) s = .next t ∧ t = { s with weaves := t.weaves, free := t.free, cores := t.cores }
      ∧ (∀ n y, kget n s.cores = some y → kget n t.cores = some { y with chans := (t.core n).chans }
          ∧ ∀ ch h, kget ch y.chans = some h → ∃ m, h.tick ≤ m ∧ kget ch (t.core n).chans = some { h with tick := m })
      ∧ ∀ n w, kget n s.weaves = some w → ∃ l, kget n t.weaves = some (Weave.mk w.launch w.tiles w.origins w.w w.h w.step w.arrived w.comm w.lastLand w.len l w.toStart)
          ∧ l.map (fun y => (y.id, y.dests, y.entry, y.data)) = w.flying.map (fun y => (y.id, y.dests, y.entry, y.data)))
    ∧ (x.failed < 4 → ∃ t u, exec (.bridgeLaneFailure b d c) s = .next t ∧ t.mem = s.mem
        ∧ kget k t.bridge = some { failed := x.failed + 1, until_ := some u } ∧ s.now ≤ u ∧ u ≤ s.now + 4000 * tickNs)
    ∧ (x.failed = 4 → ∃ t, exec (.bridgeLaneFailure b d c) s = .next t ∧ t.mem = s.mem ∧ kget k t.bridge = some { failed := 5, until_ := none }
        ∧ (t.channelsOf b = 0 → s.bootstat = 3 → t.bootstat = 4 ∧ t.agenda = []))
    ∧ (4 < x.failed → ∃ t, exec (.bridgeLaneFailure b d c) s = .next t ∧ t.mem = s.mem ∧ t.bridge = s.bridge)
    ∧ (∀ y u, kget k s.bridge = some y → y.until_ = some u → u ≤ s.now →
        exec (.bridgeRetrainComplete b d c) s = .next { s with bridge := kset k { y with until_ := none } s.bridge })
    ∧ ∀ p, p < 16 → exec (.podLaneFailure p) s = .next { s with podLanes := sset 0 p (min 34 (sget 0 p s.podLanes + 1)) s.podLanes }

/-- R403, R404, R345: a quad that is idle holds 20 µs and then powers down, every dirty byte of its cores' lines home, its banks DARK and
its TLBs and caches empty; a wake request returns it from the hold at once, or, when the hold is over or the quad is OFF, takes a place
in its die's queue, as one for the L2 and bridge block does; a grant takes the arbiter for 1.6 µs and the quad is ready within 2 µs, its
cores' clk counts gone on (log 34) and their pipelines at zero; a quad that holds no unit joins its new pool at its time. R396 to R398:
an inserted stall clk advances the clk count and stands the pipelines and engines still; a timing error in a bundle is counted and
replays: two replay clk follow, and its results and its stream's next bundle come one clk of the pipelines later; the third in
succession of one bundle takes its quad to nominal margin for 10 ms; one in the multiplier or rotator array adds 2 clk to the command
that runs; none occurs at nominal margin; at the end of that period the quad asks for reduced margin unless its weave keeps it; a
margin settles. The model's choices: free times within 2 µs (log 5), the account of replays (log 54). -/
def Obligations.PowerResults : Prop :=
  (∀ (s : State) (d q : Nat) (y : Quad), let k := d * 64 + q
    kget k s.quads = some y →
    let now (z : Quad) : State := { s with quads := kset k z s.quads }
    (y.power = .on → s.quadIsIdle k = true → exec (.quadIdle d q) s = .next (now { y with power := .hold (s.now + 20000 * tickNs) }))
    ∧ (let down (t : State) : Prop := kget k t.quads = some { y with power := .off }
         ∧ (∀ c ∈ quadCores k, (t.core c).scratch = [] ∧ (t.core c).buf = [] ∧ (t.core c).lines = [] ∧ (t.core c).tlb = []
            ∧ (t.core c).dcache = [] ∧ (t.core c).sems = (s.core c).sems)
         ∧ ((∀ c ∈ quadCores k, s.linesOk c) → ∀ c ∈ quadCores k, ∀ j l, kget j (s.core c).lines = some l → ∀ n, n < 128 → l.dirty.getD n false = true →
             (∀ e ∈ quadCores k, e ≠ c → ∀ m, kget j (s.core e).lines = some m → m.dirty.getD n false = false) →
             t.byte (j * 128 + n) = l.data.getD n 0)
       (∀ n, y.power = .hold n → n ≤ s.now → s.quadIsIdle k = true → ∃ t, exec (.quadPowerDown d q) s = .next t ∧ down t ∧ t.inrush = s.inrush)
       ∧ (∀ n, y.power = .hold n → s.now < n → exec (.quadWakeRequest d q) s = .next (now { y with power := .on }).startPending)
       ∧ (∀ n, y.power = .hold n → n ≤ s.now → ∃ t, exec (.quadWakeRequest d q) s = .next t ∧ down t ∧ q ∈ (kget d t.inrush).getD []))
    ∧ (y.power = .on → exec (.quadWakeRequest d q) s = .next s.startPending)
    ∧ (y.power = .off → let l := (kget d s.inrush).getD []
        exec (.quadWakeRequest d q) s = .next (if q ∈ l then s else { s with inrush := kset d (l ++ [q]) s.inrush }))
    ∧ (∀ r, sget 0 d s.inrushAt ≤ s.now → kget d s.inrush = some (q :: r) → ∃ t n, exec (.inrushGrant d) s = .next t
        ∧ t = { s with
          inrush := kset d r s.inrush, inrushAt := sset 0 d (s.now + 1600 * tickNs) s.inrushAt, free := s.free + 1,
                       quads := kset k { y with power := .waking n } s.quads }
        ∧ s.now ≤ n ∧ n ≤ s.now + 2000 * tickNs)
    ∧ (∀ n, y.power = .waking n → n ≤ s.now → ∃ u : State, exec (.quadReady d q) s = .next u.startPending ∧ u.mem = s.mem
        ∧ u.quads = kset k { y with power := .on } s.quads
        ∧ ∀ c ∈ quadCores k, (u.core c).clk = (s.core c).clk + (s.now / s.period c - max ((s.core c).edge - 1) s.bootAt / s.period c)
            ∧ (u.core c).pclk = 0 ∧ (u.core c).esum = 0 ∧ (u.core c).scratch = (s.core c).scratch
            ∧ (u.core c).sems = (s.core c).sems)
    ∧ (∀ c n, y.moving = some (c, some n) → n ≤ s.now → s.quadBusy k = false →
        exec (.quadJoinPool d q) s = .next (now { y with cls := c, moving := none })))
  ∧ (∀ (s : State) (d : Nat) (l : List Nat), d < 10 → kget (d * 64 + dieQuads d) s.quads = none →
      ((kget d s.inrush).getD [] = l → dieQuads d ∉ l →
        exec (.quadWakeRequest d (dieQuads d)) s = .next { s with inrush := kset d (l ++ [dieQuads d]) s.inrush })
      ∧ (sget 0 d s.inrushAt ≤ s.now → kget d s.inrush = some (dieQuads d :: l) → exec (.inrushGrant d) s = .next { s with
          inrush := kset d l s.inrush, inrushAt := sset 0 d (s.now + 1600 * tickNs) s.inrushAt, free := s.free + 1 }))
  ∧ ∀ s : State,
    (∀ core, (kget core s.cores).isSome → s.stalls core = true → (s.core core).edge ≤ s.now → ∃ t, exec (.insertedStallClk core) s = .next t
        ∧ t.mem = s.mem ∧ (t.core core).clk = (s.core core).clk + 1 ∧ (t.core core).pclk = (s.core core).pclk
        ∧ (t.core core).eclk = (s.core core).eclk ∧ (t.core core).stalls = min (2 ^ 32 - 1) ((s.core core).stalls + 1)
        ∧ (t.core core).groups = (s.core core).groups ∧ (t.core core).inflight = (s.core core).inflight)
    ∧ (∀ core y p, core < 4096 → (kget core s.cores).isSome → let k := s.core core
        kget (quadKey core) s.quads = some y →
        let i : Instr := .timingErrorReplay (core + 4096 * (p + 3))
        (y.margin = .nominal ∨ (∃ n, y.margin = .toReduced n) → exec i s = .next s)
        ∧ (p ∉ k.issued → exec i s = .next s)
        ∧ ((y.margin = .reduced ∨ ∃ n, y.margin = .toNominal n) → p ∈ k.issued → kget p k.hits = none →
          let run := sget 0 p k.redo + 1
          let x := k.pathStream core p
          ∃ t, exec i s = .next t ∧ t.mem = s.mem ∧ (t.core core).replays = min (2 ^ 32 - 1) (k.replays + 1) ∧ (t.core core).replayLeft = 3
            ∧ kget p (t.core core).hits = some (if run = 3 then 0 else run)
            ∧ (t.core core).inflight = k.inflight.map (fun f =>
                if f.gid = x.1 ∧ f.issued = (k.pclk : Int) then { f with due := f.due + 1, issued := f.issued + 1 } else f)
            ∧ ((kget x.1 k.groups).isSome → x.2 < 2 →
                (t.group core x.1).slot x.2 = { (k.group x.1).slot x.2 with next := ((k.group x.1).slot x.2).next + 1 })
            ∧ (∀ g, g ≠ x.1 → t.group core g = s.group core g)
            ∧ t.quads = if run = 3 then kset (quadKey core) { y with margin := .nominal, nominalUntil := some (s.now + 10000000 * tickNs) } s.quads
                else s.quads))
    ∧ (∀ core y q r, core < 4096 → (kget core s.cores).isSome → let k := s.core core
        kget (quadKey core) s.quads = some y → (y.margin = .reduced ∨ ∃ n, y.margin = .toNominal n) → q.start ≤ k.eclk → k.eclk < q.due →
        (k.arrayQ = q :: r → ∃ t, exec (.timingErrorReplay (core + 4096)) s = .next t ∧ t.mem = s.mem
            ∧ (t.core core) = { k with arrayQ := { q with due := q.due + 2 } :: r })
        ∧ (k.rotQ = q :: r → ∃ t, exec (.timingErrorReplay (core + 8192)) s = .next t ∧ t.mem = s.mem
            ∧ (t.core core) = { k with rotQ := { q with due := q.due + 2 } :: r }))
    ∧ (∀ d q y, let k := d * 64 + q
        kget k s.quads = some y →
        (∀ n, y.nominalUntil = some n → n ≤ s.now → ∃ t z, exec (.nominalPeriodExpiry d q) s = .next t ∧ t.mem = s.mem ∧ kget k t.quads = some z
            ∧ z.nominalUntil = none ∧ z.power = y.power ∧ (s.quadInWeave k = true → z.margin = y.margin)
            ∧ (s.quadInWeave k = false → ∃ u, z.margin = .toReduced u ∧ s.now ≤ u ∧ u ≤ s.now + 2000 * tickNs))
        ∧ (∀ n, y.margin = .toNominal n → exec (.marginSettled d q) s = .next (
            if n ≤ s.now then { s with quads := kset k { y with margin := .nominal } s.quads } else s))
        ∧ (∀ n, y.margin = .toReduced n → exec (.marginSettled d q) s = .next (
            if n ≤ s.now then { s with quads := kset k { y with margin := .reduced } s.quads } else s)))

/-! ## Steps, decoding, and the whole machine -/

/-- R54, R56, R58, R71: one step of the device runs the first event of the instant, or without one an input that is due, or lets time
pass. When a stream that may issue, that no deferred fault stops, that has not yielded and whose tile no role group freezes in this clk,
fetches a bundle without deltas whose one slot that is not NOP decodes to instruction i, its issue is the issue of i, with the header,
tail and images of the bundle; what the step adds around it is what the fetch does at the homes it reads, that literal waits of a
stream that has issued end, and that a group under the debugger's step stops again. A bundle of NOPs issues as NOP.
The model's choice: the order of one instant (log 1) and that inputs come by tick (log 57). -/
def Obligations.StepRunsDecoded : Prop :=
  (∀ (s : State) (i : Instr) (r : List Instr), s.agenda = i :: r → step s = exec i { s with agenda := r })
  ∧ (∀ (s : State) (n : Nat) (i : Instr) (r : List (Nat × Instr)), s.agenda = [] → s.inputs = (n, i) :: r → n ≤ s.now →
      step s = exec i { s with inputs := r })
  ∧ (∀ s : State, s.agenda = [] → (∀ p ∈ s.inputs.head?, s.now < p.1) → step s = .next s.advance)
  ∧ ∀ (s : State) (core gid slot b len idx : Nat) (i : Instr) (cls : Cls) (w : Nat),
      let u := { s with cur := { Cur.none with core := core, gid := gid, slot := slot } }
      s.mayIssue core gid slot = true → u.curSlot.skip = false → u.dueTrap = none →
      (u.freezeAhead core gid = false ∨ u.trapsNow core gid slot = true) → u.fetch = .bundle b len idx →
      fld (hdrImg b) 0 5 = 0 →
      ((encode i = some (cls, w) ∧ w ≠ 0 ∧ buildSlot cls w = i ∧ i ≠ .nop ∧ ∀ k, k < 5 → slotImg b k = if k = cls.slot then w else 0)
        ∨ (i = .nop ∧ ∀ k, k < 5 → slotImg b k = 0)) →
      let v := { u.fetched with cur := {
        u.cur with hdr := hdrImg b, tail := tailImg b, len := len, idx := idx, imgs := (List.range 5).map (slotImg b), hand := none, pops := [] } }
      ∃ t, exec i v = .next t ∧ exec (.bundleIssue core gid slot) s = .next (u.afterStep
        (if (t.core core).issued != (u.core core).issued then t.modCore core (fun c => c.endLit gid slot) else t) core gid)

/-- R58, R64 to R67, R74: every well-formed slot instruction, for every issuer, privilege and scope, is what its encoding decodes
to. -/
def Obligations.DecodeEncode : Prop :=
  ∀ (r : Role) (priv : Bool) (scope : Nat) (i : Instr) (cls : Cls) (w : Nat), scope ≤ 6 → i.wellFormedFor r priv scope = true →
    encode i = some (cls, w) → decodeSlot r priv scope cls w = .ok i

/-- R64 to R67, R74: what the decoder answers for a slot word is well formed for the issuer, and is encoded by that very word: no
word has two readings, and none that is reserved is read. -/
def Obligations.DecodeSound : Prop :=
  ∀ (r : Role) (priv : Bool) (scope : Nat) (cls : Cls) (w : Nat) (i : Instr), scope ≤ 6 → w < 2 ^ 64 →
    decodeSlot r priv scope cls w = .ok i → i.wellFormedFor r priv scope = true ∧ encode i = some (cls, w)

/-- R58, R59, R64, R65, R74: words written out from the tables of the bundle. A slot's opcode stands in its bits [7:0], the predicate
of its guard in [10:8] and the negate bit in [11]; slot 0 stands at bit 32 of the bundle, slot 1 at 96, slot 2 at 160, slot 3 at 224
and slot 4 at 288. An opcode that no table assigns, a nonzero reserved bit, a reserved direction and two instructions at once give no
instruction. -/
def Obligations.DecodeWords : Prop :=
  let c0 := 2 ^ 32; let va := 2 ^ 96; let vb := 2 ^ 160; let m3 := 2 ^ 224; let e4 := 2 ^ 288
  let gd : Guard := { pg := 2, neg := true }
  decodeTableWord 384 0 = some .nop
  -- IADD 0x10, guard not p2, sd 3, sa 1, sb 63
  ∧ decodeTableWord 384 ((0x10 + 2 * 2 ^ 8 + 2 ^ 11 + 3 * 2 ^ 12 + 1 * 2 ^ 18 + 63 * 2 ^ 24) * c0) = some (.iadd gd 3 1 63)
  -- IMAD 0x14, sd 4, sa 5, sb 6, sc 7
  ∧ decodeTableWord 384 ((0x14 + 4 * 2 ^ 12 + 5 * 2 ^ 18 + 6 * 2 ^ 24 + 7 * 2 ^ 30) * c0) = some (.imad Guard.always 4 5 6 7)
  -- IADD with an immediate, 0x30, sd 9, sa 8, imm32 all ones
  ∧ decodeTableWord 384 ((0x30 + 9 * 2 ^ 12 + 8 * 2 ^ 18 + 0xFFFFFFFF * 2 ^ 32) * c0) = some (.iaddImm Guard.always 9 8 0xFFFFFFFF)
  -- BRA 0x01, off32 = -2
  ∧ decodeTableWord 384 ((0x01 + 0xFFFFFFFE * 2 ^ 32) * c0) = some (.bra Guard.always 0xFFFFFFFE)
  -- VMOV 0x0B, vd m1.v[3], va lane identity plus 7, in slot 1
  ∧ decodeTableWord 384 ((0x0B + (3 + 1 * 2 ^ 5 + 1 * 2 ^ 9) * 2 ^ 12 + (7 + 13 * 2 ^ 5) * 2 ^ 23) * va)
      = some (.vmov Guard.always { dir := .v, m := 1, i := 3 } (.lane 7))
  -- VAND 0x25, vd m9.h[31], va m0.d[2], vb broadcast s4, in slot 2
  ∧ decodeTableWord 384 ((0x25 + 2 * 2 ^ 8 + 2 ^ 11 + (31 + 9 * 2 ^ 5) * 2 ^ 12 + (2 + 2 * 2 ^ 9) * 2 ^ 23 + (4 + 10 * 2 ^ 5) * 2 ^ 34) * vb)
      = some (.vand gd { dir := .h, m := 9, i := 31 } (.view { dir := .d, m := 0, i := 2 }) (.bcast 4))
  -- LD 0x01 from .g, b32, vd x65 (m2.h[1]), vo x0, a3, disp 16
  ∧ decodeTableWord 384 ((0x01 + (1 + 2 * 2 ^ 5) * 2 ^ 12 + 3 * 2 ^ 34 + 2 * 2 ^ 41 + 16 * 2 ^ 48) * m3)
      = some (.ld Guard.always .g .b32 false { dir := .h, m := 2, i := 1 } 3 (.view { dir := .h, m := 0, i := 0 }) 16)
  -- FENCE 0x10
  ∧ decodeTableWord 384 (0x10 * m3) = some (.fence Guard.always)
  -- ACCZ 0x03, bank 5, M 8, N 16
  ∧ decodeTableWord 384 ((0x03 + (5 + 7 * 2 ^ 3) * 2 ^ 34 + 15 * 2 ^ 44) * e4) = some (.accz Guard.always 5 7 15)
  -- QPUSH.r 0x25, sub 1: the A offset in sx (s9), role queue 3
  ∧ decodeTableWord 384 ((0x25 + 1 * 2 ^ 12 + 9 * 2 ^ 16 + 3 * 2 ^ 34) * e4) = some (.qpushRBuffer Guard.always 3 9)
  -- the same with the reserved sy nonzero
  ∧ decodeTableWord 384 ((0x25 + 1 * 2 ^ 12 + 9 * 2 ^ 16 + 9 * 2 ^ 22 + 3 * 2 ^ 34) * e4) = none
  -- BAR 0x40, sub 0
  ∧ decodeTableWord 384 (0x40 * e4) = some (.bar Guard.always)
  -- opcodes that no table assigns, one in each class
  ∧ decodeTableWord 384 (0x0B * c0) = none ∧ decodeTableWord 384 (0x0D * va) = none ∧ decodeTableWord 384 (0x0D * vb) = none
  ∧ decodeTableWord 384 (0x08 * m3) = none ∧ decodeTableWord 384 (0x64 * e4) = none
  -- a reserved bit of a C.R slot, a reserved bit of the header, scope 111, a direction under a matrix code above 9
  ∧ decodeTableWord 384 ((0x10 + 2 ^ 40) * c0) = none ∧ decodeTableWord 384 (0x10 * c0 + 2 ^ 20) = none
  ∧ decodeTableWord 384 (0x10 * c0 + 7 * 2 ^ 16) = none
  ∧ decodeTableWord 384 ((0x0B + (7 + 13 * 2 ^ 5 + 2 ^ 9) * 2 ^ 23) * va) = none
  -- two instructions at once
  ∧ decodeTableWord 384 (0x10 * c0 + 0x10 * m3) = none

/-- R348, R370, R391, R407, R413: the machine right after reset. BOOTSTAT is 0 and the boot sequence is what runs next; no core, no
launch, no weave, no network barrier and no task exists, no alarm stands and the package is not throttled; every quad is OFF at nominal
margin; memory lists nothing. What the spec gives no reset value (the sensors' limits come from firmware, log 25) is not stated. The
model's choices: what memory holds (log 2), records without a reset value, zero or empty (log 4), the pool of a quad (log 8). -/
def Obligations.ResetState : Prop :=
  let s := State.reset
  s.bootstat = 0 ∧ s.agenda = [.resetBoot] ∧ (∃ t, step s = .next t)
  ∧ s.cores = [] ∧ (∀ d q, d < 10 → q < dieQuads d → kget (d * 64 + q) s.quads = some (Quad.start 2)) ∧ s.degrade = List.replicate 64 0 ∧ s.launches = [] ∧ s.weaves = [] ∧ s.nets = [] ∧ s.stats = [] ∧ s.govs = [] ∧ s.dicts = []
  ∧ s.orders = [] ∧ s.sortQ = [] ∧ s.inrush = [] ∧ s.throttle = .off ∧ s.alarms.all (fun a => !a) = true
  ∧ (∀ q, kget q s.lqs = none) ∧ s.vectors = [] ∧ s.mem = [] ∧ s.memOk = true
  ∧ ∀ edge, let c := Core.start edge
      c.sems = [] ∧ c.stalls = 0 ∧ c.replays = 0 ∧ c.esum = 0 ∧ c.temp = 0 ∧ c.droops = [] ∧ c.perf = [] ∧ c.groups = [] ∧ c.units = []
      ∧ c.lines = [] ∧ c.tlb = [] ∧ c.latch.valid = false ∧ c.rot.rows = [] ∧ c.rot.angles = [] ∧ c.rot.deferred = false

/-- Memory's canonical form (addresses strictly rising, none listed that holds what an unlisted address reads as; log 2) is kept by
every step: equal memories stay equal data. -/
def Obligations.StepKeepsMemory : Prop :=
  ∀ s t : State, s.memOk = true → step s = .next t → t.memOk = true

/-- No instruction and no event of the machine stops it: what the spec gives an effect has it, what traps takes its trap, and an event
that is not due changes nothing. R54, R372: every instruction of a bundle completes, where R372 finds no fault and no hold: the stream
moves to its successor, the instruction's own effect is made, and the tail acts.
The model's choice: what an event does that is not due (log 60). -/
def Obligations.EveryStepAnswers : Prop :=
  (∀ (i : Instr) (s : State), ∃ t, exec i s = .next t) ∧ (∀ s : State, ∃ t, step s = .next t)
  ∧ ∀ (i : Instr) (s : State), i.isSlot = true → s.issues i = true → exec i s = .next ((soloSem i).eff (s.begun i)).finish
end

