-- ==== Sys2Proof/Laws/Exec.lean ====
section
/-! SUPPORT. Every slot instruction alone in its bundle is issued by the one shared issue, under its own meaning. -/

namespace Sys2Proof.Machine

theorem exec_nop_slot  (s : State) :
    exec (.nop) s = .next (s.issueWith (soloSlots (.nop)) (soloSem (.nop))) := rfl
theorem exec_bra_slot {g} {off} (s : State) :
    exec (.bra g off) s = .next (s.issueWith (soloSlots (.bra g off)) (soloSem (.bra g off))) := rfl
theorem exec_brc_slot {g} {cond} {sa} {sb} {off} (s : State) :
    exec (.brc g cond sa sb off) s = .next (s.issueWith (soloSlots (.brc g cond sa sb off)) (soloSem (.brc g cond sa sb off))) := rfl
theorem exec_brv_slot {g} {off} (s : State) :
    exec (.brv g off) s = .next (s.issueWith (soloSlots (.brv g off)) (soloSem (.brv g off))) := rfl
theorem exec_meet_slot {g} (s : State) :
    exec (.meet g) s = .next (s.issueWith (soloSlots (.meet g)) (soloSem (.meet g))) := rfl
theorem exec_call_slot {g} {link} {off} (s : State) :
    exec (.call g link off) s = .next (s.issueWith (soloSlots (.call g link off)) (soloSem (.call g link off))) := rfl
theorem exec_ret_slot {g} {sa} (s : State) :
    exec (.ret g sa) s = .next (s.issueWith (soloSlots (.ret g sa)) (soloSem (.ret g sa))) := rfl
theorem exec_loop_slot {g} {sa} {off} (s : State) :
    exec (.loop g sa off) s = .next (s.issueWith (soloSlots (.loop g sa off)) (soloSem (.loop g sa off))) := rfl
theorem exec_exit_slot {g} (s : State) :
    exec (.exit g) s = .next (s.issueWith (soloSlots (.exit g)) (soloSem (.exit g))) := rfl
theorem exec_braReg_slot {g} {sa} (s : State) :
    exec (.braReg g sa) s = .next (s.issueWith (soloSlots (.braReg g sa)) (soloSem (.braReg g sa))) := rfl
theorem exec_callReg_slot {g} {sd} {sa} (s : State) :
    exec (.callReg g sd sa) s = .next (s.issueWith (soloSlots (.callReg g sd sa)) (soloSem (.callReg g sd sa))) := rfl
theorem exec_iadd_slot {g} {sd} {sa} {sb} (s : State) :
    exec (.iadd g sd sa sb) s = .next (s.issueWith (soloSlots (.iadd g sd sa sb)) (soloSem (.iadd g sd sa sb))) := rfl
theorem exec_isub_slot {g} {sd} {sa} {sb} (s : State) :
    exec (.isub g sd sa sb) s = .next (s.issueWith (soloSlots (.isub g sd sa sb)) (soloSem (.isub g sd sa sb))) := rfl
theorem exec_imul_slot {g} {sd} {sa} {sb} (s : State) :
    exec (.imul g sd sa sb) s = .next (s.issueWith (soloSlots (.imul g sd sa sb)) (soloSem (.imul g sd sa sb))) := rfl
theorem exec_imulh_slot {g} {k} {sd} {sa} {sb} (s : State) :
    exec (.imulh g k sd sa sb) s = .next (s.issueWith (soloSlots (.imulh g k sd sa sb)) (soloSem (.imulh g k sd sa sb))) := rfl
theorem exec_imad_slot {g} {sd} {sa} {sb} {sc} (s : State) :
    exec (.imad g sd sa sb sc) s = .next (s.issueWith (soloSlots (.imad g sd sa sb sc)) (soloSem (.imad g sd sa sb sc))) := rfl
theorem exec_ishl_slot {g} {sd} {sa} {sb} (s : State) :
    exec (.ishl g sd sa sb) s = .next (s.issueWith (soloSlots (.ishl g sd sa sb)) (soloSem (.ishl g sd sa sb))) := rfl
theorem exec_ishr_slot {g} {sd} {sa} {sb} (s : State) :
    exec (.ishr g sd sa sb) s = .next (s.issueWith (soloSlots (.ishr g sd sa sb)) (soloSem (.ishr g sd sa sb))) := rfl
theorem exec_isar_slot {g} {sd} {sa} {sb} (s : State) :
    exec (.isar g sd sa sb) s = .next (s.issueWith (soloSlots (.isar g sd sa sb)) (soloSem (.isar g sd sa sb))) := rfl
theorem exec_iand_slot {g} {sd} {sa} {sb} (s : State) :
    exec (.iand g sd sa sb) s = .next (s.issueWith (soloSlots (.iand g sd sa sb)) (soloSem (.iand g sd sa sb))) := rfl
theorem exec_ior_slot {g} {sd} {sa} {sb} (s : State) :
    exec (.ior g sd sa sb) s = .next (s.issueWith (soloSlots (.ior g sd sa sb)) (soloSem (.ior g sd sa sb))) := rfl
theorem exec_ixor_slot {g} {sd} {sa} {sb} (s : State) :
    exec (.ixor g sd sa sb) s = .next (s.issueWith (soloSlots (.ixor g sd sa sb)) (soloSem (.ixor g sd sa sb))) := rfl
theorem exec_imin_slot {g} {u} {sd} {sa} {sb} (s : State) :
    exec (.imin g u sd sa sb) s = .next (s.issueWith (soloSlots (.imin g u sd sa sb)) (soloSem (.imin g u sd sa sb))) := rfl
theorem exec_imax_slot {g} {u} {sd} {sa} {sb} (s : State) :
    exec (.imax g u sd sa sb) s = .next (s.issueWith (soloSlots (.imax g u sd sa sb)) (soloSem (.imax g u sd sa sb))) := rfl
theorem exec_icmp_slot {g} {cc} {pd} {sa} {sb} (s : State) :
    exec (.icmp g cc pd sa sb) s = .next (s.issueWith (soloSlots (.icmp g cc pd sa sb)) (soloSem (.icmp g cc pd sa sb))) := rfl
theorem exec_isel_slot {g} {sd} {sa} {sb} {pc} (s : State) :
    exec (.isel g sd sa sb pc) s = .next (s.issueWith (soloSlots (.isel g sd sa sb pc)) (soloSem (.isel g sd sa sb pc))) := rfl
theorem exec_movs_slot {g} {o} (s : State) :
    exec (.movs g o) s = .next (s.issueWith (soloSlots (.movs g o)) (soloSem (.movs g o))) := by cases o <;> rfl
theorem exec_movxToScalar_slot {g} {signed} {sd} {v} {sa} (s : State) :
    exec (.movxToScalar g signed sd v sa) s = .next (s.issueWith (soloSlots (.movxToScalar g signed sd v sa)) (soloSem (.movxToScalar g signed sd v sa))) := rfl
theorem exec_movxToVector_slot {g} {v} {sd} {sa} (s : State) :
    exec (.movxToVector g v sd sa) s = .next (s.issueWith (soloSlots (.movxToVector g v sd sa)) (soloSem (.movxToVector g v sd sa))) := rfl
theorem exec_bfx_slot {g} {signed} {sd} {sa} {sb} (s : State) :
    exec (.bfx g signed sd sa sb) s = .next (s.issueWith (soloSlots (.bfx g signed sd sa sb)) (soloSem (.bfx g signed sd sa sb))) := rfl
theorem exec_bfi_slot {g} {sd} {sa} {sb} {sc} (s : State) :
    exec (.bfi g sd sa sb sc) s = .next (s.issueWith (soloSlots (.bfi g sd sa sb sc)) (soloSem (.bfi g sd sa sb sc))) := rfl
theorem exec_clz_slot {g} {sd} {sa} (s : State) :
    exec (.clz g sd sa) s = .next (s.issueWith (soloSlots (.clz g sd sa)) (soloSem (.clz g sd sa))) := rfl
theorem exec_popc_slot {g} {sd} {sa} (s : State) :
    exec (.popc g sd sa) s = .next (s.issueWith (soloSlots (.popc g sd sa)) (soloSem (.popc g sd sa))) := rfl
theorem exec_iaddImm_slot {g} {sd} {sa} {imm} (s : State) :
    exec (.iaddImm g sd sa imm) s = .next (s.issueWith (soloSlots (.iaddImm g sd sa imm)) (soloSem (.iaddImm g sd sa imm))) := rfl
theorem exec_imulImm_slot {g} {sd} {sa} {imm} (s : State) :
    exec (.imulImm g sd sa imm) s = .next (s.issueWith (soloSlots (.imulImm g sd sa imm)) (soloSem (.imulImm g sd sa imm))) := rfl
theorem exec_ishlImm_slot {g} {sd} {sa} {imm} (s : State) :
    exec (.ishlImm g sd sa imm) s = .next (s.issueWith (soloSlots (.ishlImm g sd sa imm)) (soloSem (.ishlImm g sd sa imm))) := rfl
theorem exec_ishrImm_slot {g} {sd} {sa} {imm} (s : State) :
    exec (.ishrImm g sd sa imm) s = .next (s.issueWith (soloSlots (.ishrImm g sd sa imm)) (soloSem (.ishrImm g sd sa imm))) := rfl
theorem exec_isarImm_slot {g} {sd} {sa} {imm} (s : State) :
    exec (.isarImm g sd sa imm) s = .next (s.issueWith (soloSlots (.isarImm g sd sa imm)) (soloSem (.isarImm g sd sa imm))) := rfl
theorem exec_iandImm_slot {g} {sd} {sa} {imm} (s : State) :
    exec (.iandImm g sd sa imm) s = .next (s.issueWith (soloSlots (.iandImm g sd sa imm)) (soloSem (.iandImm g sd sa imm))) := rfl
theorem exec_iorImm_slot {g} {sd} {sa} {imm} (s : State) :
    exec (.iorImm g sd sa imm) s = .next (s.issueWith (soloSlots (.iorImm g sd sa imm)) (soloSem (.iorImm g sd sa imm))) := rfl
theorem exec_ixorImm_slot {g} {sd} {sa} {imm} (s : State) :
    exec (.ixorImm g sd sa imm) s = .next (s.issueWith (soloSlots (.ixorImm g sd sa imm)) (soloSem (.ixorImm g sd sa imm))) := rfl
theorem exec_iminImm_slot {g} {u} {sd} {sa} {imm} (s : State) :
    exec (.iminImm g u sd sa imm) s = .next (s.issueWith (soloSlots (.iminImm g u sd sa imm)) (soloSem (.iminImm g u sd sa imm))) := rfl
theorem exec_imaxImm_slot {g} {u} {sd} {sa} {imm} (s : State) :
    exec (.imaxImm g u sd sa imm) s = .next (s.issueWith (soloSlots (.imaxImm g u sd sa imm)) (soloSem (.imaxImm g u sd sa imm))) := rfl
theorem exec_icmpImm_slot {g} {cc} {pd} {sa} {imm} (s : State) :
    exec (.icmpImm g cc pd sa imm) s = .next (s.issueWith (soloSlots (.icmpImm g cc pd sa imm)) (soloSem (.icmpImm g cc pd sa imm))) := rfl
theorem exec_movi_slot {g} {k} {sd} {imm} (s : State) :
    exec (.movi g k sd imm) s = .next (s.issueWith (soloSlots (.movi g k sd imm)) (soloSem (.movi g k sd imm))) := rfl
theorem exec_lea_slot {g} {n} {sd} {sa} {imm} (s : State) :
    exec (.lea g n sd sa imm) s = .next (s.issueWith (soloSlots (.lea g n sd sa imm)) (soloSem (.lea g n sd sa imm))) := rfl
theorem exec_fmt_slot {g} {src} (s : State) :
    exec (.fmt g src) s = .next (s.issueWith (soloSlots (.fmt g src)) (soloSem (.fmt g src))) := by cases src <;> rfl
theorem exec_fmtrd_slot {g} {sd} (s : State) :
    exec (.fmtrd g sd) s = .next (s.issueWith (soloSlots (.fmtrd g sd)) (soloSem (.fmtrd g sd))) := rfl
theorem exec_pmov_slot {g} {o} (s : State) :
    exec (.pmov g o) s = .next (s.issueWith (soloSlots (.pmov g o)) (soloSem (.pmov g o))) := by cases o <;> rfl
theorem exec_pand_slot {g} {pd} {pa} {pb} (s : State) :
    exec (.pand g pd pa pb) s = .next (s.issueWith (soloSlots (.pand g pd pa pb)) (soloSem (.pand g pd pa pb))) := rfl
theorem exec_por_slot {g} {pd} {pa} {pb} (s : State) :
    exec (.por g pd pa pb) s = .next (s.issueWith (soloSlots (.por g pd pa pb)) (soloSem (.por g pd pa pb))) := rfl
theorem exec_pnot_slot {g} {pd} {pa} (s : State) :
    exec (.pnot g pd pa) s = .next (s.issueWith (soloSlots (.pnot g pd pa)) (soloSem (.pnot g pd pa))) := rfl
theorem exec_sys_slot {g} {sel} {sd} (s : State) :
    exec (.sys g sel sd) s = .next (s.issueWith (soloSlots (.sys g sel sd)) (soloSem (.sys g sel sd))) := rfl
theorem exec_trap_slot {g} {code} (s : State) :
    exec (.trap g code) s = .next (s.issueWith (soloSlots (.trap g code)) (soloSem (.trap g code))) := rfl
theorem exec_eret_slot {g} (s : State) :
    exec (.eret g) s = .next (s.issueWith (soloSlots (.eret g)) (soloSem (.eret g))) := rfl
theorem exec_rlbl_slot {g} {off} (s : State) :
    exec (.rlbl g off) s = .next (s.issueWith (soloSlots (.rlbl g off)) (soloSem (.rlbl g off))) := rfl
theorem exec_quota_slot {g} {recv} {n} (s : State) :
    exec (.quota g recv n) s = .next (s.issueWith (soloSlots (.quota g recv n)) (soloSem (.quota g recv n))) := rfl
theorem exec_yield_slot {g} (s : State) :
    exec (.yield g) s = .next (s.issueWith (soloSlots (.yield g)) (soloSem (.yield g))) := rfl
theorem exec_waitc_slot {g} {ctr} {n} (s : State) :
    exec (.waitc g ctr n) s = .next (s.issueWith (soloSlots (.waitc g ctr n)) (soloSem (.waitc g ctr n))) := rfl
theorem exec_vadd_slot {g} {la} {vd} {va} {vb} (s : State) :
    exec (.vadd g la vd va vb) s = .next (s.issueWith (soloSlots (.vadd g la vd va vb)) (soloSem (.vadd g la vd va vb))) := rfl
theorem exec_vsub_slot {g} {la} {vd} {va} {vb} (s : State) :
    exec (.vsub g la vd va vb) s = .next (s.issueWith (soloSlots (.vsub g la vd va vb)) (soloSem (.vsub g la vd va vb))) := rfl
theorem exec_vmul_slot {g} {la} {vd} {va} {vb} (s : State) :
    exec (.vmul g la vd va vb) s = .next (s.issueWith (soloSlots (.vmul g la vd va vb)) (soloSem (.vmul g la vd va vb))) := rfl
theorem exec_vfma_slot {g} {la} {neg} {vd} {va} {vb} {vc} (s : State) :
    exec (.vfma g la neg vd va vb vc) s = .next (s.issueWith (soloSlots (.vfma g la neg vd va vb vc)) (soloSem (.vfma g la neg vd va vb vc))) := rfl
theorem exec_vmin_slot {g} {la} {vd} {va} {vb} (s : State) :
    exec (.vmin g la vd va vb) s = .next (s.issueWith (soloSlots (.vmin g la vd va vb)) (soloSem (.vmin g la vd va vb))) := rfl
theorem exec_vmax_slot {g} {la} {vd} {va} {vb} (s : State) :
    exec (.vmax g la vd va vb) s = .next (s.issueWith (soloSlots (.vmax g la vd va vb)) (soloSem (.vmax g la vd va vb))) := rfl
theorem exec_vabs_slot {g} {la} {vd} {va} (s : State) :
    exec (.vabs g la vd va) s = .next (s.issueWith (soloSlots (.vabs g la vd va)) (soloSem (.vabs g la vd va))) := rfl
theorem exec_vneg_slot {g} {la} {vd} {va} (s : State) :
    exec (.vneg g la vd va) s = .next (s.issueWith (soloSlots (.vneg g la vd va)) (soloSem (.vneg g la vd va))) := rfl
theorem exec_vcmp_slot {g} {cc} {pd} {va} {vb} (s : State) :
    exec (.vcmp g cc pd va vb) s = .next (s.issueWith (soloSlots (.vcmp g cc pd va vb)) (soloSem (.vcmp g cc pd va vb))) := rfl
theorem exec_vsel_slot {g} {vd} {va} {vb} {pc} (s : State) :
    exec (.vsel g vd va vb pc) s = .next (s.issueWith (soloSlots (.vsel g vd va vb pc)) (soloSem (.vsel g vd va vb pc))) := rfl
theorem exec_vmov_slot {g} {vd} {va} (s : State) :
    exec (.vmov g vd va) s = .next (s.issueWith (soloSlots (.vmov g vd va)) (soloSem (.vmov g vd va))) := rfl
theorem exec_vcvt_slot {g} {o} {vd} {va} (s : State) :
    exec (.vcvt g o vd va) s = .next (s.issueWith (soloSlots (.vcvt g o vd va)) (soloSem (.vcvt g o vd va))) := by cases o <;> rfl
theorem exec_vexp2_slot {g} {vd} {va} (s : State) :
    exec (.vexp2 g vd va) s = .next (s.issueWith (soloSlots (.vexp2 g vd va)) (soloSem (.vexp2 g vd va))) := rfl
theorem exec_vlog2_slot {g} {vd} {va} (s : State) :
    exec (.vlog2 g vd va) s = .next (s.issueWith (soloSlots (.vlog2 g vd va)) (soloSem (.vlog2 g vd va))) := rfl
theorem exec_vrcp_slot {g} {vd} {va} (s : State) :
    exec (.vrcp g vd va) s = .next (s.issueWith (soloSlots (.vrcp g vd va)) (soloSem (.vrcp g vd va))) := rfl
theorem exec_vrsq_slot {g} {vd} {va} (s : State) :
    exec (.vrsq g vd va) s = .next (s.issueWith (soloSlots (.vrsq g vd va)) (soloSem (.vrsq g vd va))) := rfl
theorem exec_vsin_slot {g} {vd} {va} (s : State) :
    exec (.vsin g vd va) s = .next (s.issueWith (soloSlots (.vsin g vd va)) (soloSem (.vsin g vd va))) := rfl
theorem exec_vcos_slot {g} {vd} {va} (s : State) :
    exec (.vcos g vd va) s = .next (s.issueWith (soloSlots (.vcos g vd va)) (soloSem (.vcos g vd va))) := rfl
theorem exec_viadd_slot {g} {k} {vd} {va} {vb} (s : State) :
    exec (.viadd g k vd va vb) s = .next (s.issueWith (soloSlots (.viadd g k vd va vb)) (soloSem (.viadd g k vd va vb))) := rfl
theorem exec_visub_slot {g} {k} {vd} {va} {vb} (s : State) :
    exec (.visub g k vd va vb) s = .next (s.issueWith (soloSlots (.visub g k vd va vb)) (soloSem (.visub g k vd va vb))) := rfl
theorem exec_vimul_slot {g} {k} {vd} {va} {vb} (s : State) :
    exec (.vimul g k vd va vb) s = .next (s.issueWith (soloSlots (.vimul g k vd va vb)) (soloSem (.vimul g k vd va vb))) := rfl
theorem exec_vshl_slot {g} {vd} {va} {vb} (s : State) :
    exec (.vshl g vd va vb) s = .next (s.issueWith (soloSlots (.vshl g vd va vb)) (soloSem (.vshl g vd va vb))) := rfl
theorem exec_vshr_slot {g} {ar} {vd} {va} {vb} (s : State) :
    exec (.vshr g ar vd va vb) s = .next (s.issueWith (soloSlots (.vshr g ar vd va vb)) (soloSem (.vshr g ar vd va vb))) := rfl
theorem exec_vand_slot {g} {vd} {va} {vb} (s : State) :
    exec (.vand g vd va vb) s = .next (s.issueWith (soloSlots (.vand g vd va vb)) (soloSem (.vand g vd va vb))) := rfl
theorem exec_vor_slot {g} {vd} {va} {vb} (s : State) :
    exec (.vor g vd va vb) s = .next (s.issueWith (soloSlots (.vor g vd va vb)) (soloSem (.vor g vd va vb))) := rfl
theorem exec_vxor_slot {g} {vd} {va} {vb} (s : State) :
    exec (.vxor g vd va vb) s = .next (s.issueWith (soloSlots (.vxor g vd va vb)) (soloSem (.vxor g vd va vb))) := rfl
theorem exec_vdot4_slot {g} {vd} {va} {vb} {vc} (s : State) :
    exec (.vdot4 g vd va vb vc) s = .next (s.issueWith (soloSlots (.vdot4 g vd va vb vc)) (soloSem (.vdot4 g vd va vb vc))) := rfl
theorem exec_vdot8_slot {g} {vd} {va} {vb} {vc} (s : State) :
    exec (.vdot8 g vd va vb vc) s = .next (s.issueWith (soloSlots (.vdot8 g vd va vb vc)) (soloSem (.vdot8 g vd va vb vc))) := rfl
theorem exec_vscl_slot {g} {div} {vd} {va} {vb} (s : State) :
    exec (.vscl g div vd va vb) s = .next (s.issueWith (soloSlots (.vscl g div vd va vb)) (soloSem (.vscl g div vd va vb))) := rfl
theorem exec_vqmx_slot {g} {vd} {va} (s : State) :
    exec (.vqmx g vd va) s = .next (s.issueWith (soloSlots (.vqmx g vd va)) (soloSem (.vqmx g vd va))) := rfl
theorem exec_vred_slot {g} {op} {vd} {va} (s : State) :
    exec (.vred g op vd va) s = .next (s.issueWith (soloSlots (.vred g op vd va)) (soloSem (.vred g op vd va))) := rfl
theorem exec_vscan_slot {g} {op} {vd} {va} (s : State) :
    exec (.vscan g op vd va) s = .next (s.issueWith (soloSlots (.vscan g op vd va)) (soloSem (.vscan g op vd va))) := rfl
theorem exec_vshfl_slot {g} {mode} {vd} {va} {vb} (s : State) :
    exec (.vshfl g mode vd va vb) s = .next (s.issueWith (soloSlots (.vshfl g mode vd va vb)) (soloSem (.vshfl g mode vd va vb))) := by cases mode <;> rfl
theorem exec_vbcast_slot {g} {lane} {vd} {va} (s : State) :
    exec (.vbcast g lane vd va) s = .next (s.issueWith (soloSlots (.vbcast g lane vd va)) (soloSem (.vbcast g lane vd va))) := by cases lane <;> rfl
theorem exec_vballot_slot {g} {sign} {vd} {va} (s : State) :
    exec (.vballot g sign vd va) s = .next (s.issueWith (soloSlots (.vballot g sign vd va)) (soloSem (.vballot g sign vd va))) := rfl
theorem exec_vlane_slot {g} {k} {vd} (s : State) :
    exec (.vlane g k vd) s = .next (s.issueWith (soloSlots (.vlane g k vd)) (soloSem (.vlane g k vd))) := rfl
theorem exec_ld_slot {g} {sp} {sz} {sx} {vd} {an} {vo} {disp} (s : State) :
    exec (.ld g sp sz sx vd an vo disp) s = .next (s.issueWith (soloSlots (.ld g sp sz sx vd an vo disp)) (soloSem (.ld g sp sz sx vd an vo disp))) := rfl
theorem exec_st_slot {g} {sp} {sz} {vd} {an} {vo} {disp} (s : State) :
    exec (.st g sp sz vd an vo disp) s = .next (s.issueWith (soloSlots (.st g sp sz vd an vo disp)) (soloSem (.st g sp sz vd an vo disp))) := rfl
theorem exec_ldx_slot {g} {sp} {sz} {sx} {vd} {an} {vo} {disp} (s : State) :
    exec (.ldx g sp sz sx vd an vo disp) s = .next (s.issueWith (soloSlots (.ldx g sp sz sx vd an vo disp)) (soloSem (.ldx g sp sz sx vd an vo disp))) := rfl
theorem exec_stx_slot {g} {sp} {sz} {vd} {an} {vo} {disp} (s : State) :
    exec (.stx g sp sz vd an vo disp) s = .next (s.issueWith (soloSlots (.stx g sp sz vd an vo disp)) (soloSem (.stx g sp sz vd an vo disp))) := rfl
theorem exec_atom_slot {g} {shared} {b64} {op} {vd} {an} {vo} {disp} (s : State) :
    exec (.atom g shared b64 op vd an vo disp) s = .next (s.issueWith (soloSlots (.atom g shared b64 op vd an vo disp)) (soloSem (.atom g shared b64 op vd an vo disp))) := rfl
theorem exec_atomfAdd_slot {g} {shared} {vd} {an} {vo} {disp} (s : State) :
    exec (.atomfAdd g shared vd an vo disp) s = .next (s.issueWith (soloSlots (.atomfAdd g shared vd an vo disp)) (soloSem (.atomfAdd g shared vd an vo disp))) := rfl
theorem exec_atomfAddX_slot {g} {vd} {an} {vo} {disp} (s : State) :
    exec (.atomfAddX g vd an vo disp) s = .next (s.issueWith (soloSlots (.atomfAddX g vd an vo disp)) (soloSem (.atomfAddX g vd an vo disp))) := rfl
theorem exec_settle_slot {g} {vd} {an} {vo} {disp} (s : State) :
    exec (.settle g vd an vo disp) s = .next (s.issueWith (soloSlots (.settle g vd an vo disp)) (soloSem (.settle g vd an vo disp))) := rfl
theorem exec_fence_slot {g} (s : State) :
    exec (.fence g) s = .next (s.issueWith (soloSlots (.fence g)) (soloSem (.fence g))) := rfl
theorem exec_xlate_slot {g} {nf} {an} {sa} (s : State) :
    exec (.xlate g nf an sa) s = .next (s.issueWith (soloSlots (.xlate g nf an sa)) (soloSem (.xlate g nf an sa))) := rfl
theorem exec_probe_slot {g} {sz} {vd} {an} {vo} {disp} (s : State) :
    exec (.probe g sz vd an vo disp) s = .next (s.issueWith (soloSlots (.probe g sz vd an vo disp)) (soloSem (.probe g sz vd an vo disp))) := rfl
theorem exec_pref_slot {g} {l2} {an} {vo} {disp} (s : State) :
    exec (.pref g l2 an vo disp) s = .next (s.issueWith (soloSlots (.pref g l2 an vo disp)) (soloSem (.pref g l2 an vo disp))) := rfl
theorem exec_clean_slot {g} {r} (s : State) :
    exec (.clean g r) s = .next (s.issueWith (soloSlots (.clean g r)) (soloSem (.clean g r))) := rfl
theorem exec_inval_slot {g} {r} (s : State) :
    exec (.inval g r) s = .next (s.issueWith (soloSlots (.inval g r)) (soloSem (.inval g r))) := rfl
theorem exec_mma_slot {g} {o} (s : State) :
    exec (.mma g o) s = .next (s.issueWith (soloSlots (.mma g o)) (soloSem (.mma g o))) := rfl
theorem exec_mmag_slot {g} {o} (s : State) :
    exec (.mmag g o) s = .next (s.issueWith (soloSlots (.mmag g o)) (soloSem (.mmag g o))) := rfl
theorem exec_accz_slot {g} {bank} {m1} {n1} (s : State) :
    exec (.accz g bank m1 n1) s = .next (s.issueWith (soloSlots (.accz g bank m1 n1)) (soloSem (.accz g bank m1 n1))) := rfl
theorem exec_accrd_slot {g} {o} (s : State) :
    exec (.accrd g o) s = .next (s.issueWith (soloSlots (.accrd g o)) (soloSem (.accrd g o))) := rfl
theorem exec_mxld_slot {g} {sw} {sW} {sF} {n1} {nb} (s : State) :
    exec (.mxld g sw sW sF n1 nb) s = .next (s.issueWith (soloSlots (.mxld g sw sW sF n1 nb)) (soloSem (.mxld g sw sW sF n1 nb))) := rfl
theorem exec_copy_slot {g} {o} (s : State) :
    exec (.copy g o) s = .next (s.issueWith (soloSlots (.copy g o)) (soloSem (.copy g o))) := rfl
theorem exec_sort_slot {g} {o} (s : State) :
    exec (.sort g o) s = .next (s.issueWith (soloSlots (.sort g o)) (soloSem (.sort g o))) := rfl
theorem exec_merge_slot {g} {o} (s : State) :
    exec (.merge g o) s = .next (s.issueWith (soloSlots (.merge g o)) (soloSem (.merge g o))) := rfl
theorem exec_ordw_slot {g} {sR} {sQ} {m} {i} (s : State) :
    exec (.ordw g sR sQ m i) s = .next (s.issueWith (soloSlots (.ordw g sR sQ m i)) (soloSem (.ordw g sR sQ m i))) := rfl
theorem exec_ordd_slot {g} {sR} {sQ} (s : State) :
    exec (.ordd g sR sQ) s = .next (s.issueWith (soloSlots (.ordd g sR sQ)) (soloSem (.ordd g sR sQ))) := rfl
theorem exec_fork_slot {g} {sL} (s : State) :
    exec (.fork g sL) s = .next (s.issueWith (soloSlots (.fork g sL)) (soloSem (.fork g sL))) := rfl
theorem exec_join_slot {g} (s : State) :
    exec (.join g) s = .next (s.issueWith (soloSlots (.join g)) (soloSem (.join g))) := rfl
theorem exec_spawn_slot {g} {sL} (s : State) :
    exec (.spawn g sL) s = .next (s.issueWith (soloSlots (.spawn g sL)) (soloSem (.spawn g sL))) := rfl
theorem exec_taskend_slot {g} (s : State) :
    exec (.taskend g) s = .next (s.issueWith (soloSlots (.taskend g)) (soloSem (.taskend g))) := rfl
theorem exec_launch_slot {g} {sD} {sL} (s : State) :
    exec (.launch g sD sL) s = .next (s.issueWith (soloSlots (.launch g sD sL)) (soloSem (.launch g sD sL))) := rfl
theorem exec_qpushT_slot {g} {sL} {n} (s : State) :
    exec (.qpushT g sL n) s = .next (s.issueWith (soloSlots (.qpushT g sL n)) (soloSem (.qpushT g sL n))) := rfl
theorem exec_qpushRBuffer_slot {g} {n} {sA} (s : State) :
    exec (.qpushRBuffer g n sA) s = .next (s.issueWith (soloSlots (.qpushRBuffer g n sA)) (soloSem (.qpushRBuffer g n sA))) := rfl
theorem exec_qpushRRegister_slot {g} {n} {m} {i} (s : State) :
    exec (.qpushRRegister g n m i) s = .next (s.issueWith (soloSlots (.qpushRRegister g n m i)) (soloSem (.qpushRRegister g n m i))) := rfl
theorem exec_qcfgRd_slot {g} {sD} {sel} (s : State) :
    exec (.qcfgRd g sD sel) s = .next (s.issueWith (soloSlots (.qcfgRd g sD sel)) (soloSem (.qcfgRd g sD sel))) := rfl
theorem exec_qcfgRq_slot {g} {n} {sC} (s : State) :
    exec (.qcfgRq g n sC) s = .next (s.issueWith (soloSlots (.qcfgRq g n sC)) (soloSem (.qcfgRq g n sC))) := rfl
theorem exec_rget_slot {g} {full} {sD} {ring} {sS} (s : State) :
    exec (.rget g full sD ring sS) s = .next (s.issueWith (soloSlots (.rget g full sD ring sS)) (soloSem (.rget g full sD ring sS))) := rfl
theorem exec_rput_slot {g} {ring} {sS} (s : State) :
    exec (.rput g ring sS) s = .next (s.issueWith (soloSlots (.rput g ring sS)) (soloSem (.rput g ring sS))) := rfl
theorem exec_dictld_slot {g} {sD} {sI} {n} (s : State) :
    exec (.dictld g sD sI n) s = .next (s.issueWith (soloSlots (.dictld g sD sI n)) (soloSem (.dictld g sD sI n))) := rfl
theorem exec_dictinv_slot {g} {n} (s : State) :
    exec (.dictinv g n) s = .next (s.issueWith (soloSlots (.dictinv g n)) (soloSem (.dictinv g n))) := rfl
theorem exec_tlbinv_slot {g} {sV} {sB} {sR} (s : State) :
    exec (.tlbinv g sV sB sR) s = .next (s.issueWith (soloSlots (.tlbinv g sV sB sR)) (soloSem (.tlbinv g sV sB sR))) := rfl
theorem exec_tlbinvRoot_slot {g} {sR} (s : State) :
    exec (.tlbinvRoot g sR) s = .next (s.issueWith (soloSlots (.tlbinvRoot g sR)) (soloSem (.tlbinvRoot g sR))) := rfl
theorem exec_tlbinvAll_slot {g} (s : State) :
    exec (.tlbinvAll g) s = .next (s.issueWith (soloSlots (.tlbinvAll g)) (soloSem (.tlbinvAll g))) := rfl
theorem exec_tstld_slot {g} {sD} {sI} (s : State) :
    exec (.tstld g sD sI) s = .next (s.issueWith (soloSlots (.tstld g sD sI)) (soloSem (.tstld g sD sI))) := rfl
theorem exec_classWr_slot {g} {sI} {sV} (s : State) :
    exec (.classWr g sI sV) s = .next (s.issueWith (soloSlots (.classWr g sI sV)) (soloSem (.classWr g sI sV))) := rfl
theorem exec_classMv_slot {g} {sQ} {sC} (s : State) :
    exec (.classMv g sQ sC) s = .next (s.issueWith (soloSlots (.classMv g sQ sC)) (soloSem (.classMv g sQ sC))) := rfl
theorem exec_classRd_slot {g} {sD} {sI} (s : State) :
    exec (.classRd g sD sI) s = .next (s.issueWith (soloSlots (.classRd g sD sI)) (soloSem (.classRd g sD sI))) := rfl
theorem exec_bar_slot {g} (s : State) :
    exec (.bar g) s = .next (s.issueWith (soloSlots (.bar g)) (soloSem (.bar g))) := rfl
theorem exec_barWeave_slot {g} (s : State) :
    exec (.barWeave g) s = .next (s.issueWith (soloSlots (.barWeave g)) (soloSem (.barWeave g))) := rfl
theorem exec_barNet_slot {g} {b} {sC} (s : State) :
    exec (.barNet g b sC) s = .next (s.issueWith (soloSlots (.barNet g b sC)) (soloSem (.barNet g b sC))) := rfl
theorem exec_semaddI_slot {g} {n} {k} {target} (s : State) :
    exec (.semaddI g n k target) s = .next (s.issueWith (soloSlots (.semaddI g n k target)) (soloSem (.semaddI g n k target))) := rfl
theorem exec_semadd_slot {g} {n} {sV} {target} (s : State) :
    exec (.semadd g n sV target) s = .next (s.issueWith (soloSlots (.semadd g n sV target)) (soloSem (.semadd g n sV target))) := rfl
theorem exec_semwaitDec_slot {g} {n} {k} (s : State) :
    exec (.semwaitDec g n k) s = .next (s.issueWith (soloSlots (.semwaitDec g n k)) (soloSem (.semwaitDec g n k))) := rfl
theorem exec_semwaitGe_slot {g} {n} {k} (s : State) :
    exec (.semwaitGe g n k) s = .next (s.issueWith (soloSlots (.semwaitGe g n k)) (soloSem (.semwaitGe g n k))) := rfl
theorem exec_wpwait_slot {g} {ch} {sV} (s : State) :
    exec (.wpwait g ch sV) s = .next (s.issueWith (soloSlots (.wpwait g ch sV)) (soloSem (.wpwait g ch sV))) := rfl
theorem exec_wpwaitRd_slot {g} {sD} {ch} (s : State) :
    exec (.wpwaitRd g sD ch) s = .next (s.issueWith (soloSlots (.wpwaitRd g sD ch)) (soloSem (.wpwaitRd g sD ch))) := rfl
theorem exec_stepend_slot {g} (s : State) :
    exec (.stepend g) s = .next (s.issueWith (soloSlots (.stepend g)) (soloSem (.stepend g))) := rfl
theorem exec_govrd_slot {g} {sel} {sD} {sL} (s : State) :
    exec (.govrd g sel sD sL) s = .next (s.issueWith (soloSlots (.govrd g sel sD sL)) (soloSem (.govrd g sel sD sL))) := rfl
theorem exec_cntrd_slot {g} {sD} {sel} (s : State) :
    exec (.cntrd g sD sel) s = .next (s.issueWith (soloSlots (.cntrd g sD sel)) (soloSem (.cntrd g sD sel))) := rfl
theorem exec_cntclr_slot {g} {n} (s : State) :
    exec (.cntclr g n) s = .next (s.issueWith (soloSlots (.cntclr g n)) (soloSem (.cntclr g n))) := rfl
theorem exec_cntclrSnap_slot {g} (s : State) :
    exec (.cntclrSnap g) s = .next (s.issueWith (soloSlots (.cntclrSnap g)) (soloSem (.cntclrSnap g))) := rfl
theorem exec_cntclrRoll_slot {g} (s : State) :
    exec (.cntclrRoll g) s = .next (s.issueWith (soloSlots (.cntclrRoll g)) (soloSem (.cntclrRoll g))) := rfl
theorem exec_cntclrFree_slot {g} (s : State) :
    exec (.cntclrFree g) s = .next (s.issueWith (soloSlots (.cntclrFree g)) (soloSem (.cntclrFree g))) := rfl
theorem exec_enrd_slot {g} {sD} {sel} (s : State) :
    exec (.enrd g sD sel) s = .next (s.issueWith (soloSlots (.enrd g sD sel)) (soloSem (.enrd g sD sel))) := rfl
theorem exec_qrfeed_slot {g} {bf16} {log} {sx} {sy} {sz} {n} {h} (s : State) :
    exec (.qrfeed g bf16 log sx sy sz n h) s = .next (s.issueWith (soloSlots (.qrfeed g bf16 log sx sy sz n h)) (soloSem (.qrfeed g bf16 log sx sy sz n h))) := rfl
theorem exec_qrapplySt_slot {g} {sx} {sy} {k} {n} (s : State) :
    exec (.qrapplySt g sx sy k n) s = .next (s.issueWith (soloSlots (.qrapplySt g sx sy k n)) (soloSem (.qrapplySt g sx sy k n))) := rfl
theorem exec_qrapplyLog_slot {g} {sx} {sy} {sz} {k} {h} {n} (s : State) :
    exec (.qrapplyLog g sx sy sz k h n) s = .next (s.issueWith (soloSlots (.qrapplyLog g sx sy sz k h n)) (soloSem (.qrapplyLog g sx sy sz k h n))) := rfl
theorem exec_qrread_slot {g} {blk} {toA} {sx} {m} (s : State) :
    exec (.qrread g blk toA sx m) s = .next (s.issueWith (soloSlots (.qrread g blk toA sx m)) (soloSem (.qrread g blk toA sx m))) := rfl
theorem exec_qrreadSt_slot {g} {sx} (s : State) :
    exec (.qrreadSt g sx) s = .next (s.issueWith (soloSlots (.qrreadSt g sx)) (soloSem (.qrreadSt g sx))) := rfl
theorem exec_qrzero_slot {g} (s : State) :
    exec (.qrzero g) s = .next (s.issueWith (soloSlots (.qrzero g)) (soloSem (.qrzero g))) := rfl
theorem exec_qrgainImm_slot {g} (s : State) :
    exec (.qrgainImm g) s = .next (s.issueWith (soloSlots (.qrgainImm g)) (soloSem (.qrgainImm g))) := rfl
theorem exec_qrgainDef_slot {g} (s : State) :
    exec (.qrgainDef g) s = .next (s.issueWith (soloSlots (.qrgainDef g)) (soloSem (.qrgainDef g))) := rfl
theorem exec_angout_slot {g} {rad} {m} {i} (s : State) :
    exec (.angout g rad m i) s = .next (s.issueWith (soloSlots (.angout g rad m i)) (soloSem (.angout g rad m i))) := rfl
theorem exec_angin_slot {g} {rad} {m} {i} (s : State) :
    exec (.angin g rad m i) s = .next (s.issueWith (soloSlots (.angin g rad m i)) (soloSem (.angin g rad m i))) := rfl
theorem exec_grot_slot {g} {e} {sx} {sy} {p} {h} (s : State) :
    exec (.grot g e sx sy p h) s = .next (s.issueWith (soloSlots (.grot g e sx sy p h)) (soloSem (.grot g e sx sy p h))) := rfl
theorem exec_rast_slot {g} {m} {sv} {sc} {st} (s : State) :
    exec (.rast g m sv sc st) s = .next (s.issueWith (soloSlots (.rast g m sv sc st)) (soloSem (.rast g m sv sc st))) := rfl
theorem exec_trace_slot {g} {mO} {mI} {sr} {sf} {st} (s : State) :
    exec (.trace g mO mI sr sf st) s = .next (s.issueWith (soloSlots (.trace g mO mI sr sf st)) (soloSem (.trace g mO mI sr sf st))) := rfl
theorem exec_texs_slot {g} {mO} {mI} {sh} {sl} (s : State) :
    exec (.texs g mO mI sh sl) s = .next (s.issueWith (soloSlots (.texs g mO mI sh sl)) (soloSem (.texs g mO mI sh sl))) := rfl
theorem exec_texg_slot {g} {ch} {mO} {mI} {sh} (s : State) :
    exec (.texg g ch mO mI sh) s = .next (s.issueWith (soloSlots (.texg g ch mO mI sh)) (soloSem (.texg g ch mO mI sh))) := rfl

/-- Every slot instruction runs through the shared issue. -/
theorem exec_slot (i : Instr) (s : State) (h : i.isSlot = true) :
    exec i s = .next (s.issueWith (soloSlots i) (soloSem i)) := by
  cases i
  case nop => exact exec_nop_slot s
  case bra => exact exec_bra_slot s
  case brc => exact exec_brc_slot s
  case brv => exact exec_brv_slot s
  case meet => exact exec_meet_slot s
  case call => exact exec_call_slot s
  case ret => exact exec_ret_slot s
  case loop => exact exec_loop_slot s
  case exit => exact exec_exit_slot s
  case braReg => exact exec_braReg_slot s
  case callReg => exact exec_callReg_slot s
  case iadd => exact exec_iadd_slot s
  case isub => exact exec_isub_slot s
  case imul => exact exec_imul_slot s
  case imulh => exact exec_imulh_slot s
  case imad => exact exec_imad_slot s
  case ishl => exact exec_ishl_slot s
  case ishr => exact exec_ishr_slot s
  case isar => exact exec_isar_slot s
  case iand => exact exec_iand_slot s
  case ior => exact exec_ior_slot s
  case ixor => exact exec_ixor_slot s
  case imin => exact exec_imin_slot s
  case imax => exact exec_imax_slot s
  case icmp => exact exec_icmp_slot s
  case isel => exact exec_isel_slot s
  case movs => exact exec_movs_slot s
  case movxToScalar => exact exec_movxToScalar_slot s
  case movxToVector => exact exec_movxToVector_slot s
  case bfx => exact exec_bfx_slot s
  case bfi => exact exec_bfi_slot s
  case clz => exact exec_clz_slot s
  case popc => exact exec_popc_slot s
  case iaddImm => exact exec_iaddImm_slot s
  case imulImm => exact exec_imulImm_slot s
  case ishlImm => exact exec_ishlImm_slot s
  case ishrImm => exact exec_ishrImm_slot s
  case isarImm => exact exec_isarImm_slot s
  case iandImm => exact exec_iandImm_slot s
  case iorImm => exact exec_iorImm_slot s
  case ixorImm => exact exec_ixorImm_slot s
  case iminImm => exact exec_iminImm_slot s
  case imaxImm => exact exec_imaxImm_slot s
  case icmpImm => exact exec_icmpImm_slot s
  case movi => exact exec_movi_slot s
  case lea => exact exec_lea_slot s
  case fmt => exact exec_fmt_slot s
  case fmtrd => exact exec_fmtrd_slot s
  case pmov => exact exec_pmov_slot s
  case pand => exact exec_pand_slot s
  case por => exact exec_por_slot s
  case pnot => exact exec_pnot_slot s
  case sys => exact exec_sys_slot s
  case trap => exact exec_trap_slot s
  case eret => exact exec_eret_slot s
  case rlbl => exact exec_rlbl_slot s
  case quota => exact exec_quota_slot s
  case yield => exact exec_yield_slot s
  case waitc => exact exec_waitc_slot s
  case vadd => exact exec_vadd_slot s
  case vsub => exact exec_vsub_slot s
  case vmul => exact exec_vmul_slot s
  case vfma => exact exec_vfma_slot s
  case vmin => exact exec_vmin_slot s
  case vmax => exact exec_vmax_slot s
  case vabs => exact exec_vabs_slot s
  case vneg => exact exec_vneg_slot s
  case vcmp => exact exec_vcmp_slot s
  case vsel => exact exec_vsel_slot s
  case vmov => exact exec_vmov_slot s
  case vcvt => exact exec_vcvt_slot s
  case vexp2 => exact exec_vexp2_slot s
  case vlog2 => exact exec_vlog2_slot s
  case vrcp => exact exec_vrcp_slot s
  case vrsq => exact exec_vrsq_slot s
  case vsin => exact exec_vsin_slot s
  case vcos => exact exec_vcos_slot s
  case viadd => exact exec_viadd_slot s
  case visub => exact exec_visub_slot s
  case vimul => exact exec_vimul_slot s
  case vshl => exact exec_vshl_slot s
  case vshr => exact exec_vshr_slot s
  case vand => exact exec_vand_slot s
  case vor => exact exec_vor_slot s
  case vxor => exact exec_vxor_slot s
  case vdot4 => exact exec_vdot4_slot s
  case vdot8 => exact exec_vdot8_slot s
  case vscl => exact exec_vscl_slot s
  case vqmx => exact exec_vqmx_slot s
  case vred => exact exec_vred_slot s
  case vscan => exact exec_vscan_slot s
  case vshfl => exact exec_vshfl_slot s
  case vbcast => exact exec_vbcast_slot s
  case vballot => exact exec_vballot_slot s
  case vlane => exact exec_vlane_slot s
  case ld => exact exec_ld_slot s
  case st => exact exec_st_slot s
  case ldx => exact exec_ldx_slot s
  case stx => exact exec_stx_slot s
  case atom => exact exec_atom_slot s
  case atomfAdd => exact exec_atomfAdd_slot s
  case atomfAddX => exact exec_atomfAddX_slot s
  case settle => exact exec_settle_slot s
  case fence => exact exec_fence_slot s
  case xlate => exact exec_xlate_slot s
  case probe => exact exec_probe_slot s
  case pref => exact exec_pref_slot s
  case clean => exact exec_clean_slot s
  case inval => exact exec_inval_slot s
  case mma => exact exec_mma_slot s
  case mmag => exact exec_mmag_slot s
  case accz => exact exec_accz_slot s
  case accrd => exact exec_accrd_slot s
  case mxld => exact exec_mxld_slot s
  case copy => exact exec_copy_slot s
  case sort => exact exec_sort_slot s
  case merge => exact exec_merge_slot s
  case ordw => exact exec_ordw_slot s
  case ordd => exact exec_ordd_slot s
  case fork => exact exec_fork_slot s
  case join => exact exec_join_slot s
  case spawn => exact exec_spawn_slot s
  case taskend => exact exec_taskend_slot s
  case launch => exact exec_launch_slot s
  case qpushT => exact exec_qpushT_slot s
  case qpushRBuffer => exact exec_qpushRBuffer_slot s
  case qpushRRegister => exact exec_qpushRRegister_slot s
  case qcfgRd => exact exec_qcfgRd_slot s
  case qcfgRq => exact exec_qcfgRq_slot s
  case rget => exact exec_rget_slot s
  case rput => exact exec_rput_slot s
  case dictld => exact exec_dictld_slot s
  case dictinv => exact exec_dictinv_slot s
  case tlbinv => exact exec_tlbinv_slot s
  case tlbinvRoot => exact exec_tlbinvRoot_slot s
  case tlbinvAll => exact exec_tlbinvAll_slot s
  case tstld => exact exec_tstld_slot s
  case classWr => exact exec_classWr_slot s
  case classMv => exact exec_classMv_slot s
  case classRd => exact exec_classRd_slot s
  case bar => exact exec_bar_slot s
  case barWeave => exact exec_barWeave_slot s
  case barNet => exact exec_barNet_slot s
  case semaddI => exact exec_semaddI_slot s
  case semadd => exact exec_semadd_slot s
  case semwaitDec => exact exec_semwaitDec_slot s
  case semwaitGe => exact exec_semwaitGe_slot s
  case wpwait => exact exec_wpwait_slot s
  case wpwaitRd => exact exec_wpwaitRd_slot s
  case stepend => exact exec_stepend_slot s
  case govrd => exact exec_govrd_slot s
  case cntrd => exact exec_cntrd_slot s
  case cntclr => exact exec_cntclr_slot s
  case cntclrSnap => exact exec_cntclrSnap_slot s
  case cntclrRoll => exact exec_cntclrRoll_slot s
  case cntclrFree => exact exec_cntclrFree_slot s
  case enrd => exact exec_enrd_slot s
  case qrfeed => exact exec_qrfeed_slot s
  case qrapplySt => exact exec_qrapplySt_slot s
  case qrapplyLog => exact exec_qrapplyLog_slot s
  case qrread => exact exec_qrread_slot s
  case qrreadSt => exact exec_qrreadSt_slot s
  case qrzero => exact exec_qrzero_slot s
  case qrgainImm => exact exec_qrgainImm_slot s
  case qrgainDef => exact exec_qrgainDef_slot s
  case angout => exact exec_angout_slot s
  case angin => exact exec_angin_slot s
  case grot => exact exec_grot_slot s
  case rast => exact exec_rast_slot s
  case trace => exact exec_trace_slot s
  case texs => exact exec_texs_slot s
  case texg => exact exec_texg_slot s
  all_goals exact absurd h Bool.false_ne_true

end Sys2Proof.Machine
end

