-- ==== Sys2Proof/Laws/Issue.lean ====
section
/-! SUPPORT. What the shared issue does once nothing stops it. -/

namespace Sys2Proof.Machine

/-- The parts of the condition to issue. -/
theorem issues_parts {i : Instr} {s : State} (h : s.issues i = true) :
    s.live = true ∧ s.dueTrap = none ∧ s.precheck (soloSlots i) = none
      ∧ (soloSem i).chk s = .ok
      ∧ ((soloSem i).hold s).1 = false ∧ s.tailHeld = false ∧ s.popsReady (soloSlots i) = true := by
  simp only [State.issues, State.passes, State.unheld, Bool.and_eq_true, beq_iff_eq,
    Option.isNone_iff_eq_none, Bool.not_eq_true', State.bundleHold, Bool.or_eq_false_iff, Bool.not_eq_false'] at h
  obtain ⟨⟨hl, ⟨hd, hp⟩, hc⟩, ⟨hh, hb⟩, _⟩ := h
  exact ⟨hl, hd, hp, hc, hh, hb.1, hb.2⟩

/-- A bundle that nothing stops: its slots act on the state that start leaves, and then its tail acts. -/
theorem issueWith_of_issues (i : Instr) (s : State) (h : s.issues i = true) :
    s.issueWith (soloSlots i) (soloSem i) = ((soloSem i).eff (s.begun i)).finish := by
  obtain ⟨_, hd, hpre, hc, hh, hb, hr⟩ := issues_parts h
  simp only [State.issues, State.unheld, Bool.and_eq_true] at h
  obtain ⟨_, _, hs⟩ := h
  unfold State.issueWith State.begun
  simp only [hd, hpre, hc, hh, hb, hr, Bool.not_true, Bool.or_false, Bool.false_or]
  revert hs
  generalize (List.filter (fun b => !(s.curCore.sbank b).ready) (s.popBanks (soloSlots i) ++ (soloSem i).banks s)) = asleep
  by_cases hsb : s.lpb.scoreboard = true
  · simp only [hsb, if_true, Option.isNone_iff_eq_none]
    intro hs
    simp [hs]
  · have hf : s.lpb.scoreboard = false := by simpa using hsb
    simp only [hf, Bool.false_eq_true, if_false, Bool.and_eq_true, List.isEmpty_iff, Option.isNone_iff_eq_none]
    rintro ⟨ha, hw⟩
    simp [ha, hw, State.stallTrap, hf]

/-- An instruction that issues answers the next state that its effect gives. -/
theorem exec_of_issues (i : Instr) (s : State) (hi : i.isSlot = true) (h : s.issues i = true) :
    exec i s = .next ((soloSem i).eff (s.begun i)).finish := by
  rw [exec_slot i s hi, issueWith_of_issues i s h]

end Sys2Proof.Machine
end

