-- ==== Sys2Proof/Laws/Sparse.lean ====
section
/-! SUPPORT. Laws of sparse data: read after write, and the canonical form kept by every operation. -/

namespace Sys2Proof.Machine

variable {α : Type}

@[simp] theorem kget_nil (k : Nat) : kget k ([] : Sparse α) = none := rfl

/-- A record put at a key is read there. -/
@[simp] theorem kget_kset_same (k : Nat) (v : α) (m : Sparse α) : kget k (kset k v m) = some v := by
  induction m with
  | nil => simp [kset, kget]
  | cons p r ih =>
    obtain ⟨k', v'⟩ := p
    simp only [kset]
    split
    · simp [kget]
    · split
      · simp [kget]
      · simp [kget, *]

/-- A record put at a key leaves every other key alone. -/
theorem kget_kset_other {j k : Nat} (h : j ≠ k) (v : α) (m : Sparse α) : kget j (kset k v m) = kget j m := by
  induction m with
  | nil => simp [kset, kget, h]
  | cons p r ih =>
    obtain ⟨k', v'⟩ := p
    simp only [kset]
    split
    · simp only [kget, h, if_false]
      split
      · rename_i h1 h2; rw [if_neg (by omega), if_pos (by omega)]
      · rfl
    · split
      · subst_vars; simp only [kget]; simp [h]
      · simp only [kget, ih]

/-- The record at a key after a change there. -/
@[simp] theorem kget_kmod_same (k : Nat) (f : α → α) (m : Sparse α) : kget k (kmod k f m) = (kget k m).map f := by
  unfold kmod; split <;> simp_all

/-- A change at a key leaves every other key alone. -/
theorem kget_kmod_other {j k : Nat} (h : j ≠ k) (f : α → α) (m : Sparse α) : kget j (kmod k f m) = kget j m := by
  unfold kmod; split
  · exact kget_kset_other h _ _
  · rfl

/-- Whether a key is listed does not depend on a change of a record. -/
theorem kget_kmod_isSome (j k : Nat) (f : α → α) (m : Sparse α) : (kget j (kmod k f m)).isSome = (kget j m).isSome := by
  by_cases h : j = k
  · subst h; simp
  · rw [kget_kmod_other h]

/-- Two changes at one key are one. -/
theorem kset_kset (k : Nat) (v w : α) (m : Sparse α) : kset k w (kset k v m) = kset k w m := by
  induction m with
  | nil => simp [kset]
  | cons p r ih =>
    obtain ⟨k', v'⟩ := p
    simp only [kset]
    split
    · simp [kset]
    · split
      · subst_vars; simp [kset]
      · rename_i h1 h2; simp [kset, h1, h2, ih]

theorem srising_cons (k : Nat) (v : α) (r : Sparse α) : srising ((k, v) :: r) = true ↔ (∀ p ∈ r, k < p.1) ∧ srising r = true := by
  induction r generalizing k v with
  | nil => simp [srising]
  | cons p r ih =>
    obtain ⟨k', v'⟩ := p
    simp only [srising, Bool.and_eq_true, decide_eq_true_eq, List.mem_cons, forall_eq_or_imp]
    constructor
    · rintro ⟨h, h2⟩
      exact ⟨⟨h, fun q hq => Nat.lt_trans h (((ih k' v').1 h2).1 q hq)⟩, h2⟩
    · rintro ⟨⟨h, _⟩, h2⟩; exact ⟨h, h2⟩

variable [DecidableEq α]

theorem swf_cons (d : α) (k : Nat) (v : α) (r : Sparse α) :
    swf d ((k, v) :: r) = true ↔ v ≠ d ∧ (∀ p ∈ r, k < p.1) ∧ swf d r = true := by
  simp only [swf, Bool.and_eq_true, srising_cons, List.all_cons, decide_eq_true_eq]
  tauto

omit [DecidableEq α] in
/-- A key below every listed one reads as the default. -/
theorem sget_below (d : α) (k : Nat) (r : Sparse α) (h : ∀ p ∈ r, k < p.1) : sget d k r = d := by
  cases r with
  | nil => rfl
  | cons p r =>
    have := h p (by simp)
    simp only [sget]
    rw [if_neg (by omega), if_pos this]

/-- Keys of a table after a store. -/
theorem sset_keys (d : α) (k : Nat) (v : α) (m : Sparse α) : ∀ p ∈ sset d k v m, p.1 = k ∨ p ∈ m := by
  induction m with
  | nil => intro p hp; simp only [sset] at hp; split at hp <;> simp_all
  | cons q r ih =>
    obtain ⟨k', v'⟩ := q
    intro p hp
    simp only [sset] at hp
    split at hp
    · split at hp
      · exact .inr hp
      · rcases List.mem_cons.1 hp with h | h
        · exact .inl (by rw [h])
        · exact .inr h
    · split at hp
      · split at hp
        · exact .inr (List.mem_cons_of_mem _ hp)
        · rcases List.mem_cons.1 hp with h | h
          · exact .inl (by rw [h])
          · exact .inr (List.mem_cons_of_mem _ h)
      · simp only [List.mem_cons] at hp ⊢
        rcases hp with hp | hp
        · exact .inr (.inl hp)
        · rcases ih p hp with h | h
          · exact .inl h
          · exact .inr (.inr h)

/-- A store keeps the canonical form. -/
theorem swf_sset (d : α) (k : Nat) (v : α) (m : Sparse α) (h : swf d m = true) : swf d (sset d k v m) = true := by
  induction m with
  | nil => simp only [sset]; split <;> simp_all [swf, srising]
  | cons q r ih =>
    obtain ⟨k', v'⟩ := q
    have h' := (swf_cons d k' v' r).1 h
    simp only [sset]
    split
    · split
      · exact h
      · rename_i h1 h2
        refine (swf_cons ..).2 ⟨h2, ?_, h⟩
        intro p hp
        rcases List.mem_cons.1 hp with rfl | hp
        · exact h1
        · exact Nat.lt_trans h1 (h'.2.1 p hp)
    · split
      · split
        · exact h'.2.2
        · rename_i h1 h2 h3
          exact (swf_cons ..).2 ⟨h3, by rw [h2]; exact h'.2.1, h'.2.2⟩
      · rename_i h1 h2
        refine (swf_cons ..).2 ⟨h'.1, ?_, ih h'.2.2⟩
        intro p hp
        rcases sset_keys d k v r p hp with h | h
        · omega
        · exact h'.2.1 p h

/-- A stored value is read back (canonical tables). -/
theorem sget_sset_same (d : α) (k : Nat) (v : α) (m : Sparse α) (h : swf d m = true) : sget d k (sset d k v m) = v := by
  induction m with
  | nil => simp only [sset]; split <;> simp_all [sget]
  | cons q r ih =>
    obtain ⟨k', v'⟩ := q
    have h' := (swf_cons d k' v' r).1 h
    simp only [sset]
    split
    · rename_i h1
      split
      · rename_i h2
        rw [h2]; apply sget_below
        intro p hp
        rcases List.mem_cons.1 hp with rfl | hp
        · exact h1
        · exact Nat.lt_trans h1 (h'.2.1 p hp)
      · simp [sget]
    · split
      · rename_i h1 h2
        split
        · rename_i h3; rw [h3]; apply sget_below; rw [h2]; exact h'.2.1
        · simp [sget]
      · rename_i h1 h2
        simp only [sget, if_neg h2, if_neg h1]
        exact ih h'.2.2

/-- A store leaves every other key alone. -/
theorem sget_sset_other (d : α) {j k : Nat} (hj : j ≠ k) (v : α) (m : Sparse α) (h : swf d m = true) :
    sget d j (sset d k v m) = sget d j m := by
  induction m with
  | nil =>
    simp only [sset]
    split
    · rfl
    · simp [sget, hj]
  | cons q r ih =>
    obtain ⟨k', v'⟩ := q
    have h' := (swf_cons d k' v' r).1 h
    simp only [sset]
    split
    · rename_i h1
      split
      · rfl
      · simp only [sget, if_neg hj]
        split
        · rename_i h3
          rw [if_neg (by omega), if_pos (by omega)]
        · rfl
    · split
      · rename_i h1 h2
        subst h2
        split
        · simp only [sget, if_neg hj]
          split
          · rename_i h3; exact sget_below d j r (fun p hp => Nat.lt_trans h3 (h'.2.1 p hp))
          · rfl
        · simp only [sget, if_neg hj]
      · rename_i h1 h2
        simp only [sget, ih h'.2.2]

/-- Dropping a range keeps the canonical form. -/
theorem swf_sdrop (d : α) (lo n : Nat) (m : Sparse α) (h : swf d m = true) : swf d (sdrop lo n m) = true := by
  unfold sdrop
  induction m with
  | nil => exact h
  | cons q r ih =>
    obtain ⟨k', v'⟩ := q
    have h' := (swf_cons d k' v' r).1 h
    simp only [List.filter_cons]
    split
    · refine (swf_cons ..).2 ⟨h'.1, fun p hp => h'.2.1 p (List.mem_filter.1 hp).1, ih h'.2.2⟩
    · exact ih h'.2.2

end Sys2Proof.Machine
end

