-- ==== Sys2Proof/Laws/State.lean ====
section
/-! SUPPORT. One lemma per field per named update of the state, and the accessors after an update. -/

namespace Sys2Proof.Machine

@[simp] theorem state_modCore_now (s : State) (c : Nat) (f : Core → Core) : (s.modCore c f).now = s.now := rfl
@[simp] theorem state_modCore_agenda (s : State) (c : Nat) (f : Core → Core) : (s.modCore c f).agenda = s.agenda := rfl
@[simp] theorem state_modCore_inputs (s : State) (c : Nat) (f : Core → Core) : (s.modCore c f).inputs = s.inputs := rfl
@[simp] theorem state_modCore_cur (s : State) (c : Nat) (f : Core → Core) : (s.modCore c f).cur = s.cur := rfl
@[simp] theorem state_modCore_free (s : State) (c : Nat) (f : Core → Core) : (s.modCore c f).free = s.free := rfl
@[simp] theorem state_modCore_fresh (s : State) (c : Nat) (f : Core → Core) : (s.modCore c f).fresh = s.fresh := rfl
@[simp] theorem state_modCore_mem (s : State) (c : Nat) (f : Core → Core) : (s.modCore c f).mem = s.mem := rfl
@[simp] theorem state_modCore_badMem (s : State) (c : Nat) (f : Core → Core) : (s.modCore c f).badMem = s.badMem := rfl
@[simp] theorem state_modCore_hostL2 (s : State) (c : Nat) (f : Core → Core) : (s.modCore c f).hostL2 = s.hostL2 := rfl
@[simp] theorem state_modCore_exact (s : State) (c : Nat) (f : Core → Core) : (s.modCore c f).exact = s.exact := rfl
@[simp] theorem state_modCore_dieTlb (s : State) (c : Nat) (f : Core → Core) : (s.modCore c f).dieTlb = s.dieTlb := rfl
@[simp] theorem state_modCore_dieTab (s : State) (c : Nat) (f : Core → Core) : (s.modCore c f).dieTab = s.dieTab := rfl
@[simp] theorem state_modCore_walks (s : State) (c : Nat) (f : Core → Core) : (s.modCore c f).walks = s.walks := rfl
@[simp] theorem state_modCore_launches (s : State) (c : Nat) (f : Core → Core) : (s.modCore c f).launches = s.launches := rfl
@[simp] theorem state_modCore_weaves (s : State) (c : Nat) (f : Core → Core) : (s.modCore c f).weaves = s.weaves := rfl
@[simp] theorem state_modCore_nets (s : State) (c : Nat) (f : Core → Core) : (s.modCore c f).nets = s.nets := rfl
@[simp] theorem state_modCore_raises (s : State) (c : Nat) (f : Core → Core) : (s.modCore c f).raises = s.raises := rfl
@[simp] theorem state_modCore_sortQ (s : State) (c : Nat) (f : Core → Core) : (s.modCore c f).sortQ = s.sortQ := rfl
@[simp] theorem state_modCore_sortPage (s : State) (c : Nat) (f : Core → Core) : (s.modCore c f).sortPage = s.sortPage := rfl
@[simp] theorem state_modCore_sortPos (s : State) (c : Nat) (f : Core → Core) : (s.modCore c f).sortPos = s.sortPos := rfl
@[simp] theorem state_modCore_orders (s : State) (c : Nat) (f : Core → Core) : (s.modCore c f).orders = s.orders := rfl
@[simp] theorem state_modCore_govs (s : State) (c : Nat) (f : Core → Core) : (s.modCore c f).govs = s.govs := rfl
@[simp] theorem state_modCore_stats (s : State) (c : Nat) (f : Core → Core) : (s.modCore c f).stats = s.stats := rfl
@[simp] theorem state_modCore_lostEv (s : State) (c : Nat) (f : Core → Core) : (s.modCore c f).lostEv = s.lostEv := rfl
@[simp] theorem state_modCore_ovf (s : State) (c : Nat) (f : Core → Core) : (s.modCore c f).ovf = s.ovf := rfl
@[simp] theorem state_modCore_ovfHead (s : State) (c : Nat) (f : Core → Core) : (s.modCore c f).ovfHead = s.ovfHead := rfl
@[simp] theorem state_modCore_decs (s : State) (c : Nat) (f : Core → Core) : (s.modCore c f).decs = s.decs := rfl
@[simp] theorem state_modCore_tokens (s : State) (c : Nat) (f : Core → Core) : (s.modCore c f).tokens = s.tokens := rfl
@[simp] theorem state_modCore_dicts (s : State) (c : Nat) (f : Core → Core) : (s.modCore c f).dicts = s.dicts := rfl
@[simp] theorem state_modCore_segs (s : State) (c : Nat) (f : Core → Core) : (s.modCore c f).segs = s.segs := rfl
@[simp] theorem state_modCore_pending (s : State) (c : Nat) (f : Core → Core) : (s.modCore c f).pending = s.pending := rfl
@[simp] theorem state_modCore_classes (s : State) (c : Nat) (f : Core → Core) : (s.modCore c f).classes = s.classes := rfl
@[simp] theorem state_modCore_ptrs (s : State) (c : Nat) (f : Core → Core) : (s.modCore c f).ptrs = s.ptrs := rfl
@[simp] theorem state_modCore_quads (s : State) (c : Nat) (f : Core → Core) : (s.modCore c f).quads = s.quads := rfl
@[simp] theorem state_modCore_inrush (s : State) (c : Nat) (f : Core → Core) : (s.modCore c f).inrush = s.inrush := rfl
@[simp] theorem state_modCore_inrushAt (s : State) (c : Nat) (f : Core → Core) : (s.modCore c f).inrushAt = s.inrushAt := rfl
@[simp] theorem state_modCore_throttle (s : State) (c : Nat) (f : Core → Core) : (s.modCore c f).throttle = s.throttle := rfl
@[simp] theorem state_modCore_alarms (s : State) (c : Nat) (f : Core → Core) : (s.modCore c f).alarms = s.alarms := rfl
@[simp] theorem state_modCore_bridge (s : State) (c : Nat) (f : Core → Core) : (s.modCore c f).bridge = s.bridge := rfl
@[simp] theorem state_modCore_podLanes (s : State) (c : Nat) (f : Core → Core) : (s.modCore c f).podLanes = s.podLanes := rfl
@[simp] theorem state_modCore_podMask (s : State) (c : Nat) (f : Core → Core) : (s.modCore c f).podMask = s.podMask := rfl
@[simp] theorem state_modCore_bootstat (s : State) (c : Nat) (f : Core → Core) : (s.modCore c f).bootstat = s.bootstat := rfl
@[simp] theorem state_modCore_ident (s : State) (c : Nat) (f : Core → Core) : (s.modCore c f).ident = s.ident := rfl
@[simp] theorem state_modCore_winbase (s : State) (c : Nat) (f : Core → Core) : (s.modCore c f).winbase = s.winbase := rfl
@[simp] theorem state_modCore_degrade (s : State) (c : Nat) (f : Core → Core) : (s.modCore c f).degrade = s.degrade := rfl
@[simp] theorem state_modCore_lqs (s : State) (c : Nat) (f : Core → Core) : (s.modCore c f).lqs = s.lqs := rfl
@[simp] theorem state_modCore_vectors (s : State) (c : Nat) (f : Core → Core) : (s.modCore c f).vectors = s.vectors := rfl
@[simp] theorem state_modCore_svcBase (s : State) (c : Nat) (f : Core → Core) : (s.modCore c f).svcBase = s.svcBase := rfl
@[simp] theorem state_modCore_svcCount (s : State) (c : Nat) (f : Core → Core) : (s.modCore c f).svcCount = s.svcCount := rfl
@[simp] theorem state_modCore_svcHead (s : State) (c : Nat) (f : Core → Core) : (s.modCore c f).svcHead = s.svcHead := rfl
@[simp] theorem state_modCore_svcTail (s : State) (c : Nat) (f : Core → Core) : (s.modCore c f).svcTail = s.svcTail := rfl
@[simp] theorem state_modCore_svcHeld (s : State) (c : Nat) (f : Core → Core) : (s.modCore c f).svcHeld = s.svcHeld := rfl
@[simp] theorem state_modCore_resumeReg (s : State) (c : Nat) (f : Core → Core) : (s.modCore c f).resumeReg = s.resumeReg := rfl
@[simp] theorem state_modCore_cancelReg (s : State) (c : Nat) (f : Core → Core) : (s.modCore c f).cancelReg = s.cancelReg := rfl
@[simp] theorem state_modCore_thrhold (s : State) (c : Nat) (f : Core → Core) : (s.modCore c f).thrhold = s.thrhold := rfl
@[simp] theorem state_modCore_curlim (s : State) (c : Nat) (f : Core → Core) : (s.modCore c f).curlim = s.curlim := rfl
@[simp] theorem state_modCore_drooplim (s : State) (c : Nat) (f : Core → Core) : (s.modCore c f).drooplim = s.drooplim := rfl
@[simp] theorem state_modCore_templim (s : State) (c : Nat) (f : Core → Core) : (s.modCore c f).templim = s.templim := rfl
@[simp] theorem state_modCore_almcount (s : State) (c : Nat) (f : Core → Core) : (s.modCore c f).almcount = s.almcount := rfl
@[simp] theorem state_modCore_perfsel (s : State) (c : Nat) (f : Core → Core) : (s.modCore c f).perfsel = s.perfsel := rfl
@[simp] theorem state_modCore_dbgTarget (s : State) (c : Nat) (f : Core → Core) : (s.modCore c f).dbgTarget = s.dbgTarget := rfl
@[simp] theorem state_modCore_dbgCmd (s : State) (c : Nat) (f : Core → Core) : (s.modCore c f).dbgCmd = s.dbgCmd := rfl
@[simp] theorem state_modCore_dbg (s : State) (c : Nat) (f : Core → Core) : (s.modCore c f).dbg = s.dbg := rfl
@[simp] theorem state_modCore_mailbox (s : State) (c : Nat) (f : Core → Core) : (s.modCore c f).mailbox = s.mailbox := rfl
@[simp] theorem state_modCore_attest (s : State) (c : Nat) (f : Core → Core) : (s.modCore c f).attest = s.attest := rfl
@[simp] theorem state_modCore_msix (s : State) (c : Nat) (f : Core → Core) : (s.modCore c f).msix = s.msix := rfl
@[simp] theorem state_modCore_hostData (s : State) (c : Nat) (f : Core → Core) : (s.modCore c f).hostData = s.hostData := rfl
@[simp] theorem state_modCore_pushWait (s : State) (c : Nat) (f : Core → Core) : (s.modCore c f).pushWait = s.pushWait := rfl
@[simp] theorem state_modCore_bootCount (s : State) (c : Nat) (f : Core → Core) : (s.modCore c f).bootCount = s.bootCount := rfl
@[simp] theorem state_modCore_board (s : State) (c : Nat) (f : Core → Core) : (s.modCore c f).board = s.board := rfl
@[simp] theorem state_modCore_bootAt (s : State) (c : Nat) (f : Core → Core) : (s.modCore c f).bootAt = s.bootAt := rfl
@[simp] theorem state_modCore_hostWrites (s : State) (c : Nat) (f : Core → Core) : (s.modCore c f).hostWrites = s.hostWrites := rfl
@[simp] theorem state_modCore_badL2 (s : State) (c : Nat) (f : Core → Core) : (s.modCore c f).badL2 = s.badL2 := rfl
@[simp] theorem state_modCore_past (s : State) (c : Nat) (f : Core → Core) : (s.modCore c f).past = s.past := rfl
@[simp] theorem state_modCore_msixTab (s : State) (c : Nat) (f : Core → Core) : (s.modCore c f).msixTab = s.msixTab := rfl
@[simp] theorem state_modCore_msixPend (s : State) (c : Nat) (f : Core → Core) : (s.modCore c f).msixPend = s.msixPend := rfl
@[simp] theorem state_modGroup_now (s : State) (c g : Nat) (f : Group → Group) : (s.modGroup c g f).now = s.now := rfl
@[simp] theorem state_modGroup_agenda (s : State) (c g : Nat) (f : Group → Group) : (s.modGroup c g f).agenda = s.agenda := rfl
@[simp] theorem state_modGroup_inputs (s : State) (c g : Nat) (f : Group → Group) : (s.modGroup c g f).inputs = s.inputs := rfl
@[simp] theorem state_modGroup_cur (s : State) (c g : Nat) (f : Group → Group) : (s.modGroup c g f).cur = s.cur := rfl
@[simp] theorem state_modGroup_free (s : State) (c g : Nat) (f : Group → Group) : (s.modGroup c g f).free = s.free := rfl
@[simp] theorem state_modGroup_fresh (s : State) (c g : Nat) (f : Group → Group) : (s.modGroup c g f).fresh = s.fresh := rfl
@[simp] theorem state_modGroup_mem (s : State) (c g : Nat) (f : Group → Group) : (s.modGroup c g f).mem = s.mem := rfl
@[simp] theorem state_modGroup_badMem (s : State) (c g : Nat) (f : Group → Group) : (s.modGroup c g f).badMem = s.badMem := rfl
@[simp] theorem state_modGroup_hostL2 (s : State) (c g : Nat) (f : Group → Group) : (s.modGroup c g f).hostL2 = s.hostL2 := rfl
@[simp] theorem state_modGroup_exact (s : State) (c g : Nat) (f : Group → Group) : (s.modGroup c g f).exact = s.exact := rfl
@[simp] theorem state_modGroup_dieTlb (s : State) (c g : Nat) (f : Group → Group) : (s.modGroup c g f).dieTlb = s.dieTlb := rfl
@[simp] theorem state_modGroup_dieTab (s : State) (c g : Nat) (f : Group → Group) : (s.modGroup c g f).dieTab = s.dieTab := rfl
@[simp] theorem state_modGroup_walks (s : State) (c g : Nat) (f : Group → Group) : (s.modGroup c g f).walks = s.walks := rfl
@[simp] theorem state_modGroup_launches (s : State) (c g : Nat) (f : Group → Group) : (s.modGroup c g f).launches = s.launches := rfl
@[simp] theorem state_modGroup_weaves (s : State) (c g : Nat) (f : Group → Group) : (s.modGroup c g f).weaves = s.weaves := rfl
@[simp] theorem state_modGroup_nets (s : State) (c g : Nat) (f : Group → Group) : (s.modGroup c g f).nets = s.nets := rfl
@[simp] theorem state_modGroup_raises (s : State) (c g : Nat) (f : Group → Group) : (s.modGroup c g f).raises = s.raises := rfl
@[simp] theorem state_modGroup_sortQ (s : State) (c g : Nat) (f : Group → Group) : (s.modGroup c g f).sortQ = s.sortQ := rfl
@[simp] theorem state_modGroup_sortPage (s : State) (c g : Nat) (f : Group → Group) : (s.modGroup c g f).sortPage = s.sortPage := rfl
@[simp] theorem state_modGroup_sortPos (s : State) (c g : Nat) (f : Group → Group) : (s.modGroup c g f).sortPos = s.sortPos := rfl
@[simp] theorem state_modGroup_orders (s : State) (c g : Nat) (f : Group → Group) : (s.modGroup c g f).orders = s.orders := rfl
@[simp] theorem state_modGroup_govs (s : State) (c g : Nat) (f : Group → Group) : (s.modGroup c g f).govs = s.govs := rfl
@[simp] theorem state_modGroup_stats (s : State) (c g : Nat) (f : Group → Group) : (s.modGroup c g f).stats = s.stats := rfl
@[simp] theorem state_modGroup_lostEv (s : State) (c g : Nat) (f : Group → Group) : (s.modGroup c g f).lostEv = s.lostEv := rfl
@[simp] theorem state_modGroup_ovf (s : State) (c g : Nat) (f : Group → Group) : (s.modGroup c g f).ovf = s.ovf := rfl
@[simp] theorem state_modGroup_ovfHead (s : State) (c g : Nat) (f : Group → Group) : (s.modGroup c g f).ovfHead = s.ovfHead := rfl
@[simp] theorem state_modGroup_decs (s : State) (c g : Nat) (f : Group → Group) : (s.modGroup c g f).decs = s.decs := rfl
@[simp] theorem state_modGroup_tokens (s : State) (c g : Nat) (f : Group → Group) : (s.modGroup c g f).tokens = s.tokens := rfl
@[simp] theorem state_modGroup_dicts (s : State) (c g : Nat) (f : Group → Group) : (s.modGroup c g f).dicts = s.dicts := rfl
@[simp] theorem state_modGroup_segs (s : State) (c g : Nat) (f : Group → Group) : (s.modGroup c g f).segs = s.segs := rfl
@[simp] theorem state_modGroup_pending (s : State) (c g : Nat) (f : Group → Group) : (s.modGroup c g f).pending = s.pending := rfl
@[simp] theorem state_modGroup_classes (s : State) (c g : Nat) (f : Group → Group) : (s.modGroup c g f).classes = s.classes := rfl
@[simp] theorem state_modGroup_ptrs (s : State) (c g : Nat) (f : Group → Group) : (s.modGroup c g f).ptrs = s.ptrs := rfl
@[simp] theorem state_modGroup_quads (s : State) (c g : Nat) (f : Group → Group) : (s.modGroup c g f).quads = s.quads := rfl
@[simp] theorem state_modGroup_inrush (s : State) (c g : Nat) (f : Group → Group) : (s.modGroup c g f).inrush = s.inrush := rfl
@[simp] theorem state_modGroup_inrushAt (s : State) (c g : Nat) (f : Group → Group) : (s.modGroup c g f).inrushAt = s.inrushAt := rfl
@[simp] theorem state_modGroup_throttle (s : State) (c g : Nat) (f : Group → Group) : (s.modGroup c g f).throttle = s.throttle := rfl
@[simp] theorem state_modGroup_alarms (s : State) (c g : Nat) (f : Group → Group) : (s.modGroup c g f).alarms = s.alarms := rfl
@[simp] theorem state_modGroup_bridge (s : State) (c g : Nat) (f : Group → Group) : (s.modGroup c g f).bridge = s.bridge := rfl
@[simp] theorem state_modGroup_podLanes (s : State) (c g : Nat) (f : Group → Group) : (s.modGroup c g f).podLanes = s.podLanes := rfl
@[simp] theorem state_modGroup_podMask (s : State) (c g : Nat) (f : Group → Group) : (s.modGroup c g f).podMask = s.podMask := rfl
@[simp] theorem state_modGroup_bootstat (s : State) (c g : Nat) (f : Group → Group) : (s.modGroup c g f).bootstat = s.bootstat := rfl
@[simp] theorem state_modGroup_ident (s : State) (c g : Nat) (f : Group → Group) : (s.modGroup c g f).ident = s.ident := rfl
@[simp] theorem state_modGroup_winbase (s : State) (c g : Nat) (f : Group → Group) : (s.modGroup c g f).winbase = s.winbase := rfl
@[simp] theorem state_modGroup_degrade (s : State) (c g : Nat) (f : Group → Group) : (s.modGroup c g f).degrade = s.degrade := rfl
@[simp] theorem state_modGroup_lqs (s : State) (c g : Nat) (f : Group → Group) : (s.modGroup c g f).lqs = s.lqs := rfl
@[simp] theorem state_modGroup_vectors (s : State) (c g : Nat) (f : Group → Group) : (s.modGroup c g f).vectors = s.vectors := rfl
@[simp] theorem state_modGroup_svcBase (s : State) (c g : Nat) (f : Group → Group) : (s.modGroup c g f).svcBase = s.svcBase := rfl
@[simp] theorem state_modGroup_svcCount (s : State) (c g : Nat) (f : Group → Group) : (s.modGroup c g f).svcCount = s.svcCount := rfl
@[simp] theorem state_modGroup_svcHead (s : State) (c g : Nat) (f : Group → Group) : (s.modGroup c g f).svcHead = s.svcHead := rfl
@[simp] theorem state_modGroup_svcTail (s : State) (c g : Nat) (f : Group → Group) : (s.modGroup c g f).svcTail = s.svcTail := rfl
@[simp] theorem state_modGroup_svcHeld (s : State) (c g : Nat) (f : Group → Group) : (s.modGroup c g f).svcHeld = s.svcHeld := rfl
@[simp] theorem state_modGroup_resumeReg (s : State) (c g : Nat) (f : Group → Group) : (s.modGroup c g f).resumeReg = s.resumeReg := rfl
@[simp] theorem state_modGroup_cancelReg (s : State) (c g : Nat) (f : Group → Group) : (s.modGroup c g f).cancelReg = s.cancelReg := rfl
@[simp] theorem state_modGroup_thrhold (s : State) (c g : Nat) (f : Group → Group) : (s.modGroup c g f).thrhold = s.thrhold := rfl
@[simp] theorem state_modGroup_curlim (s : State) (c g : Nat) (f : Group → Group) : (s.modGroup c g f).curlim = s.curlim := rfl
@[simp] theorem state_modGroup_drooplim (s : State) (c g : Nat) (f : Group → Group) : (s.modGroup c g f).drooplim = s.drooplim := rfl
@[simp] theorem state_modGroup_templim (s : State) (c g : Nat) (f : Group → Group) : (s.modGroup c g f).templim = s.templim := rfl
@[simp] theorem state_modGroup_almcount (s : State) (c g : Nat) (f : Group → Group) : (s.modGroup c g f).almcount = s.almcount := rfl
@[simp] theorem state_modGroup_perfsel (s : State) (c g : Nat) (f : Group → Group) : (s.modGroup c g f).perfsel = s.perfsel := rfl
@[simp] theorem state_modGroup_dbgTarget (s : State) (c g : Nat) (f : Group → Group) : (s.modGroup c g f).dbgTarget = s.dbgTarget := rfl
@[simp] theorem state_modGroup_dbgCmd (s : State) (c g : Nat) (f : Group → Group) : (s.modGroup c g f).dbgCmd = s.dbgCmd := rfl
@[simp] theorem state_modGroup_dbg (s : State) (c g : Nat) (f : Group → Group) : (s.modGroup c g f).dbg = s.dbg := rfl
@[simp] theorem state_modGroup_mailbox (s : State) (c g : Nat) (f : Group → Group) : (s.modGroup c g f).mailbox = s.mailbox := rfl
@[simp] theorem state_modGroup_attest (s : State) (c g : Nat) (f : Group → Group) : (s.modGroup c g f).attest = s.attest := rfl
@[simp] theorem state_modGroup_msix (s : State) (c g : Nat) (f : Group → Group) : (s.modGroup c g f).msix = s.msix := rfl
@[simp] theorem state_modGroup_hostData (s : State) (c g : Nat) (f : Group → Group) : (s.modGroup c g f).hostData = s.hostData := rfl
@[simp] theorem state_modGroup_pushWait (s : State) (c g : Nat) (f : Group → Group) : (s.modGroup c g f).pushWait = s.pushWait := rfl
@[simp] theorem state_modGroup_bootCount (s : State) (c g : Nat) (f : Group → Group) : (s.modGroup c g f).bootCount = s.bootCount := rfl
@[simp] theorem state_modGroup_board (s : State) (c g : Nat) (f : Group → Group) : (s.modGroup c g f).board = s.board := rfl
@[simp] theorem state_modGroup_bootAt (s : State) (c g : Nat) (f : Group → Group) : (s.modGroup c g f).bootAt = s.bootAt := rfl
@[simp] theorem state_modGroup_hostWrites (s : State) (c g : Nat) (f : Group → Group) : (s.modGroup c g f).hostWrites = s.hostWrites := rfl
@[simp] theorem state_modGroup_badL2 (s : State) (c g : Nat) (f : Group → Group) : (s.modGroup c g f).badL2 = s.badL2 := rfl
@[simp] theorem state_modGroup_past (s : State) (c g : Nat) (f : Group → Group) : (s.modGroup c g f).past = s.past := rfl
@[simp] theorem state_modGroup_msixTab (s : State) (c g : Nat) (f : Group → Group) : (s.modGroup c g f).msixTab = s.msixTab := rfl
@[simp] theorem state_modGroup_msixPend (s : State) (c g : Nat) (f : Group → Group) : (s.modGroup c g f).msixPend = s.msixPend := rfl
@[simp] theorem state_modC_now (s : State) (f : Core → Core) : (s.modC f).now = s.now := rfl
@[simp] theorem state_modC_agenda (s : State) (f : Core → Core) : (s.modC f).agenda = s.agenda := rfl
@[simp] theorem state_modC_inputs (s : State) (f : Core → Core) : (s.modC f).inputs = s.inputs := rfl
@[simp] theorem state_modC_cur (s : State) (f : Core → Core) : (s.modC f).cur = s.cur := rfl
@[simp] theorem state_modC_free (s : State) (f : Core → Core) : (s.modC f).free = s.free := rfl
@[simp] theorem state_modC_fresh (s : State) (f : Core → Core) : (s.modC f).fresh = s.fresh := rfl
@[simp] theorem state_modC_mem (s : State) (f : Core → Core) : (s.modC f).mem = s.mem := rfl
@[simp] theorem state_modC_badMem (s : State) (f : Core → Core) : (s.modC f).badMem = s.badMem := rfl
@[simp] theorem state_modC_hostL2 (s : State) (f : Core → Core) : (s.modC f).hostL2 = s.hostL2 := rfl
@[simp] theorem state_modC_exact (s : State) (f : Core → Core) : (s.modC f).exact = s.exact := rfl
@[simp] theorem state_modC_dieTlb (s : State) (f : Core → Core) : (s.modC f).dieTlb = s.dieTlb := rfl
@[simp] theorem state_modC_dieTab (s : State) (f : Core → Core) : (s.modC f).dieTab = s.dieTab := rfl
@[simp] theorem state_modC_walks (s : State) (f : Core → Core) : (s.modC f).walks = s.walks := rfl
@[simp] theorem state_modC_launches (s : State) (f : Core → Core) : (s.modC f).launches = s.launches := rfl
@[simp] theorem state_modC_weaves (s : State) (f : Core → Core) : (s.modC f).weaves = s.weaves := rfl
@[simp] theorem state_modC_nets (s : State) (f : Core → Core) : (s.modC f).nets = s.nets := rfl
@[simp] theorem state_modC_raises (s : State) (f : Core → Core) : (s.modC f).raises = s.raises := rfl
@[simp] theorem state_modC_sortQ (s : State) (f : Core → Core) : (s.modC f).sortQ = s.sortQ := rfl
@[simp] theorem state_modC_sortPage (s : State) (f : Core → Core) : (s.modC f).sortPage = s.sortPage := rfl
@[simp] theorem state_modC_sortPos (s : State) (f : Core → Core) : (s.modC f).sortPos = s.sortPos := rfl
@[simp] theorem state_modC_orders (s : State) (f : Core → Core) : (s.modC f).orders = s.orders := rfl
@[simp] theorem state_modC_govs (s : State) (f : Core → Core) : (s.modC f).govs = s.govs := rfl
@[simp] theorem state_modC_stats (s : State) (f : Core → Core) : (s.modC f).stats = s.stats := rfl
@[simp] theorem state_modC_lostEv (s : State) (f : Core → Core) : (s.modC f).lostEv = s.lostEv := rfl
@[simp] theorem state_modC_ovf (s : State) (f : Core → Core) : (s.modC f).ovf = s.ovf := rfl
@[simp] theorem state_modC_ovfHead (s : State) (f : Core → Core) : (s.modC f).ovfHead = s.ovfHead := rfl
@[simp] theorem state_modC_decs (s : State) (f : Core → Core) : (s.modC f).decs = s.decs := rfl
@[simp] theorem state_modC_tokens (s : State) (f : Core → Core) : (s.modC f).tokens = s.tokens := rfl
@[simp] theorem state_modC_dicts (s : State) (f : Core → Core) : (s.modC f).dicts = s.dicts := rfl
@[simp] theorem state_modC_segs (s : State) (f : Core → Core) : (s.modC f).segs = s.segs := rfl
@[simp] theorem state_modC_pending (s : State) (f : Core → Core) : (s.modC f).pending = s.pending := rfl
@[simp] theorem state_modC_classes (s : State) (f : Core → Core) : (s.modC f).classes = s.classes := rfl
@[simp] theorem state_modC_ptrs (s : State) (f : Core → Core) : (s.modC f).ptrs = s.ptrs := rfl
@[simp] theorem state_modC_quads (s : State) (f : Core → Core) : (s.modC f).quads = s.quads := rfl
@[simp] theorem state_modC_inrush (s : State) (f : Core → Core) : (s.modC f).inrush = s.inrush := rfl
@[simp] theorem state_modC_inrushAt (s : State) (f : Core → Core) : (s.modC f).inrushAt = s.inrushAt := rfl
@[simp] theorem state_modC_throttle (s : State) (f : Core → Core) : (s.modC f).throttle = s.throttle := rfl
@[simp] theorem state_modC_alarms (s : State) (f : Core → Core) : (s.modC f).alarms = s.alarms := rfl
@[simp] theorem state_modC_bridge (s : State) (f : Core → Core) : (s.modC f).bridge = s.bridge := rfl
@[simp] theorem state_modC_podLanes (s : State) (f : Core → Core) : (s.modC f).podLanes = s.podLanes := rfl
@[simp] theorem state_modC_podMask (s : State) (f : Core → Core) : (s.modC f).podMask = s.podMask := rfl
@[simp] theorem state_modC_bootstat (s : State) (f : Core → Core) : (s.modC f).bootstat = s.bootstat := rfl
@[simp] theorem state_modC_ident (s : State) (f : Core → Core) : (s.modC f).ident = s.ident := rfl
@[simp] theorem state_modC_winbase (s : State) (f : Core → Core) : (s.modC f).winbase = s.winbase := rfl
@[simp] theorem state_modC_degrade (s : State) (f : Core → Core) : (s.modC f).degrade = s.degrade := rfl
@[simp] theorem state_modC_lqs (s : State) (f : Core → Core) : (s.modC f).lqs = s.lqs := rfl
@[simp] theorem state_modC_vectors (s : State) (f : Core → Core) : (s.modC f).vectors = s.vectors := rfl
@[simp] theorem state_modC_svcBase (s : State) (f : Core → Core) : (s.modC f).svcBase = s.svcBase := rfl
@[simp] theorem state_modC_svcCount (s : State) (f : Core → Core) : (s.modC f).svcCount = s.svcCount := rfl
@[simp] theorem state_modC_svcHead (s : State) (f : Core → Core) : (s.modC f).svcHead = s.svcHead := rfl
@[simp] theorem state_modC_svcTail (s : State) (f : Core → Core) : (s.modC f).svcTail = s.svcTail := rfl
@[simp] theorem state_modC_svcHeld (s : State) (f : Core → Core) : (s.modC f).svcHeld = s.svcHeld := rfl
@[simp] theorem state_modC_resumeReg (s : State) (f : Core → Core) : (s.modC f).resumeReg = s.resumeReg := rfl
@[simp] theorem state_modC_cancelReg (s : State) (f : Core → Core) : (s.modC f).cancelReg = s.cancelReg := rfl
@[simp] theorem state_modC_thrhold (s : State) (f : Core → Core) : (s.modC f).thrhold = s.thrhold := rfl
@[simp] theorem state_modC_curlim (s : State) (f : Core → Core) : (s.modC f).curlim = s.curlim := rfl
@[simp] theorem state_modC_drooplim (s : State) (f : Core → Core) : (s.modC f).drooplim = s.drooplim := rfl
@[simp] theorem state_modC_templim (s : State) (f : Core → Core) : (s.modC f).templim = s.templim := rfl
@[simp] theorem state_modC_almcount (s : State) (f : Core → Core) : (s.modC f).almcount = s.almcount := rfl
@[simp] theorem state_modC_perfsel (s : State) (f : Core → Core) : (s.modC f).perfsel = s.perfsel := rfl
@[simp] theorem state_modC_dbgTarget (s : State) (f : Core → Core) : (s.modC f).dbgTarget = s.dbgTarget := rfl
@[simp] theorem state_modC_dbgCmd (s : State) (f : Core → Core) : (s.modC f).dbgCmd = s.dbgCmd := rfl
@[simp] theorem state_modC_dbg (s : State) (f : Core → Core) : (s.modC f).dbg = s.dbg := rfl
@[simp] theorem state_modC_mailbox (s : State) (f : Core → Core) : (s.modC f).mailbox = s.mailbox := rfl
@[simp] theorem state_modC_attest (s : State) (f : Core → Core) : (s.modC f).attest = s.attest := rfl
@[simp] theorem state_modC_msix (s : State) (f : Core → Core) : (s.modC f).msix = s.msix := rfl
@[simp] theorem state_modC_hostData (s : State) (f : Core → Core) : (s.modC f).hostData = s.hostData := rfl
@[simp] theorem state_modC_pushWait (s : State) (f : Core → Core) : (s.modC f).pushWait = s.pushWait := rfl
@[simp] theorem state_modC_bootCount (s : State) (f : Core → Core) : (s.modC f).bootCount = s.bootCount := rfl
@[simp] theorem state_modC_board (s : State) (f : Core → Core) : (s.modC f).board = s.board := rfl
@[simp] theorem state_modC_bootAt (s : State) (f : Core → Core) : (s.modC f).bootAt = s.bootAt := rfl
@[simp] theorem state_modC_hostWrites (s : State) (f : Core → Core) : (s.modC f).hostWrites = s.hostWrites := rfl
@[simp] theorem state_modC_badL2 (s : State) (f : Core → Core) : (s.modC f).badL2 = s.badL2 := rfl
@[simp] theorem state_modC_past (s : State) (f : Core → Core) : (s.modC f).past = s.past := rfl
@[simp] theorem state_modC_msixTab (s : State) (f : Core → Core) : (s.modC f).msixTab = s.msixTab := rfl
@[simp] theorem state_modC_msixPend (s : State) (f : Core → Core) : (s.modC f).msixPend = s.msixPend := rfl
@[simp] theorem state_modG_now (s : State) (f : Group → Group) : (s.modG f).now = s.now := rfl
@[simp] theorem state_modG_agenda (s : State) (f : Group → Group) : (s.modG f).agenda = s.agenda := rfl
@[simp] theorem state_modG_inputs (s : State) (f : Group → Group) : (s.modG f).inputs = s.inputs := rfl
@[simp] theorem state_modG_cur (s : State) (f : Group → Group) : (s.modG f).cur = s.cur := rfl
@[simp] theorem state_modG_free (s : State) (f : Group → Group) : (s.modG f).free = s.free := rfl
@[simp] theorem state_modG_fresh (s : State) (f : Group → Group) : (s.modG f).fresh = s.fresh := rfl
@[simp] theorem state_modG_mem (s : State) (f : Group → Group) : (s.modG f).mem = s.mem := rfl
@[simp] theorem state_modG_badMem (s : State) (f : Group → Group) : (s.modG f).badMem = s.badMem := rfl
@[simp] theorem state_modG_hostL2 (s : State) (f : Group → Group) : (s.modG f).hostL2 = s.hostL2 := rfl
@[simp] theorem state_modG_exact (s : State) (f : Group → Group) : (s.modG f).exact = s.exact := rfl
@[simp] theorem state_modG_dieTlb (s : State) (f : Group → Group) : (s.modG f).dieTlb = s.dieTlb := rfl
@[simp] theorem state_modG_dieTab (s : State) (f : Group → Group) : (s.modG f).dieTab = s.dieTab := rfl
@[simp] theorem state_modG_walks (s : State) (f : Group → Group) : (s.modG f).walks = s.walks := rfl
@[simp] theorem state_modG_launches (s : State) (f : Group → Group) : (s.modG f).launches = s.launches := rfl
@[simp] theorem state_modG_weaves (s : State) (f : Group → Group) : (s.modG f).weaves = s.weaves := rfl
@[simp] theorem state_modG_nets (s : State) (f : Group → Group) : (s.modG f).nets = s.nets := rfl
@[simp] theorem state_modG_raises (s : State) (f : Group → Group) : (s.modG f).raises = s.raises := rfl
@[simp] theorem state_modG_sortQ (s : State) (f : Group → Group) : (s.modG f).sortQ = s.sortQ := rfl
@[simp] theorem state_modG_sortPage (s : State) (f : Group → Group) : (s.modG f).sortPage = s.sortPage := rfl
@[simp] theorem state_modG_sortPos (s : State) (f : Group → Group) : (s.modG f).sortPos = s.sortPos := rfl
@[simp] theorem state_modG_orders (s : State) (f : Group → Group) : (s.modG f).orders = s.orders := rfl
@[simp] theorem state_modG_govs (s : State) (f : Group → Group) : (s.modG f).govs = s.govs := rfl
@[simp] theorem state_modG_stats (s : State) (f : Group → Group) : (s.modG f).stats = s.stats := rfl
@[simp] theorem state_modG_lostEv (s : State) (f : Group → Group) : (s.modG f).lostEv = s.lostEv := rfl
@[simp] theorem state_modG_ovf (s : State) (f : Group → Group) : (s.modG f).ovf = s.ovf := rfl
@[simp] theorem state_modG_ovfHead (s : State) (f : Group → Group) : (s.modG f).ovfHead = s.ovfHead := rfl
@[simp] theorem state_modG_decs (s : State) (f : Group → Group) : (s.modG f).decs = s.decs := rfl
@[simp] theorem state_modG_tokens (s : State) (f : Group → Group) : (s.modG f).tokens = s.tokens := rfl
@[simp] theorem state_modG_dicts (s : State) (f : Group → Group) : (s.modG f).dicts = s.dicts := rfl
@[simp] theorem state_modG_segs (s : State) (f : Group → Group) : (s.modG f).segs = s.segs := rfl
@[simp] theorem state_modG_pending (s : State) (f : Group → Group) : (s.modG f).pending = s.pending := rfl
@[simp] theorem state_modG_classes (s : State) (f : Group → Group) : (s.modG f).classes = s.classes := rfl
@[simp] theorem state_modG_ptrs (s : State) (f : Group → Group) : (s.modG f).ptrs = s.ptrs := rfl
@[simp] theorem state_modG_quads (s : State) (f : Group → Group) : (s.modG f).quads = s.quads := rfl
@[simp] theorem state_modG_inrush (s : State) (f : Group → Group) : (s.modG f).inrush = s.inrush := rfl
@[simp] theorem state_modG_inrushAt (s : State) (f : Group → Group) : (s.modG f).inrushAt = s.inrushAt := rfl
@[simp] theorem state_modG_throttle (s : State) (f : Group → Group) : (s.modG f).throttle = s.throttle := rfl
@[simp] theorem state_modG_alarms (s : State) (f : Group → Group) : (s.modG f).alarms = s.alarms := rfl
@[simp] theorem state_modG_bridge (s : State) (f : Group → Group) : (s.modG f).bridge = s.bridge := rfl
@[simp] theorem state_modG_podLanes (s : State) (f : Group → Group) : (s.modG f).podLanes = s.podLanes := rfl
@[simp] theorem state_modG_podMask (s : State) (f : Group → Group) : (s.modG f).podMask = s.podMask := rfl
@[simp] theorem state_modG_bootstat (s : State) (f : Group → Group) : (s.modG f).bootstat = s.bootstat := rfl
@[simp] theorem state_modG_ident (s : State) (f : Group → Group) : (s.modG f).ident = s.ident := rfl
@[simp] theorem state_modG_winbase (s : State) (f : Group → Group) : (s.modG f).winbase = s.winbase := rfl
@[simp] theorem state_modG_degrade (s : State) (f : Group → Group) : (s.modG f).degrade = s.degrade := rfl
@[simp] theorem state_modG_lqs (s : State) (f : Group → Group) : (s.modG f).lqs = s.lqs := rfl
@[simp] theorem state_modG_vectors (s : State) (f : Group → Group) : (s.modG f).vectors = s.vectors := rfl
@[simp] theorem state_modG_svcBase (s : State) (f : Group → Group) : (s.modG f).svcBase = s.svcBase := rfl
@[simp] theorem state_modG_svcCount (s : State) (f : Group → Group) : (s.modG f).svcCount = s.svcCount := rfl
@[simp] theorem state_modG_svcHead (s : State) (f : Group → Group) : (s.modG f).svcHead = s.svcHead := rfl
@[simp] theorem state_modG_svcTail (s : State) (f : Group → Group) : (s.modG f).svcTail = s.svcTail := rfl
@[simp] theorem state_modG_svcHeld (s : State) (f : Group → Group) : (s.modG f).svcHeld = s.svcHeld := rfl
@[simp] theorem state_modG_resumeReg (s : State) (f : Group → Group) : (s.modG f).resumeReg = s.resumeReg := rfl
@[simp] theorem state_modG_cancelReg (s : State) (f : Group → Group) : (s.modG f).cancelReg = s.cancelReg := rfl
@[simp] theorem state_modG_thrhold (s : State) (f : Group → Group) : (s.modG f).thrhold = s.thrhold := rfl
@[simp] theorem state_modG_curlim (s : State) (f : Group → Group) : (s.modG f).curlim = s.curlim := rfl
@[simp] theorem state_modG_drooplim (s : State) (f : Group → Group) : (s.modG f).drooplim = s.drooplim := rfl
@[simp] theorem state_modG_templim (s : State) (f : Group → Group) : (s.modG f).templim = s.templim := rfl
@[simp] theorem state_modG_almcount (s : State) (f : Group → Group) : (s.modG f).almcount = s.almcount := rfl
@[simp] theorem state_modG_perfsel (s : State) (f : Group → Group) : (s.modG f).perfsel = s.perfsel := rfl
@[simp] theorem state_modG_dbgTarget (s : State) (f : Group → Group) : (s.modG f).dbgTarget = s.dbgTarget := rfl
@[simp] theorem state_modG_dbgCmd (s : State) (f : Group → Group) : (s.modG f).dbgCmd = s.dbgCmd := rfl
@[simp] theorem state_modG_dbg (s : State) (f : Group → Group) : (s.modG f).dbg = s.dbg := rfl
@[simp] theorem state_modG_mailbox (s : State) (f : Group → Group) : (s.modG f).mailbox = s.mailbox := rfl
@[simp] theorem state_modG_attest (s : State) (f : Group → Group) : (s.modG f).attest = s.attest := rfl
@[simp] theorem state_modG_msix (s : State) (f : Group → Group) : (s.modG f).msix = s.msix := rfl
@[simp] theorem state_modG_hostData (s : State) (f : Group → Group) : (s.modG f).hostData = s.hostData := rfl
@[simp] theorem state_modG_pushWait (s : State) (f : Group → Group) : (s.modG f).pushWait = s.pushWait := rfl
@[simp] theorem state_modG_bootCount (s : State) (f : Group → Group) : (s.modG f).bootCount = s.bootCount := rfl
@[simp] theorem state_modG_board (s : State) (f : Group → Group) : (s.modG f).board = s.board := rfl
@[simp] theorem state_modG_bootAt (s : State) (f : Group → Group) : (s.modG f).bootAt = s.bootAt := rfl
@[simp] theorem state_modG_hostWrites (s : State) (f : Group → Group) : (s.modG f).hostWrites = s.hostWrites := rfl
@[simp] theorem state_modG_badL2 (s : State) (f : Group → Group) : (s.modG f).badL2 = s.badL2 := rfl
@[simp] theorem state_modG_past (s : State) (f : Group → Group) : (s.modG f).past = s.past := rfl
@[simp] theorem state_modG_msixTab (s : State) (f : Group → Group) : (s.modG f).msixTab = s.msixTab := rfl
@[simp] theorem state_modG_msixPend (s : State) (f : Group → Group) : (s.modG f).msixPend = s.msixPend := rfl
@[simp] theorem state_modS_now (s : State) (f : PcSlot → PcSlot) : (s.modS f).now = s.now := rfl
@[simp] theorem state_modS_agenda (s : State) (f : PcSlot → PcSlot) : (s.modS f).agenda = s.agenda := rfl
@[simp] theorem state_modS_inputs (s : State) (f : PcSlot → PcSlot) : (s.modS f).inputs = s.inputs := rfl
@[simp] theorem state_modS_cur (s : State) (f : PcSlot → PcSlot) : (s.modS f).cur = s.cur := rfl
@[simp] theorem state_modS_free (s : State) (f : PcSlot → PcSlot) : (s.modS f).free = s.free := rfl
@[simp] theorem state_modS_fresh (s : State) (f : PcSlot → PcSlot) : (s.modS f).fresh = s.fresh := rfl
@[simp] theorem state_modS_mem (s : State) (f : PcSlot → PcSlot) : (s.modS f).mem = s.mem := rfl
@[simp] theorem state_modS_badMem (s : State) (f : PcSlot → PcSlot) : (s.modS f).badMem = s.badMem := rfl
@[simp] theorem state_modS_hostL2 (s : State) (f : PcSlot → PcSlot) : (s.modS f).hostL2 = s.hostL2 := rfl
@[simp] theorem state_modS_exact (s : State) (f : PcSlot → PcSlot) : (s.modS f).exact = s.exact := rfl
@[simp] theorem state_modS_dieTlb (s : State) (f : PcSlot → PcSlot) : (s.modS f).dieTlb = s.dieTlb := rfl
@[simp] theorem state_modS_dieTab (s : State) (f : PcSlot → PcSlot) : (s.modS f).dieTab = s.dieTab := rfl
@[simp] theorem state_modS_walks (s : State) (f : PcSlot → PcSlot) : (s.modS f).walks = s.walks := rfl
@[simp] theorem state_modS_launches (s : State) (f : PcSlot → PcSlot) : (s.modS f).launches = s.launches := rfl
@[simp] theorem state_modS_weaves (s : State) (f : PcSlot → PcSlot) : (s.modS f).weaves = s.weaves := rfl
@[simp] theorem state_modS_nets (s : State) (f : PcSlot → PcSlot) : (s.modS f).nets = s.nets := rfl
@[simp] theorem state_modS_raises (s : State) (f : PcSlot → PcSlot) : (s.modS f).raises = s.raises := rfl
@[simp] theorem state_modS_sortQ (s : State) (f : PcSlot → PcSlot) : (s.modS f).sortQ = s.sortQ := rfl
@[simp] theorem state_modS_sortPage (s : State) (f : PcSlot → PcSlot) : (s.modS f).sortPage = s.sortPage := rfl
@[simp] theorem state_modS_sortPos (s : State) (f : PcSlot → PcSlot) : (s.modS f).sortPos = s.sortPos := rfl
@[simp] theorem state_modS_orders (s : State) (f : PcSlot → PcSlot) : (s.modS f).orders = s.orders := rfl
@[simp] theorem state_modS_govs (s : State) (f : PcSlot → PcSlot) : (s.modS f).govs = s.govs := rfl
@[simp] theorem state_modS_stats (s : State) (f : PcSlot → PcSlot) : (s.modS f).stats = s.stats := rfl
@[simp] theorem state_modS_lostEv (s : State) (f : PcSlot → PcSlot) : (s.modS f).lostEv = s.lostEv := rfl
@[simp] theorem state_modS_ovf (s : State) (f : PcSlot → PcSlot) : (s.modS f).ovf = s.ovf := rfl
@[simp] theorem state_modS_ovfHead (s : State) (f : PcSlot → PcSlot) : (s.modS f).ovfHead = s.ovfHead := rfl
@[simp] theorem state_modS_decs (s : State) (f : PcSlot → PcSlot) : (s.modS f).decs = s.decs := rfl
@[simp] theorem state_modS_tokens (s : State) (f : PcSlot → PcSlot) : (s.modS f).tokens = s.tokens := rfl
@[simp] theorem state_modS_dicts (s : State) (f : PcSlot → PcSlot) : (s.modS f).dicts = s.dicts := rfl
@[simp] theorem state_modS_segs (s : State) (f : PcSlot → PcSlot) : (s.modS f).segs = s.segs := rfl
@[simp] theorem state_modS_pending (s : State) (f : PcSlot → PcSlot) : (s.modS f).pending = s.pending := rfl
@[simp] theorem state_modS_classes (s : State) (f : PcSlot → PcSlot) : (s.modS f).classes = s.classes := rfl
@[simp] theorem state_modS_ptrs (s : State) (f : PcSlot → PcSlot) : (s.modS f).ptrs = s.ptrs := rfl
@[simp] theorem state_modS_quads (s : State) (f : PcSlot → PcSlot) : (s.modS f).quads = s.quads := rfl
@[simp] theorem state_modS_inrush (s : State) (f : PcSlot → PcSlot) : (s.modS f).inrush = s.inrush := rfl
@[simp] theorem state_modS_inrushAt (s : State) (f : PcSlot → PcSlot) : (s.modS f).inrushAt = s.inrushAt := rfl
@[simp] theorem state_modS_throttle (s : State) (f : PcSlot → PcSlot) : (s.modS f).throttle = s.throttle := rfl
@[simp] theorem state_modS_alarms (s : State) (f : PcSlot → PcSlot) : (s.modS f).alarms = s.alarms := rfl
@[simp] theorem state_modS_bridge (s : State) (f : PcSlot → PcSlot) : (s.modS f).bridge = s.bridge := rfl
@[simp] theorem state_modS_podLanes (s : State) (f : PcSlot → PcSlot) : (s.modS f).podLanes = s.podLanes := rfl
@[simp] theorem state_modS_podMask (s : State) (f : PcSlot → PcSlot) : (s.modS f).podMask = s.podMask := rfl
@[simp] theorem state_modS_bootstat (s : State) (f : PcSlot → PcSlot) : (s.modS f).bootstat = s.bootstat := rfl
@[simp] theorem state_modS_ident (s : State) (f : PcSlot → PcSlot) : (s.modS f).ident = s.ident := rfl
@[simp] theorem state_modS_winbase (s : State) (f : PcSlot → PcSlot) : (s.modS f).winbase = s.winbase := rfl
@[simp] theorem state_modS_degrade (s : State) (f : PcSlot → PcSlot) : (s.modS f).degrade = s.degrade := rfl
@[simp] theorem state_modS_lqs (s : State) (f : PcSlot → PcSlot) : (s.modS f).lqs = s.lqs := rfl
@[simp] theorem state_modS_vectors (s : State) (f : PcSlot → PcSlot) : (s.modS f).vectors = s.vectors := rfl
@[simp] theorem state_modS_svcBase (s : State) (f : PcSlot → PcSlot) : (s.modS f).svcBase = s.svcBase := rfl
@[simp] theorem state_modS_svcCount (s : State) (f : PcSlot → PcSlot) : (s.modS f).svcCount = s.svcCount := rfl
@[simp] theorem state_modS_svcHead (s : State) (f : PcSlot → PcSlot) : (s.modS f).svcHead = s.svcHead := rfl
@[simp] theorem state_modS_svcTail (s : State) (f : PcSlot → PcSlot) : (s.modS f).svcTail = s.svcTail := rfl
@[simp] theorem state_modS_svcHeld (s : State) (f : PcSlot → PcSlot) : (s.modS f).svcHeld = s.svcHeld := rfl
@[simp] theorem state_modS_resumeReg (s : State) (f : PcSlot → PcSlot) : (s.modS f).resumeReg = s.resumeReg := rfl
@[simp] theorem state_modS_cancelReg (s : State) (f : PcSlot → PcSlot) : (s.modS f).cancelReg = s.cancelReg := rfl
@[simp] theorem state_modS_thrhold (s : State) (f : PcSlot → PcSlot) : (s.modS f).thrhold = s.thrhold := rfl
@[simp] theorem state_modS_curlim (s : State) (f : PcSlot → PcSlot) : (s.modS f).curlim = s.curlim := rfl
@[simp] theorem state_modS_drooplim (s : State) (f : PcSlot → PcSlot) : (s.modS f).drooplim = s.drooplim := rfl
@[simp] theorem state_modS_templim (s : State) (f : PcSlot → PcSlot) : (s.modS f).templim = s.templim := rfl
@[simp] theorem state_modS_almcount (s : State) (f : PcSlot → PcSlot) : (s.modS f).almcount = s.almcount := rfl
@[simp] theorem state_modS_perfsel (s : State) (f : PcSlot → PcSlot) : (s.modS f).perfsel = s.perfsel := rfl
@[simp] theorem state_modS_dbgTarget (s : State) (f : PcSlot → PcSlot) : (s.modS f).dbgTarget = s.dbgTarget := rfl
@[simp] theorem state_modS_dbgCmd (s : State) (f : PcSlot → PcSlot) : (s.modS f).dbgCmd = s.dbgCmd := rfl
@[simp] theorem state_modS_dbg (s : State) (f : PcSlot → PcSlot) : (s.modS f).dbg = s.dbg := rfl
@[simp] theorem state_modS_mailbox (s : State) (f : PcSlot → PcSlot) : (s.modS f).mailbox = s.mailbox := rfl
@[simp] theorem state_modS_attest (s : State) (f : PcSlot → PcSlot) : (s.modS f).attest = s.attest := rfl
@[simp] theorem state_modS_msix (s : State) (f : PcSlot → PcSlot) : (s.modS f).msix = s.msix := rfl
@[simp] theorem state_modS_hostData (s : State) (f : PcSlot → PcSlot) : (s.modS f).hostData = s.hostData := rfl
@[simp] theorem state_modS_pushWait (s : State) (f : PcSlot → PcSlot) : (s.modS f).pushWait = s.pushWait := rfl
@[simp] theorem state_modS_bootCount (s : State) (f : PcSlot → PcSlot) : (s.modS f).bootCount = s.bootCount := rfl
@[simp] theorem state_modS_board (s : State) (f : PcSlot → PcSlot) : (s.modS f).board = s.board := rfl
@[simp] theorem state_modS_bootAt (s : State) (f : PcSlot → PcSlot) : (s.modS f).bootAt = s.bootAt := rfl
@[simp] theorem state_modS_hostWrites (s : State) (f : PcSlot → PcSlot) : (s.modS f).hostWrites = s.hostWrites := rfl
@[simp] theorem state_modS_badL2 (s : State) (f : PcSlot → PcSlot) : (s.modS f).badL2 = s.badL2 := rfl
@[simp] theorem state_modS_past (s : State) (f : PcSlot → PcSlot) : (s.modS f).past = s.past := rfl
@[simp] theorem state_modS_msixTab (s : State) (f : PcSlot → PcSlot) : (s.modS f).msixTab = s.msixTab := rfl
@[simp] theorem state_modS_msixPend (s : State) (f : PcSlot → PcSlot) : (s.modS f).msixPend = s.msixPend := rfl
@[simp] theorem state_modU_now (s : State) (f : WUnit → WUnit) : (s.modU f).now = s.now := rfl
@[simp] theorem state_modU_agenda (s : State) (f : WUnit → WUnit) : (s.modU f).agenda = s.agenda := rfl
@[simp] theorem state_modU_inputs (s : State) (f : WUnit → WUnit) : (s.modU f).inputs = s.inputs := rfl
@[simp] theorem state_modU_cur (s : State) (f : WUnit → WUnit) : (s.modU f).cur = s.cur := rfl
@[simp] theorem state_modU_free (s : State) (f : WUnit → WUnit) : (s.modU f).free = s.free := rfl
@[simp] theorem state_modU_fresh (s : State) (f : WUnit → WUnit) : (s.modU f).fresh = s.fresh := rfl
@[simp] theorem state_modU_mem (s : State) (f : WUnit → WUnit) : (s.modU f).mem = s.mem := rfl
@[simp] theorem state_modU_badMem (s : State) (f : WUnit → WUnit) : (s.modU f).badMem = s.badMem := rfl
@[simp] theorem state_modU_hostL2 (s : State) (f : WUnit → WUnit) : (s.modU f).hostL2 = s.hostL2 := rfl
@[simp] theorem state_modU_exact (s : State) (f : WUnit → WUnit) : (s.modU f).exact = s.exact := rfl
@[simp] theorem state_modU_dieTlb (s : State) (f : WUnit → WUnit) : (s.modU f).dieTlb = s.dieTlb := rfl
@[simp] theorem state_modU_dieTab (s : State) (f : WUnit → WUnit) : (s.modU f).dieTab = s.dieTab := rfl
@[simp] theorem state_modU_walks (s : State) (f : WUnit → WUnit) : (s.modU f).walks = s.walks := rfl
@[simp] theorem state_modU_launches (s : State) (f : WUnit → WUnit) : (s.modU f).launches = s.launches := rfl
@[simp] theorem state_modU_weaves (s : State) (f : WUnit → WUnit) : (s.modU f).weaves = s.weaves := rfl
@[simp] theorem state_modU_nets (s : State) (f : WUnit → WUnit) : (s.modU f).nets = s.nets := rfl
@[simp] theorem state_modU_raises (s : State) (f : WUnit → WUnit) : (s.modU f).raises = s.raises := rfl
@[simp] theorem state_modU_sortQ (s : State) (f : WUnit → WUnit) : (s.modU f).sortQ = s.sortQ := rfl
@[simp] theorem state_modU_sortPage (s : State) (f : WUnit → WUnit) : (s.modU f).sortPage = s.sortPage := rfl
@[simp] theorem state_modU_sortPos (s : State) (f : WUnit → WUnit) : (s.modU f).sortPos = s.sortPos := rfl
@[simp] theorem state_modU_orders (s : State) (f : WUnit → WUnit) : (s.modU f).orders = s.orders := rfl
@[simp] theorem state_modU_govs (s : State) (f : WUnit → WUnit) : (s.modU f).govs = s.govs := rfl
@[simp] theorem state_modU_stats (s : State) (f : WUnit → WUnit) : (s.modU f).stats = s.stats := rfl
@[simp] theorem state_modU_lostEv (s : State) (f : WUnit → WUnit) : (s.modU f).lostEv = s.lostEv := rfl
@[simp] theorem state_modU_ovf (s : State) (f : WUnit → WUnit) : (s.modU f).ovf = s.ovf := rfl
@[simp] theorem state_modU_ovfHead (s : State) (f : WUnit → WUnit) : (s.modU f).ovfHead = s.ovfHead := rfl
@[simp] theorem state_modU_decs (s : State) (f : WUnit → WUnit) : (s.modU f).decs = s.decs := rfl
@[simp] theorem state_modU_tokens (s : State) (f : WUnit → WUnit) : (s.modU f).tokens = s.tokens := rfl
@[simp] theorem state_modU_dicts (s : State) (f : WUnit → WUnit) : (s.modU f).dicts = s.dicts := rfl
@[simp] theorem state_modU_segs (s : State) (f : WUnit → WUnit) : (s.modU f).segs = s.segs := rfl
@[simp] theorem state_modU_pending (s : State) (f : WUnit → WUnit) : (s.modU f).pending = s.pending := rfl
@[simp] theorem state_modU_classes (s : State) (f : WUnit → WUnit) : (s.modU f).classes = s.classes := rfl
@[simp] theorem state_modU_ptrs (s : State) (f : WUnit → WUnit) : (s.modU f).ptrs = s.ptrs := rfl
@[simp] theorem state_modU_quads (s : State) (f : WUnit → WUnit) : (s.modU f).quads = s.quads := rfl
@[simp] theorem state_modU_inrush (s : State) (f : WUnit → WUnit) : (s.modU f).inrush = s.inrush := rfl
@[simp] theorem state_modU_inrushAt (s : State) (f : WUnit → WUnit) : (s.modU f).inrushAt = s.inrushAt := rfl
@[simp] theorem state_modU_throttle (s : State) (f : WUnit → WUnit) : (s.modU f).throttle = s.throttle := rfl
@[simp] theorem state_modU_alarms (s : State) (f : WUnit → WUnit) : (s.modU f).alarms = s.alarms := rfl
@[simp] theorem state_modU_bridge (s : State) (f : WUnit → WUnit) : (s.modU f).bridge = s.bridge := rfl
@[simp] theorem state_modU_podLanes (s : State) (f : WUnit → WUnit) : (s.modU f).podLanes = s.podLanes := rfl
@[simp] theorem state_modU_podMask (s : State) (f : WUnit → WUnit) : (s.modU f).podMask = s.podMask := rfl
@[simp] theorem state_modU_bootstat (s : State) (f : WUnit → WUnit) : (s.modU f).bootstat = s.bootstat := rfl
@[simp] theorem state_modU_ident (s : State) (f : WUnit → WUnit) : (s.modU f).ident = s.ident := rfl
@[simp] theorem state_modU_winbase (s : State) (f : WUnit → WUnit) : (s.modU f).winbase = s.winbase := rfl
@[simp] theorem state_modU_degrade (s : State) (f : WUnit → WUnit) : (s.modU f).degrade = s.degrade := rfl
@[simp] theorem state_modU_lqs (s : State) (f : WUnit → WUnit) : (s.modU f).lqs = s.lqs := rfl
@[simp] theorem state_modU_vectors (s : State) (f : WUnit → WUnit) : (s.modU f).vectors = s.vectors := rfl
@[simp] theorem state_modU_svcBase (s : State) (f : WUnit → WUnit) : (s.modU f).svcBase = s.svcBase := rfl
@[simp] theorem state_modU_svcCount (s : State) (f : WUnit → WUnit) : (s.modU f).svcCount = s.svcCount := rfl
@[simp] theorem state_modU_svcHead (s : State) (f : WUnit → WUnit) : (s.modU f).svcHead = s.svcHead := rfl
@[simp] theorem state_modU_svcTail (s : State) (f : WUnit → WUnit) : (s.modU f).svcTail = s.svcTail := rfl
@[simp] theorem state_modU_svcHeld (s : State) (f : WUnit → WUnit) : (s.modU f).svcHeld = s.svcHeld := rfl
@[simp] theorem state_modU_resumeReg (s : State) (f : WUnit → WUnit) : (s.modU f).resumeReg = s.resumeReg := rfl
@[simp] theorem state_modU_cancelReg (s : State) (f : WUnit → WUnit) : (s.modU f).cancelReg = s.cancelReg := rfl
@[simp] theorem state_modU_thrhold (s : State) (f : WUnit → WUnit) : (s.modU f).thrhold = s.thrhold := rfl
@[simp] theorem state_modU_curlim (s : State) (f : WUnit → WUnit) : (s.modU f).curlim = s.curlim := rfl
@[simp] theorem state_modU_drooplim (s : State) (f : WUnit → WUnit) : (s.modU f).drooplim = s.drooplim := rfl
@[simp] theorem state_modU_templim (s : State) (f : WUnit → WUnit) : (s.modU f).templim = s.templim := rfl
@[simp] theorem state_modU_almcount (s : State) (f : WUnit → WUnit) : (s.modU f).almcount = s.almcount := rfl
@[simp] theorem state_modU_perfsel (s : State) (f : WUnit → WUnit) : (s.modU f).perfsel = s.perfsel := rfl
@[simp] theorem state_modU_dbgTarget (s : State) (f : WUnit → WUnit) : (s.modU f).dbgTarget = s.dbgTarget := rfl
@[simp] theorem state_modU_dbgCmd (s : State) (f : WUnit → WUnit) : (s.modU f).dbgCmd = s.dbgCmd := rfl
@[simp] theorem state_modU_dbg (s : State) (f : WUnit → WUnit) : (s.modU f).dbg = s.dbg := rfl
@[simp] theorem state_modU_mailbox (s : State) (f : WUnit → WUnit) : (s.modU f).mailbox = s.mailbox := rfl
@[simp] theorem state_modU_attest (s : State) (f : WUnit → WUnit) : (s.modU f).attest = s.attest := rfl
@[simp] theorem state_modU_msix (s : State) (f : WUnit → WUnit) : (s.modU f).msix = s.msix := rfl
@[simp] theorem state_modU_hostData (s : State) (f : WUnit → WUnit) : (s.modU f).hostData = s.hostData := rfl
@[simp] theorem state_modU_pushWait (s : State) (f : WUnit → WUnit) : (s.modU f).pushWait = s.pushWait := rfl
@[simp] theorem state_modU_bootCount (s : State) (f : WUnit → WUnit) : (s.modU f).bootCount = s.bootCount := rfl
@[simp] theorem state_modU_board (s : State) (f : WUnit → WUnit) : (s.modU f).board = s.board := rfl
@[simp] theorem state_modU_bootAt (s : State) (f : WUnit → WUnit) : (s.modU f).bootAt = s.bootAt := rfl
@[simp] theorem state_modU_hostWrites (s : State) (f : WUnit → WUnit) : (s.modU f).hostWrites = s.hostWrites := rfl
@[simp] theorem state_modU_badL2 (s : State) (f : WUnit → WUnit) : (s.modU f).badL2 = s.badL2 := rfl
@[simp] theorem state_modU_past (s : State) (f : WUnit → WUnit) : (s.modU f).past = s.past := rfl
@[simp] theorem state_modU_msixTab (s : State) (f : WUnit → WUnit) : (s.modU f).msixTab = s.msixTab := rfl
@[simp] theorem state_modU_msixPend (s : State) (f : WUnit → WUnit) : (s.modU f).msixPend = s.msixPend := rfl
@[simp] theorem state_modLaunch_now (s : State) (l : Nat) (f : Launch → Launch) : (s.modLaunch l f).now = s.now := rfl
@[simp] theorem state_modLaunch_agenda (s : State) (l : Nat) (f : Launch → Launch) : (s.modLaunch l f).agenda = s.agenda := rfl
@[simp] theorem state_modLaunch_inputs (s : State) (l : Nat) (f : Launch → Launch) : (s.modLaunch l f).inputs = s.inputs := rfl
@[simp] theorem state_modLaunch_cur (s : State) (l : Nat) (f : Launch → Launch) : (s.modLaunch l f).cur = s.cur := rfl
@[simp] theorem state_modLaunch_free (s : State) (l : Nat) (f : Launch → Launch) : (s.modLaunch l f).free = s.free := rfl
@[simp] theorem state_modLaunch_fresh (s : State) (l : Nat) (f : Launch → Launch) : (s.modLaunch l f).fresh = s.fresh := rfl
@[simp] theorem state_modLaunch_cores (s : State) (l : Nat) (f : Launch → Launch) : (s.modLaunch l f).cores = s.cores := rfl
@[simp] theorem state_modLaunch_mem (s : State) (l : Nat) (f : Launch → Launch) : (s.modLaunch l f).mem = s.mem := rfl
@[simp] theorem state_modLaunch_badMem (s : State) (l : Nat) (f : Launch → Launch) : (s.modLaunch l f).badMem = s.badMem := rfl
@[simp] theorem state_modLaunch_hostL2 (s : State) (l : Nat) (f : Launch → Launch) : (s.modLaunch l f).hostL2 = s.hostL2 := rfl
@[simp] theorem state_modLaunch_exact (s : State) (l : Nat) (f : Launch → Launch) : (s.modLaunch l f).exact = s.exact := rfl
@[simp] theorem state_modLaunch_dieTlb (s : State) (l : Nat) (f : Launch → Launch) : (s.modLaunch l f).dieTlb = s.dieTlb := rfl
@[simp] theorem state_modLaunch_dieTab (s : State) (l : Nat) (f : Launch → Launch) : (s.modLaunch l f).dieTab = s.dieTab := rfl
@[simp] theorem state_modLaunch_walks (s : State) (l : Nat) (f : Launch → Launch) : (s.modLaunch l f).walks = s.walks := rfl
@[simp] theorem state_modLaunch_weaves (s : State) (l : Nat) (f : Launch → Launch) : (s.modLaunch l f).weaves = s.weaves := rfl
@[simp] theorem state_modLaunch_nets (s : State) (l : Nat) (f : Launch → Launch) : (s.modLaunch l f).nets = s.nets := rfl
@[simp] theorem state_modLaunch_raises (s : State) (l : Nat) (f : Launch → Launch) : (s.modLaunch l f).raises = s.raises := rfl
@[simp] theorem state_modLaunch_sortQ (s : State) (l : Nat) (f : Launch → Launch) : (s.modLaunch l f).sortQ = s.sortQ := rfl
@[simp] theorem state_modLaunch_sortPage (s : State) (l : Nat) (f : Launch → Launch) : (s.modLaunch l f).sortPage = s.sortPage := rfl
@[simp] theorem state_modLaunch_sortPos (s : State) (l : Nat) (f : Launch → Launch) : (s.modLaunch l f).sortPos = s.sortPos := rfl
@[simp] theorem state_modLaunch_orders (s : State) (l : Nat) (f : Launch → Launch) : (s.modLaunch l f).orders = s.orders := rfl
@[simp] theorem state_modLaunch_govs (s : State) (l : Nat) (f : Launch → Launch) : (s.modLaunch l f).govs = s.govs := rfl
@[simp] theorem state_modLaunch_stats (s : State) (l : Nat) (f : Launch → Launch) : (s.modLaunch l f).stats = s.stats := rfl
@[simp] theorem state_modLaunch_lostEv (s : State) (l : Nat) (f : Launch → Launch) : (s.modLaunch l f).lostEv = s.lostEv := rfl
@[simp] theorem state_modLaunch_ovf (s : State) (l : Nat) (f : Launch → Launch) : (s.modLaunch l f).ovf = s.ovf := rfl
@[simp] theorem state_modLaunch_ovfHead (s : State) (l : Nat) (f : Launch → Launch) : (s.modLaunch l f).ovfHead = s.ovfHead := rfl
@[simp] theorem state_modLaunch_decs (s : State) (l : Nat) (f : Launch → Launch) : (s.modLaunch l f).decs = s.decs := rfl
@[simp] theorem state_modLaunch_tokens (s : State) (l : Nat) (f : Launch → Launch) : (s.modLaunch l f).tokens = s.tokens := rfl
@[simp] theorem state_modLaunch_dicts (s : State) (l : Nat) (f : Launch → Launch) : (s.modLaunch l f).dicts = s.dicts := rfl
@[simp] theorem state_modLaunch_segs (s : State) (l : Nat) (f : Launch → Launch) : (s.modLaunch l f).segs = s.segs := rfl
@[simp] theorem state_modLaunch_pending (s : State) (l : Nat) (f : Launch → Launch) : (s.modLaunch l f).pending = s.pending := rfl
@[simp] theorem state_modLaunch_classes (s : State) (l : Nat) (f : Launch → Launch) : (s.modLaunch l f).classes = s.classes := rfl
@[simp] theorem state_modLaunch_ptrs (s : State) (l : Nat) (f : Launch → Launch) : (s.modLaunch l f).ptrs = s.ptrs := rfl
@[simp] theorem state_modLaunch_quads (s : State) (l : Nat) (f : Launch → Launch) : (s.modLaunch l f).quads = s.quads := rfl
@[simp] theorem state_modLaunch_inrush (s : State) (l : Nat) (f : Launch → Launch) : (s.modLaunch l f).inrush = s.inrush := rfl
@[simp] theorem state_modLaunch_inrushAt (s : State) (l : Nat) (f : Launch → Launch) : (s.modLaunch l f).inrushAt = s.inrushAt := rfl
@[simp] theorem state_modLaunch_throttle (s : State) (l : Nat) (f : Launch → Launch) : (s.modLaunch l f).throttle = s.throttle := rfl
@[simp] theorem state_modLaunch_alarms (s : State) (l : Nat) (f : Launch → Launch) : (s.modLaunch l f).alarms = s.alarms := rfl
@[simp] theorem state_modLaunch_bridge (s : State) (l : Nat) (f : Launch → Launch) : (s.modLaunch l f).bridge = s.bridge := rfl
@[simp] theorem state_modLaunch_podLanes (s : State) (l : Nat) (f : Launch → Launch) : (s.modLaunch l f).podLanes = s.podLanes := rfl
@[simp] theorem state_modLaunch_podMask (s : State) (l : Nat) (f : Launch → Launch) : (s.modLaunch l f).podMask = s.podMask := rfl
@[simp] theorem state_modLaunch_bootstat (s : State) (l : Nat) (f : Launch → Launch) : (s.modLaunch l f).bootstat = s.bootstat := rfl
@[simp] theorem state_modLaunch_ident (s : State) (l : Nat) (f : Launch → Launch) : (s.modLaunch l f).ident = s.ident := rfl
@[simp] theorem state_modLaunch_winbase (s : State) (l : Nat) (f : Launch → Launch) : (s.modLaunch l f).winbase = s.winbase := rfl
@[simp] theorem state_modLaunch_degrade (s : State) (l : Nat) (f : Launch → Launch) : (s.modLaunch l f).degrade = s.degrade := rfl
@[simp] theorem state_modLaunch_lqs (s : State) (l : Nat) (f : Launch → Launch) : (s.modLaunch l f).lqs = s.lqs := rfl
@[simp] theorem state_modLaunch_vectors (s : State) (l : Nat) (f : Launch → Launch) : (s.modLaunch l f).vectors = s.vectors := rfl
@[simp] theorem state_modLaunch_svcBase (s : State) (l : Nat) (f : Launch → Launch) : (s.modLaunch l f).svcBase = s.svcBase := rfl
@[simp] theorem state_modLaunch_svcCount (s : State) (l : Nat) (f : Launch → Launch) : (s.modLaunch l f).svcCount = s.svcCount := rfl
@[simp] theorem state_modLaunch_svcHead (s : State) (l : Nat) (f : Launch → Launch) : (s.modLaunch l f).svcHead = s.svcHead := rfl
@[simp] theorem state_modLaunch_svcTail (s : State) (l : Nat) (f : Launch → Launch) : (s.modLaunch l f).svcTail = s.svcTail := rfl
@[simp] theorem state_modLaunch_svcHeld (s : State) (l : Nat) (f : Launch → Launch) : (s.modLaunch l f).svcHeld = s.svcHeld := rfl
@[simp] theorem state_modLaunch_resumeReg (s : State) (l : Nat) (f : Launch → Launch) : (s.modLaunch l f).resumeReg = s.resumeReg := rfl
@[simp] theorem state_modLaunch_cancelReg (s : State) (l : Nat) (f : Launch → Launch) : (s.modLaunch l f).cancelReg = s.cancelReg := rfl
@[simp] theorem state_modLaunch_thrhold (s : State) (l : Nat) (f : Launch → Launch) : (s.modLaunch l f).thrhold = s.thrhold := rfl
@[simp] theorem state_modLaunch_curlim (s : State) (l : Nat) (f : Launch → Launch) : (s.modLaunch l f).curlim = s.curlim := rfl
@[simp] theorem state_modLaunch_drooplim (s : State) (l : Nat) (f : Launch → Launch) : (s.modLaunch l f).drooplim = s.drooplim := rfl
@[simp] theorem state_modLaunch_templim (s : State) (l : Nat) (f : Launch → Launch) : (s.modLaunch l f).templim = s.templim := rfl
@[simp] theorem state_modLaunch_almcount (s : State) (l : Nat) (f : Launch → Launch) : (s.modLaunch l f).almcount = s.almcount := rfl
@[simp] theorem state_modLaunch_perfsel (s : State) (l : Nat) (f : Launch → Launch) : (s.modLaunch l f).perfsel = s.perfsel := rfl
@[simp] theorem state_modLaunch_dbgTarget (s : State) (l : Nat) (f : Launch → Launch) : (s.modLaunch l f).dbgTarget = s.dbgTarget := rfl
@[simp] theorem state_modLaunch_dbgCmd (s : State) (l : Nat) (f : Launch → Launch) : (s.modLaunch l f).dbgCmd = s.dbgCmd := rfl
@[simp] theorem state_modLaunch_dbg (s : State) (l : Nat) (f : Launch → Launch) : (s.modLaunch l f).dbg = s.dbg := rfl
@[simp] theorem state_modLaunch_mailbox (s : State) (l : Nat) (f : Launch → Launch) : (s.modLaunch l f).mailbox = s.mailbox := rfl
@[simp] theorem state_modLaunch_attest (s : State) (l : Nat) (f : Launch → Launch) : (s.modLaunch l f).attest = s.attest := rfl
@[simp] theorem state_modLaunch_msix (s : State) (l : Nat) (f : Launch → Launch) : (s.modLaunch l f).msix = s.msix := rfl
@[simp] theorem state_modLaunch_hostData (s : State) (l : Nat) (f : Launch → Launch) : (s.modLaunch l f).hostData = s.hostData := rfl
@[simp] theorem state_modLaunch_pushWait (s : State) (l : Nat) (f : Launch → Launch) : (s.modLaunch l f).pushWait = s.pushWait := rfl
@[simp] theorem state_modLaunch_bootCount (s : State) (l : Nat) (f : Launch → Launch) : (s.modLaunch l f).bootCount = s.bootCount := rfl
@[simp] theorem state_modLaunch_board (s : State) (l : Nat) (f : Launch → Launch) : (s.modLaunch l f).board = s.board := rfl
@[simp] theorem state_modLaunch_bootAt (s : State) (l : Nat) (f : Launch → Launch) : (s.modLaunch l f).bootAt = s.bootAt := rfl
@[simp] theorem state_modLaunch_hostWrites (s : State) (l : Nat) (f : Launch → Launch) : (s.modLaunch l f).hostWrites = s.hostWrites := rfl
@[simp] theorem state_modLaunch_badL2 (s : State) (l : Nat) (f : Launch → Launch) : (s.modLaunch l f).badL2 = s.badL2 := rfl
@[simp] theorem state_modLaunch_past (s : State) (l : Nat) (f : Launch → Launch) : (s.modLaunch l f).past = s.past := rfl
@[simp] theorem state_modLaunch_msixTab (s : State) (l : Nat) (f : Launch → Launch) : (s.modLaunch l f).msixTab = s.msixTab := rfl
@[simp] theorem state_modLaunch_msixPend (s : State) (l : Nat) (f : Launch → Launch) : (s.modLaunch l f).msixPend = s.msixPend := rfl
@[simp] theorem state_sched_now (s : State) (l : List Instr) : (s.sched l).now = s.now := rfl
@[simp] theorem state_sched_inputs (s : State) (l : List Instr) : (s.sched l).inputs = s.inputs := rfl
@[simp] theorem state_sched_cur (s : State) (l : List Instr) : (s.sched l).cur = s.cur := rfl
@[simp] theorem state_sched_free (s : State) (l : List Instr) : (s.sched l).free = s.free := rfl
@[simp] theorem state_sched_fresh (s : State) (l : List Instr) : (s.sched l).fresh = s.fresh := rfl
@[simp] theorem state_sched_cores (s : State) (l : List Instr) : (s.sched l).cores = s.cores := rfl
@[simp] theorem state_sched_mem (s : State) (l : List Instr) : (s.sched l).mem = s.mem := rfl
@[simp] theorem state_sched_badMem (s : State) (l : List Instr) : (s.sched l).badMem = s.badMem := rfl
@[simp] theorem state_sched_hostL2 (s : State) (l : List Instr) : (s.sched l).hostL2 = s.hostL2 := rfl
@[simp] theorem state_sched_exact (s : State) (l : List Instr) : (s.sched l).exact = s.exact := rfl
@[simp] theorem state_sched_dieTlb (s : State) (l : List Instr) : (s.sched l).dieTlb = s.dieTlb := rfl
@[simp] theorem state_sched_dieTab (s : State) (l : List Instr) : (s.sched l).dieTab = s.dieTab := rfl
@[simp] theorem state_sched_walks (s : State) (l : List Instr) : (s.sched l).walks = s.walks := rfl
@[simp] theorem state_sched_launches (s : State) (l : List Instr) : (s.sched l).launches = s.launches := rfl
@[simp] theorem state_sched_weaves (s : State) (l : List Instr) : (s.sched l).weaves = s.weaves := rfl
@[simp] theorem state_sched_nets (s : State) (l : List Instr) : (s.sched l).nets = s.nets := rfl
@[simp] theorem state_sched_raises (s : State) (l : List Instr) : (s.sched l).raises = s.raises := rfl
@[simp] theorem state_sched_sortQ (s : State) (l : List Instr) : (s.sched l).sortQ = s.sortQ := rfl
@[simp] theorem state_sched_sortPage (s : State) (l : List Instr) : (s.sched l).sortPage = s.sortPage := rfl
@[simp] theorem state_sched_sortPos (s : State) (l : List Instr) : (s.sched l).sortPos = s.sortPos := rfl
@[simp] theorem state_sched_orders (s : State) (l : List Instr) : (s.sched l).orders = s.orders := rfl
@[simp] theorem state_sched_govs (s : State) (l : List Instr) : (s.sched l).govs = s.govs := rfl
@[simp] theorem state_sched_stats (s : State) (l : List Instr) : (s.sched l).stats = s.stats := rfl
@[simp] theorem state_sched_lostEv (s : State) (l : List Instr) : (s.sched l).lostEv = s.lostEv := rfl
@[simp] theorem state_sched_ovf (s : State) (l : List Instr) : (s.sched l).ovf = s.ovf := rfl
@[simp] theorem state_sched_ovfHead (s : State) (l : List Instr) : (s.sched l).ovfHead = s.ovfHead := rfl
@[simp] theorem state_sched_decs (s : State) (l : List Instr) : (s.sched l).decs = s.decs := rfl
@[simp] theorem state_sched_tokens (s : State) (l : List Instr) : (s.sched l).tokens = s.tokens := rfl
@[simp] theorem state_sched_dicts (s : State) (l : List Instr) : (s.sched l).dicts = s.dicts := rfl
@[simp] theorem state_sched_segs (s : State) (l : List Instr) : (s.sched l).segs = s.segs := rfl
@[simp] theorem state_sched_pending (s : State) (l : List Instr) : (s.sched l).pending = s.pending := rfl
@[simp] theorem state_sched_classes (s : State) (l : List Instr) : (s.sched l).classes = s.classes := rfl
@[simp] theorem state_sched_ptrs (s : State) (l : List Instr) : (s.sched l).ptrs = s.ptrs := rfl
@[simp] theorem state_sched_quads (s : State) (l : List Instr) : (s.sched l).quads = s.quads := rfl
@[simp] theorem state_sched_inrush (s : State) (l : List Instr) : (s.sched l).inrush = s.inrush := rfl
@[simp] theorem state_sched_inrushAt (s : State) (l : List Instr) : (s.sched l).inrushAt = s.inrushAt := rfl
@[simp] theorem state_sched_throttle (s : State) (l : List Instr) : (s.sched l).throttle = s.throttle := rfl
@[simp] theorem state_sched_alarms (s : State) (l : List Instr) : (s.sched l).alarms = s.alarms := rfl
@[simp] theorem state_sched_bridge (s : State) (l : List Instr) : (s.sched l).bridge = s.bridge := rfl
@[simp] theorem state_sched_podLanes (s : State) (l : List Instr) : (s.sched l).podLanes = s.podLanes := rfl
@[simp] theorem state_sched_podMask (s : State) (l : List Instr) : (s.sched l).podMask = s.podMask := rfl
@[simp] theorem state_sched_bootstat (s : State) (l : List Instr) : (s.sched l).bootstat = s.bootstat := rfl
@[simp] theorem state_sched_ident (s : State) (l : List Instr) : (s.sched l).ident = s.ident := rfl
@[simp] theorem state_sched_winbase (s : State) (l : List Instr) : (s.sched l).winbase = s.winbase := rfl
@[simp] theorem state_sched_degrade (s : State) (l : List Instr) : (s.sched l).degrade = s.degrade := rfl
@[simp] theorem state_sched_lqs (s : State) (l : List Instr) : (s.sched l).lqs = s.lqs := rfl
@[simp] theorem state_sched_vectors (s : State) (l : List Instr) : (s.sched l).vectors = s.vectors := rfl
@[simp] theorem state_sched_svcBase (s : State) (l : List Instr) : (s.sched l).svcBase = s.svcBase := rfl
@[simp] theorem state_sched_svcCount (s : State) (l : List Instr) : (s.sched l).svcCount = s.svcCount := rfl
@[simp] theorem state_sched_svcHead (s : State) (l : List Instr) : (s.sched l).svcHead = s.svcHead := rfl
@[simp] theorem state_sched_svcTail (s : State) (l : List Instr) : (s.sched l).svcTail = s.svcTail := rfl
@[simp] theorem state_sched_svcHeld (s : State) (l : List Instr) : (s.sched l).svcHeld = s.svcHeld := rfl
@[simp] theorem state_sched_resumeReg (s : State) (l : List Instr) : (s.sched l).resumeReg = s.resumeReg := rfl
@[simp] theorem state_sched_cancelReg (s : State) (l : List Instr) : (s.sched l).cancelReg = s.cancelReg := rfl
@[simp] theorem state_sched_thrhold (s : State) (l : List Instr) : (s.sched l).thrhold = s.thrhold := rfl
@[simp] theorem state_sched_curlim (s : State) (l : List Instr) : (s.sched l).curlim = s.curlim := rfl
@[simp] theorem state_sched_drooplim (s : State) (l : List Instr) : (s.sched l).drooplim = s.drooplim := rfl
@[simp] theorem state_sched_templim (s : State) (l : List Instr) : (s.sched l).templim = s.templim := rfl
@[simp] theorem state_sched_almcount (s : State) (l : List Instr) : (s.sched l).almcount = s.almcount := rfl
@[simp] theorem state_sched_perfsel (s : State) (l : List Instr) : (s.sched l).perfsel = s.perfsel := rfl
@[simp] theorem state_sched_dbgTarget (s : State) (l : List Instr) : (s.sched l).dbgTarget = s.dbgTarget := rfl
@[simp] theorem state_sched_dbgCmd (s : State) (l : List Instr) : (s.sched l).dbgCmd = s.dbgCmd := rfl
@[simp] theorem state_sched_dbg (s : State) (l : List Instr) : (s.sched l).dbg = s.dbg := rfl
@[simp] theorem state_sched_mailbox (s : State) (l : List Instr) : (s.sched l).mailbox = s.mailbox := rfl
@[simp] theorem state_sched_attest (s : State) (l : List Instr) : (s.sched l).attest = s.attest := rfl
@[simp] theorem state_sched_msix (s : State) (l : List Instr) : (s.sched l).msix = s.msix := rfl
@[simp] theorem state_sched_hostData (s : State) (l : List Instr) : (s.sched l).hostData = s.hostData := rfl
@[simp] theorem state_sched_pushWait (s : State) (l : List Instr) : (s.sched l).pushWait = s.pushWait := rfl
@[simp] theorem state_sched_bootCount (s : State) (l : List Instr) : (s.sched l).bootCount = s.bootCount := rfl
@[simp] theorem state_sched_board (s : State) (l : List Instr) : (s.sched l).board = s.board := rfl
@[simp] theorem state_sched_bootAt (s : State) (l : List Instr) : (s.sched l).bootAt = s.bootAt := rfl
@[simp] theorem state_sched_hostWrites (s : State) (l : List Instr) : (s.sched l).hostWrites = s.hostWrites := rfl
@[simp] theorem state_sched_badL2 (s : State) (l : List Instr) : (s.sched l).badL2 = s.badL2 := rfl
@[simp] theorem state_sched_past (s : State) (l : List Instr) : (s.sched l).past = s.past := rfl
@[simp] theorem state_sched_msixTab (s : State) (l : List Instr) : (s.sched l).msixTab = s.msixTab := rfl
@[simp] theorem state_sched_msixPend (s : State) (l : List Instr) : (s.sched l).msixPend = s.msixPend := rfl
@[simp] theorem state_raiseMsix_now (s : State) (v : Nat) : (s.raiseMsix v).now = s.now := rfl
@[simp] theorem state_raiseMsix_agenda (s : State) (v : Nat) : (s.raiseMsix v).agenda = s.agenda := rfl
@[simp] theorem state_raiseMsix_inputs (s : State) (v : Nat) : (s.raiseMsix v).inputs = s.inputs := rfl
@[simp] theorem state_raiseMsix_cur (s : State) (v : Nat) : (s.raiseMsix v).cur = s.cur := rfl
@[simp] theorem state_raiseMsix_free (s : State) (v : Nat) : (s.raiseMsix v).free = s.free := rfl
@[simp] theorem state_raiseMsix_fresh (s : State) (v : Nat) : (s.raiseMsix v).fresh = s.fresh := rfl
@[simp] theorem state_raiseMsix_cores (s : State) (v : Nat) : (s.raiseMsix v).cores = s.cores := rfl
@[simp] theorem state_raiseMsix_mem (s : State) (v : Nat) : (s.raiseMsix v).mem = s.mem := rfl
@[simp] theorem state_raiseMsix_badMem (s : State) (v : Nat) : (s.raiseMsix v).badMem = s.badMem := rfl
@[simp] theorem state_raiseMsix_hostL2 (s : State) (v : Nat) : (s.raiseMsix v).hostL2 = s.hostL2 := rfl
@[simp] theorem state_raiseMsix_exact (s : State) (v : Nat) : (s.raiseMsix v).exact = s.exact := rfl
@[simp] theorem state_raiseMsix_dieTlb (s : State) (v : Nat) : (s.raiseMsix v).dieTlb = s.dieTlb := rfl
@[simp] theorem state_raiseMsix_dieTab (s : State) (v : Nat) : (s.raiseMsix v).dieTab = s.dieTab := rfl
@[simp] theorem state_raiseMsix_walks (s : State) (v : Nat) : (s.raiseMsix v).walks = s.walks := rfl
@[simp] theorem state_raiseMsix_launches (s : State) (v : Nat) : (s.raiseMsix v).launches = s.launches := rfl
@[simp] theorem state_raiseMsix_weaves (s : State) (v : Nat) : (s.raiseMsix v).weaves = s.weaves := rfl
@[simp] theorem state_raiseMsix_nets (s : State) (v : Nat) : (s.raiseMsix v).nets = s.nets := rfl
@[simp] theorem state_raiseMsix_raises (s : State) (v : Nat) : (s.raiseMsix v).raises = s.raises := rfl
@[simp] theorem state_raiseMsix_sortQ (s : State) (v : Nat) : (s.raiseMsix v).sortQ = s.sortQ := rfl
@[simp] theorem state_raiseMsix_sortPage (s : State) (v : Nat) : (s.raiseMsix v).sortPage = s.sortPage := rfl
@[simp] theorem state_raiseMsix_sortPos (s : State) (v : Nat) : (s.raiseMsix v).sortPos = s.sortPos := rfl
@[simp] theorem state_raiseMsix_orders (s : State) (v : Nat) : (s.raiseMsix v).orders = s.orders := rfl
@[simp] theorem state_raiseMsix_govs (s : State) (v : Nat) : (s.raiseMsix v).govs = s.govs := rfl
@[simp] theorem state_raiseMsix_stats (s : State) (v : Nat) : (s.raiseMsix v).stats = s.stats := rfl
@[simp] theorem state_raiseMsix_lostEv (s : State) (v : Nat) : (s.raiseMsix v).lostEv = s.lostEv := rfl
@[simp] theorem state_raiseMsix_ovf (s : State) (v : Nat) : (s.raiseMsix v).ovf = s.ovf := rfl
@[simp] theorem state_raiseMsix_ovfHead (s : State) (v : Nat) : (s.raiseMsix v).ovfHead = s.ovfHead := rfl
@[simp] theorem state_raiseMsix_decs (s : State) (v : Nat) : (s.raiseMsix v).decs = s.decs := rfl
@[simp] theorem state_raiseMsix_tokens (s : State) (v : Nat) : (s.raiseMsix v).tokens = s.tokens := rfl
@[simp] theorem state_raiseMsix_dicts (s : State) (v : Nat) : (s.raiseMsix v).dicts = s.dicts := rfl
@[simp] theorem state_raiseMsix_segs (s : State) (v : Nat) : (s.raiseMsix v).segs = s.segs := rfl
@[simp] theorem state_raiseMsix_pending (s : State) (v : Nat) : (s.raiseMsix v).pending = s.pending := rfl
@[simp] theorem state_raiseMsix_classes (s : State) (v : Nat) : (s.raiseMsix v).classes = s.classes := rfl
@[simp] theorem state_raiseMsix_ptrs (s : State) (v : Nat) : (s.raiseMsix v).ptrs = s.ptrs := rfl
@[simp] theorem state_raiseMsix_quads (s : State) (v : Nat) : (s.raiseMsix v).quads = s.quads := rfl
@[simp] theorem state_raiseMsix_inrush (s : State) (v : Nat) : (s.raiseMsix v).inrush = s.inrush := rfl
@[simp] theorem state_raiseMsix_inrushAt (s : State) (v : Nat) : (s.raiseMsix v).inrushAt = s.inrushAt := rfl
@[simp] theorem state_raiseMsix_throttle (s : State) (v : Nat) : (s.raiseMsix v).throttle = s.throttle := rfl
@[simp] theorem state_raiseMsix_alarms (s : State) (v : Nat) : (s.raiseMsix v).alarms = s.alarms := rfl
@[simp] theorem state_raiseMsix_bridge (s : State) (v : Nat) : (s.raiseMsix v).bridge = s.bridge := rfl
@[simp] theorem state_raiseMsix_podLanes (s : State) (v : Nat) : (s.raiseMsix v).podLanes = s.podLanes := rfl
@[simp] theorem state_raiseMsix_podMask (s : State) (v : Nat) : (s.raiseMsix v).podMask = s.podMask := rfl
@[simp] theorem state_raiseMsix_bootstat (s : State) (v : Nat) : (s.raiseMsix v).bootstat = s.bootstat := rfl
@[simp] theorem state_raiseMsix_ident (s : State) (v : Nat) : (s.raiseMsix v).ident = s.ident := rfl
@[simp] theorem state_raiseMsix_winbase (s : State) (v : Nat) : (s.raiseMsix v).winbase = s.winbase := rfl
@[simp] theorem state_raiseMsix_degrade (s : State) (v : Nat) : (s.raiseMsix v).degrade = s.degrade := rfl
@[simp] theorem state_raiseMsix_lqs (s : State) (v : Nat) : (s.raiseMsix v).lqs = s.lqs := rfl
@[simp] theorem state_raiseMsix_vectors (s : State) (v : Nat) : (s.raiseMsix v).vectors = s.vectors := rfl
@[simp] theorem state_raiseMsix_svcBase (s : State) (v : Nat) : (s.raiseMsix v).svcBase = s.svcBase := rfl
@[simp] theorem state_raiseMsix_svcCount (s : State) (v : Nat) : (s.raiseMsix v).svcCount = s.svcCount := rfl
@[simp] theorem state_raiseMsix_svcHead (s : State) (v : Nat) : (s.raiseMsix v).svcHead = s.svcHead := rfl
@[simp] theorem state_raiseMsix_svcTail (s : State) (v : Nat) : (s.raiseMsix v).svcTail = s.svcTail := rfl
@[simp] theorem state_raiseMsix_svcHeld (s : State) (v : Nat) : (s.raiseMsix v).svcHeld = s.svcHeld := rfl
@[simp] theorem state_raiseMsix_resumeReg (s : State) (v : Nat) : (s.raiseMsix v).resumeReg = s.resumeReg := rfl
@[simp] theorem state_raiseMsix_cancelReg (s : State) (v : Nat) : (s.raiseMsix v).cancelReg = s.cancelReg := rfl
@[simp] theorem state_raiseMsix_thrhold (s : State) (v : Nat) : (s.raiseMsix v).thrhold = s.thrhold := rfl
@[simp] theorem state_raiseMsix_curlim (s : State) (v : Nat) : (s.raiseMsix v).curlim = s.curlim := rfl
@[simp] theorem state_raiseMsix_drooplim (s : State) (v : Nat) : (s.raiseMsix v).drooplim = s.drooplim := rfl
@[simp] theorem state_raiseMsix_templim (s : State) (v : Nat) : (s.raiseMsix v).templim = s.templim := rfl
@[simp] theorem state_raiseMsix_almcount (s : State) (v : Nat) : (s.raiseMsix v).almcount = s.almcount := rfl
@[simp] theorem state_raiseMsix_perfsel (s : State) (v : Nat) : (s.raiseMsix v).perfsel = s.perfsel := rfl
@[simp] theorem state_raiseMsix_dbgTarget (s : State) (v : Nat) : (s.raiseMsix v).dbgTarget = s.dbgTarget := rfl
@[simp] theorem state_raiseMsix_dbgCmd (s : State) (v : Nat) : (s.raiseMsix v).dbgCmd = s.dbgCmd := rfl
@[simp] theorem state_raiseMsix_dbg (s : State) (v : Nat) : (s.raiseMsix v).dbg = s.dbg := rfl
@[simp] theorem state_raiseMsix_mailbox (s : State) (v : Nat) : (s.raiseMsix v).mailbox = s.mailbox := rfl
@[simp] theorem state_raiseMsix_attest (s : State) (v : Nat) : (s.raiseMsix v).attest = s.attest := rfl
@[simp] theorem state_raiseMsix_hostData (s : State) (v : Nat) : (s.raiseMsix v).hostData = s.hostData := rfl
@[simp] theorem state_raiseMsix_pushWait (s : State) (v : Nat) : (s.raiseMsix v).pushWait = s.pushWait := rfl
@[simp] theorem state_raiseMsix_bootCount (s : State) (v : Nat) : (s.raiseMsix v).bootCount = s.bootCount := rfl
@[simp] theorem state_raiseMsix_board (s : State) (v : Nat) : (s.raiseMsix v).board = s.board := rfl
@[simp] theorem state_raiseMsix_bootAt (s : State) (v : Nat) : (s.raiseMsix v).bootAt = s.bootAt := rfl
@[simp] theorem state_raiseMsix_hostWrites (s : State) (v : Nat) : (s.raiseMsix v).hostWrites = s.hostWrites := rfl
@[simp] theorem state_raiseMsix_badL2 (s : State) (v : Nat) : (s.raiseMsix v).badL2 = s.badL2 := rfl
@[simp] theorem state_raiseMsix_past (s : State) (v : Nat) : (s.raiseMsix v).past = s.past := rfl
@[simp] theorem state_raiseMsix_msixTab (s : State) (v : Nat) : (s.raiseMsix v).msixTab = s.msixTab := rfl
@[simp] theorem state_putByte_now (s : State) (pa : Nat) (v : Byte) : (s.putByte pa v).now = s.now := rfl
@[simp] theorem state_putByte_agenda (s : State) (pa : Nat) (v : Byte) : (s.putByte pa v).agenda = s.agenda := rfl
@[simp] theorem state_putByte_inputs (s : State) (pa : Nat) (v : Byte) : (s.putByte pa v).inputs = s.inputs := rfl
@[simp] theorem state_putByte_cur (s : State) (pa : Nat) (v : Byte) : (s.putByte pa v).cur = s.cur := rfl
@[simp] theorem state_putByte_free (s : State) (pa : Nat) (v : Byte) : (s.putByte pa v).free = s.free := rfl
@[simp] theorem state_putByte_fresh (s : State) (pa : Nat) (v : Byte) : (s.putByte pa v).fresh = s.fresh := rfl
@[simp] theorem state_putByte_cores (s : State) (pa : Nat) (v : Byte) : (s.putByte pa v).cores = s.cores := rfl
@[simp] theorem state_putByte_badMem (s : State) (pa : Nat) (v : Byte) : (s.putByte pa v).badMem = s.badMem := rfl
@[simp] theorem state_putByte_hostL2 (s : State) (pa : Nat) (v : Byte) : (s.putByte pa v).hostL2 = s.hostL2 := rfl
@[simp] theorem state_putByte_exact (s : State) (pa : Nat) (v : Byte) : (s.putByte pa v).exact = s.exact := rfl
@[simp] theorem state_putByte_dieTlb (s : State) (pa : Nat) (v : Byte) : (s.putByte pa v).dieTlb = s.dieTlb := rfl
@[simp] theorem state_putByte_dieTab (s : State) (pa : Nat) (v : Byte) : (s.putByte pa v).dieTab = s.dieTab := rfl
@[simp] theorem state_putByte_walks (s : State) (pa : Nat) (v : Byte) : (s.putByte pa v).walks = s.walks := rfl
@[simp] theorem state_putByte_launches (s : State) (pa : Nat) (v : Byte) : (s.putByte pa v).launches = s.launches := rfl
@[simp] theorem state_putByte_weaves (s : State) (pa : Nat) (v : Byte) : (s.putByte pa v).weaves = s.weaves := rfl
@[simp] theorem state_putByte_nets (s : State) (pa : Nat) (v : Byte) : (s.putByte pa v).nets = s.nets := rfl
@[simp] theorem state_putByte_raises (s : State) (pa : Nat) (v : Byte) : (s.putByte pa v).raises = s.raises := rfl
@[simp] theorem state_putByte_sortQ (s : State) (pa : Nat) (v : Byte) : (s.putByte pa v).sortQ = s.sortQ := rfl
@[simp] theorem state_putByte_sortPage (s : State) (pa : Nat) (v : Byte) : (s.putByte pa v).sortPage = s.sortPage := rfl
@[simp] theorem state_putByte_sortPos (s : State) (pa : Nat) (v : Byte) : (s.putByte pa v).sortPos = s.sortPos := rfl
@[simp] theorem state_putByte_orders (s : State) (pa : Nat) (v : Byte) : (s.putByte pa v).orders = s.orders := rfl
@[simp] theorem state_putByte_govs (s : State) (pa : Nat) (v : Byte) : (s.putByte pa v).govs = s.govs := rfl
@[simp] theorem state_putByte_stats (s : State) (pa : Nat) (v : Byte) : (s.putByte pa v).stats = s.stats := rfl
@[simp] theorem state_putByte_lostEv (s : State) (pa : Nat) (v : Byte) : (s.putByte pa v).lostEv = s.lostEv := rfl
@[simp] theorem state_putByte_ovf (s : State) (pa : Nat) (v : Byte) : (s.putByte pa v).ovf = s.ovf := rfl
@[simp] theorem state_putByte_ovfHead (s : State) (pa : Nat) (v : Byte) : (s.putByte pa v).ovfHead = s.ovfHead := rfl
@[simp] theorem state_putByte_decs (s : State) (pa : Nat) (v : Byte) : (s.putByte pa v).decs = s.decs := rfl
@[simp] theorem state_putByte_tokens (s : State) (pa : Nat) (v : Byte) : (s.putByte pa v).tokens = s.tokens := rfl
@[simp] theorem state_putByte_dicts (s : State) (pa : Nat) (v : Byte) : (s.putByte pa v).dicts = s.dicts := rfl
@[simp] theorem state_putByte_segs (s : State) (pa : Nat) (v : Byte) : (s.putByte pa v).segs = s.segs := rfl
@[simp] theorem state_putByte_pending (s : State) (pa : Nat) (v : Byte) : (s.putByte pa v).pending = s.pending := rfl
@[simp] theorem state_putByte_classes (s : State) (pa : Nat) (v : Byte) : (s.putByte pa v).classes = s.classes := rfl
@[simp] theorem state_putByte_ptrs (s : State) (pa : Nat) (v : Byte) : (s.putByte pa v).ptrs = s.ptrs := rfl
@[simp] theorem state_putByte_quads (s : State) (pa : Nat) (v : Byte) : (s.putByte pa v).quads = s.quads := rfl
@[simp] theorem state_putByte_inrush (s : State) (pa : Nat) (v : Byte) : (s.putByte pa v).inrush = s.inrush := rfl
@[simp] theorem state_putByte_inrushAt (s : State) (pa : Nat) (v : Byte) : (s.putByte pa v).inrushAt = s.inrushAt := rfl
@[simp] theorem state_putByte_throttle (s : State) (pa : Nat) (v : Byte) : (s.putByte pa v).throttle = s.throttle := rfl
@[simp] theorem state_putByte_alarms (s : State) (pa : Nat) (v : Byte) : (s.putByte pa v).alarms = s.alarms := rfl
@[simp] theorem state_putByte_bridge (s : State) (pa : Nat) (v : Byte) : (s.putByte pa v).bridge = s.bridge := rfl
@[simp] theorem state_putByte_podLanes (s : State) (pa : Nat) (v : Byte) : (s.putByte pa v).podLanes = s.podLanes := rfl
@[simp] theorem state_putByte_podMask (s : State) (pa : Nat) (v : Byte) : (s.putByte pa v).podMask = s.podMask := rfl
@[simp] theorem state_putByte_bootstat (s : State) (pa : Nat) (v : Byte) : (s.putByte pa v).bootstat = s.bootstat := rfl
@[simp] theorem state_putByte_ident (s : State) (pa : Nat) (v : Byte) : (s.putByte pa v).ident = s.ident := rfl
@[simp] theorem state_putByte_winbase (s : State) (pa : Nat) (v : Byte) : (s.putByte pa v).winbase = s.winbase := rfl
@[simp] theorem state_putByte_degrade (s : State) (pa : Nat) (v : Byte) : (s.putByte pa v).degrade = s.degrade := rfl
@[simp] theorem state_putByte_lqs (s : State) (pa : Nat) (v : Byte) : (s.putByte pa v).lqs = s.lqs := rfl
@[simp] theorem state_putByte_vectors (s : State) (pa : Nat) (v : Byte) : (s.putByte pa v).vectors = s.vectors := rfl
@[simp] theorem state_putByte_svcBase (s : State) (pa : Nat) (v : Byte) : (s.putByte pa v).svcBase = s.svcBase := rfl
@[simp] theorem state_putByte_svcCount (s : State) (pa : Nat) (v : Byte) : (s.putByte pa v).svcCount = s.svcCount := rfl
@[simp] theorem state_putByte_svcHead (s : State) (pa : Nat) (v : Byte) : (s.putByte pa v).svcHead = s.svcHead := rfl
@[simp] theorem state_putByte_svcTail (s : State) (pa : Nat) (v : Byte) : (s.putByte pa v).svcTail = s.svcTail := rfl
@[simp] theorem state_putByte_svcHeld (s : State) (pa : Nat) (v : Byte) : (s.putByte pa v).svcHeld = s.svcHeld := rfl
@[simp] theorem state_putByte_resumeReg (s : State) (pa : Nat) (v : Byte) : (s.putByte pa v).resumeReg = s.resumeReg := rfl
@[simp] theorem state_putByte_cancelReg (s : State) (pa : Nat) (v : Byte) : (s.putByte pa v).cancelReg = s.cancelReg := rfl
@[simp] theorem state_putByte_thrhold (s : State) (pa : Nat) (v : Byte) : (s.putByte pa v).thrhold = s.thrhold := rfl
@[simp] theorem state_putByte_curlim (s : State) (pa : Nat) (v : Byte) : (s.putByte pa v).curlim = s.curlim := rfl
@[simp] theorem state_putByte_drooplim (s : State) (pa : Nat) (v : Byte) : (s.putByte pa v).drooplim = s.drooplim := rfl
@[simp] theorem state_putByte_templim (s : State) (pa : Nat) (v : Byte) : (s.putByte pa v).templim = s.templim := rfl
@[simp] theorem state_putByte_almcount (s : State) (pa : Nat) (v : Byte) : (s.putByte pa v).almcount = s.almcount := rfl
@[simp] theorem state_putByte_perfsel (s : State) (pa : Nat) (v : Byte) : (s.putByte pa v).perfsel = s.perfsel := rfl
@[simp] theorem state_putByte_dbgTarget (s : State) (pa : Nat) (v : Byte) : (s.putByte pa v).dbgTarget = s.dbgTarget := rfl
@[simp] theorem state_putByte_dbgCmd (s : State) (pa : Nat) (v : Byte) : (s.putByte pa v).dbgCmd = s.dbgCmd := rfl
@[simp] theorem state_putByte_dbg (s : State) (pa : Nat) (v : Byte) : (s.putByte pa v).dbg = s.dbg := rfl
@[simp] theorem state_putByte_mailbox (s : State) (pa : Nat) (v : Byte) : (s.putByte pa v).mailbox = s.mailbox := rfl
@[simp] theorem state_putByte_attest (s : State) (pa : Nat) (v : Byte) : (s.putByte pa v).attest = s.attest := rfl
@[simp] theorem state_putByte_msix (s : State) (pa : Nat) (v : Byte) : (s.putByte pa v).msix = s.msix := rfl
@[simp] theorem state_putByte_hostData (s : State) (pa : Nat) (v : Byte) : (s.putByte pa v).hostData = s.hostData := rfl
@[simp] theorem state_putByte_pushWait (s : State) (pa : Nat) (v : Byte) : (s.putByte pa v).pushWait = s.pushWait := rfl
@[simp] theorem state_putByte_bootCount (s : State) (pa : Nat) (v : Byte) : (s.putByte pa v).bootCount = s.bootCount := rfl
@[simp] theorem state_putByte_board (s : State) (pa : Nat) (v : Byte) : (s.putByte pa v).board = s.board := rfl
@[simp] theorem state_putByte_bootAt (s : State) (pa : Nat) (v : Byte) : (s.putByte pa v).bootAt = s.bootAt := rfl
@[simp] theorem state_putByte_hostWrites (s : State) (pa : Nat) (v : Byte) : (s.putByte pa v).hostWrites = s.hostWrites := rfl
@[simp] theorem state_putByte_badL2 (s : State) (pa : Nat) (v : Byte) : (s.putByte pa v).badL2 = s.badL2 := rfl
@[simp] theorem state_putByte_past (s : State) (pa : Nat) (v : Byte) : (s.putByte pa v).past = s.past := rfl
@[simp] theorem state_putByte_msixTab (s : State) (pa : Nat) (v : Byte) : (s.putByte pa v).msixTab = s.msixTab := rfl
@[simp] theorem state_putByte_msixPend (s : State) (pa : Nat) (v : Byte) : (s.putByte pa v).msixPend = s.msixPend := rfl
@[simp] theorem state_service_now (s : State) (e : Service) : (s.service e).now = s.now := rfl
@[simp] theorem state_service_inputs (s : State) (e : Service) : (s.service e).inputs = s.inputs := rfl
@[simp] theorem state_service_cur (s : State) (e : Service) : (s.service e).cur = s.cur := rfl
@[simp] theorem state_service_free (s : State) (e : Service) : (s.service e).free = s.free := rfl
@[simp] theorem state_service_fresh (s : State) (e : Service) : (s.service e).fresh = s.fresh := rfl
@[simp] theorem state_service_cores (s : State) (e : Service) : (s.service e).cores = s.cores := rfl
@[simp] theorem state_service_mem (s : State) (e : Service) : (s.service e).mem = s.mem := rfl
@[simp] theorem state_service_badMem (s : State) (e : Service) : (s.service e).badMem = s.badMem := rfl
@[simp] theorem state_service_hostL2 (s : State) (e : Service) : (s.service e).hostL2 = s.hostL2 := rfl
@[simp] theorem state_service_exact (s : State) (e : Service) : (s.service e).exact = s.exact := rfl
@[simp] theorem state_service_dieTlb (s : State) (e : Service) : (s.service e).dieTlb = s.dieTlb := rfl
@[simp] theorem state_service_dieTab (s : State) (e : Service) : (s.service e).dieTab = s.dieTab := rfl
@[simp] theorem state_service_walks (s : State) (e : Service) : (s.service e).walks = s.walks := rfl
@[simp] theorem state_service_launches (s : State) (e : Service) : (s.service e).launches = s.launches := rfl
@[simp] theorem state_service_weaves (s : State) (e : Service) : (s.service e).weaves = s.weaves := rfl
@[simp] theorem state_service_nets (s : State) (e : Service) : (s.service e).nets = s.nets := rfl
@[simp] theorem state_service_raises (s : State) (e : Service) : (s.service e).raises = s.raises := rfl
@[simp] theorem state_service_sortQ (s : State) (e : Service) : (s.service e).sortQ = s.sortQ := rfl
@[simp] theorem state_service_sortPage (s : State) (e : Service) : (s.service e).sortPage = s.sortPage := rfl
@[simp] theorem state_service_sortPos (s : State) (e : Service) : (s.service e).sortPos = s.sortPos := rfl
@[simp] theorem state_service_orders (s : State) (e : Service) : (s.service e).orders = s.orders := rfl
@[simp] theorem state_service_govs (s : State) (e : Service) : (s.service e).govs = s.govs := rfl
@[simp] theorem state_service_stats (s : State) (e : Service) : (s.service e).stats = s.stats := rfl
@[simp] theorem state_service_lostEv (s : State) (e : Service) : (s.service e).lostEv = s.lostEv := rfl
@[simp] theorem state_service_ovf (s : State) (e : Service) : (s.service e).ovf = s.ovf := rfl
@[simp] theorem state_service_ovfHead (s : State) (e : Service) : (s.service e).ovfHead = s.ovfHead := rfl
@[simp] theorem state_service_decs (s : State) (e : Service) : (s.service e).decs = s.decs := rfl
@[simp] theorem state_service_tokens (s : State) (e : Service) : (s.service e).tokens = s.tokens := rfl
@[simp] theorem state_service_dicts (s : State) (e : Service) : (s.service e).dicts = s.dicts := rfl
@[simp] theorem state_service_segs (s : State) (e : Service) : (s.service e).segs = s.segs := rfl
@[simp] theorem state_service_pending (s : State) (e : Service) : (s.service e).pending = s.pending := rfl
@[simp] theorem state_service_classes (s : State) (e : Service) : (s.service e).classes = s.classes := rfl
@[simp] theorem state_service_ptrs (s : State) (e : Service) : (s.service e).ptrs = s.ptrs := rfl
@[simp] theorem state_service_quads (s : State) (e : Service) : (s.service e).quads = s.quads := rfl
@[simp] theorem state_service_inrush (s : State) (e : Service) : (s.service e).inrush = s.inrush := rfl
@[simp] theorem state_service_inrushAt (s : State) (e : Service) : (s.service e).inrushAt = s.inrushAt := rfl
@[simp] theorem state_service_throttle (s : State) (e : Service) : (s.service e).throttle = s.throttle := rfl
@[simp] theorem state_service_alarms (s : State) (e : Service) : (s.service e).alarms = s.alarms := rfl
@[simp] theorem state_service_bridge (s : State) (e : Service) : (s.service e).bridge = s.bridge := rfl
@[simp] theorem state_service_podLanes (s : State) (e : Service) : (s.service e).podLanes = s.podLanes := rfl
@[simp] theorem state_service_podMask (s : State) (e : Service) : (s.service e).podMask = s.podMask := rfl
@[simp] theorem state_service_bootstat (s : State) (e : Service) : (s.service e).bootstat = s.bootstat := rfl
@[simp] theorem state_service_ident (s : State) (e : Service) : (s.service e).ident = s.ident := rfl
@[simp] theorem state_service_winbase (s : State) (e : Service) : (s.service e).winbase = s.winbase := rfl
@[simp] theorem state_service_degrade (s : State) (e : Service) : (s.service e).degrade = s.degrade := rfl
@[simp] theorem state_service_lqs (s : State) (e : Service) : (s.service e).lqs = s.lqs := rfl
@[simp] theorem state_service_vectors (s : State) (e : Service) : (s.service e).vectors = s.vectors := rfl
@[simp] theorem state_service_svcBase (s : State) (e : Service) : (s.service e).svcBase = s.svcBase := rfl
@[simp] theorem state_service_svcCount (s : State) (e : Service) : (s.service e).svcCount = s.svcCount := rfl
@[simp] theorem state_service_svcHead (s : State) (e : Service) : (s.service e).svcHead = s.svcHead := rfl
@[simp] theorem state_service_svcTail (s : State) (e : Service) : (s.service e).svcTail = s.svcTail := rfl
@[simp] theorem state_service_resumeReg (s : State) (e : Service) : (s.service e).resumeReg = s.resumeReg := rfl
@[simp] theorem state_service_cancelReg (s : State) (e : Service) : (s.service e).cancelReg = s.cancelReg := rfl
@[simp] theorem state_service_thrhold (s : State) (e : Service) : (s.service e).thrhold = s.thrhold := rfl
@[simp] theorem state_service_curlim (s : State) (e : Service) : (s.service e).curlim = s.curlim := rfl
@[simp] theorem state_service_drooplim (s : State) (e : Service) : (s.service e).drooplim = s.drooplim := rfl
@[simp] theorem state_service_templim (s : State) (e : Service) : (s.service e).templim = s.templim := rfl
@[simp] theorem state_service_almcount (s : State) (e : Service) : (s.service e).almcount = s.almcount := rfl
@[simp] theorem state_service_perfsel (s : State) (e : Service) : (s.service e).perfsel = s.perfsel := rfl
@[simp] theorem state_service_dbgTarget (s : State) (e : Service) : (s.service e).dbgTarget = s.dbgTarget := rfl
@[simp] theorem state_service_dbgCmd (s : State) (e : Service) : (s.service e).dbgCmd = s.dbgCmd := rfl
@[simp] theorem state_service_dbg (s : State) (e : Service) : (s.service e).dbg = s.dbg := rfl
@[simp] theorem state_service_mailbox (s : State) (e : Service) : (s.service e).mailbox = s.mailbox := rfl
@[simp] theorem state_service_attest (s : State) (e : Service) : (s.service e).attest = s.attest := rfl
@[simp] theorem state_service_msix (s : State) (e : Service) : (s.service e).msix = s.msix := rfl
@[simp] theorem state_service_hostData (s : State) (e : Service) : (s.service e).hostData = s.hostData := rfl
@[simp] theorem state_service_pushWait (s : State) (e : Service) : (s.service e).pushWait = s.pushWait := rfl
@[simp] theorem state_service_bootCount (s : State) (e : Service) : (s.service e).bootCount = s.bootCount := rfl
@[simp] theorem state_service_board (s : State) (e : Service) : (s.service e).board = s.board := rfl
@[simp] theorem state_service_bootAt (s : State) (e : Service) : (s.service e).bootAt = s.bootAt := rfl
@[simp] theorem state_service_hostWrites (s : State) (e : Service) : (s.service e).hostWrites = s.hostWrites := rfl
@[simp] theorem state_service_badL2 (s : State) (e : Service) : (s.service e).badL2 = s.badL2 := rfl
@[simp] theorem state_service_past (s : State) (e : Service) : (s.service e).past = s.past := rfl
@[simp] theorem state_service_msixTab (s : State) (e : Service) : (s.service e).msixTab = s.msixTab := rfl
@[simp] theorem state_service_msixPend (s : State) (e : Service) : (s.service e).msixPend = s.msixPend := rfl
@[simp] theorem core_modGroup_clk (s : Core) (g : Nat) (f : Group → Group) : (s.modGroup g f).clk = s.clk := rfl
@[simp] theorem core_modGroup_pclk (s : Core) (g : Nat) (f : Group → Group) : (s.modGroup g f).pclk = s.pclk := rfl
@[simp] theorem core_modGroup_eclk (s : Core) (g : Nat) (f : Group → Group) : (s.modGroup g f).eclk = s.eclk := rfl
@[simp] theorem core_modGroup_edge (s : Core) (g : Nat) (f : Group → Group) : (s.modGroup g f).edge = s.edge := rfl
@[simp] theorem core_modGroup_rr (s : Core) (g : Nat) (f : Group → Group) : (s.modGroup g f).rr = s.rr := rfl
@[simp] theorem core_modGroup_issued (s : Core) (g : Nat) (f : Group → Group) : (s.modGroup g f).issued = s.issued := rfl
@[simp] theorem core_modGroup_units (s : Core) (g : Nat) (f : Group → Group) : (s.modGroup g f).units = s.units := rfl
@[simp] theorem core_modGroup_inflight (s : Core) (g : Nat) (f : Group → Group) : (s.modGroup g f).inflight = s.inflight := rfl
@[simp] theorem core_modGroup_sectors (s : Core) (g : Nat) (f : Group → Group) : (s.modGroup g f).sectors = s.sectors := rfl
@[simp] theorem core_modGroup_scratch (s : Core) (g : Nat) (f : Group → Group) : (s.modGroup g f).scratch = s.scratch := rfl
@[simp] theorem core_modGroup_buf (s : Core) (g : Nat) (f : Group → Group) : (s.modGroup g f).buf = s.buf := rfl
@[simp] theorem core_modGroup_lines (s : Core) (g : Nat) (f : Group → Group) : (s.modGroup g f).lines = s.lines := rfl
@[simp] theorem core_modGroup_sems (s : Core) (g : Nat) (f : Group → Group) : (s.modGroup g f).sems = s.sems := rfl
@[simp] theorem core_modGroup_waiters (s : Core) (g : Nat) (f : Group → Group) : (s.modGroup g f).waiters = s.waiters := rfl
@[simp] theorem core_modGroup_chans (s : Core) (g : Nat) (f : Group → Group) : (s.modGroup g f).chans = s.chans := rfl
@[simp] theorem core_modGroup_tlb (s : Core) (g : Nat) (f : Group → Group) : (s.modGroup g f).tlb = s.tlb := rfl
@[simp] theorem core_modGroup_walkF (s : Core) (g : Nat) (f : Group → Group) : (s.modGroup g f).walkF = s.walkF := rfl
@[simp] theorem core_modGroup_dcache (s : Core) (g : Nat) (f : Group → Group) : (s.modGroup g f).dcache = s.dcache := rfl
@[simp] theorem core_modGroup_dwait (s : Core) (g : Nat) (f : Group → Group) : (s.modGroup g f).dwait = s.dwait := rfl
@[simp] theorem core_modGroup_arrayQ (s : Core) (g : Nat) (f : Group → Group) : (s.modGroup g f).arrayQ = s.arrayQ := rfl
@[simp] theorem core_modGroup_drainQ (s : Core) (g : Nat) (f : Group → Group) : (s.modGroup g f).drainQ = s.drainQ := rfl
@[simp] theorem core_modGroup_rotQ (s : Core) (g : Nat) (f : Group → Group) : (s.modGroup g f).rotQ = s.rotQ := rfl
@[simp] theorem core_modGroup_gfxQ (s : Core) (g : Nat) (f : Group → Group) : (s.modGroup g f).gfxQ = s.gfxQ := rfl
@[simp] theorem core_modGroup_arrayB (s : Core) (g : Nat) (f : Group → Group) : (s.modGroup g f).arrayB = s.arrayB := rfl
@[simp] theorem core_modGroup_drainB (s : Core) (g : Nat) (f : Group → Group) : (s.modGroup g f).drainB = s.drainB := rfl
@[simp] theorem core_modGroup_rotB (s : Core) (g : Nat) (f : Group → Group) : (s.modGroup g f).rotB = s.rotB := rfl
@[simp] theorem core_modGroup_lastMxld (s : Core) (g : Nat) (f : Group → Group) : (s.modGroup g f).lastMxld = s.lastMxld := rfl
@[simp] theorem core_modGroup_gather (s : Core) (g : Nat) (f : Group → Group) : (s.modGroup g f).gather = s.gather := rfl
@[simp] theorem core_modGroup_resv (s : Core) (g : Nat) (f : Group → Group) : (s.modGroup g f).resv = s.resv := rfl
@[simp] theorem core_modGroup_latch (s : Core) (g : Nat) (f : Group → Group) : (s.modGroup g f).latch = s.latch := rfl
@[simp] theorem core_modGroup_rot (s : Core) (g : Nat) (f : Group → Group) : (s.modGroup g f).rot = s.rot := rfl
@[simp] theorem core_modGroup_freeze (s : Core) (g : Nat) (f : Group → Group) : (s.modGroup g f).freeze = s.freeze := rfl
@[simp] theorem core_modGroup_frozen (s : Core) (g : Nat) (f : Group → Group) : (s.modGroup g f).frozen = s.frozen := rfl
@[simp] theorem core_modGroup_frozenClk (s : Core) (g : Nat) (f : Group → Group) : (s.modGroup g f).frozenClk = s.frozenClk := rfl
@[simp] theorem core_modGroup_energy (s : Core) (g : Nat) (f : Group → Group) : (s.modGroup g f).energy = s.energy := rfl
@[simp] theorem core_modGroup_esum (s : Core) (g : Nat) (f : Group → Group) : (s.modGroup g f).esum = s.esum := rfl
@[simp] theorem core_modGroup_carry (s : Core) (g : Nat) (f : Group → Group) : (s.modGroup g f).carry = s.carry := rfl
@[simp] theorem core_modGroup_wakes (s : Core) (g : Nat) (f : Group → Group) : (s.modGroup g f).wakes = s.wakes := rfl
@[simp] theorem core_modGroup_weight (s : Core) (g : Nat) (f : Group → Group) : (s.modGroup g f).weight = s.weight := rfl
@[simp] theorem core_modGroup_stalls (s : Core) (g : Nat) (f : Group → Group) : (s.modGroup g f).stalls = s.stalls := rfl
@[simp] theorem core_modGroup_replays (s : Core) (g : Nat) (f : Group → Group) : (s.modGroup g f).replays = s.replays := rfl
@[simp] theorem core_modGroup_redo (s : Core) (g : Nat) (f : Group → Group) : (s.modGroup g f).redo = s.redo := rfl
@[simp] theorem core_modGroup_replayLeft (s : Core) (g : Nat) (f : Group → Group) : (s.modGroup g f).replayLeft = s.replayLeft := rfl
@[simp] theorem core_modGroup_perf (s : Core) (g : Nat) (f : Group → Group) : (s.modGroup g f).perf = s.perf := rfl
@[simp] theorem core_modGroup_temp (s : Core) (g : Nat) (f : Group → Group) : (s.modGroup g f).temp = s.temp := rfl
@[simp] theorem core_modGroup_droops (s : Core) (g : Nat) (f : Group → Group) : (s.modGroup g f).droops = s.droops := rfl
@[simp] theorem core_modGroup_accepts (s : Core) (g : Nat) (f : Group → Group) : (s.modGroup g f).accepts = s.accepts := rfl
@[simp] theorem core_modGroup_issuing (s : Core) (g : Nat) (f : Group → Group) : (s.modGroup g f).issuing = s.issuing := rfl
@[simp] theorem core_modGroup_badBuf (s : Core) (g : Nat) (f : Group → Group) : (s.modGroup g f).badBuf = s.badBuf := rfl
@[simp] theorem core_modGroup_badL1 (s : Core) (g : Nat) (f : Group → Group) : (s.modGroup g f).badL1 = s.badL1 := rfl
@[simp] theorem core_modGroup_perfClk (s : Core) (g : Nat) (f : Group → Group) : (s.modGroup g f).perfClk = s.perfClk := rfl
@[simp] theorem core_modGroup_left (s : Core) (g : Nat) (f : Group → Group) : (s.modGroup g f).left = s.left := rfl
@[simp] theorem core_modGroup_hits (s : Core) (g : Nat) (f : Group → Group) : (s.modGroup g f).hits = s.hits := rfl
@[simp] theorem core_modUnit_clk (s : Core) (u : Nat) (f : WUnit → WUnit) : (s.modUnit u f).clk = s.clk := rfl
@[simp] theorem core_modUnit_pclk (s : Core) (u : Nat) (f : WUnit → WUnit) : (s.modUnit u f).pclk = s.pclk := rfl
@[simp] theorem core_modUnit_eclk (s : Core) (u : Nat) (f : WUnit → WUnit) : (s.modUnit u f).eclk = s.eclk := rfl
@[simp] theorem core_modUnit_edge (s : Core) (u : Nat) (f : WUnit → WUnit) : (s.modUnit u f).edge = s.edge := rfl
@[simp] theorem core_modUnit_rr (s : Core) (u : Nat) (f : WUnit → WUnit) : (s.modUnit u f).rr = s.rr := rfl
@[simp] theorem core_modUnit_issued (s : Core) (u : Nat) (f : WUnit → WUnit) : (s.modUnit u f).issued = s.issued := rfl
@[simp] theorem core_modUnit_groups (s : Core) (u : Nat) (f : WUnit → WUnit) : (s.modUnit u f).groups = s.groups := rfl
@[simp] theorem core_modUnit_inflight (s : Core) (u : Nat) (f : WUnit → WUnit) : (s.modUnit u f).inflight = s.inflight := rfl
@[simp] theorem core_modUnit_sectors (s : Core) (u : Nat) (f : WUnit → WUnit) : (s.modUnit u f).sectors = s.sectors := rfl
@[simp] theorem core_modUnit_scratch (s : Core) (u : Nat) (f : WUnit → WUnit) : (s.modUnit u f).scratch = s.scratch := rfl
@[simp] theorem core_modUnit_buf (s : Core) (u : Nat) (f : WUnit → WUnit) : (s.modUnit u f).buf = s.buf := rfl
@[simp] theorem core_modUnit_lines (s : Core) (u : Nat) (f : WUnit → WUnit) : (s.modUnit u f).lines = s.lines := rfl
@[simp] theorem core_modUnit_sems (s : Core) (u : Nat) (f : WUnit → WUnit) : (s.modUnit u f).sems = s.sems := rfl
@[simp] theorem core_modUnit_waiters (s : Core) (u : Nat) (f : WUnit → WUnit) : (s.modUnit u f).waiters = s.waiters := rfl
@[simp] theorem core_modUnit_chans (s : Core) (u : Nat) (f : WUnit → WUnit) : (s.modUnit u f).chans = s.chans := rfl
@[simp] theorem core_modUnit_tlb (s : Core) (u : Nat) (f : WUnit → WUnit) : (s.modUnit u f).tlb = s.tlb := rfl
@[simp] theorem core_modUnit_walkF (s : Core) (u : Nat) (f : WUnit → WUnit) : (s.modUnit u f).walkF = s.walkF := rfl
@[simp] theorem core_modUnit_dcache (s : Core) (u : Nat) (f : WUnit → WUnit) : (s.modUnit u f).dcache = s.dcache := rfl
@[simp] theorem core_modUnit_dwait (s : Core) (u : Nat) (f : WUnit → WUnit) : (s.modUnit u f).dwait = s.dwait := rfl
@[simp] theorem core_modUnit_arrayQ (s : Core) (u : Nat) (f : WUnit → WUnit) : (s.modUnit u f).arrayQ = s.arrayQ := rfl
@[simp] theorem core_modUnit_drainQ (s : Core) (u : Nat) (f : WUnit → WUnit) : (s.modUnit u f).drainQ = s.drainQ := rfl
@[simp] theorem core_modUnit_rotQ (s : Core) (u : Nat) (f : WUnit → WUnit) : (s.modUnit u f).rotQ = s.rotQ := rfl
@[simp] theorem core_modUnit_gfxQ (s : Core) (u : Nat) (f : WUnit → WUnit) : (s.modUnit u f).gfxQ = s.gfxQ := rfl
@[simp] theorem core_modUnit_arrayB (s : Core) (u : Nat) (f : WUnit → WUnit) : (s.modUnit u f).arrayB = s.arrayB := rfl
@[simp] theorem core_modUnit_drainB (s : Core) (u : Nat) (f : WUnit → WUnit) : (s.modUnit u f).drainB = s.drainB := rfl
@[simp] theorem core_modUnit_rotB (s : Core) (u : Nat) (f : WUnit → WUnit) : (s.modUnit u f).rotB = s.rotB := rfl
@[simp] theorem core_modUnit_lastMxld (s : Core) (u : Nat) (f : WUnit → WUnit) : (s.modUnit u f).lastMxld = s.lastMxld := rfl
@[simp] theorem core_modUnit_gather (s : Core) (u : Nat) (f : WUnit → WUnit) : (s.modUnit u f).gather = s.gather := rfl
@[simp] theorem core_modUnit_resv (s : Core) (u : Nat) (f : WUnit → WUnit) : (s.modUnit u f).resv = s.resv := rfl
@[simp] theorem core_modUnit_latch (s : Core) (u : Nat) (f : WUnit → WUnit) : (s.modUnit u f).latch = s.latch := rfl
@[simp] theorem core_modUnit_rot (s : Core) (u : Nat) (f : WUnit → WUnit) : (s.modUnit u f).rot = s.rot := rfl
@[simp] theorem core_modUnit_freeze (s : Core) (u : Nat) (f : WUnit → WUnit) : (s.modUnit u f).freeze = s.freeze := rfl
@[simp] theorem core_modUnit_frozen (s : Core) (u : Nat) (f : WUnit → WUnit) : (s.modUnit u f).frozen = s.frozen := rfl
@[simp] theorem core_modUnit_frozenClk (s : Core) (u : Nat) (f : WUnit → WUnit) : (s.modUnit u f).frozenClk = s.frozenClk := rfl
@[simp] theorem core_modUnit_energy (s : Core) (u : Nat) (f : WUnit → WUnit) : (s.modUnit u f).energy = s.energy := rfl
@[simp] theorem core_modUnit_esum (s : Core) (u : Nat) (f : WUnit → WUnit) : (s.modUnit u f).esum = s.esum := rfl
@[simp] theorem core_modUnit_carry (s : Core) (u : Nat) (f : WUnit → WUnit) : (s.modUnit u f).carry = s.carry := rfl
@[simp] theorem core_modUnit_wakes (s : Core) (u : Nat) (f : WUnit → WUnit) : (s.modUnit u f).wakes = s.wakes := rfl
@[simp] theorem core_modUnit_weight (s : Core) (u : Nat) (f : WUnit → WUnit) : (s.modUnit u f).weight = s.weight := rfl
@[simp] theorem core_modUnit_stalls (s : Core) (u : Nat) (f : WUnit → WUnit) : (s.modUnit u f).stalls = s.stalls := rfl
@[simp] theorem core_modUnit_replays (s : Core) (u : Nat) (f : WUnit → WUnit) : (s.modUnit u f).replays = s.replays := rfl
@[simp] theorem core_modUnit_redo (s : Core) (u : Nat) (f : WUnit → WUnit) : (s.modUnit u f).redo = s.redo := rfl
@[simp] theorem core_modUnit_replayLeft (s : Core) (u : Nat) (f : WUnit → WUnit) : (s.modUnit u f).replayLeft = s.replayLeft := rfl
@[simp] theorem core_modUnit_perf (s : Core) (u : Nat) (f : WUnit → WUnit) : (s.modUnit u f).perf = s.perf := rfl
@[simp] theorem core_modUnit_temp (s : Core) (u : Nat) (f : WUnit → WUnit) : (s.modUnit u f).temp = s.temp := rfl
@[simp] theorem core_modUnit_droops (s : Core) (u : Nat) (f : WUnit → WUnit) : (s.modUnit u f).droops = s.droops := rfl
@[simp] theorem core_modUnit_accepts (s : Core) (u : Nat) (f : WUnit → WUnit) : (s.modUnit u f).accepts = s.accepts := rfl
@[simp] theorem core_modUnit_issuing (s : Core) (u : Nat) (f : WUnit → WUnit) : (s.modUnit u f).issuing = s.issuing := rfl
@[simp] theorem core_modUnit_badBuf (s : Core) (u : Nat) (f : WUnit → WUnit) : (s.modUnit u f).badBuf = s.badBuf := rfl
@[simp] theorem core_modUnit_badL1 (s : Core) (u : Nat) (f : WUnit → WUnit) : (s.modUnit u f).badL1 = s.badL1 := rfl
@[simp] theorem core_modUnit_perfClk (s : Core) (u : Nat) (f : WUnit → WUnit) : (s.modUnit u f).perfClk = s.perfClk := rfl
@[simp] theorem core_modUnit_left (s : Core) (u : Nat) (f : WUnit → WUnit) : (s.modUnit u f).left = s.left := rfl
@[simp] theorem core_modUnit_hits (s : Core) (u : Nat) (f : WUnit → WUnit) : (s.modUnit u f).hits = s.hits := rfl
@[simp] theorem core_setSbank_clk (s : Core) (i : Nat) (b : Bank) : (s.setSbank i b).clk = s.clk := rfl
@[simp] theorem core_setSbank_pclk (s : Core) (i : Nat) (b : Bank) : (s.setSbank i b).pclk = s.pclk := rfl
@[simp] theorem core_setSbank_eclk (s : Core) (i : Nat) (b : Bank) : (s.setSbank i b).eclk = s.eclk := rfl
@[simp] theorem core_setSbank_edge (s : Core) (i : Nat) (b : Bank) : (s.setSbank i b).edge = s.edge := rfl
@[simp] theorem core_setSbank_rr (s : Core) (i : Nat) (b : Bank) : (s.setSbank i b).rr = s.rr := rfl
@[simp] theorem core_setSbank_issued (s : Core) (i : Nat) (b : Bank) : (s.setSbank i b).issued = s.issued := rfl
@[simp] theorem core_setSbank_groups (s : Core) (i : Nat) (b : Bank) : (s.setSbank i b).groups = s.groups := rfl
@[simp] theorem core_setSbank_units (s : Core) (i : Nat) (b : Bank) : (s.setSbank i b).units = s.units := rfl
@[simp] theorem core_setSbank_inflight (s : Core) (i : Nat) (b : Bank) : (s.setSbank i b).inflight = s.inflight := rfl
@[simp] theorem core_setSbank_sectors (s : Core) (i : Nat) (b : Bank) : (s.setSbank i b).sectors = s.sectors := rfl
@[simp] theorem core_setSbank_buf (s : Core) (i : Nat) (b : Bank) : (s.setSbank i b).buf = s.buf := rfl
@[simp] theorem core_setSbank_lines (s : Core) (i : Nat) (b : Bank) : (s.setSbank i b).lines = s.lines := rfl
@[simp] theorem core_setSbank_sems (s : Core) (i : Nat) (b : Bank) : (s.setSbank i b).sems = s.sems := rfl
@[simp] theorem core_setSbank_waiters (s : Core) (i : Nat) (b : Bank) : (s.setSbank i b).waiters = s.waiters := rfl
@[simp] theorem core_setSbank_chans (s : Core) (i : Nat) (b : Bank) : (s.setSbank i b).chans = s.chans := rfl
@[simp] theorem core_setSbank_tlb (s : Core) (i : Nat) (b : Bank) : (s.setSbank i b).tlb = s.tlb := rfl
@[simp] theorem core_setSbank_walkF (s : Core) (i : Nat) (b : Bank) : (s.setSbank i b).walkF = s.walkF := rfl
@[simp] theorem core_setSbank_dcache (s : Core) (i : Nat) (b : Bank) : (s.setSbank i b).dcache = s.dcache := rfl
@[simp] theorem core_setSbank_dwait (s : Core) (i : Nat) (b : Bank) : (s.setSbank i b).dwait = s.dwait := rfl
@[simp] theorem core_setSbank_arrayQ (s : Core) (i : Nat) (b : Bank) : (s.setSbank i b).arrayQ = s.arrayQ := rfl
@[simp] theorem core_setSbank_drainQ (s : Core) (i : Nat) (b : Bank) : (s.setSbank i b).drainQ = s.drainQ := rfl
@[simp] theorem core_setSbank_rotQ (s : Core) (i : Nat) (b : Bank) : (s.setSbank i b).rotQ = s.rotQ := rfl
@[simp] theorem core_setSbank_gfxQ (s : Core) (i : Nat) (b : Bank) : (s.setSbank i b).gfxQ = s.gfxQ := rfl
@[simp] theorem core_setSbank_arrayB (s : Core) (i : Nat) (b : Bank) : (s.setSbank i b).arrayB = s.arrayB := rfl
@[simp] theorem core_setSbank_drainB (s : Core) (i : Nat) (b : Bank) : (s.setSbank i b).drainB = s.drainB := rfl
@[simp] theorem core_setSbank_rotB (s : Core) (i : Nat) (b : Bank) : (s.setSbank i b).rotB = s.rotB := rfl
@[simp] theorem core_setSbank_lastMxld (s : Core) (i : Nat) (b : Bank) : (s.setSbank i b).lastMxld = s.lastMxld := rfl
@[simp] theorem core_setSbank_gather (s : Core) (i : Nat) (b : Bank) : (s.setSbank i b).gather = s.gather := rfl
@[simp] theorem core_setSbank_resv (s : Core) (i : Nat) (b : Bank) : (s.setSbank i b).resv = s.resv := rfl
@[simp] theorem core_setSbank_latch (s : Core) (i : Nat) (b : Bank) : (s.setSbank i b).latch = s.latch := rfl
@[simp] theorem core_setSbank_rot (s : Core) (i : Nat) (b : Bank) : (s.setSbank i b).rot = s.rot := rfl
@[simp] theorem core_setSbank_freeze (s : Core) (i : Nat) (b : Bank) : (s.setSbank i b).freeze = s.freeze := rfl
@[simp] theorem core_setSbank_frozen (s : Core) (i : Nat) (b : Bank) : (s.setSbank i b).frozen = s.frozen := rfl
@[simp] theorem core_setSbank_frozenClk (s : Core) (i : Nat) (b : Bank) : (s.setSbank i b).frozenClk = s.frozenClk := rfl
@[simp] theorem core_setSbank_energy (s : Core) (i : Nat) (b : Bank) : (s.setSbank i b).energy = s.energy := rfl
@[simp] theorem core_setSbank_esum (s : Core) (i : Nat) (b : Bank) : (s.setSbank i b).esum = s.esum := rfl
@[simp] theorem core_setSbank_carry (s : Core) (i : Nat) (b : Bank) : (s.setSbank i b).carry = s.carry := rfl
@[simp] theorem core_setSbank_wakes (s : Core) (i : Nat) (b : Bank) : (s.setSbank i b).wakes = s.wakes := rfl
@[simp] theorem core_setSbank_weight (s : Core) (i : Nat) (b : Bank) : (s.setSbank i b).weight = s.weight := rfl
@[simp] theorem core_setSbank_stalls (s : Core) (i : Nat) (b : Bank) : (s.setSbank i b).stalls = s.stalls := rfl
@[simp] theorem core_setSbank_replays (s : Core) (i : Nat) (b : Bank) : (s.setSbank i b).replays = s.replays := rfl
@[simp] theorem core_setSbank_redo (s : Core) (i : Nat) (b : Bank) : (s.setSbank i b).redo = s.redo := rfl
@[simp] theorem core_setSbank_replayLeft (s : Core) (i : Nat) (b : Bank) : (s.setSbank i b).replayLeft = s.replayLeft := rfl
@[simp] theorem core_setSbank_perf (s : Core) (i : Nat) (b : Bank) : (s.setSbank i b).perf = s.perf := rfl
@[simp] theorem core_setSbank_temp (s : Core) (i : Nat) (b : Bank) : (s.setSbank i b).temp = s.temp := rfl
@[simp] theorem core_setSbank_droops (s : Core) (i : Nat) (b : Bank) : (s.setSbank i b).droops = s.droops := rfl
@[simp] theorem core_setSbank_accepts (s : Core) (i : Nat) (b : Bank) : (s.setSbank i b).accepts = s.accepts := rfl
@[simp] theorem core_setSbank_issuing (s : Core) (i : Nat) (b : Bank) : (s.setSbank i b).issuing = s.issuing := rfl
@[simp] theorem core_setSbank_badBuf (s : Core) (i : Nat) (b : Bank) : (s.setSbank i b).badBuf = s.badBuf := rfl
@[simp] theorem core_setSbank_badL1 (s : Core) (i : Nat) (b : Bank) : (s.setSbank i b).badL1 = s.badL1 := rfl
@[simp] theorem core_setSbank_perfClk (s : Core) (i : Nat) (b : Bank) : (s.setSbank i b).perfClk = s.perfClk := rfl
@[simp] theorem core_setSbank_left (s : Core) (i : Nat) (b : Bank) : (s.setSbank i b).left = s.left := rfl
@[simp] theorem core_setSbank_hits (s : Core) (i : Nat) (b : Bank) : (s.setSbank i b).hits = s.hits := rfl
@[simp] theorem core_thaw_clk (s : Core)  : (s.thaw).clk = s.clk := rfl
@[simp] theorem core_thaw_pclk (s : Core)  : (s.thaw).pclk = s.pclk := rfl
@[simp] theorem core_thaw_eclk (s : Core)  : (s.thaw).eclk = s.eclk := rfl
@[simp] theorem core_thaw_edge (s : Core)  : (s.thaw).edge = s.edge := rfl
@[simp] theorem core_thaw_rr (s : Core)  : (s.thaw).rr = s.rr := rfl
@[simp] theorem core_thaw_issued (s : Core)  : (s.thaw).issued = s.issued := rfl
@[simp] theorem core_thaw_groups (s : Core)  : (s.thaw).groups = s.groups := rfl
@[simp] theorem core_thaw_units (s : Core)  : (s.thaw).units = s.units := rfl
@[simp] theorem core_thaw_sectors (s : Core)  : (s.thaw).sectors = s.sectors := rfl
@[simp] theorem core_thaw_scratch (s : Core)  : (s.thaw).scratch = s.scratch := rfl
@[simp] theorem core_thaw_buf (s : Core)  : (s.thaw).buf = s.buf := rfl
@[simp] theorem core_thaw_lines (s : Core)  : (s.thaw).lines = s.lines := rfl
@[simp] theorem core_thaw_sems (s : Core)  : (s.thaw).sems = s.sems := rfl
@[simp] theorem core_thaw_waiters (s : Core)  : (s.thaw).waiters = s.waiters := rfl
@[simp] theorem core_thaw_chans (s : Core)  : (s.thaw).chans = s.chans := rfl
@[simp] theorem core_thaw_tlb (s : Core)  : (s.thaw).tlb = s.tlb := rfl
@[simp] theorem core_thaw_walkF (s : Core)  : (s.thaw).walkF = s.walkF := rfl
@[simp] theorem core_thaw_dcache (s : Core)  : (s.thaw).dcache = s.dcache := rfl
@[simp] theorem core_thaw_dwait (s : Core)  : (s.thaw).dwait = s.dwait := rfl
@[simp] theorem core_thaw_arrayQ (s : Core)  : (s.thaw).arrayQ = s.arrayQ := rfl
@[simp] theorem core_thaw_drainQ (s : Core)  : (s.thaw).drainQ = s.drainQ := rfl
@[simp] theorem core_thaw_rotQ (s : Core)  : (s.thaw).rotQ = s.rotQ := rfl
@[simp] theorem core_thaw_gfxQ (s : Core)  : (s.thaw).gfxQ = s.gfxQ := rfl
@[simp] theorem core_thaw_arrayB (s : Core)  : (s.thaw).arrayB = s.arrayB := rfl
@[simp] theorem core_thaw_drainB (s : Core)  : (s.thaw).drainB = s.drainB := rfl
@[simp] theorem core_thaw_rotB (s : Core)  : (s.thaw).rotB = s.rotB := rfl
@[simp] theorem core_thaw_lastMxld (s : Core)  : (s.thaw).lastMxld = s.lastMxld := rfl
@[simp] theorem core_thaw_gather (s : Core)  : (s.thaw).gather = s.gather := rfl
@[simp] theorem core_thaw_resv (s : Core)  : (s.thaw).resv = s.resv := rfl
@[simp] theorem core_thaw_latch (s : Core)  : (s.thaw).latch = s.latch := rfl
@[simp] theorem core_thaw_rot (s : Core)  : (s.thaw).rot = s.rot := rfl
@[simp] theorem core_thaw_frozen (s : Core)  : (s.thaw).frozen = s.frozen := rfl
@[simp] theorem core_thaw_frozenClk (s : Core)  : (s.thaw).frozenClk = s.frozenClk := rfl
@[simp] theorem core_thaw_energy (s : Core)  : (s.thaw).energy = s.energy := rfl
@[simp] theorem core_thaw_esum (s : Core)  : (s.thaw).esum = s.esum := rfl
@[simp] theorem core_thaw_carry (s : Core)  : (s.thaw).carry = s.carry := rfl
@[simp] theorem core_thaw_wakes (s : Core)  : (s.thaw).wakes = s.wakes := rfl
@[simp] theorem core_thaw_weight (s : Core)  : (s.thaw).weight = s.weight := rfl
@[simp] theorem core_thaw_stalls (s : Core)  : (s.thaw).stalls = s.stalls := rfl
@[simp] theorem core_thaw_replays (s : Core)  : (s.thaw).replays = s.replays := rfl
@[simp] theorem core_thaw_redo (s : Core)  : (s.thaw).redo = s.redo := rfl
@[simp] theorem core_thaw_replayLeft (s : Core)  : (s.thaw).replayLeft = s.replayLeft := rfl
@[simp] theorem core_thaw_perf (s : Core)  : (s.thaw).perf = s.perf := rfl
@[simp] theorem core_thaw_temp (s : Core)  : (s.thaw).temp = s.temp := rfl
@[simp] theorem core_thaw_droops (s : Core)  : (s.thaw).droops = s.droops := rfl
@[simp] theorem core_thaw_accepts (s : Core)  : (s.thaw).accepts = s.accepts := rfl
@[simp] theorem core_thaw_issuing (s : Core)  : (s.thaw).issuing = s.issuing := rfl
@[simp] theorem core_thaw_badBuf (s : Core)  : (s.thaw).badBuf = s.badBuf := rfl
@[simp] theorem core_thaw_badL1 (s : Core)  : (s.thaw).badL1 = s.badL1 := rfl
@[simp] theorem core_thaw_perfClk (s : Core)  : (s.thaw).perfClk = s.perfClk := rfl
@[simp] theorem core_thaw_left (s : Core)  : (s.thaw).left = s.left := rfl
@[simp] theorem core_thaw_hits (s : Core)  : (s.thaw).hits = s.hits := rfl
@[simp] theorem core_freezeAll_clk (s : Core) (w : Nat) : (s.freezeAll w).clk = s.clk := rfl
@[simp] theorem core_freezeAll_pclk (s : Core) (w : Nat) : (s.freezeAll w).pclk = s.pclk := rfl
@[simp] theorem core_freezeAll_eclk (s : Core) (w : Nat) : (s.freezeAll w).eclk = s.eclk := rfl
@[simp] theorem core_freezeAll_edge (s : Core) (w : Nat) : (s.freezeAll w).edge = s.edge := rfl
@[simp] theorem core_freezeAll_rr (s : Core) (w : Nat) : (s.freezeAll w).rr = s.rr := rfl
@[simp] theorem core_freezeAll_issued (s : Core) (w : Nat) : (s.freezeAll w).issued = s.issued := rfl
@[simp] theorem core_freezeAll_groups (s : Core) (w : Nat) : (s.freezeAll w).groups = s.groups := rfl
@[simp] theorem core_freezeAll_units (s : Core) (w : Nat) : (s.freezeAll w).units = s.units := rfl
@[simp] theorem core_freezeAll_sectors (s : Core) (w : Nat) : (s.freezeAll w).sectors = s.sectors := rfl
@[simp] theorem core_freezeAll_scratch (s : Core) (w : Nat) : (s.freezeAll w).scratch = s.scratch := rfl
@[simp] theorem core_freezeAll_buf (s : Core) (w : Nat) : (s.freezeAll w).buf = s.buf := rfl
@[simp] theorem core_freezeAll_lines (s : Core) (w : Nat) : (s.freezeAll w).lines = s.lines := rfl
@[simp] theorem core_freezeAll_sems (s : Core) (w : Nat) : (s.freezeAll w).sems = s.sems := rfl
@[simp] theorem core_freezeAll_waiters (s : Core) (w : Nat) : (s.freezeAll w).waiters = s.waiters := rfl
@[simp] theorem core_freezeAll_chans (s : Core) (w : Nat) : (s.freezeAll w).chans = s.chans := rfl
@[simp] theorem core_freezeAll_tlb (s : Core) (w : Nat) : (s.freezeAll w).tlb = s.tlb := rfl
@[simp] theorem core_freezeAll_walkF (s : Core) (w : Nat) : (s.freezeAll w).walkF = s.walkF := rfl
@[simp] theorem core_freezeAll_dcache (s : Core) (w : Nat) : (s.freezeAll w).dcache = s.dcache := rfl
@[simp] theorem core_freezeAll_dwait (s : Core) (w : Nat) : (s.freezeAll w).dwait = s.dwait := rfl
@[simp] theorem core_freezeAll_arrayQ (s : Core) (w : Nat) : (s.freezeAll w).arrayQ = s.arrayQ := rfl
@[simp] theorem core_freezeAll_drainQ (s : Core) (w : Nat) : (s.freezeAll w).drainQ = s.drainQ := rfl
@[simp] theorem core_freezeAll_rotQ (s : Core) (w : Nat) : (s.freezeAll w).rotQ = s.rotQ := rfl
@[simp] theorem core_freezeAll_gfxQ (s : Core) (w : Nat) : (s.freezeAll w).gfxQ = s.gfxQ := rfl
@[simp] theorem core_freezeAll_arrayB (s : Core) (w : Nat) : (s.freezeAll w).arrayB = s.arrayB := rfl
@[simp] theorem core_freezeAll_drainB (s : Core) (w : Nat) : (s.freezeAll w).drainB = s.drainB := rfl
@[simp] theorem core_freezeAll_rotB (s : Core) (w : Nat) : (s.freezeAll w).rotB = s.rotB := rfl
@[simp] theorem core_freezeAll_lastMxld (s : Core) (w : Nat) : (s.freezeAll w).lastMxld = s.lastMxld := rfl
@[simp] theorem core_freezeAll_gather (s : Core) (w : Nat) : (s.freezeAll w).gather = s.gather := rfl
@[simp] theorem core_freezeAll_resv (s : Core) (w : Nat) : (s.freezeAll w).resv = s.resv := rfl
@[simp] theorem core_freezeAll_latch (s : Core) (w : Nat) : (s.freezeAll w).latch = s.latch := rfl
@[simp] theorem core_freezeAll_rot (s : Core) (w : Nat) : (s.freezeAll w).rot = s.rot := rfl
@[simp] theorem core_freezeAll_energy (s : Core) (w : Nat) : (s.freezeAll w).energy = s.energy := rfl
@[simp] theorem core_freezeAll_esum (s : Core) (w : Nat) : (s.freezeAll w).esum = s.esum := rfl
@[simp] theorem core_freezeAll_carry (s : Core) (w : Nat) : (s.freezeAll w).carry = s.carry := rfl
@[simp] theorem core_freezeAll_wakes (s : Core) (w : Nat) : (s.freezeAll w).wakes = s.wakes := rfl
@[simp] theorem core_freezeAll_weight (s : Core) (w : Nat) : (s.freezeAll w).weight = s.weight := rfl
@[simp] theorem core_freezeAll_stalls (s : Core) (w : Nat) : (s.freezeAll w).stalls = s.stalls := rfl
@[simp] theorem core_freezeAll_replays (s : Core) (w : Nat) : (s.freezeAll w).replays = s.replays := rfl
@[simp] theorem core_freezeAll_redo (s : Core) (w : Nat) : (s.freezeAll w).redo = s.redo := rfl
@[simp] theorem core_freezeAll_replayLeft (s : Core) (w : Nat) : (s.freezeAll w).replayLeft = s.replayLeft := rfl
@[simp] theorem core_freezeAll_perf (s : Core) (w : Nat) : (s.freezeAll w).perf = s.perf := rfl
@[simp] theorem core_freezeAll_temp (s : Core) (w : Nat) : (s.freezeAll w).temp = s.temp := rfl
@[simp] theorem core_freezeAll_droops (s : Core) (w : Nat) : (s.freezeAll w).droops = s.droops := rfl
@[simp] theorem core_freezeAll_accepts (s : Core) (w : Nat) : (s.freezeAll w).accepts = s.accepts := rfl
@[simp] theorem core_freezeAll_issuing (s : Core) (w : Nat) : (s.freezeAll w).issuing = s.issuing := rfl
@[simp] theorem core_freezeAll_badBuf (s : Core) (w : Nat) : (s.freezeAll w).badBuf = s.badBuf := rfl
@[simp] theorem core_freezeAll_badL1 (s : Core) (w : Nat) : (s.freezeAll w).badL1 = s.badL1 := rfl
@[simp] theorem core_freezeAll_perfClk (s : Core) (w : Nat) : (s.freezeAll w).perfClk = s.perfClk := rfl
@[simp] theorem core_freezeAll_left (s : Core) (w : Nat) : (s.freezeAll w).left = s.left := rfl
@[simp] theorem core_freezeAll_hits (s : Core) (w : Nat) : (s.freezeAll w).hits = s.hits := rfl
@[simp] theorem group_setBank_uid (s : Group) (i : Nat) (b : Bank) : (s.setBank i b).uid = s.uid := rfl
@[simp] theorem group_setBank_gix (s : Group) (i : Nat) (b : Bank) : (s.setBank i b).gix = s.gix := rfl
@[simp] theorem group_setBank_role (s : Group) (i : Nat) (b : Bank) : (s.setBank i b).role = s.role := rfl
@[simp] theorem group_setBank_launch (s : Group) (i : Nat) (b : Bank) : (s.setBank i b).launch = s.launch := rfl
@[simp] theorem group_setBank_sregs (s : Group) (i : Nat) (b : Bank) : (s.setBank i b).sregs = s.sregs := rfl
@[simp] theorem group_setBank_pregs (s : Group) (i : Nat) (b : Bank) : (s.setBank i b).pregs = s.pregs := rfl
@[simp] theorem group_setBank_aregs (s : Group) (i : Nat) (b : Bank) : (s.setBank i b).aregs = s.aregs := rfl
@[simp] theorem group_setBank_mat (s : Group) (i : Nat) (b : Bank) : (s.setBank i b).mat = s.mat := rfl
@[simp] theorem group_setBank_slot0 (s : Group) (i : Nat) (b : Bank) : (s.setBank i b).slot0 = s.slot0 := rfl
@[simp] theorem group_setBank_slot1 (s : Group) (i : Nat) (b : Bank) : (s.setBank i b).slot1 = s.slot1 := rfl
@[simp] theorem group_setBank_rlbl (s : Group) (i : Nat) (b : Bank) : (s.setBank i b).rlbl = s.rlbl := rfl
@[simp] theorem group_setBank_stackTop (s : Group) (i : Nat) (b : Bank) : (s.setBank i b).stackTop = s.stackTop := rfl
@[simp] theorem group_setBank_inline (s : Group) (i : Nat) (b : Bank) : (s.setBank i b).inline = s.inline := rfl
@[simp] theorem group_setBank_inlineLimit (s : Group) (i : Nat) (b : Bank) : (s.setBank i b).inlineLimit = s.inlineLimit := rfl
@[simp] theorem group_setBank_ctrs (s : Group) (i : Nat) (b : Bank) : (s.setBank i b).ctrs = s.ctrs := rfl
@[simp] theorem group_setBank_faultMask (s : Group) (i : Nat) (b : Bank) : (s.setBank i b).faultMask = s.faultMask := rfl
@[simp] theorem group_setBank_laneRecs (s : Group) (i : Nat) (b : Bank) : (s.setBank i b).laneRecs = s.laneRecs := rfl
@[simp] theorem group_setBank_inHandler (s : Group) (i : Nat) (b : Bank) : (s.setBank i b).inHandler = s.inHandler := rfl
@[simp] theorem group_setBank_dict (s : Group) (i : Nat) (b : Bank) : (s.setBank i b).dict = s.dict := rfl
@[simp] theorem group_setBank_seg (s : Group) (i : Nat) (b : Bank) : (s.setBank i b).seg = s.seg := rfl
@[simp] theorem group_setBank_pool (s : Group) (i : Nat) (b : Bank) : (s.setBank i b).pool = s.pool := rfl
@[simp] theorem group_setBank_deferred (s : Group) (i : Nat) (b : Bank) : (s.setBank i b).deferred = s.deferred := rfl
@[simp] theorem group_setBank_dataErr (s : Group) (i : Nat) (b : Bank) : (s.setBank i b).dataErr = s.dataErr := rfl
@[simp] theorem group_setBank_parked (s : Group) (i : Nat) (b : Bank) : (s.setBank i b).parked = s.parked := rfl
@[simp] theorem group_setBank_traces (s : Group) (i : Nat) (b : Bank) : (s.setBank i b).traces = s.traces := rfl
@[simp] theorem group_setBank_halt (s : Group) (i : Nat) (b : Bank) : (s.setBank i b).halt = s.halt := rfl
@[simp] theorem group_setBank_ended (s : Group) (i : Nat) (b : Bank) : (s.setBank i b).ended = s.ended := rfl
@[simp] theorem group_setBank_stepDone (s : Group) (i : Nat) (b : Bank) : (s.setBank i b).stepDone = s.stepDone := rfl
@[simp] theorem group_setBank_weaveArr (s : Group) (i : Nat) (b : Bank) : (s.setBank i b).weaveArr = s.weaveArr := rfl
@[simp] theorem group_setBank_joined (s : Group) (i : Nat) (b : Bank) : (s.setBank i b).joined = s.joined := rfl
@[simp] theorem group_setBank_resume (s : Group) (i : Nat) (b : Bank) : (s.setBank i b).resume = s.resume := rfl
@[simp] theorem group_setBank_privBase (s : Group) (i : Nat) (b : Bank) : (s.setBank i b).privBase = s.privBase := rfl
@[simp] theorem group_setBank_badBanks (s : Group) (i : Nat) (b : Bank) : (s.setBank i b).badBanks = s.badBanks := rfl
@[simp] theorem group_setBank_inlineDepth (s : Group) (i : Nat) (b : Bank) : (s.setBank i b).inlineDepth = s.inlineDepth := rfl
@[simp] theorem group_setBank_far (s : Group) (i : Nat) (b : Bank) : (s.setBank i b).far = s.far := rfl
@[simp] theorem group_setBank_serving (s : Group) (i : Nat) (b : Bank) : (s.setBank i b).serving = s.serving := rfl
@[simp] theorem group_modCtr_uid (s : Group) (n : Nat) (f : Nat → Nat) : (s.modCtr n f).uid = s.uid := rfl
@[simp] theorem group_modCtr_gix (s : Group) (n : Nat) (f : Nat → Nat) : (s.modCtr n f).gix = s.gix := rfl
@[simp] theorem group_modCtr_role (s : Group) (n : Nat) (f : Nat → Nat) : (s.modCtr n f).role = s.role := rfl
@[simp] theorem group_modCtr_launch (s : Group) (n : Nat) (f : Nat → Nat) : (s.modCtr n f).launch = s.launch := rfl
@[simp] theorem group_modCtr_sregs (s : Group) (n : Nat) (f : Nat → Nat) : (s.modCtr n f).sregs = s.sregs := rfl
@[simp] theorem group_modCtr_pregs (s : Group) (n : Nat) (f : Nat → Nat) : (s.modCtr n f).pregs = s.pregs := rfl
@[simp] theorem group_modCtr_aregs (s : Group) (n : Nat) (f : Nat → Nat) : (s.modCtr n f).aregs = s.aregs := rfl
@[simp] theorem group_modCtr_mat (s : Group) (n : Nat) (f : Nat → Nat) : (s.modCtr n f).mat = s.mat := rfl
@[simp] theorem group_modCtr_banks (s : Group) (n : Nat) (f : Nat → Nat) : (s.modCtr n f).banks = s.banks := rfl
@[simp] theorem group_modCtr_slot0 (s : Group) (n : Nat) (f : Nat → Nat) : (s.modCtr n f).slot0 = s.slot0 := rfl
@[simp] theorem group_modCtr_slot1 (s : Group) (n : Nat) (f : Nat → Nat) : (s.modCtr n f).slot1 = s.slot1 := rfl
@[simp] theorem group_modCtr_rlbl (s : Group) (n : Nat) (f : Nat → Nat) : (s.modCtr n f).rlbl = s.rlbl := rfl
@[simp] theorem group_modCtr_stackTop (s : Group) (n : Nat) (f : Nat → Nat) : (s.modCtr n f).stackTop = s.stackTop := rfl
@[simp] theorem group_modCtr_inline (s : Group) (n : Nat) (f : Nat → Nat) : (s.modCtr n f).inline = s.inline := rfl
@[simp] theorem group_modCtr_inlineLimit (s : Group) (n : Nat) (f : Nat → Nat) : (s.modCtr n f).inlineLimit = s.inlineLimit := rfl
@[simp] theorem group_modCtr_faultMask (s : Group) (n : Nat) (f : Nat → Nat) : (s.modCtr n f).faultMask = s.faultMask := rfl
@[simp] theorem group_modCtr_laneRecs (s : Group) (n : Nat) (f : Nat → Nat) : (s.modCtr n f).laneRecs = s.laneRecs := rfl
@[simp] theorem group_modCtr_inHandler (s : Group) (n : Nat) (f : Nat → Nat) : (s.modCtr n f).inHandler = s.inHandler := rfl
@[simp] theorem group_modCtr_dict (s : Group) (n : Nat) (f : Nat → Nat) : (s.modCtr n f).dict = s.dict := rfl
@[simp] theorem group_modCtr_seg (s : Group) (n : Nat) (f : Nat → Nat) : (s.modCtr n f).seg = s.seg := rfl
@[simp] theorem group_modCtr_pool (s : Group) (n : Nat) (f : Nat → Nat) : (s.modCtr n f).pool = s.pool := rfl
@[simp] theorem group_modCtr_deferred (s : Group) (n : Nat) (f : Nat → Nat) : (s.modCtr n f).deferred = s.deferred := rfl
@[simp] theorem group_modCtr_dataErr (s : Group) (n : Nat) (f : Nat → Nat) : (s.modCtr n f).dataErr = s.dataErr := rfl
@[simp] theorem group_modCtr_parked (s : Group) (n : Nat) (f : Nat → Nat) : (s.modCtr n f).parked = s.parked := rfl
@[simp] theorem group_modCtr_traces (s : Group) (n : Nat) (f : Nat → Nat) : (s.modCtr n f).traces = s.traces := rfl
@[simp] theorem group_modCtr_halt (s : Group) (n : Nat) (f : Nat → Nat) : (s.modCtr n f).halt = s.halt := rfl
@[simp] theorem group_modCtr_ended (s : Group) (n : Nat) (f : Nat → Nat) : (s.modCtr n f).ended = s.ended := rfl
@[simp] theorem group_modCtr_stepDone (s : Group) (n : Nat) (f : Nat → Nat) : (s.modCtr n f).stepDone = s.stepDone := rfl
@[simp] theorem group_modCtr_weaveArr (s : Group) (n : Nat) (f : Nat → Nat) : (s.modCtr n f).weaveArr = s.weaveArr := rfl
@[simp] theorem group_modCtr_joined (s : Group) (n : Nat) (f : Nat → Nat) : (s.modCtr n f).joined = s.joined := rfl
@[simp] theorem group_modCtr_resume (s : Group) (n : Nat) (f : Nat → Nat) : (s.modCtr n f).resume = s.resume := rfl
@[simp] theorem group_modCtr_privBase (s : Group) (n : Nat) (f : Nat → Nat) : (s.modCtr n f).privBase = s.privBase := rfl
@[simp] theorem group_modCtr_badBanks (s : Group) (n : Nat) (f : Nat → Nat) : (s.modCtr n f).badBanks = s.badBanks := rfl
@[simp] theorem group_modCtr_inlineDepth (s : Group) (n : Nat) (f : Nat → Nat) : (s.modCtr n f).inlineDepth = s.inlineDepth := rfl
@[simp] theorem group_modCtr_far (s : Group) (n : Nat) (f : Nat → Nat) : (s.modCtr n f).far = s.far := rfl
@[simp] theorem group_modCtr_serving (s : Group) (n : Nat) (f : Nat → Nat) : (s.modCtr n f).serving = s.serving := rfl

/-! ### Accessors after an update -/

/-- A core that is listed changes as asked. -/
theorem core_modCore_same (s : State) (c : Nat) (f : Core → Core) (h : (kget c s.cores).isSome = true) :
    (s.modCore c f).core c = f (s.core c) := by
  obtain ⟨v, hv⟩ := Option.isSome_iff_exists.1 h
  simp [State.core, State.modCore, hv]
/-- Every other core is unchanged. -/
theorem core_modCore_other (s : State) {c d : Nat} (f : Core → Core) (h : d ≠ c) : (s.modCore c f).core d = s.core d := by
  simp [State.core, State.modCore, kget_kmod_other h]
/-- Which cores are listed does not change. -/
@[simp] theorem cores_modCore_isSome (s : State) (c d : Nat) (f : Core → Core) :
    (kget d (s.modCore c f).cores).isSome = (kget d s.cores).isSome := kget_kmod_isSome ..
/-- A group that is listed changes as asked. -/
theorem group_modGroup_same (k : Core) (g : Nat) (f : Group → Group) (h : (kget g k.groups).isSome = true) :
    (k.modGroup g f).group g = f (k.group g) := by
  obtain ⟨v, hv⟩ := Option.isSome_iff_exists.1 h
  simp [Core.group, Core.modGroup, hv]
/-- Every other group is unchanged. -/
theorem group_modGroup_other (k : Core) {g d : Nat} (f : Group → Group) (h : d ≠ g) : (k.modGroup g f).group d = k.group d := by
  simp [Core.group, Core.modGroup, kget_kmod_other h]
/-- Which groups are listed does not change. -/
@[simp] theorem groups_modGroup_isSome (k : Core) (g d : Nat) (f : Group → Group) :
    (kget d (k.modGroup g f).groups).isSome = (kget d k.groups).isSome := kget_kmod_isSome ..

end Sys2Proof.Machine
end

