-- ==== Sys2Proof/Laws/Start.lean ====
section
/-! SUPPORT. What the start of an issue does (R54, R71, R119): it moves the stream on, wakes banks, pops rows, and leaves
everything else that a slot reads as it was. -/

namespace Sys2Proof.Machine

/-! ### The package -/

/-- Nothing of the package has changed but cores, the rows popped and a hand-over to be made. -/
def OnlyCores (s t : State) : Prop := t = { s with cores := t.cores, cur := { s.cur with pops := t.cur.pops, hand := t.cur.hand, views := t.cur.views } }

theorem OnlyCores.refl (s : State) : OnlyCores s s := rfl
theorem OnlyCores.trans {s t u : State} (h : OnlyCores s t) (k : OnlyCores t u) : OnlyCores s u := by
  unfold OnlyCores at *; rw [k, h]
theorem onlyCores_modCore (s : State) (c : Nat) (f : Core → Core) : OnlyCores s (s.modCore c f) := rfl
theorem onlyCores_bump (s : State) (c e n : Nat) : OnlyCores s (s.bump c e n) := by
  unfold State.bump; dsimp only; split
  · exact .refl s
  · exact onlyCores_modCore ..
theorem onlyCores_pop1 (s : State) (p : Nat × Nat) : OnlyCores s (s.pop1 p) := rfl
theorem onlyCores_pops (l : List (Nat × Nat)) (s : State) : OnlyCores s (l.foldl State.pop1 s) := by
  induction l generalizing s with
  | nil => exact .refl s
  | cons p r ih => exact (onlyCores_pop1 s p).trans (ih _)
/-- The start of an issue touches cores only. -/
theorem onlyCores_start (s : State) (l : List SlotI) : OnlyCores s (s.start l) := by
  unfold State.start
  refine OnlyCores.trans ?_ (onlyCores_pops _ _)
  refine OnlyCores.trans (t := (((s.moveOn l).bump s.cur.core 2 1).bump s.cur.core 3 _).bump s.cur.core 4 _) ?_ (by rfl)
  refine OnlyCores.trans ?_ (onlyCores_bump _ _ _ _)
  refine OnlyCores.trans ?_ (onlyCores_bump _ _ _ _)
  refine OnlyCores.trans ?_ (onlyCores_bump _ _ _ _)
  rfl

/-! ### Presence of the stream -/

theorem curCore_modC (s : State) (f : Core → Core) (h : (kget s.cur.core s.cores).isSome = true) :
    (s.modC f).curCore = f s.curCore := core_modCore_same s _ f h
theorem curGrp_modG (s : State) (f : Group → Group) (h : s.live = true) : (s.modG f).curGrp = f s.curGrp := by
  simp only [State.live, Bool.and_eq_true] at h
  show ((s.modCore s.cur.core _).core s.cur.core).group s.cur.gid = _
  have h2 : (kget s.cur.gid (s.core s.cur.core).groups).isSome = true := h.1.2
  rw [core_modCore_same s _ _ h.1.1, group_modGroup_same _ _ _ h2]; rfl
/-- A change of one's own core leaves the package's other cores alone. -/
theorem core_modC_other (s : State) {d : Nat} (f : Core → Core) (h : d ≠ s.cur.core) : (s.modC f).core d = s.core d :=
  core_modCore_other s f h

/-- Is a stream as present after a change as before? -/
theorem live_modC (s : State) (f : Core → Core) (h : s.live = true)
    (hf : ∀ k, (kget s.cur.gid (f k).groups).isSome = (kget s.cur.gid k.groups).isSome) : (s.modC f).live = true := by
  simp only [State.live, Bool.and_eq_true, decide_eq_true_eq] at h ⊢
  refine ⟨⟨?_, ?_⟩, h.2⟩
  · exact (cores_modCore_isSome ..).trans h.1.1
  · rw [curCore_modC s f h.1.1]; exact (hf _).trans h.1.2
theorem live_modG (s : State) (f : Group → Group) (h : s.live = true) : (s.modG f).live = true :=
  live_modC s _ h (fun _ => groups_modGroup_isSome ..)

/-! ### A core -/

/-- What an issue may change of its core before its slots act. -/
def CoreMoved (c d : Core) : Prop :=
  d = { c with groups := d.groups, units := d.units, inflight := d.inflight, freeze := d.freeze, issued := d.issued,
               weight := d.weight, rr := d.rr, wakes := d.wakes, perf := d.perf, perfClk := d.perfClk }
theorem CoreMoved.refl (c : Core) : CoreMoved c c := rfl
theorem CoreMoved.trans {c d e : Core} (h : CoreMoved c d) (k : CoreMoved d e) : CoreMoved c e := by
  unfold CoreMoved at *; rw [k, h]

/-- What an issue may change of its group before its slots act: banks, the restart label, and its own PC slot. -/
def GroupMoved (g h : Group) : Prop :=
  h = { g with banks := h.banks, rlbl := h.rlbl, slot0 := h.slot0, slot1 := h.slot1 } ∧ h.banks.length = g.banks.length
theorem GroupMoved.refl (g : Group) : GroupMoved g g := ⟨rfl, rfl⟩
theorem GroupMoved.trans {g h k : Group} (a : GroupMoved g h) (b : GroupMoved h k) : GroupMoved g k :=
  ⟨by rw [b.1, a.1], b.2.trans a.2⟩

/-- Waking a register bank of group g. -/
theorem wakeReg_group (c : Core) (g i : Nat) :
    (kget g (c.wakeReg g i).groups).isSome = (kget g c.groups).isSome ∧ CoreMoved c (c.wakeReg g i)
      ∧ (c.wakeReg g i).inflight = c.inflight ∧ (c.wakeReg g i).freeze = c.freeze
      ∧ ((kget g c.groups).isSome = true → ∃ bk, bk.length = (c.group g).banks.length
          ∧ (c.wakeReg g i).group g = { c.group g with banks := bk }) := by
  unfold Core.wakeReg
  split
  · refine ⟨groups_modGroup_isSome .., rfl, rfl, rfl, fun h => ?_⟩
    refine ⟨(c.group g).banks.set i (((c.group g).bank i).wake c.clk 6), by simp, ?_⟩
    exact (group_modGroup_same c g _ h).trans rfl
  · exact ⟨rfl, rfl, rfl, rfl, fun _ => ⟨_, rfl, rfl⟩⟩

/-- Waking several register banks of group g. -/
theorem wakeRegs_group (l : List Nat) (c : Core) (g : Nat) :
    (kget g (l.foldl (fun c i => c.wakeReg g i) c).groups).isSome = (kget g c.groups).isSome
      ∧ CoreMoved c (l.foldl (fun c i => c.wakeReg g i) c)
      ∧ (l.foldl (fun c i => c.wakeReg g i) c).inflight = c.inflight ∧ (l.foldl (fun c i => c.wakeReg g i) c).freeze = c.freeze
      ∧ ((kget g c.groups).isSome = true → ∃ bk, bk.length = (c.group g).banks.length
          ∧ (l.foldl (fun c i => c.wakeReg g i) c).group g = { c.group g with banks := bk }) := by
  induction l generalizing c with
  | nil => exact ⟨rfl, rfl, rfl, rfl, fun _ => ⟨_, rfl, rfl⟩⟩
  | cons i r ih =>
    obtain ⟨a1, a2, a3, a4, a5⟩ := wakeReg_group c g i
    obtain ⟨b1, b2, b3, b4, b5⟩ := ih (c.wakeReg g i)
    refine ⟨b1.trans a1, a2.trans b2, b3.trans a3, b4.trans a4, fun h => ?_⟩
    obtain ⟨bk, hl, hb⟩ := a5 h
    obtain ⟨bk', hl', hb'⟩ := b5 (a1.trans h)
    refine ⟨bk', ?_, ?_⟩
    · rw [hl', hb, hl]
    · show (r.foldl (fun c i => c.wakeReg g i) (c.wakeReg g i)).group g = _
      rw [hb', hb]

/-- A performance event changes its core's counters only. -/
theorem bump_core (s : State) (c e n d : Nat) :
    ∃ p q, (s.bump c e n).core d = { s.core d with perf := p, perfClk := q } := by
  unfold State.bump; dsimp only; split
  · exact ⟨_, _, rfl⟩
  · by_cases h : d = c
    · subst h
      by_cases hs : (kget d s.cores).isSome = true
      · exact ⟨_, _, core_modCore_same s d _ hs⟩
      · have hn : kget d s.cores = none := by simpa using hs
        exact ⟨(s.core d).perf, (s.core d).perfClk, by simp [State.core, State.modCore, kmod, hn]⟩
    · exact ⟨_, _, core_modCore_other s _ h⟩

/-! ### The start of an issue -/

/-- What the start of an issue leaves to the slots: the stream still there, its registers, its slot but for PC, next and
bases, its core's queues and clks, and everything else of the package. -/
structure Begun (s t : State) : Prop where
  only : OnlyCores s t
  live : t.live = true
  core : CoreMoved s.curCore t.curCore
  grp : GroupMoved s.curGrp t.curGrp
  slot : ∃ pc nx bs, t.curSlot = { s.curSlot with pc := pc, next := nx, bases := bs }
  other : t.curGrp.slot (1 - s.cur.slot) = s.curGrp.slot (1 - s.cur.slot)
  unit : ∃ qs, t.curUnit = { s.curUnit with queues := qs }
  cores : ∀ d, d ≠ s.cur.core → t.core d = s.core d
  groups : ∀ g, g ≠ s.cur.gid → t.curCore.group g = s.curCore.group g

theorem Begun.refl {s : State} (h : s.live = true) : Begun s s :=
  ⟨.refl s, h, .refl _, .refl _, ⟨_, _, _, rfl⟩, rfl, ⟨_, rfl⟩, fun _ _ => rfl, fun _ _ => rfl⟩

/-- The stream of a state whose cores alone have changed. -/
theorem OnlyCores.cur {s t : State} (h : OnlyCores s t) :
    t.cur.core = s.cur.core ∧ t.cur.gid = s.cur.gid ∧ t.cur.slot = s.cur.slot := by
  rw [h]; exact ⟨rfl, rfl, rfl⟩

theorem Begun.trans {s t u : State} (a : Begun s t) (b : Begun t u) : Begun s u := by
  obtain ⟨c1, c2, c3⟩ := a.only.cur
  obtain ⟨pc, nx, bs, hs⟩ := a.slot
  obtain ⟨pc', nx', bs', hs'⟩ := b.slot
  obtain ⟨q, hq⟩ := a.unit
  obtain ⟨q', hq'⟩ := b.unit
  exact ⟨a.only.trans b.only, b.live, a.core.trans b.core, a.grp.trans b.grp, ⟨pc', nx', bs', by rw [hs', hs]⟩,
    (by have := b.other; rw [c3] at this; exact this.trans a.other),
    ⟨q', by rw [hq', hq]⟩, fun d h => (b.cores d (by rw [c1]; exact h)).trans (a.cores d h),
    fun g h => (b.groups g (by rw [c2]; exact h)).trans (a.groups g h)⟩

theorem live_parts {s : State} (h : s.live = true) :
    (kget s.cur.core s.cores).isSome = true ∧ (kget s.cur.gid s.curCore.groups).isSome = true ∧ s.cur.slot < 2 := by
  simp only [State.live, Bool.and_eq_true, decide_eq_true_eq] at h
  exact ⟨h.1.1, h.1.2, h.2⟩

/-- Waking the banks of a bundle. -/
theorem begun_wakeBanks (s : State) (l : List SlotI) (h : s.live = true) : Begun s (s.wakeBanks l) := by
  obtain ⟨h1, h2, h3⟩ := live_parts h
  obtain ⟨a1, a2, a3, a4, a5⟩ := wakeRegs_group (readBanks l ++ (s.writeBanks l).map Prod.fst) s.curCore s.cur.gid
  obtain ⟨bk, hl, hb⟩ := a5 h2
  have hc : (s.wakeBanks l).curCore =
      (readBanks l ++ (s.writeBanks l).map Prod.fst).foldl (fun c i => c.wakeReg s.cur.gid i) s.curCore := curCore_modC s _ h1
  have hg : (s.wakeBanks l).curGrp = { s.curGrp with banks := bk } := by
    show (s.wakeBanks l).curCore.group s.cur.gid = _
    rw [hc, hb]; rfl
  have hu : (s.wakeBanks l).curUnit = s.curUnit := by
    show (s.wakeBanks l).curCore.unit (s.wakeBanks l).curGrp.uid = _
    rw [hg, hc]
    have : (List.foldl (fun c i => c.wakeReg s.cur.gid i) s.curCore (readBanks l ++ (s.writeBanks l).map Prod.fst)).units = s.curCore.units := by
      generalize (readBanks l ++ (s.writeBanks l).map Prod.fst) = bs
      generalize s.curCore = c
      induction bs generalizing c with
      | nil => rfl
      | cons i r ih => rw [List.foldl_cons, ih]; unfold Core.wakeReg; split <;> rfl
    show (kget _ _).getD _ = _
    rw [this]; rfl
  refine ⟨rfl, ?_, ?_, ?_, ?_, by rw [hg]; rfl, ?_, ?_, ?_⟩
  · exact live_modC s _ h (fun k => (wakeRegs_group _ k _).1)
  · rw [hc]; exact a2
  · rw [hg]; exact ⟨rfl, hl⟩
  · refine ⟨s.curSlot.pc, s.curSlot.next, s.curSlot.bases, ?_⟩
    show (s.wakeBanks l).curGrp.slot s.cur.slot = _
    rw [hg]; rfl
  · exact ⟨_, hu⟩
  · exact fun d hd => core_modC_other s _ hd
  · intro g hg'
    rw [hc]
    generalize (readBanks l ++ (s.writeBanks l).map Prod.fst) = bs
    generalize s.curCore = c
    induction bs generalizing c with
    | nil => rfl
    | cons i r ih =>
      rw [List.foldl_cons, ih]
      unfold Core.wakeReg
      split
      · exact group_modGroup_other c _ hg'
      · rfl

/-- A change of a core that leaves its groups and units alone. -/
theorem begun_modC (s : State) (f : Core → Core) (h : s.live = true) (hf : ∀ c, CoreMoved c (f c))
    (hg : ∀ c, (f c).groups = c.groups) (hu : ∀ c, (f c).units = c.units) : Begun s (s.modC f) := by
  obtain ⟨h1, h2, h3⟩ := live_parts h
  have hc := curCore_modC s f h1
  have hgr : ∀ g, (s.modC f).curCore.group g = s.curCore.group g := by
    intro g; rw [hc]; show (kget g _).getD _ = _; rw [hg]; rfl
  have hcg : (s.modC f).curGrp = s.curGrp := hgr _
  refine ⟨rfl, live_modC s f h (fun k => by rw [hg]), by rw [hc]; exact hf _, by rw [hcg]; exact .refl _, ?_, by rw [hcg], ?_, ?_, ?_⟩
  · exact ⟨_, _, _, by show (s.modC f).curGrp.slot _ = _; rw [hcg]; rfl⟩
  · refine ⟨s.curUnit.queues, ?_⟩
    show (s.modC f).curCore.unit (s.modC f).curGrp.uid = _
    rw [hcg, hc]; show (kget _ _).getD _ = _; rw [hu]; rfl
  · exact fun d hd => core_modC_other s f hd
  · exact fun g _ => hgr g

/-- Moving the stream's slot on. -/
theorem begun_modG (s : State) (f : Group → Group) (h : s.live = true)
    (hf : GroupMoved s.curGrp (f s.curGrp))
    (hs : ∃ pc nx bs, (f s.curGrp).slot s.cur.slot = { s.curSlot with pc := pc, next := nx, bases := bs })
    (ho : (f s.curGrp).slot (1 - s.cur.slot) = s.curGrp.slot (1 - s.cur.slot)) :
    Begun s (s.modG f) := by
  obtain ⟨h1, h2, h3⟩ := live_parts h
  have hc : (s.modG f).curCore = s.curCore.modGroup s.cur.gid f := curCore_modC s _ h1
  have hg := curGrp_modG s f h
  refine ⟨rfl, live_modG s f h, by rw [hc]; rfl, by rw [hg]; exact hf, ?_, by rw [hg]; exact ho, ?_, ?_, ?_⟩
  · obtain ⟨pc, nx, bs, e⟩ := hs
    exact ⟨pc, nx, bs, by show (s.modG f).curGrp.slot _ = _; rw [hg]; exact e⟩
  · refine ⟨s.curUnit.queues, ?_⟩
    show (s.modG f).curCore.unit (s.modG f).curGrp.uid = _
    rw [hg, hf.1, hc]; rfl
  · exact fun d hd => core_modC_other s _ hd
  · intro g hg'; rw [hc]; exact group_modGroup_other _ _ hg'

/-- A performance event. -/
theorem begun_bump (s : State) (c e n : Nat) (h : s.live = true) (hcc : c = s.cur.core) : Begun s (s.bump c e n) := by
  obtain ⟨h1, h2, h3⟩ := live_parts h
  obtain ⟨p, q, hp⟩ := bump_core s c e n s.cur.core
  have hcur : (s.bump c e n).cur = s.cur := by unfold State.bump; dsimp only; split <;> rfl
  have hc : (s.bump c e n).curCore = { s.curCore with perf := p, perfClk := q } := by
    show (s.bump c e n).core (s.bump c e n).cur.core = _; rw [hcur, hp]; rfl
  have hg : (s.bump c e n).curGrp = s.curGrp := by
    show (s.bump c e n).curCore.group (s.bump c e n).cur.gid = _; rw [hcur, hc]; rfl
  refine ⟨onlyCores_bump .., ?_, by rw [hc]; rfl, by rw [hg]; exact .refl _, ?_, by rw [hg], ?_, ?_, ?_⟩
  · simp only [State.live, Bool.and_eq_true, decide_eq_true_eq]
    rw [hcur, hc]
    refine ⟨⟨?_, h2⟩, h3⟩
    unfold State.bump; dsimp only; split
    · exact h1
    · exact (cores_modCore_isSome ..).trans h1
  · exact ⟨_, _, _, by show (s.bump c e n).curGrp.slot (s.bump c e n).cur.slot = _; rw [hg, hcur]; rfl⟩
  · refine ⟨s.curUnit.queues, ?_⟩
    show (s.bump c e n).curCore.unit (s.bump c e n).curGrp.uid = _
    rw [hg, hc]; rfl
  · intro d hd
    unfold State.bump; dsimp only; split
    · rfl
    · exact core_modCore_other s _ (by rw [hcc]; exact hd)
  · intro g _; rw [hc]; rfl

/-- A pop of a role-queue row. -/
theorem begun_pop1 (s : State) (p : Nat × Nat) (h : s.live = true) : Begun s (s.pop1 p) := by
  obtain ⟨h1, h2, h3⟩ := live_parts h
  set f : Core → Core := fun c => c.modUnit s.curGrp.uid (fun u =>
    let q := u.rq p.2
    { u with queues := (u.queues.set p.2 { q with
        head := (q.head + 1) % rqDepth q.desc, count := q.count - 1,
        freed := (s.curCore.clk, (if q.freed.1 == s.curCore.clk then q.freed.2 else 0) + 1) }) }) with hf
  have hc : (s.pop1 p).curCore = f s.curCore := curCore_modC s f h1
  have hg : (s.pop1 p).curGrp = s.curGrp := by
    show (s.pop1 p).curCore.group s.cur.gid = _; rw [hc]; rfl
  refine ⟨rfl, ?_, by rw [hc]; rfl, by rw [hg]; exact .refl _, ?_, by rw [hg], ?_, ?_, ?_⟩
  · simp only [State.live, Bool.and_eq_true, decide_eq_true_eq]
    rw [hc]
    exact ⟨⟨(cores_modCore_isSome ..).trans h1, h2⟩, h3⟩
  · exact ⟨_, _, _, by show (s.pop1 p).curGrp.slot s.cur.slot = _; rw [hg]; rfl⟩
  · show ∃ qs, (s.pop1 p).curCore.unit (s.pop1 p).curGrp.uid = _
    rw [hg, hc, hf]
    unfold Core.unit Core.modUnit
    show ∃ qs, (kget s.curGrp.uid (kmod s.curGrp.uid _ s.curCore.units)).getD emptyUnit = _
    rw [kget_kmod_same]
    cases hk : kget s.curGrp.uid s.curCore.units with
    | none =>
      refine ⟨emptyUnit.queues, ?_⟩
      show emptyUnit = _
      have : s.curUnit = emptyUnit := by unfold State.curUnit Core.unit; rw [hk]; rfl
      rw [this]
    | some v =>
      have : s.curUnit = v := by unfold State.curUnit Core.unit; rw [hk]; rfl
      rw [this]
      exact ⟨_, rfl⟩
  · exact fun d hd => core_modC_other s f hd
  · intro g _; rw [hc]; rfl

/-- What a bundle popped and a hand-over to be made are no state that a slot reads. -/
theorem begun_cur (s : State) (p : List (Nat × List W32)) (q : Option (Nat × Nat)) (v : List (Nat × Nat)) (h : s.live = true) :
    Begun s { s with cur := { s.cur with pops := p, hand := q, views := v } } :=
  ⟨rfl, h, .refl _, .refl _, ⟨_, _, _, rfl⟩, rfl, ⟨_, rfl⟩, fun _ _ => rfl, fun _ _ => rfl⟩

/-- Pops in turn. -/
theorem begun_pops (l : List (Nat × Nat)) (s : State) (h : s.live = true) : Begun s (l.foldl State.pop1 s) := by
  induction l generalizing s with
  | nil => exact .refl h
  | cons p r ih => have := begun_pop1 s p h; exact this.trans (ih _ this.live)

/-- A slot that has been set is read. -/
theorem setSlot_slot (g : Group) (i : Nat) (p : PcSlot) : (g.setSlot i p).slot i = p := by
  unfold Group.setSlot Group.slot; by_cases h : i = 0 <;> simp [h]

/-- Setting one slot leaves the other alone. -/
theorem setSlot_other (g : Group) (i : Nat) (p : PcSlot) (h : i < 2) : (g.setSlot i p).slot (1 - i) = g.slot (1 - i) := by
  unfold Group.setSlot Group.slot
  rcases Nat.lt_or_ge i 1 with h0 | h0
  · have : i = 0 := by omega
    subst this; rfl
  · have : i = 1 := by omega
    subst this; rfl

/-- The stream moves to its successor. -/
theorem begun_moveOn (s : State) (l : List SlotI) (h : s.live = true) : Begun s (s.moveOn l) := by
  have a := begun_wakeBanks s l h
  have b := a.trans (begun_modC (s.wakeBanks l)
    (fun k => k.enter s.path (hdrEnergy s.cur.hdr) (s.cur.gid / 4 * 2 + s.cur.slot + 1) s.onShader) a.live
    (fun _ => rfl) (fun _ => rfl) (fun _ => rfl))
  refine b.trans (begun_modG _ _ b.live ⟨?_, ?_⟩ ?_ ?_)
  · unfold Group.moveOn Group.setSlot; split <;> rfl
  · unfold Group.moveOn Group.setSlot; split <;> rfl
  · exact ⟨_, _, _, setSlot_slot _ _ _⟩
  · exact setSlot_other _ _ _ (live_parts h).2.2

/-- The start of an issue. -/
theorem begun_start (s : State) (l : List SlotI) (h : s.live = true) : Begun s (s.start l) := by
  have c := begun_moveOn s l h
  have d := c.trans (begun_bump (s.moveOn l) s.cur.core 2 1 c.live rfl)
  have e := d.trans (begun_bump _ s.cur.core 3 (l.filter (fun p => (p.1 == 1 || p.1 == 2) && s.acts p.2)).length d.live
    d.only.cur.1.symm)
  have f := e.trans (begun_bump _ s.cur.core 4 (l.filter (fun p => p.1 == 3 && s.acts p.2)).length e.live e.only.cur.1.symm)
  have g := f.trans (begun_cur _ [] none (viewsOf l) f.live)
  exact g.trans (begun_pops _ _ g.live)

/-! ### Where the stream stands afterwards -/

/-- The stream's slot and its core's results in flight are as they were. -/
def Still (s t : State) : Prop :=
  t.curSlot = s.curSlot ∧ t.curCore.inflight = s.curCore.inflight ∧ t.curGrp.rlbl = s.curGrp.rlbl

theorem Still.trans {s t u : State} (a : Still s t) (b : Still t u) : Still s u :=
  ⟨b.1.trans a.1, b.2.1.trans a.2.1, b.2.2.trans a.2.2⟩

theorem still_wakeBanks (s : State) (l : List SlotI) (h : s.live = true) : Still s (s.wakeBanks l) := by
  obtain ⟨h1, h2, h3⟩ := live_parts h
  obtain ⟨a1, a2, a3, a4, a5⟩ := wakeRegs_group (readBanks l ++ (s.writeBanks l).map Prod.fst) s.curCore s.cur.gid
  obtain ⟨bk, hl, hb⟩ := a5 h2
  have hc : (s.wakeBanks l).curCore =
      (readBanks l ++ (s.writeBanks l).map Prod.fst).foldl (fun c i => c.wakeReg s.cur.gid i) s.curCore := curCore_modC s _ h1
  have hg : (s.wakeBanks l).curGrp = { s.curGrp with banks := bk } := by
    show (s.wakeBanks l).curCore.group s.cur.gid = _
    rw [hc, hb]; rfl
  refine ⟨?_, by rw [hc, a3], by rw [hg]⟩
  show (s.wakeBanks l).curGrp.slot s.cur.slot = _
  rw [hg]; rfl

theorem still_bump (s : State) (c e n : Nat) : Still s (s.bump c e n) := by
  obtain ⟨p, q, hp⟩ := bump_core s c e n s.cur.core
  have hcur : (s.bump c e n).cur = s.cur := by unfold State.bump; dsimp only; split <;> rfl
  have hc : (s.bump c e n).curCore = { s.curCore with perf := p, perfClk := q } := by
    show (s.bump c e n).core (s.bump c e n).cur.core = _; rw [hcur, hp]; rfl
  have hg : (s.bump c e n).curGrp = s.curGrp := by
    show (s.bump c e n).curCore.group (s.bump c e n).cur.gid = _; rw [hcur, hc]; rfl
  refine ⟨?_, by rw [hc], by rw [hg]⟩
  show (s.bump c e n).curGrp.slot (s.bump c e n).cur.slot = _
  rw [hg, hcur]; rfl

theorem stillCur (s : State) (p : List (Nat × List W32)) (q : Option (Nat × Nat)) (v : List (Nat × Nat)) :
    Still s { s with cur := { s.cur with pops := p, hand := q, views := v } } := ⟨rfl, rfl, rfl⟩

theorem still_pop1 (s : State) (p : Nat × Nat) (h : s.live = true) : Still s (s.pop1 p) := by
  obtain ⟨h1, _, _⟩ := live_parts h
  have hc : ∃ f : WUnit → WUnit, (s.pop1 p).curCore = s.curCore.modUnit s.curGrp.uid f := ⟨_, curCore_modC s _ h1⟩
  obtain ⟨f, hc⟩ := hc
  have hg : (s.pop1 p).curGrp = s.curGrp := by
    show (s.pop1 p).curCore.group s.cur.gid = _; rw [hc]; rfl
  refine ⟨?_, by rw [hc]; rfl, by rw [hg]⟩
  show (s.pop1 p).curGrp.slot s.cur.slot = _
  rw [hg]; rfl

theorem still_pops (l : List (Nat × Nat)) (s : State) (h : s.live = true) : Still s (l.foldl State.pop1 s) := by
  induction l generalizing s with
  | nil => exact ⟨rfl, rfl, rfl⟩
  | cons p r ih => exact (still_pop1 s p h).trans (ih _ (begun_pop1 s p h).live)

/-- Where the stream stands once it has moved on: its slot at the successor, results freed from the freeze store counting down
again (R71, R376), and the restart label of a marked bundle. -/
def Onward (s t : State) (l : List SlotI) : Prop :=
  t.curSlot = { s.curSlot with
    pc := s.curSlot.pc + BitVec.ofNat 32 s.cur.len, next := s.curCore.pclk + 1 + hdrStall s.cur.hdr,
    bases := if hdrMark s.cur.hdr then [0, 0, 0, 0, 0] else s.cur.images l }
  ∧ t.curCore.inflight = s.curCore.thaw.inflight
  ∧ t.curGrp.rlbl = (if hdrMark s.cur.hdr then s.curSlot.pc else s.curGrp.rlbl)

theorem onward_moveOn (s : State) (l : List SlotI) (h : s.live = true) : Onward s (s.moveOn l) l := by
  have a := begun_wakeBanks s l h
  have a' := still_wakeBanks s l h
  set s1 := s.wakeBanks l with hs1
  set fc : Core → Core := (fun k => k.enter s.path (hdrEnergy s.cur.hdr) (s.cur.gid / 4 * 2 + s.cur.slot + 1) s.onShader) with hfc
  have b := a.trans (begun_modC s1 fc a.live (fun _ => rfl) (fun _ => rfl) (fun _ => rfl))
  have hc2 : (s1.modC fc).curCore = fc s1.curCore := curCore_modC s1 fc (live_parts a.live).1
  have hg2 : (s1.modC fc).curGrp = s1.curGrp := by
    show (s1.modC fc).curCore.group s.cur.gid = _; rw [hc2]; rfl
  set s2 := s1.modC fc with hs2
  set fg : Group → Group := (fun g => g.moveOn s.cur s.curCore.pclk l) with hfg
  have hm : s.moveOn l = s2.modG fg := rfl
  have hg3 : (s2.modG fg).curGrp = fg s2.curGrp := curGrp_modG s2 fg b.live
  have hc3 : (s2.modG fg).curCore = s2.curCore.modGroup s.cur.gid fg := curCore_modC s2 _ (live_parts b.live).1
  have hsl2 : s2.curGrp.slot s.cur.slot = s.curSlot := by rw [hg2]; exact a'.1
  rw [hm]
  refine ⟨?_, ?_, ?_⟩
  · show (s2.modG fg).curGrp.slot s.cur.slot = _
    rw [hg3]
    refine (setSlot_slot _ _ _).trans ?_
    rw [hsl2]
  · rw [hc3]
    show s2.curCore.inflight = _
    rw [hc2]
    show s1.curCore.thaw.inflight = _
    obtain ⟨a1, a2, a3, a4, a5⟩ := wakeRegs_group (readBanks l ++ (s.writeBanks l).map Prod.fst) s.curCore s.cur.gid
    have hfz : s1.curCore.freeze = s.curCore.freeze := by
      rw [show s1.curCore = _ from curCore_modC s _ (live_parts h).1, a4]
    have hfr : s1.curCore.frozen = s.curCore.frozen ∧ s1.curCore.pclk = s.curCore.pclk := by
      rw [a.core]; exact ⟨rfl, rfl⟩
    unfold Core.thaw Core.counts
    simp only [a'.2.1, hfz, hfr.1, hfr.2]
  · rw [hg3]
    show (Group.moveOn _ _ _ _).rlbl = _
    unfold Group.moveOn Group.setSlot
    rw [hsl2, hg2, a'.2.2]
    split <;> rfl

/-- Where the stream stands after the start of its issue. -/
theorem onward_start (s : State) (l : List SlotI) (h : s.live = true) : Onward s (s.start l) l := by
  have c := begun_moveOn s l h
  have d := begun_bump (s.moveOn l) s.cur.core 2 1 c.live rfl
  have e := begun_bump _ s.cur.core 3 (l.filter (fun p => (p.1 == 1 || p.1 == 2) && s.acts p.2)).length d.live
    (c.trans d).only.cur.1.symm
  have f := begun_bump _ s.cur.core 4 (l.filter (fun p => p.1 == 3 && s.acts p.2)).length e.live
    ((c.trans d).trans e).only.cur.1.symm
  have g0 := begun_cur _ [] none (viewsOf l) f.live
  have g1 := ((still_bump (s.moveOn l) s.cur.core 2 1).trans
    (still_bump _ s.cur.core 3 (l.filter (fun p => (p.1 == 1 || p.1 == 2) && s.acts p.2)).length)).trans
    (still_bump _ s.cur.core 4 (l.filter (fun p => p.1 == 3 && s.acts p.2)).length)
  have g : Still (s.moveOn l) (s.start l) := (g1.trans (stillCur _ [] none (viewsOf l))).trans (still_pops _ _ g0.live)
  obtain ⟨o1, o2, o3⟩ := onward_moveOn s l h
  exact ⟨g.1.trans o1, g.2.1.trans o2, g.2.2.trans o3⟩

/-- Pops leave a hand-over alone. -/
theorem pops_hand (l : List (Nat × Nat)) (s : State) : (l.foldl State.pop1 s).cur.hand = s.cur.hand := by
  induction l generalizing s with
  | nil => rfl
  | cons p r ih => exact (ih _).trans rfl
/-- No hand-over is to be made as the slots of a bundle begin to act. -/
theorem start_hand (s : State) (l : List SlotI) : (s.start l).cur.hand = none := by
  unfold State.start; exact pops_hand _ _

/-- Pops leave the stream's deferred traps alone, and so does the whole start of an issue. -/
theorem Begun.dueTrap {s t : State} (h : Begun s t) : t.dueTrap = s.dueTrap := by
  unfold State.dueTrap Group.isDue
  rw [h.grp.1, h.only.cur.2.2]

end Sys2Proof.Machine
end

