-- ==== Sys2Proof/Laws/Finish.lean ====
section
/-! SUPPORT. What the end of an issue does (R60, R61, R118): bank actions of the tail, and nothing else of registers, queues or
memory; and how a fixed-latency result is sent on its way (R71). -/

namespace Sys2Proof.Machine

/-! ### Tail actions -/

/-- What a tail's actions may change of a core: banks; matrix elements and buffer bytes only where an action is DARK. -/
def TailMoved (keepM keepB : Bool) (gid : Nat) (c d : Core) : Prop :=
  d = { c with groups := d.groups, scratch := d.scratch, buf := d.buf, wakes := d.wakes }
  ∧ (∀ g, g ≠ gid → d.group g = c.group g)
  ∧ (∃ bk mt, d.group gid = { c.group gid with banks := bk, mat := mt })
  ∧ (∀ g, (kget g d.groups).isSome = (kget g c.groups).isSome)
  ∧ (keepM = true → (d.group gid).mat = (c.group gid).mat) ∧ (keepB = true → d.buf = c.buf)

theorem TailMoved.refl {km kb : Bool} (gid : Nat) (c : Core) : TailMoved km kb gid c c := ⟨rfl, fun _ _ => rfl, ⟨_, _, rfl⟩, fun _ => rfl, fun _ => rfl, fun _ => rfl⟩
theorem TailMoved.trans {km kb : Bool} {gid : Nat} {c d e : Core} (a : TailMoved km kb gid c d) (b : TailMoved km kb gid d e) : TailMoved km kb gid c e := by
  obtain ⟨a1, a2, ⟨bk, mt, a3⟩, a4, a5, a6⟩ := a
  obtain ⟨b1, b2, ⟨bk', mt', b3⟩, b4, b5, b6⟩ := b
  exact ⟨by rw [b1, a1], fun g h => (b2 g h).trans (a2 g h), ⟨bk', mt', by rw [b3, a3]⟩, fun g => (b4 g).trans (a4 g),
    fun h => (b5 h).trans (a5 h), fun h => (b6 h).trans (a6 h)⟩

theorem tailMoved_foldl {α : Type} {km kb : Bool} (gid : Nat) (f : Core → α → Core) (hf : ∀ c x, TailMoved km kb gid c (f c x)) (l : List α) (c : Core) :
    TailMoved km kb gid c (l.foldl f c) := by
  induction l generalizing c with
  | nil => exact .refl gid c
  | cons x r ih => exact (hf c x).trans (ih _)

/-- A change of banks and matrix elements of the group. -/
theorem tailMoved_modGroup {km kb : Bool} (gid : Nat) (c : Core) (f : Group → Group) (hf : ∀ g, ∃ bk mt, f g = { g with banks := bk, mat := mt })
    (hk : km = true → ∀ g, (f g).mat = g.mat) :
    TailMoved km kb gid c (c.modGroup gid f) := by
  refine ⟨rfl, fun g h => group_modGroup_other c f h, ?_, fun g => groups_modGroup_isSome .., fun h => ?_, fun _ => rfl⟩
  by_cases h : (kget gid c.groups).isSome = true
  · rw [group_modGroup_same c gid f h]; exact hf _
  · have hn : kget gid c.groups = none := by simpa using h
    exact ⟨(c.group gid).banks, (c.group gid).mat, by simp [Core.group, Core.modGroup, kmod, hn]⟩
  · by_cases hs : (kget gid c.groups).isSome = true
    · rw [group_modGroup_same c gid f hs]; exact hk h _
    · have hn : kget gid c.groups = none := by simpa using hs
      simp [Core.group, Core.modGroup, kmod, hn]

/-- The tail's actions on a core. -/
theorem tailActs_core (s : State) :
    ∃ f : Core → Core, s.tailActs = s.modC f ∧ ∀ c, TailMoved (fld s.cur.tail 10 2 != 2) (fld s.cur.tail 12 2 != 2) s.cur.gid c (f c) := by
  unfold State.tailActs
  dsimp only
  refine ⟨_, rfl, fun c => ?_⟩
  have h1 : TailMoved (fld s.cur.tail 10 2 != 2) (fld s.cur.tail 12 2 != 2) s.cur.gid c (if fld s.cur.tail 10 2 == 0 then c else (List.range 10).foldl (fun c' i =>
      if bitN s.cur.tail i && i < (c'.group s.cur.gid).budget then
        (let c' := if fld s.cur.tail 10 2 == 3 && ((c'.group s.cur.gid).bank i).sleeps then { c' with wakes := c'.wakes + 8 } else c'
         let c' := c'.modGroup s.cur.gid (fun g => g.setBank i ((g.bank i).action (fld s.cur.tail 10 2) c.clk 6))
         if fld s.cur.tail 10 2 == 2 then c'.modGroup s.cur.gid (fun g => { g with mat := sdrop (1024 * i) 1024 g.mat }) else c')
      else c') c) := by
    split
    · exact .refl _ c
    · refine tailMoved_foldl _ _ (fun c' i => ?_) _ _
      split
      · have a : TailMoved (fld s.cur.tail 10 2 != 2) (fld s.cur.tail 12 2 != 2) s.cur.gid c' (if fld s.cur.tail 10 2 == 3 && ((c'.group s.cur.gid).bank i).sleeps
            then { c' with wakes := c'.wakes + 8 } else c') := by
          split
          · exact ⟨rfl, fun _ _ => rfl, ⟨_, _, rfl⟩, fun _ => rfl, fun _ => rfl, fun _ => rfl⟩
          · exact .refl _ _
        have b := a.trans (tailMoved_modGroup s.cur.gid _
          (fun g => g.setBank i ((g.bank i).action (fld s.cur.tail 10 2) c.clk 6)) (fun g => ⟨_, _, rfl⟩)
          (fun _ _ => rfl))
        dsimp only
        split
        · rename_i h2
          exact b.trans (tailMoved_modGroup s.cur.gid _ _ (fun g => ⟨_, _, rfl⟩) (fun h => by simp_all))
        · exact b
      · exact .refl _ _
  split
  · exact h1
  · refine h1.trans (tailMoved_foldl _ _ (fun c' i => ?_) _ _)
    split
    · have a : TailMoved (fld s.cur.tail 10 2 != 2) (fld s.cur.tail 12 2 != 2) s.cur.gid c' (if fld s.cur.tail 12 2 == 3 && (c'.sbank i).sleeps
            then { c' with wakes := c'.wakes + 64 } else c') := by
        split
        · exact ⟨rfl, fun _ _ => rfl, ⟨_, _, rfl⟩, fun _ => rfl, fun _ => rfl, fun _ => rfl⟩
        · exact .refl _ _
      split
      · rename_i h2
        exact a.trans ⟨rfl, fun _ _ => rfl, ⟨_, _, rfl⟩, fun _ => rfl, fun _ => rfl, fun h => by simp_all⟩
      · exact a.trans ⟨rfl, fun _ _ => rfl, ⟨_, _, rfl⟩, fun _ => rfl, fun _ => rfl, fun _ => rfl⟩
    · exact .refl _ _

/-- An issue without a trap or a hand-over ends with the tail's actions. -/
theorem finish_calm (s : State) (h : s.live = true) (hd : s.dueTrap = none) (hh : s.cur.hand = none) :
    ∃ f : Core → Core, s.finish = { s.modC f with cur := { s.cur with pops := [], hand := none, imgs := [], views := [] } }
      ∧ ∀ c, TailMoved (fld s.cur.tail 10 2 != 2) (fld s.cur.tail 12 2 != 2) s.cur.gid c (f c) := by
  obtain ⟨f, hf, hm⟩ := tailActs_core s
  refine ⟨f, ?_, hm⟩
  have ho : s.tailActs.handOver = s.tailActs := by
    unfold State.handOver
    rw [show s.tailActs.cur.hand = none by rw [hf]; exact hh]
  have hg : ({ s.tailActs with cur := { s.tailActs.cur with pops := [], hand := none, imgs := [], views := [] } } : State).dueTrap = none := by
    unfold State.dueTrap Group.isDue at hd ⊢
    have e : ({ s.tailActs with cur := { s.tailActs.cur with pops := [], hand := none, imgs := [], views := [] } } : State).curGrp
        = (f s.curCore).group s.cur.gid := by
      rw [hf]
      show ((s.modC f).core s.cur.core).group s.cur.gid = _
      rw [show (s.modC f).core s.cur.core = f s.curCore from curCore_modC s f (live_parts h).1]
    obtain ⟨bk, mt, e'⟩ := (hm s.curCore).2.2.1
    rw [e, e', hf]; exact hd
  unfold State.finish
  dsimp only
  rw [ho]
  split
  · rw [hg, hf]; rfl
  · rw [hf]; rfl

/-- Sending a result. -/
theorem emit_core (s : State) (n lam : Nat) (ws : List Wr) (h : s.live = true) (hw : ws ≠ []) :
    (s.emit n lam ws).curCore = { s.curCore with inflight := s.curCore.inflight ++
      [{ id := s.fresh, due := s.curCore.pclk + lam, issued := s.curCore.pclk, gid := s.cur.gid, gix := s.curGrp.gix, slot := n, writes := ws,
         dest := s.cur.destOf n ws }] } := by
  unfold State.emit
  rw [if_neg (by simpa using hw)]
  exact curCore_modC s _ (live_parts h).1

theorem emit_state (s : State) (n lam : Nat) (ws : List Wr) :
    s.emit n lam ws = { s with cores := (s.emit n lam ws).cores, fresh := (s.emit n lam ws).fresh } := by
  unfold State.emit; split <;> rfl

/-- A result that is sent in an issue without a trap is on its way afterwards. -/
theorem lands_finish (s : State) (n lam : Nat) (ws : List Wr) (h : s.live = true) (hd : s.dueTrap = none) (hh : s.cur.hand = none) (hw : ws ≠ []) :
    Lands s (s.emit n lam ws).finish lam ws := by
  have hcur : (s.emit n lam ws).cur = s.cur := by rw [emit_state]
  have hc := emit_core s n lam ws h hw
  have hg : (s.emit n lam ws).curGrp = s.curGrp := by
    show (s.emit n lam ws).curCore.group (s.emit n lam ws).cur.gid = _; rw [hc, hcur]; rfl
  have hl : (s.emit n lam ws).live = true := by
    simp only [State.live, Bool.and_eq_true, decide_eq_true_eq]
    obtain ⟨h1, h2, h3⟩ := live_parts h
    rw [hcur, hc]
    refine ⟨⟨?_, h2⟩, h3⟩
    unfold State.emit; rw [if_neg (by simpa using hw)]
    exact (cores_modCore_isSome ..).trans h1
  obtain ⟨f, hf, hm⟩ := finish_calm (s.emit n lam ws) hl (by unfold State.dueTrap at hd ⊢; rw [hg, hcur]; exact hd) (by rw [hcur]; exact hh)
  have hk : ((s.emit n lam ws).finish).core s.cur.core = f (s.emit n lam ws).curCore := by
    rw [hf]
    show ((s.emit n lam ws).modC f).core s.cur.core = _
    rw [← hcur]; exact curCore_modC _ f (live_parts hl).1
  refine ⟨{ id := s.fresh, due := s.curCore.pclk + lam, issued := s.curCore.pclk, gid := s.cur.gid, gix := s.curGrp.gix, slot := n, writes := ws, dest := s.cur.destOf n ws },
    ?_, rfl, rfl, rfl, rfl⟩
  rw [hk, (hm _).1, hc]
  simp

end Sys2Proof.Machine
end

