-- ==== Sys2Proof/Laws/Read.lean ====
section
/-! SUPPORT. What the slots of a bundle read is what stood there before the issue (R71, R113): one lemma per accessor. -/

namespace Sys2Proof.Machine

variable {s t : State}

theorem Begun.curGrp_eq (h : Begun s t) : t.curGrp = { s.curGrp with
    banks := t.curGrp.banks, rlbl := t.curGrp.rlbl, slot0 := t.curGrp.slot0, slot1 := t.curGrp.slot1 } := h.grp.1
theorem Begun.sr (h : Begun s t) (r : Nat) : t.sr r = s.sr r := by
  unfold State.sr Group.sreg; rw [h.curGrp_eq]
theorem Begun.pr (h : Begun s t) (r : Nat) : t.pr r = s.pr r := by
  unfold State.pr Group.preg; rw [h.curGrp_eq]
theorem Begun.role (h : Begun s t) : t.curGrp.role = s.curGrp.role := by rw [h.curGrp_eq]
theorem Begun.deferred (h : Begun s t) : t.curGrp.deferred = s.curGrp.deferred := by rw [h.curGrp_eq]
/-- An issue of a lone instruction begins without a hand-over to be made. -/
theorem begun_hand (s : State) (i : Instr) : (s.begun i).cur.hand = none := start_hand _ _
theorem Begun.mask (h : Begun s t) : t.curSlot.mask = s.curSlot.mask := by
  obtain ⟨_, _, _, e⟩ := h.slot; rw [e]
theorem Begun.fmt (h : Begun s t) : t.curSlot.fmt = s.curSlot.fmt := by
  obtain ⟨_, _, _, e⟩ := h.slot; rw [e]
theorem Begun.depth (h : Begun s t) : t.curSlot.depth = s.curSlot.depth := by
  obtain ⟨_, _, _, e⟩ := h.slot; rw [e]
theorem Begun.active (h : Begun s t) : t.active = s.active := by
  unfold State.active; rw [h.role, h.mask]
theorem Begun.act (h : Begun s t) (g : Guard) : t.act g = s.act g := by
  unfold State.act State.guardMask; rw [h.active, h.pr]
theorem Begun.acts (h : Begun s t) (i : Instr) : t.acts i = s.acts i := by
  unfold State.acts; rw [h.act]
theorem Begun.pclk (h : Begun s t) : t.curCore.pclk = s.curCore.pclk := by rw [h.core]
theorem Begun.clk (h : Begun s t) : t.curCore.clk = s.curCore.clk := by rw [h.core]
theorem Begun.eclk (h : Begun s t) : t.curCore.eclk = s.curCore.eclk := by rw [h.core]
theorem Begun.fresh (h : Begun s t) : t.fresh = s.fresh := by rw [h.only]
theorem Begun.free (h : Begun s t) : t.free = s.free := by rw [h.only]
theorem Begun.mem (h : Begun s t) : t.mem = s.mem := by rw [h.only]
theorem Begun.now (h : Begun s t) : t.now = s.now := by rw [h.only]
theorem Begun.laneFmt (h : Begun s t) (la : Fin 4) : t.laneFmt la = s.laneFmt la := by
  unfold State.laneFmt; rw [h.fmt]
theorem Begun.rnd (h : Begun s t) : t.rnd = s.rnd := by unfold State.rnd; rw [h.fmt]
theorem Begun.sat (h : Begun s t) : t.sat = s.sat := by unfold State.sat; rw [h.fmt]
theorem Begun.elt (h : Begun s t) : t.elt = s.elt := by unfold State.elt; rw [h.fmt]
theorem Begun.lpb (h : Begun s t) : t.lpb = s.lpb := by
  unfold State.lpb State.lpbOf; rw [h.curGrp_eq, h.only]
/-- A source that is no queue pop. -/
theorem Begun.src (h : Begun s t) (n : Nat) (x : VSrc) (hx : x.noPop = true) (j : Nat) : t.src n x j = s.src n x j := by
  cases x with
  | view v => unfold State.src Group.elem; rw [h.curGrp_eq]
  | bcast i => show low32 (t.sr i.val) = low32 (s.sr i.val); rw [h.sr]
  | pool i => unfold State.src; rw [h.curGrp_eq]
  | const i => rfl
  | lane i => rfl
  | qpop q => simp [VSrc.noPop] at hx

/-- An instruction without a hold of its own begins with the start of the issue. -/
theorem begun_issues {i : Instr} (h : s.issues i = true) (hh : ((soloSem i).hold s).2 = s) : Begun s (s.begun i) := by
  unfold State.begun; rw [hh]; exact begun_start s _ (issues_parts h).1

/-- An instruction whose effect is to send a result. -/
theorem yields_emit {i : Instr} {n lam : Nat} {ws : List Wr} (hi : i.isSlot = true) (h : s.issues i = true)
    (hh : ((soloSem i).hold s).2 = s) (he : (soloSem i).eff (s.begun i) = (s.begun i).emit n lam ws) (hw : ws ≠ []) :
    ∃ t, exec i s = .next t ∧ Lands s t lam ws := by
  have b := begun_issues h hh
  refine ⟨_, exec_of_issues i s hi h, ?_⟩
  rw [he]
  have hd : (s.begun i).dueTrap = none := by rw [b.dueTrap]; exact (issues_parts h).2.1
  have l := lands_finish (s.begun i) n lam ws b.live hd (begun_hand s i) hw
  obtain ⟨c1, c2, c3⟩ := b.only.cur
  unfold Lands at l ⊢
  rw [c1, c2, b.pclk] at l
  exact l

/-- Where the guard lets a slot act, its effect is that of its meaning. -/
theorem gated_eff {i : Instr} (b : Begun s t) (ha : s.act (opInfo i).guard ≠ 0) :
    (soloSem i).eff t = (semOf (soloSlot i) i).eff t := by
  have : t.acts i = true := by rw [b.acts]; unfold State.acts; simpa using ha
  unfold soloSem Sem.gated
  simp [this]

/-- Where the guard lets no lane act, nothing is done. -/
theorem gated_off {i : Instr} (b : Begun s t) (ha : s.act (opInfo i).guard = 0) : (soloSem i).eff t = t := by
  have : t.acts i = false := by rw [b.acts]; unfold State.acts; simpa using ha
  unfold soloSem Sem.gated
  simp [this]

/-- An acting instruction whose meaning is to send a result yields it. -/
theorem result_yields {i : Instr} {n lam : Nat} {ws : List Wr} (hi : i.isSlot = true) (h : s.issues i = true)
    (ha : s.act (opInfo i).guard ≠ 0) (hh : ((soloSem i).hold s).2 = s)
    (he : ∀ t, Begun s t → (semOf (soloSlot i) i).eff t = t.emit n lam ws) (hw : ws ≠ []) :
    ∃ t, exec i s = .next t ∧ Lands s t lam ws := by
  have b := begun_issues h hh
  exact yields_emit hi h hh (by rw [gated_eff b ha, he _ b]) hw

end Sys2Proof.Machine
end

