-- ==== Sys2Proof/Laws/Frame.lean ====
section
/-! SUPPORT. What an instruction leaves alone whose one effect is to send a result, or that its guard keeps from acting. -/

namespace Sys2Proof.Machine

/-- An issue whose slots change no more than results in flight, identifiers and free values leaves everything else alone. -/
theorem onlyIssued_finish (s : State) (i : Instr) (u : State) (h : s.issues i = true) (hh : ((soloSem i).hold s).2 = s)
    (hu : u = { (s.begun i) with cores := u.cores, fresh := u.fresh, free := u.free })
    (ho : ∀ d, d ≠ s.cur.core → u.core d = (s.begun i).core d) (hl : u.live = true)
    (hc : u.curCore = { (s.begun i).curCore with inflight := u.curCore.inflight }) :
    OnlyIssued s u.finish ∧ (s.coreIn u.finish).inflight = u.curCore.inflight := by
  have b := begun_issues h hh
  have w : Onward s (s.begun i) (soloSlots i) := by
    unfold State.begun; rw [hh]; exact onward_start s _ (issues_parts h).1
  obtain ⟨c1, c2, c3⟩ := b.only.cur
  have hcur : u.cur = (s.begun i).cur := by rw [hu]
  have hg : u.curGrp = (s.begun i).curGrp := by
    show u.curCore.group u.cur.gid = _; rw [hc, hcur]; rfl
  have hd : u.dueTrap = none := by
    have := b.dueTrap.trans (issues_parts h).2.1
    unfold State.dueTrap at this ⊢; rw [hg, hcur]; exact this
  obtain ⟨f, hf, hm⟩ := finish_calm u hl hd (by rw [hcur]; exact begun_hand s i)
  have hgid : u.cur.gid = s.cur.gid := by rw [hcur, c2]
  have hcore : u.cur.core = s.cur.core := by rw [hcur, c1]
  have htail : u.cur.tail = s.cur.tail := by rw [hcur, b.only]
  rw [htail, hgid] at hm
  have hk : u.finish.core s.cur.core = f u.curCore := by
    rw [hf]; show (u.modC f).core s.cur.core = _
    rw [← hcore]; exact curCore_modC u f (live_parts hl).1
  obtain ⟨m1, m2, ⟨bk, mt, m3⟩, m4, m5, m6⟩ := hm u.curCore
  have hgr : u.finish.group s.cur.core s.cur.gid = { (s.begun i).curGrp with banks := bk, mat := mt } := by
    show (u.finish.core s.cur.core).group s.cur.gid = _
    rw [hk, m3, ← hgid]
    show { u.curGrp with banks := bk, mat := mt } = _
    rw [hg]
  have hslot : s.slotIn u.finish = (s.begun i).curSlot := by
    show (u.finish.group s.cur.core s.cur.gid).slot s.cur.slot = _
    rw [hgr]
    show (s.begun i).curGrp.slot s.cur.slot = _
    rw [← c3]; rfl
  refine ⟨⟨⟨?_, ?_⟩, ⟨?_, ?_, ?_, ?_, ?_, ?_⟩, ⟨?_, ?_, ?_⟩, ?_, ?_, ?_⟩, ?_⟩
  · rw [hf, hu, b.only]; rfl
  · intro d hd'
    rw [hf]
    show (u.modC f).core d = _
    rw [core_modC_other u f (by rw [hcore]; exact hd'), ho d hd', b.cores d hd']
  · show u.finish.group s.cur.core s.cur.gid = _
    rw [hgr, b.curGrp_eq]
    unfold State.groupIn
    rw [hgr]
  · rw [hslot, b.mask]
  · rw [hslot, b.depth]
  · rw [hslot, b.fmt]
  · rw [hslot]; obtain ⟨_, _, _, e⟩ := b.slot; rw [e]
  · show (u.finish.group s.cur.core s.cur.gid).slot _ = _
    rw [hgr]; exact b.other
  · show u.finish.core s.cur.core = _
    unfold State.coreIn
    rw [hk, m1, hc, b.core]
  · intro g hg'
    show (u.finish.core s.cur.core).group g = _
    rw [hk, m2 g hg', hc]
    exact b.groups g hg'
  · intro ht
    show (u.finish.core s.cur.core).buf = _
    rw [hk, m6 (by simpa using ht), hc, b.core]
  · intro ht
    show (u.finish.group s.cur.core s.cur.gid).mat = _
    have := m5 (by simpa using ht)
    show ((u.finish.core s.cur.core).group s.cur.gid).mat = _
    rw [hk, this, ← hgid]
    show u.curGrp.mat = _
    rw [hg, b.curGrp_eq]
  · rw [hslot, w.1]; rfl
  · rw [hslot, w.1]; rfl
  · show (u.finish.core s.cur.core).inflight = _
    rw [hk, m1]

/-- An issue whose slot sends one result. -/
theorem onlyIssued_emit (s : State) (i : Instr) (n lam : Nat) (ws : List Wr) (h : s.issues i = true)
    (hh : ((soloSem i).hold s).2 = s) :
    OnlyIssued s ((s.begun i).emit n lam ws).finish := by
  have b := begun_issues h hh
  by_cases hw : ws = []
  · subst hw
    exact (onlyIssued_finish s i _ h hh rfl (fun _ _ => rfl) b.live rfl).1
  · have hcur : ((s.begun i).emit n lam ws).cur = (s.begun i).cur := by rw [emit_state]
    have hc := emit_core (s.begun i) n lam ws b.live hw
    refine (onlyIssued_finish s i _ h hh ?_ ?_ ?_ ?_).1
    · unfold State.emit; rw [if_neg (by simpa using hw)]; rfl
    · intro d hd
      unfold State.emit; rw [if_neg (by simpa using hw)]
      exact core_modC_other (s.begun i) _ (by rw [b.only.cur.1]; exact hd)
    · obtain ⟨h1, h2, h3⟩ := live_parts b.live
      simp only [State.live, Bool.and_eq_true, decide_eq_true_eq]
      rw [hcur, hc]
      refine ⟨⟨?_, h2⟩, h3⟩
      unfold State.emit; rw [if_neg (by simpa using hw)]
      exact (cores_modCore_isSome ..).trans h1
    · rw [hc]

end Sys2Proof.Machine
end

