-- ==== Sys2Proof/Laws/Memory.lean ====
section
/-! SUPPORT. Memory: every operation that stores keeps its canonical form, and a byte read after a store is the byte stored. Every
store of the machine goes through `State.putByte`. -/

namespace Sys2Proof.Machine

/-- The memory of reset is in canonical form. -/
theorem reset_memOk : State.reset.memOk = true := rfl
/-- A state with the same memory. -/
theorem memOk_of_mem {s t : State} (e : t.mem = s.mem) (h : s.memOk = true) : t.memOk = true := by unfold State.memOk; rw [e]; exact h
@[simp] theorem modCore_memOk (s : State) (c : Nat) (f : Core → Core) : (s.modCore c f).memOk = s.memOk := rfl
@[simp] theorem bump_memOk (s : State) (c e n : Nat) : (s.bump c e n).memOk = s.memOk := by
  unfold State.bump; dsimp only; split <;> rfl
/-- A fold of operations that keep the form keeps it. -/
theorem foldl_memOk {α : Type} (f : State → α → State) (hf : ∀ s x, s.memOk = true → (f s x).memOk = true) (l : List α) {s : State}
    (h : s.memOk = true) : (l.foldl f s).memOk = true := by
  induction l generalizing s with
  | nil => exact h
  | cons x r ih => exact ih (hf _ _ h)

theorem putByte_memOk {s : State} (pa : Nat) (v : Byte) (h : s.memOk = true) : (s.putByte pa v).memOk = true := swf_sset 0 _ v _ h
theorem putBytes_memOk {s : State} (pa : Nat) (l : List Byte) (h : s.memOk = true) : (s.putBytes pa l).memOk = true := by
  induction l generalizing s pa with
  | nil => exact h
  | cons v r ih => exact ih _ (putByte_memOk pa v h)
theorem settle1_memOk {s : State} (w : Nat) (h : s.memOk = true) : (s.settle1 w).memOk = true := by
  unfold State.settle1; split
  · exact h
  · exact putBytes_memOk _ _ h
theorem settleRange_memOk {s : State} (pa n : Nat) (h : s.memOk = true) : (s.settleRange pa n).memOk = true :=
  foldl_memOk _ (fun _ w h => settle1_memOk w h) _ h
/-- Settling the words a walk reads keeps the form. -/
theorem settleWalk_memOk {s : State} (die root va : Nat) (h : s.memOk = true) : (s.settleWalk die root va).memOk = true := by
  have k {u : State} (hu : u.memOk = true) (p n : Nat) := settleRange_memOk (s := u) p n hu
  unfold State.settleWalk
  repeat' first | split | apply k | assumption | dsimp only
@[simp] theorem noteBad_memOk (s : State) (c k : Nat) : (s.noteBad c k).memOk = s.memOk := rfl
theorem homeWrite_memOk {s : State} (pa : Nat) (v : List Byte) (h : s.memOk = true) : (s.homeWrite pa v).memOk = true :=
  putBytes_memOk _ _ (settleRange_memOk _ _ h)
theorem homeRead_memOk {s : State} (pa n ty : Nat) (h : s.memOk = true) : (s.homeRead pa n ty).2.memOk = true := by
  have k := settleRange_memOk pa n h
  unfold State.homeRead; dsimp only; split
  · split <;> exact k
  · exact k
theorem cleanLine_memOk {s : State} (c k : Nat) (h : s.memOk = true) : (s.cleanLine c k).memOk = true := by
  unfold State.cleanLine; split
  · exact h
  · exact foldl_memOk _ (fun _ i h => by split; exact homeWrite_memOk _ _ h; exact h) _ h
theorem dropLine_memOk {s : State} (c k : Nat) (h : s.memOk = true) : (s.dropLine c k).memOk = true := cleanLine_memOk c k h
theorem cleanAll_memOk {s : State} (c : Nat) (h : s.memOk = true) : (s.cleanAll c).memOk = true :=
  foldl_memOk _ (fun _ k h => cleanLine_memOk c k h) _ h
theorem flush_memOk {s : State} (c : Nat) (h : s.memOk = true) : (s.flush c).memOk = true :=
  foldl_memOk _ (fun _ k h => dropLine_memOk c k h) _ h
theorem fenceAt_memOk {s : State} (c scope : Nat) (h : s.memOk = true) : (s.fenceAt c scope).memOk = true := by
  unfold State.fenceAt; split
  · exact flush_memOk c h
  · exact h
theorem dropEverywhere_memOk {s : State} (k : Nat) (h : s.memOk = true) : (s.dropEverywhere k).memOk = true :=
  foldl_memOk _ (fun _ c h => by split; exact dropLine_memOk c k h; exact h) _ h
theorem addLine_memOk {s : State} (c k : Nat) (l : Line) (h : s.memOk = true) : (s.addLine c k l).memOk = true := by
  unfold State.addLine; dsimp only; split
  · exact h
  · split
    · exact h
    · exact dropLine_memOk c _ h
theorem readHome_memOk {s : State} (c pa n ty : Nat) (h : s.memOk = true) : (s.readHome c pa n ty).2.memOk = true := by
  unfold State.readHome; split
  · exact homeRead_memOk _ _ _ h
  · split
    · exact homeRead_memOk _ _ _ (dropLine_memOk _ _ h)
    · exact homeRead_memOk _ _ _ h
@[simp] theorem markFar_memOk (s : State) (pa : Nat) : (s.markFar pa).memOk = s.memOk := by
  unfold State.markFar; split <;> rfl
theorem loadG_memOk {s : State} (c launch pa n scope ty : Nat) (h : s.memOk = true) : (s.loadG c launch pa n scope ty).2.memOk = true := by
  unfold State.loadG; dsimp only; split
  · split
    · simpa using h
    · exact addLine_memOk _ _ _ (homeRead_memOk _ _ _ (by simpa using h))
  · exact readHome_memOk _ _ _ _ h
theorem storeG_memOk {s : State} (c launch pa : Nat) (v : List Byte) (scope ty : Nat) (h : s.memOk = true) :
    (s.storeG c launch pa v scope ty).memOk = true := by
  unfold State.storeG; dsimp only; split
  · refine addLine_memOk _ _ _ ?_
    split
    · dsimp only; split
      · simpa using h
      · exact h
    · dsimp only; split
      · exact homeRead_memOk _ _ _ (by simpa using h)
      · exact h
  · exact homeWrite_memOk _ _ h
theorem beforeAtomic_memOk {s : State} (c pa : Nat) (h : s.memOk = true) : (s.beforeAtomic c pa).memOk = true := by
  unfold State.beforeAtomic; dsimp only; split
  · exact dropLine_memOk _ _ h
  · exact h
theorem writeV_memOk {s t : State} (c root : Nat) (priv : Bool) (va : Nat) (l : List Byte) (h : s.memOk = true)
    (e : s.writeV c root priv va l = some t) : t.memOk = true := by
  induction l generalizing s va with
  | nil => simp only [State.writeV, Option.some.injEq] at e; exact e ▸ h
  | cons v r ih =>
    simp only [State.writeV] at e
    split at e
    · split at e
      · exact ih _ (homeWrite_memOk _ _ (settleWalk_memOk _ _ _ h)) e
      · cases e
    · cases e
theorem storeOwn_memOk {s t : State} (c launch root : Nat) (priv : Bool) (va : Nat) (l : List Byte) (h : s.memOk = true)
    (e : s.storeOwn c launch root priv va l = some t) : t.memOk = true := by
  induction l generalizing s va with
  | nil => simp only [State.storeOwn, Option.some.injEq] at e; exact e ▸ h
  | cons v r ih =>
    simp only [State.storeOwn] at e
    split at e
    · split at e
      · exact ih _ ((markFar_memOk _ _).trans (storeG_memOk _ _ _ _ _ _ (settleWalk_memOk _ _ _ h))) e
      · cases e
    · cases e
theorem loadOwn_memOk {s : State} (c launch root : Nat) (priv : Bool) (va n : Nat) (h : s.memOk = true) {q : List Byte × State}
    (e : s.loadOwn c launch root priv va n = .ok q) : q.2.memOk = true := by
  induction n generalizing s va q with
  | zero => simp only [State.loadOwn, Except.ok.injEq] at e; exact e ▸ h
  | succ n ih =>
    simp only [State.loadOwn] at e
    split at e
    · cases e
    · split at e
      · split at e
        · cases e
        · split at e
          · rename_i q' hq
            simp only [Except.ok.injEq] at e
            have k := ih _ (loadG_memOk _ _ _ _ _ _ (settleWalk_memOk _ _ _ h)) hq
            rw [← e]; exact k
          · cases e
      · cases e
theorem imgWrite_memOk {s : State} (l : Lpb) (index gpos o : Nat) (b : List Byte) (h : s.memOk = true) : (s.imgWrite l index gpos o b).memOk = true := by
  induction b generalizing s o with
  | nil => exact h
  | cons v r ih =>
    refine ih _ ?_
    cases e : s.writeV 0x10000 l.root true (l.imageVa index gpos o) [v] with
    | none => exact h
    | some t => exact writeV_memOk _ _ _ _ _ h e
theorem saveImage_memOk {s : State} (c uid : Nat) (h : s.memOk = true) : (s.saveImage c uid).memOk = true :=
  foldl_memOk _ (fun _ f h => by split; exact imgWrite_memOk _ _ _ _ _ h; exact h) _ h
theorem signal_memOk {s t : State} (l : Lpb) (v : Nat) (h : s.memOk = true) (e : s.signal l v = some t) : t.memOk = true := by
  unfold State.signal at e; split at e
  · exact Option.some.inj e ▸ h
  · exact writeV_memOk _ _ _ _ _ h e
theorem rmw_memOk {s : State} (sp : Space) (n : Nat) (l : Lane) (f : Nat → Nat) (h : s.memOk = true) : (s.rmw sp n l f).2.memOk = true := by
  unfold State.rmw; dsimp only; split
  · exact (markFar_memOk _ _).trans (putBytes_memOk _ _ (settleRange_memOk _ _ (beforeAtomic_memOk _ _ h)))
  · exact h
theorem openExact_memOk {s : State} (w : Nat) (h : s.memOk = true) : (s.openExact w).memOk = true := by
  unfold State.openExact; split
  · exact h
  · exact dropEverywhere_memOk _ h
theorem addExact_memOk {s : State} (w v : Nat) (h : s.memOk = true) : (s.addExact w v).memOk = true := openExact_memOk w h
theorem settleLanes_memOk {s : State} (l : List Lane) (h : s.memOk = true) : (s.settleLanes l).2.memOk = true := by
  induction l generalizing s with
  | nil => exact h
  | cons x r ih =>
    refine ih ?_
    split
    · exact h
    · exact settleRange_memOk _ _ (beforeAtomic_memOk _ _ h)
/-- Boot keeps memory as it stands. -/
theorem boot_memOk {s : State} (h : s.memOk = true) :
    s.rebooted.memOk = true ∧ s.verify.memOk = true ∧ s.train.memOk = true := by
  refine ⟨h, h, ?_⟩
  unfold State.train; dsimp only; split <;> exact h

/-- A byte stored is read. -/
theorem byte_putByte_same {s : State} (pa : Nat) (v : Byte) (h : s.memOk = true) : (s.putByte pa v).byte pa = v :=
  sget_sset_same 0 _ v _ h
/-- A store leaves every byte that stands elsewhere. -/
theorem byte_putByte_other {s : State} {pa a : Nat} (v : Byte) (h : s.memOk = true) (ne : s.canon a ≠ s.canon pa) :
    (s.putByte pa v).byte a = s.byte a := sget_sset_other 0 ne v _ h

/-- Settling the words of a virtual range keeps it. -/
theorem settleV_memOk {s : State} (c root va n : Nat) (h : s.memOk = true) : (s.settleV c root va n).memOk = true := by
  unfold State.settleV
  split
  · exact h
  · refine foldl_memOk _ (fun u i hu => ?_) _ h
    dsimp only
    split
    · exact settleRange_memOk _ _ (settleWalk_memOk _ _ _ hu)
    · exact settleWalk_memOk _ _ _ hu
/-- Settling the parts a parameter block names keeps it. -/
theorem settleParts_memOk {s : State} (img : Option (List Byte)) (h : s.memOk = true) : (s.settleParts img).memOk = true := by
  have d : ∀ {u : State} (r va n : Nat), u.memOk = true → (u.settleV 65536 r va n).memOk = true := fun _ _ _ hu => settleV_memOk _ _ _ _ hu
  unfold State.settleParts
  cases img with
  | none => exact h
  | some x =>
    dsimp only
    split
    · exact h
    · have b : (if (lpbOfImage x 0 0).topbVa == 0 then s else s.settleV 65536 (lpbOfImage x 0 0).root (lpbOfImage x 0 0).topbVa 256).memOk = true := by
        split
        · exact h
        · exact d _ _ _ h
      generalize (if (lpbOfImage x 0 0).topbVa == 0 then s else s.settleV 65536 (lpbOfImage x 0 0).root (lpbOfImage x 0 0).topbVa 256) = u at b ⊢
      repeat' split
      all_goals first | exact b | exact d _ _ _ b | exact d _ _ _ (d _ _ _ b) | exact d _ _ _ (d _ _ _ (d _ _ _ b))
/-- Taking the head of a launch queue keeps it. -/
theorem queueHead_memOk {s : State} (q : Nat) (h : s.memOk = true) : (s.queueHead q).s.memOk = true :=
  settleParts_memOk _ (settleRange_memOk _ _ (settleRange_memOk _ _ h))
/-- Cleaning a region of an edge keeps it. -/
theorem cleanRegion_memOk {s : State} (root : Nat) (r : Nat × Nat) (h : s.memOk = true) : (s.cleanRegion root r).memOk = true :=
  foldl_memOk _ (fun _ _ hu => foldl_memOk _ (fun _ _ hv => cleanLine_memOk _ _ hv) _ hu) _ h
/-- Reading a byte of code keeps it. -/
theorem codeByte_memOk {s : State} (va : Nat) (h : s.memOk = true) : (s.codeByte va).2.memOk = true := by
  unfold State.codeByte
  have w : (if s.exact.isEmpty then s else s.settleWalk (coreDie s.cur.core) s.root (va % 2 ^ 56)).memOk = true := by
    split
    · exact h
    · exact settleWalk_memOk _ _ _ h
  dsimp only
  split
  · exact homeRead_memOk _ _ _ w
  · exact w
/-- Reading a range of code keeps it. -/
theorem touchCode_memOk {s : State} (va n : Nat) (h : s.memOk = true) : (s.touchCode va n).memOk = true :=
  foldl_memOk _ (fun _ _ hu => codeByte_memOk _ hu) _ h

end Sys2Proof.Machine
end

