-- ==== Sys2Proof/Tests/Slice0.lean ====
section
/-! SUPPORT. Tests of the model. First the decoder on words written out from the tables of the spec, and terms that the
well-formedness checks refuse; then, for each statement, states and operands that meet its hypotheses, clause by clause; then words
that the spec works out, and single steps with results calculated from the spec by hand. -/

namespace Sys2Proof.Tests
open Machine
set_option Elab.async false

/-! ## Words from the tables (R58, R59, R60, R64, R65) -/

/-- A bundle image with one word in slot k: slot k stands at bit 32 + 64 k. -/
def at_ (k w : Nat) : Nat := w * 2 ^ (32 + 64 * k)
/-- The always guard. -/
def al : Guard := Guard.always
/-- The guard that lets no lane act: not p0. -/
def never : Guard := { pg := 0, neg := true }
/-- A view in direction h. -/
def vw (m : MReg) (i : Fin 32) : View := { dir := .h, m := m, i := i }
/-- x0. -/
def x0 : View := vw 0 0
/-- x33, as a source. -/
def xv : VSrc := .view (vw 1 1)
/-- What the decoder reads from a bundle image. -/
def dec (w : Nat) : Option Instr := decodeTableWord 384 w

-- class C: opcode [7:0], guard [11:8], sd [17:12], sa [23:18], sb [29:24], sc [35:30], sub [39:36] (R64, R74)
theorem test_decode_isel : dec (at_ 0 (0x1E + 1 * 2 ^ 12 + 2 * 2 ^ 18 + 3 * 2 ^ 24 + 7 * 2 ^ 30)) = some (.isel al 1 2 3 7) := by decide +kernel
theorem test_decode_imin : dec (at_ 0 (0x1B + 1 * 2 ^ 12 + 2 * 2 ^ 18 + 3 * 2 ^ 24 + 1 * 2 ^ 36)) = some (.imin al true 1 2 3) := by decide +kernel
-- C.I: sub [27:24], imm32 [63:32]; C.B: cond [15:12], sa [21:16], sb [27:22], off32 [63:32]
theorem test_decode_movi : dec (at_ 0 (0x3B + 5 * 2 ^ 12 + 2 * 2 ^ 24 + 0x12345678 * 2 ^ 32)) = some (.movi al 2 5 0x12345678) := by decide +kernel
theorem test_decode_brc : dec (at_ 0 (0x02 + 9 * 2 ^ 12 + 4 * 2 ^ 16 + 5 * 2 ^ 22 + 0xFFFFFFFF * 2 ^ 32)) = some (.brc al 9 4 5 0xFFFFFFFF) := by decide +kernel
-- class V: vd [22:12], va [33:23], vb [44:34], vc [55:45], mod [59:56]; matrix code [8:5], index [4:0]
theorem test_decode_vfma : dec (at_ 1 (0x04 + (2 * 32 + 1) * 2 ^ 12 + (3 * 32 + 2) * 2 ^ 23 + (10 * 32 + 31) * 2 ^ 34 + (12 * 32 + 15) * 2 ^ 45 + 1 * 2 ^ 58))
    = some (.vfma al 1 0 (vw 2 1) (.view (vw 3 2)) (.bcast 31) (.const 15)) := by decide +kernel
theorem test_decode_vshr : dec (at_ 2 (0x24 + 0 * 2 ^ 12 + 33 * 2 ^ 23 + 33 * 2 ^ 34 + 1 * 2 ^ 56)) = some (.vshr al true x0 xv xv) := by decide +kernel
-- class M: vd [22:12], vo [33:23], an [37:34], space [40:38], size [43:41], sub [47:44], disp16 [63:48]
theorem test_decode_st : dec (at_ 3 (0x02 + 33 * 2 ^ 12 + (13 * 32) * 2 ^ 23 + 5 * 2 ^ 34 + 1 * 2 ^ 38 + 0 * 2 ^ 41 + 0xFFFF * 2 ^ 48))
    = some (.st al .s .b8 xv 5 (.lane 0) 0xFFFF) := by decide +kernel
theorem test_decode_atom : dec (at_ 3 (0x05 + 0 * 2 ^ 12 + (13 * 32) * 2 ^ 23 + 5 * 2 ^ 34 + 3 * 2 ^ 41 + 7 * 2 ^ 44 + 8 * 2 ^ 48))
    = some (.atom al false true 7 x0 5 (.lane 0) 8) := by decide +kernel
-- class E: sub [15:12], sx [21:16], sy [27:22], sz [33:28], dx [43:34], dy [53:44], dz [63:54]
theorem test_decode_mma : dec (at_ 4 (0x01 + 8 * 2 ^ 8 * 0 + 1 * 2 ^ 16 + 3 * 2 ^ 22 + 5 * 2 ^ 28 + (7 + 127 * 2 ^ 3) * 2 ^ 34 + (63 + 2 ^ 7) * 2 ^ 44 + 1023 * 2 ^ 54))
    = some (.mma al { sa := false, sw := false, wl := false, acc := true, sA := 1, sW := 3, sF := 5, bank := 7, m1 := 127, n1 := 63, nb := 1023 }) := by
  decide +kernel
theorem test_decode_copy : dec (at_ 4 (0x06 + (0 + 1 * 2 ^ 2) * 2 ^ 12 + 1 * 2 ^ 16 + 2 * 2 ^ 22 + 3 * 2 ^ 28 + 3 * 2 ^ 34 + (9 + 2 ^ 6) * 2 ^ 44))
    = some (.copy al { src := .g, dst := .a, sx := 1, sy := 2, sz := 3, ch := 3, sem := 9, raise := true, remote := false }) := by decide +kernel
theorem test_decode_dictinv : dec (at_ 4 (0x31 + 255 * 2 ^ 34)) = some (.dictinv al 255) := by decide +kernel
theorem test_decode_qrzero : dec (at_ 4 0x53) = some (.qrzero al) := by decide +kernel
theorem test_decode_semwait : dec (at_ 4 (0x42 + 1 * 2 ^ 12 + 63 * 2 ^ 34 + 5 * 2 ^ 44)) = some (.semwaitGe al 63 5) := by decide +kernel

/-! ## Terms that are not well formed -/

-- a privileged instruction in a dictionary that is not (R74)
theorem test_illformed_privilege : Instr.wellFormedFor .shader false 0 (.eret al) = false := by decide +kernel
-- an instruction of another issuer (R74)
theorem test_illformed_role : Instr.wellFormedFor .shader true 0 (.mma al { sa := false, sw := false, wl := false, acc := false, sA := 0, sW := 0, sF := 0, bank := 0, m1 := 0, n1 := 0, nb := 1 }) = false := by decide +kernel
theorem test_illformed_shader_only : Instr.wellFormedFor .vector true 0 (.meet al) = false := by decide +kernel
-- a space that the issuer may not name (R67)
theorem test_illformed_space : Instr.wellFormedFor .copy true 0 (.ld al .c .b32 false x0 0 xv 0) = false := by decide +kernel
-- a b64 destination at index 31 (R251)
theorem test_illformed_b64 : Instr.wellFormedFor .shader true 0 (.ld al .g .b64 false (vw 0 31) 0 xv 0) = false := by decide +kernel
-- .sx with b32 (R251)
theorem test_illformed_sx : Instr.wellFormedFor .shader true 0 (.ld al .g .b32 true x0 0 xv 0) = false := by decide +kernel
-- a role-queue pop as an offset (R250)
theorem test_illformed_pop : Instr.wellFormedFor .vector true 0 (.ld al .g .b32 false x0 0 (.qpop 0) 0) = false := by decide +kernel
-- an nb of 0 (R282)
theorem test_illformed_nb : Instr.wellFormedFor .matrix true 0 (.mxld al false 0 0 0 0) = false := by decide +kernel
-- a channel that a shader core does not have (R272)
theorem test_illformed_channel : Instr.wellFormedFor .shader true 0 (.copy al { src := .g, dst := .s, sx := 0, sy := 0, sz := 0, ch := 4, sem := 0, raise := false, remote := false }) = false := by decide +kernel
-- a bundle image: scope 111, a reserved tail bit, a bank mask without action, a scratch group out of range (R59, R60)
theorem test_illformed_scope : dec (7 * 2 ^ 16) = none := by decide +kernel
theorem test_illformed_tail : dec (2 ^ 376) = none := by decide +kernel
theorem test_illformed_mask : dec (2 ^ 352) = none := by decide +kernel
theorem test_illformed_group : dec ((1 * 2 ^ 12 + 3 * 2 ^ 14 + 2 * 2 ^ 16) * 2 ^ 352) = none := by decide +kernel
theorem test_wellformed : Instr.wellFormedFor .shader true 0 (.eret al) = true := by decide +kernel

/-! ## Machines for single steps and for witnesses -/

/-- A bank that is awake. -/
def bright : Bank := { st := .bright, wakeAt := none, dirty := false }
/-- An LPB with a stack, a private segment, a shared window and an overflow area. -/
def lpb (r : Role) : Lpb :=
  { literalLpb r with
    stackBytes := 800, privBase := 8192, privBytes := 2048, shBytes := if r == .shader then 32768 else 0,
    inlineLimit := 2, ovfVa := 32768, ovfEntries := 4, ident := 7 }
/-- The core on which a role stands here. -/
def home (r : Role) : Nat := if r == .shader then 512 else 0
/-- One unit with one group of a role, about to issue a literal at address 0, every bank awake, one page mapped. -/
def stand (r : Role) : State :=
  let c := home r
  let s := { State.reset with
    agenda := [], fresh := 2, launches := [(1, { literalLaunch r with lpb := lpb r })], dicts := [(0, literalDict r)],
    cores := [(c, Core.start 0)], quads := [(quadKey c, { Quad.start 2 with power := .on })] }
  let s := s.startOn 1 0 0 none c
  let s := s.modCore c (fun k => { k with tlb := [literalPage 1 0], scratch := (List.range 134).map (fun i => (i, bright)) })
  let s := s.modGroup c 0 (fun g => { g with banks := List.replicate 10 bright })
  { s with cur := { Cur.none with core := c } }
/-- The shader machine. -/
def sh : State := stand .shader
/-- The gang of `tile`: copy, matrix and vector groups with one ring and one role queue. -/
def tileLpb : Lpb :=
  { lpb .copy with
    stackBytes := 0
    roles := [{ seg := 0, entry := 0, budget := 4, count := 1, role := 2, dict := 0 }, { seg := 0, entry := 0, budget := 4, count := 1, role := 3, dict := 1 },
              { seg := 0, entry := 0, budget := 4, count := 1, role := 4, dict := 2 }]
    rings := [2 ^ 63 + 1048576, 0, 0, 0, 0, 0, 0, 0], queues := [2 ^ 63 + 3 * 2 ^ 32, 0, 0, 0] }
/-- A tile with that gang; the stream is role group g. -/
def tile (g : Nat) : State :=
  let s := { State.reset with
    agenda := [], fresh := 2, launches := [(1, { literalLaunch .copy with lpb := tileLpb })],
    dicts := [(0, literalDict .copy), (1, literalDict .matrix), (2, literalDict .vector)],
    cores := [(0, Core.start 0)], quads := [(0, { Quad.start 2 with power := .on })] }
  let s := s.startOn 1 0 0 none 0
  let s := s.modCore 0 (fun k => { k with tlb := [literalPage 1 0], scratch := (List.range 134).map (fun i => (i, bright)) })
  let s := [0, 1, 2].foldl (fun s i => s.modGroup 0 i (fun g => { g with banks := List.replicate 4 bright })) s
  { s with cur := { Cur.none with core := 0, gid := g } }
/-- The machine of the instruction's stream at work: it issues each of a list of instructions, under a guard that lets lanes act. -/
def goes (s : State) (l : List Instr) : Bool := s.act al != 0 && l.all (fun i => s.issues i)
/-- s with scalar r of the issuing group set. -/
def setS (s : State) (r v : Nat) : State := s.modG (fun g => { g with sregs := sset 0 r (BitVec.ofNat 64 v) g.sregs })
/-- s with memory bytes at an address. -/
def poke (s : State) (pa : Nat) (b : List Byte) : State := { s with mem := (List.range b.length).foldl (fun m i => sset 0 (pa + i) (b.getD i 0) m) s.mem }

/-! ## Hypotheses that something meets -/

/-- One of every kind of scalar arithmetic. -/
def scalars : List Instr :=
  [.iadd al 1 2 63, .isub al 1 2 3, .iand al 1 2 3, .ior al 1 2 3, .ixor al 1 2 3, .ishl al 1 2 3, .ishr al 1 2 3, .isar al 1 2 3,
   .imin al true 1 2 3, .imax al false 1 2 3, .iaddImm al 1 2 0xFFFFFFFF, .iandImm al 1 2 3, .iorImm al 1 2 3, .ixorImm al 1 2 3,
   .ishlImm al 1 2 63, .ishrImm al 1 2 3, .isarImm al 1 2 3, .iminImm al true 1 2 3, .imaxImm al false 1 2 3, .imul al 1 2 3,
   .imulImm al 1 2 3, .imad al 1 2 3 4, .imulh al 2 1 2 3, .bfx al true 1 2 3, .bfi al 1 2 3 4, .clz al 1 2, .popc al 1 2,
   .lea al 4 1 2 3, .movi al 2 1 3]
/-- Comparisons and predicates. -/
def preds : List Instr :=
  [.icmp al 9 7 1 2, .icmpImm al 0 1 2 3, .isel al 1 2 3 0, .pmov al (.pp 1 2), .pmov al (.ps 1 2), .pmov al (.sp 1 2),
   .pand al 1 2 3, .por al 0 2 3, .pnot al 1 2]
/-- Moves. -/
def moves : List Instr :=
  [.movs al (.ss 1 2), .movs al (.ws 31 2), .movs al (.sw 1 31), .movxToScalar al true 1 xv 2, .movxToVector al x0 1 2,
   .fmtrd al 1, .sys al 13 1, .fmt al (.imm 0xFFFFFFFF), .fmt al (.reg 63)]
/-- Floating lanes. -/
def floats : List Instr :=
  [.vadd al 1 x0 xv xv, .vsub al 0 x0 xv (.const 15), .vmul al 2 x0 xv (.bcast 31), .vfma al 0 3 x0 xv xv xv, .vmin al 0 x0 xv xv,
   .vmax al 0 x0 xv xv, .vabs al 0 x0 xv, .vneg al 1 x0 xv, .vcmp al 15 7 xv xv, .vsel al x0 xv xv 7, .vmov al x0 (.lane 31),
   .vexp2 al x0 xv, .vlog2 al x0 xv, .vrcp al x0 xv, .vrsq al x0 xv, .vsin al x0 xv, .vcos al x0 xv]
/-- Integer lanes. -/
def ints : List Instr :=
  [.viadd al 2 x0 xv xv, .visub al 1 x0 xv xv, .vimul al 2 x0 xv xv, .vshl al x0 xv xv, .vshr al true x0 xv xv, .vand al x0 xv xv,
   .vor al x0 xv xv, .vxor al x0 xv xv]
/-- Folds, shuffles, ballots. -/
def lanes : List Instr :=
  [.vred al 0 x0 xv, .vscan al 10 x0 xv, .vshfl al .idx x0 xv xv, .vshfl al (.up xv) x0 xv xv, .vshfl al (.dn xv) x0 xv xv,
   .vshfl al .xor x0 xv xv, .vshfl al .rot x0 xv xv, .vbcast al none x0 xv, .vbcast al (some xv) x0 xv, .vballot al true x0 xv,
   .vlane al 3 x0]
theorem wit_ScalarResults : goes sh scalars = true := by decide +kernel
theorem wit_PredicateResults : goes sh preds = true := by decide +kernel
theorem wit_MoveResults : goes sh moves = true := by decide +kernel
theorem wit_VectorFloatResults : goes sh floats = true := by decide +kernel
theorem wit_VectorIntegerResults : goes sh ints = true := by decide +kernel
/-- The shader machine with a format. -/
def shF (f : W32) : State := sh.modS (fun p => { p with fmt := f })
theorem wit_VectorFormatResults :
    (goes (shF 0) [.vcvt al (.up 0) x0 xv, .vcvt al (.dn 0 xv) x0 xv, .vscl al true x0 xv xv]
      && goes (shF (3 * 4 + 64)) [.vqmx al x0 xv, .vdot4 al x0 xv xv xv] && goes (shF (7 * 4 + 64)) [.vdot8 al x0 xv xv xv]) = true := by
  decide +kernel
theorem wit_VectorLaneResults : goes sh lanes = true := by decide +kernel
/-- A stream whose bundle acts on bank 1 and, on a tile, marks a restart and wakes scratch group 0 of the A buffer. -/
def tailed (a : Nat) (s : State) : State := { s with cur := { s.cur with hdr := if s.onShader then 0 else 2 ^ 19, tail := 2 + a * 2 ^ 10 + (if s.onShader then 0 else 3 * 2 ^ 12 + 1 * 2 ^ 14) } }
theorem wit_ResultFrame :
    ((1 :: [2, 3]).all (fun a => (tailed a sh).issues (.iadd al 1 2 3) && (tailed a (tile 2)).issues (.iadd al 1 2 3)) && hdrMark (tailed 1 (tile 2)).cur.hdr
      && swf Bank.start sh.curCore.scratch && swf Bank.start (tile 2).curCore.scratch && tailScratch (tailed 1 (tile 2)).cur.tail == [80, 81, 82, 83] && 1 < sh.curGrp.budget
      && goes sh [.iadd al 1 2 3] && sendsResult (.iadd al 1 2 3) && Instr.isSlot (.iadd al 1 2 3)
      && sh.issues (.bra never 5) && sh.act (opInfo (.bra never 5)).guard == 0 && sh.issues (.st never .g .b32 xv 0 xv 0)) = true := by
  decide +kernel

/-- A guard on p1. -/
def g1 : Guard := { pg := 1, neg := false }
/-- The shader machine with p1 set in lanes. -/
def shP (m : W32) : State := sh.modG (fun g => { g with pregs := sset 0 1 m g.pregs })
theorem wit_BranchResults :
    goes sh [.nop, .bra al 5, .brc al 12 4 0 7, .brc al 0 1 2 7, .loop al 1 5, .call al 1 5, .ret al 1, .braReg al 1, .callReg al 1 2] = true := by
  decide +kernel
/-- A stream whose counter 0 is 5. -/
def busy : State := sh.modG (fun g => { g with ctrs := [5, 0, 0, 0, 0, 0, 0] })
theorem wit_StreamControlResults :
    (goes (tile 1) [.rlbl al 1, .yield al, .quota al 2 3] && goes sh [.yield al, .waitc al 7 0] && goes busy [.waitc al 0 5, .waitc al 1 0]
      && busy.live && busy.passes (.waitc al 0 4) && busy.act al != 0 && busy.curGrp.ctrs.getD 0 0 == 5) = true := by decide +kernel
/-- The slot that BRV would start is in use. -/
def full : State := (shP 5).modG (fun g => { g with slot1 := { PcSlot.empty with mask := 0xFFFF0000 }, slot0 := { g.slot0 with mask := 0xFFFF } })
/-- A slot at depth 1 with lanes m, its record open for every lane. -/
def open1 (m : W32) : State :=
  ((sh.putRec 1 (recNew 1 allLanes 0 0 none)).modS (fun p => { p with depth := 1, mask := m })).modG (fun g => { g with stackTop := 1 })
/-- Two slots' worth of paths: record 1 open for every lane, with a path for lanes 10 that stands spilled. -/
def spilled (m : W32) : State :=
  ((sh.putRec 1 (recNew 1 allLanes 0 0 (some (10, 6, [0, 0, 0, 0, 0])))).modS (fun p => { p with depth := 1, mask := m })).modG (fun g => { g with stackTop := 1 })
/-- MEET's stored record, for the lookup of a spilled one. -/
def met (s : State) : State :=
  let b := s.begun (.meet al)
  let v := b.putRec 1 (recPut (recPut (b.getRec 1) 4 4 (recA (b.getRec 1) ||| s.active).toNat) 12 4 s.succPc.toNat)
  ({ v with free := v.free + 1 }).modS (fun p => { p with mask := 0 })
theorem wit_DivergenceResults :
    ([(shP 0).issues (.brv g1 5), (shP 0).act g1 == 0, sh.issues (.brv al 5), sh.act al == sh.active, sh.act al != 0,
      (shP 5).issues (.brv g1 5), (shP 5).act g1 == 5, (shP 5).active == allLanes, ((shP 5).curGrp.slot 1).mask == 0,
      full.issues (.brv g1 5), full.act g1 == 5, full.active == 0xFFFF, (full.curGrp.slot 1).mask != 0,
      sh.issues (.meet al), sh.curSlot.depth == 0,
      (open1 allLanes).issues (.meet al), (open1 allLanes).curSlot.depth == 1,
      recA (((open1 allLanes).begun (.meet al)).getRec 1) ||| allLanes == recU (((open1 allLanes).begun (.meet al)).getRec 1),
      (open1 5).issues (.meet al), (open1 5).act al != 0,
      recA (((open1 5).begun (.meet al)).getRec 1) ||| (open1 5).active != recU (((open1 5).begun (.meet al)).getRec 1),
      (met (open1 5)).findSpill (met (open1 5)).curGrp.stackTop == none, (spilled 5).issues (.meet al), (spilled 5).act al != 0,
      (met (spilled 5)).findSpill (met (spilled 5)).curGrp.stackTop == some 1].all id) = true := by decide +kernel
/-- The lanes of EXIT have left. -/
def gone (s : State) (g : Guard) : State := (s.begun (.exit g)).leaveLanes (s.act g)
theorem wit_ExitEnds :
    ([((open1 7).modG (fun g => { g with pregs := sset 0 1 5 g.pregs })).issues (.exit g1),
      (gone ((open1 7).modG (fun g => { g with pregs := sset 0 1 5 g.pregs })) g1).curSlot.mask != 0, (spilled 5).issues (.exit al), (spilled 5).onShader,
      (gone (spilled 5) al).curSlot.mask == 0, (gone (spilled 5) al).findSpill (gone (spilled 5) al).curGrp.stackTop == some 1,
      imgNat ((gone (spilled 5) al).getRec 1) 20 4 != 0, (shP 5).issues (.exit g1), (shP 5).act g1 != 0, (shP 5).curSlot.mask &&& ~~~((shP 5).act g1) != 0, sh.issues (.exit al), sh.act al != 0,
      sh.onShader, sh.curSlot.depth == 0, sh.curSlot.mask &&& ~~~(sh.act al) == 0, (sh.curGrp.slot 1).mask == 0, sh.curGrp.stackTop == 0,
      sh.curGrp.inline == [], (tile 2).issues (.exit al), (tile 2).act al != 0, !(tile 2).onShader].all id) = true := by decide +kernel
/-- With handlers for the four roles. -/
def armed (s : State) : State :=
  { s with vectors := (if s.onShader then [0, 0, 0, 0] else [3, 0, 1, 2]).map (fun d => { dict := d, enable := true, entry := 64 }) }
/-- A result of group g on its way, due at 5. -/
def result (g : Nat) (w : List Wr) : InFlight := { id := 3, due := 5, issued := 0, gid := g, gix := 0, slot := 0, writes := w, dest := none }
/-- A fault. -/
def trouble : TrapInfo := trapOf 0x10 1 2 3 4 5
theorem wit_TrapEntry :
    ([(armed sh).live, (armed sh).handler.isSome, (armed sh).trapWritable, (armed (tile 1)).live, (armed (tile 1)).handler.isSome,
      (armed (tile 1)).trapWritable, (((armed sh).storeOwn 512 1 sh.root sh.priv (armed sh).trapArea ((armed sh).trapRecord trouble))).isSome,
      sh.live, sh.handler == none, !(tile 1).onShader, ((tile 1).modC (fun c => { c with inflight := [result 0 [.s 1 2]] })).live,
      ((armed sh).modC (fun c => { c with tlb := [] })).live, ((armed sh).modC (fun c => { c with tlb := [] })).handler.isSome,
      (((armed sh).modC (fun c => { c with tlb := [] })).storeOwn 512 1 sh.root sh.priv (armed sh).trapArea ((armed sh).trapRecord trouble)).isNone].all id) = true := by decide +kernel
/-- A stream with a fault that waits. -/
def faulty : State := sh.modG (fun g => { g with deferred := [trouble] })
theorem wit_TrapOrder :
    ([(armed sh).issues (.trap al 9), (armed sh).act al != 0, (armed sh).handler.isSome, (armed sh).trapWritable, (armed sh).onShader,
      (tile 1).issues (.trap al 9), (tile 1).act al != 0, !(tile 1).onShader, Instr.isSlot .nop, faulty.live,
      faulty.dueTrap == some trouble].all id) = true := by decide +kernel
/-- In a handler, with the record of `trouble` in the trap area, and the dictionary byte of the record changed. -/
def inside (d : Nat) : State :=
  let s := (armed sh).takeTrap trouble
  (poke { s with cur := sh.cur } (sh.trapArea + 156) [BitVec.ofNat 8 d]).modC (fun c => { c with lines := if d == 0 then c.lines else [] })
/-- What ERET reads there. -/
def backRead (s : State) : Option (List Byte) :=
  let b := s.begun (.eret al)
  match b.loadOwn b.cur.core b.curGrp.launch b.root b.priv b.trapArea 768 with
  | .ok (m, _) => some m
  | .error _ => none
/-- A tile whose results stand aside, nothing frozen any more. -/
def thawing : State := (tile 2).modC (fun c => { c with freeze := [result 2 [.s 1 2]] })
theorem wit_HandlerReturn :
    ([thawing.issues (.iadd al 3 1 2), sendsResult (.iadd al 3 1 2), thawing.curCore.frozen == none, (inside 0).issues (.eret al), (inside 0).act al != 0, (match backRead (inside 0) with | some m => ((inside 0).begun (.eret al)).badReturn m == none | none => false),
      (inside 9).issues (.eret al), (match backRead (inside 9) with | some m => ((inside 9).begun (.eret al)).badReturn m != none | none => false)].all id) = true := by
  decide +kernel

/-- a0 holds the translation of page 0. -/
def xl : State := sh.modG (fun g => { g with aregs := sset 0 0 (xlateWord 0 0x1F 0) g.aregs })
/-- A load of bytes by lane. -/
def byteLd (sp : Space) : AccOp := loadOp al sp .b8 0 (.lane 0) 16 true
theorem wit_AccessAddresses :
    ([!sh.recordMode, (sh.plan (byteLd .s)).chk == .ok, (sh.plan (byteLd .s)).lanes.length == 32, (sh.plan (byteLd .g)).chk == .ok,
      (sh.plan (byteLd .g)).lanes.length == 32, (xl.plan (byteLd .g)).chk == .ok,
      xl.laneOff (byteLd .g) 31 + 1 ≤ aLimit (xl.curGrp.areg 0), (xl.plan (byteLd .g)).lanes.any (fun l => l.j == 31),
      !(tile 2).recordMode, ((tile 2).plan (byteLd .a)).chk == .ok].all id) = true := by decide +kernel
theorem wit_BufferLoadResults :
    (goes sh [.ld al .s .b8 false x0 0 (.lane 0) 16, .ldx al .s .b32 false x0 0 (.const 0) 0]
      && goes (tile 2) [.ld al .a .b8 true x0 0 (.lane 0) 0, .ldx al .c .b64 false x0 0 (.const 0) 0]
      && !((sh.begun (.ld al .s .b8 false x0 0 (.lane 0) 16)).plan (byteLd .s)).lanes.isEmpty
      && !(((tile 2).begun (.ld al .a .b8 true x0 0 (.lane 0) 0)).plan (loadOp al .a .b8 0 (.lane 0) 0 true)).lanes.isEmpty) = true := by
  decide +kernel
theorem wit_GlobalLoadResults : goes sh [.ld al .g .b8 false x0 0 (.lane 0) 16, .ldx al .g .b64 false x0 0 (.const 0) 0] = true := by decide +kernel
/-- A copy of line 1 in the core. -/
def copied : State := sh.addLine 512 1 { data := List.replicate 128 5, dirty := List.replicate 128 false, since := none, lease := 4096, writers := [] }
theorem wit_CoreReadsItsStore :
    ([copied.memOk, srising copied.exact, (kget 512 copied.cores).isSome, copied.canon 130 % 128 + 126 ≤ 128, regionOf (copied.canon 130) != some 2,
      (kget (copied.canon 130 / 128) (copied.core 512).lines).isSome].all id) = true := by decide +kernel
/-- The vector stream with bank 0 of its A buffer DIM. -/
def drowsy : State := (tile 2).modC (fun c => c.setSbank 80 { bright with st := .dim })
theorem wit_BufferStoreResults :
    (goes sh [.st al .s .b8 xv 0 (.lane 0) 0, .stx al .s .b32 xv 0 (.const 0) 0]
      && goes (tile 2) [.st al .a .b8 xv 0 (.lane 0) 0, .stx al .c .b64 xv 0 (.const 0) 0]
      && goes drowsy [.st al .a .b8 xv 0 (.lane 0) 0] && !(drowsy.curCore.sbank 80).ready && swf Bank.start drowsy.curCore.scratch && 80 ∈ spanBanks 2 0 1 && (sh.curCore.sbank 128).ready
      && swf (0 : Byte) sh.curCore.buf && swf (0 : Byte) (tile 2).curCore.buf && fld sh.cur.tail 12 2 != 2) = true := by decide +kernel
/-- A store of bytes by lane. -/
def byteSt : Instr := .st al .g .b8 xv 0 (.lane 0) 16
/-- s with a header of a scope. -/
def atScope (n : Nat) (s : State) : State := { s with cur := { s.cur with hdr := n * 2 ^ 16 } }
/-- The lanes of `byteSt`. -/
def stLanes (s : State) : List Lane := ((s.begun byteSt).plan (storeOp al .g .b8 0 (.lane 0) 16 true)).lanes
theorem wit_StoreResults :
    ([(atScope 3 sh).issues byteSt, sh.act al != 0, sh.memOk, sh.exact == [], (stLanes (atScope 3 sh)).length == 32,
      (stLanes (atScope 3 sh)).all (fun p => !(atScope 3 sh).ownPath 512 (atScope 3 sh).scope p.ty),
      sh.issues byteSt, sh.onShader, sh.curCore.lines.length + 32 ≤ sh.curCore.lineRoom true, (stLanes sh).length == 32, (stLanes sh).all (fun p => sh.ownPath 512 sh.scope p.ty)].all id) = true := by
  decide +kernel
theorem wit_AtomicResults :
    (goes sh [.atom al false true 9 x0 0 (.const 0) 0, .atom al true false 0 x0 0 (.const 0) 0]
      && sh.exact == [] && sh.memOk && sh.live && swf (0 : Byte) sh.curCore.buf && kget (sh.canon 64 / 128) sh.curCore.lines == none) = true := by
  decide +kernel
/-- An open exact sum at 64. -/
def summed : State := sh.addExact 64 0x3F800000
theorem wit_FloatAtomicResults :
    ([summed.issues (.settle al x0 0 (.const 0) 64), summed.linesOk 512, (kget 64 summed.exact).isSome, summed.badAt 64 4 == none, kget 0 summed.curCore.lines == none,
      ((summed.begun (.settle al x0 0 (.const 0) 64)).plan (atomOp al false false 0 (.const 0) 64)).lanes.all (fun l => summed.canon l.pa == 64)].all id &&
    goes sh [.atomfAdd al false xv 0 (.const 0) 0, .atomfAdd al true xv 0 (.const 0) 0, .atomfAddX al xv 0 (.const 0) 0, .settle al x0 0 (.const 0) 0]) = true := by
  decide +kernel
/-- A line of four dirty bytes in the core. -/
def dirtied : State :=
  sh.addLine 512 1 { data := List.replicate 128 5, dirty := (List.replicate 128 false).set 4 true, since := some 0, lease := 4096, writers := [1] }
theorem wit_OrderingResults :
    ((atScope 3 dirtied).issues (.fence al) && dirtied.linesOk 512 && goes dirtied [.clean al .all, .inval al .all] && 1 ∈ ((dirtied.begun (.clean al .all)).linesIn .all).1
      && goes sh [.fence al, .clean al .all, .inval al .all, .pref al true 0 (.const 0) 0] && goes (atScope 3 sh) [.fence al] && sh.exact == [] && sh.curCore.lines == [] && sh.curGrp.far == [false, false]) = true := by
  decide +kernel
theorem wit_TranslationResults :
    (goes sh [.xlate al false 3 1, .xlate al true 3 1, .probe al .b32 x0 0 (.lane 0) 0] && swf (0 : BitVec 192) sh.curGrp.aregs) = true := by
  decide +kernel

/-- The next state, or the same one. -/
def run (i : Instr) (s : State) : State := match exec i s with | .next t => t | _ => s
/-- Core c long after. -/
def late (c : Nat) (s : State) : State := { s.modCore c (fun k => { k with clk := 2 ^ 20, pclk := 2 ^ 20, eclk := 2 ^ 20 }) with now := 2 ^ 40 }
/-- A product of one row by one column of one block. -/
def mo : MmaOp := { sa := false, sw := false, wl := false, acc := false, sA := 0, sW := 2, sF := 4, bank := 0, m1 := 0, n1 := 0, nb := 1 }
/-- A drain of one element into m0. -/
def ao : AccrdOp := { i32 := false, reg := true, mx := false, sx := 0, sy := 0, sz := 0, bank := 0, m1 := 0, n1 := 0, fmt := 0, mreg := 0 }
/-- The same into the A buffer, as FP16. -/
def ab : AccrdOp := { ao with reg := false, fmt := 1, n1 := 1 }
/-- The matrix stream with the formats E4M3 in s4. -/
def mx : State := setS (tile 1) 4 0x33
/-- The matrix stream after the gather unit has read its list. -/
def mxg : State := mx.modC (fun c => { c with gather := some (1, 0, 0) })
theorem wit_ArrayAcceptance :
    (goes mx [.mma al mo, .mma al { mo with acc := true }, .mxld al false 0 4 0 1, .accz al 7 127 127, .accrd al ao, .accrd al ab]
      && goes mxg [.mmag al mo]) = true := by decide +kernel
/-- The command at the head of the array queue may complete in s. -/
def arrayDue (s : State) : Bool :=
  match (s.core 0).arrayQ with
  | q :: r => r.all (fun x => x.id != q.id) && !q.ran && q.due ≤ (s.core 0).eclk && ((s.core 0).wakeFor (arrayDest q.op)).2 == 0
      && q.gid < ghostBase && (kget q.gid (s.core 0).groups).isSome && swf (0 : Byte) (s.core 0).buf
      && (match q.op with
          | .mma _ o => (mmaSpans false o q.args (q.args.drop 5)).all (fun x => x.beyond == none) && (q.args.drop 5).getD 0 0xFFFF != 0xFFFF
          | .mmag _ o => (mmaSpans true o q.args (q.args.drop 5)).all (fun x => x.beyond == none) && (q.args.drop 5).getD 0 0xFFFF != 0xFFFF
          | _ => true)
  | [] => false
/-- The drain command may complete in s. -/
def drainDue (s : State) : Bool :=
  match (s.core 0).drainQ with
  | q :: _ => q.due ≤ (s.core 0).eclk && q.gid < ghostBase && (kget q.gid (s.core 0).groups).isSome
      && (match q.op with
          | .accrd _ o => (if o.reg then ((s.core 0).wakeRegs q.gid [o.mreg.val]).2
              else ((s.core 0).wakeFor ((accrdSpans o q.args).flatMap Span.banks)).2) == 0 && o.mreg.val < ((s.core 0).group q.gid).budget
          | _ => false)
  | [] => false
theorem wit_ArrayResults :
    ([arrayDue (late 0 (run (.mma al mo) mx)), arrayDue (late 0 (run (.mmag al mo) mxg)), arrayDue (late 0 (run (.accz al 7 127 127) mx)),
      arrayDue (late 0 (run (.mxld al false 0 4 0 1) mx)), drainDue (late 0 (run (.accrd al ao) mx)), drainDue (late 0 (run (.accrd al ab) mx))].all id) = true := by
  decide +kernel

/-- A copy from the A buffer to the W buffer with a raise. -/
def co : CopyOp := { src := .a, dst := .w, sx := 0, sy := 6, sz := 2, ch := 0, sem := 9, raise := true, remote := false }
/-- A copy from memory. -/
def cg : CopyOp := { co with src := .g }
/-- The copy stream with four bytes to copy from address x. -/
def cpS (x : Nat) : State := setS (setS (tile 0) 2 4) 0 x
/-- A core whose channel 0 runs command o at row r, its next bytes due. -/
def cpR (o : CopyOp) (x r : Nat) : State := (run (.copy al o) (cpS x)).modChan 0 0 (fun h => { h with nextAt := 0, row := r })
/-- What the channel of s is, with its command. -/
def chAt (s : State) (p : Channel → Cmd → CopyOp → Bool) : Bool :=
  match kget 0 (s.core 0).chans with
  | some h => match h.q with
    | q :: _ => (match q.op with | .copy _ o => h.running && !h.stopped && h.page == none && q.gid < ghostBase && q.core == 0 && (kget q.gid (s.core 0).groups).isSome && p h q o | _ => false)
    | [] => false
  | none => false
/-- Its next bytes may be copied; `plain` says that they are a piece of a row between buffers that nothing stops. -/
def chGoes (plain : Bool) (s : State) : Bool := chAt s (fun h q o =>
  let l := s.cpGoes q o 0 h
  let n := cpLen l
  let y := (cpDst o q.args h.row + h.col).toNat
  let p := s.cpPlan q o 0 h l
  let b := s.cpBanks q o y n
  h.row < cpRows q.args && h.nextAt ≤ (s.core 0).clk && s.cpStop q o 0 h == none && ((s.core b.1).wakeFor b.2).2 == 0 && h.tick ≤ s.now && h.wall == 0
    && (match s.cpDest q o 0 h with | .ok m => s.cpLink q o p m y n == 0 && (s.core 0).slotsUsed + (s.cpSectors q p m o.src y n).length ≤ 512 | .error _ => false)
    && (!plain || (h.held == [] && l == [(h.row, h.col, n)] && p.stop == none && y + n ≤ bufSize 1 && o.src == .a && o.dst == .w)))
/-- What stops it. -/
def chStops (s : State) (p : CpStop → Bool) : Bool := chAt s (fun h q o => (s.cpStop q o 0 h).any p && h.row < cpRows q.args)
/-- s with the answer of a walk for the page of x, for channel 0. -/
def walked (x : Nat) (f : WalkRes) (s : State) : State :=
  s.modC (fun c => { c with walkF := [{ who := chanParty 0, root := s.root, va := x, f := f }] })
/-- A copy to the A buffer of a tile of die 1, after its last row; its raise is on its way, or not. -/
def toDie1 (sent : Bool) : State :=
  let s := (cpR co 0 1).modChan 0 0 (fun h =>
    { h with sent := sent, q := h.q.map (fun q => { q with op := .copy al { co with dst := .a, remote := true }, args := q.args.set 1 (2 ^ 32) }) })
  { s with cores := kset 256 (Core.start 0) s.cores }
/-- The clk that its raise crosses in. -/
def crossing (s : State) : Nat := match kget 0 (s.core 0).chans with
  | some h => (match h.q with | q :: _ => (match q.op with | .copy _ o => cpOver o q + s.linkWait 0 (coreDie (cpCore o q.args 0)) | _ => 0) | [] => 0)
  | none => 0
theorem wit_CopyResults :
    ([(cpS 0).issues (.copy al co), (cpS 0).act al != 0, (cpS 0).issues (.copy al cg), ((kget 0 (cpS 0).curCore.chans).getD Channel.start).q == [],
      chGoes true (cpR co 0 0), chGoes false (cpR cg 0 0),
      chStops (walked (2 ^ 20) (.fault .notPresent) (cpR cg (2 ^ 20) 0)) (fun x => match x with | .page _ _ => true | _ => false),
      chStops (walked (2 ^ 20) (.leaf 1 0) (cpR cg (2 ^ 20) 0)) (fun x => match x with | .fault _ => true | _ => false),
      chAt (cpR co 0 1) (fun h q _ => cpRows q.args ≤ h.row && !h.sent), chAt (toDie1 false) (fun h q o => cpRows q.args ≤ h.row && !h.sent && o.remote && o.raise),
      crossing (toDie1 false) != 0, chAt (toDie1 true) (fun h q o => cpRows q.args ≤ h.row && h.sent && o.remote && h.nextAt ≤ ((toDie1 true).core 0).clk),
      (kget 256 (toDie1 true).cores).isSome, swf (0 : Byte) ((cpR co 0 0).core 0).buf].all id) = true := by decide +kernel

/-- A sort of words in memory. -/
def so : SortOp := { key := 0, desc := false, vals := false, sx := 0, sy := 6, sz := 4, src := .g, dst := .g, sem := 0, raise := true }
/-- The shader stream with two words at x to sort to 256. -/
def sortS (x : Nat) : State := setS (setS (setS (setS sh 0 x) 2 (x + 8)) 6 256) 4 (2 + 2 ^ 32)
/-- Its engine at work on op, due. -/
def sortR (op : Instr) (x : Nat) : State :=
  let s := run op (sortS x)
  { s with sortQ := s.sortQ.map (fun p => (p.1, p.2.map (fun q => { q with due := 0 }))), mem := (poke s 16 [3]).mem }
/-- The head of the engine of the shader core may act. -/
def sortAt (s : State) (p : Cmd → Bool) : Bool :=
  match s.engineQ (sortEngine 512) with
  | q :: _ => !q.bad && kget (sortEngine 512) s.sortPage == none && q.due ≤ s.now && (kget q.core s.cores).isSome && q.gid < ghostBase
      && (kget q.gid (s.core q.core).groups).isSome && (s.sortWake q).2 == 0 && p q
  | [] => false
/-- A merge stops at a fault. -/
def mergeFaults (s : State) (q : Cmd) : Bool := match (s.runMerge q so (sget (0, 0) (sortEngine 512) s.sortPos)).stop with | some (.fault _, _) => true | _ => false
theorem wit_SortResults :
    ([(sortS 0).issues (.sort al so), (sortS 0).issues (.merge al so), (sortS 0).act al != 0, (sortS 0).engineQ (sortEngine 512) == [],
      sortAt (sortR (.sort al so) 0) (fun q => (sortR (.sort al so) 0).sortStops q == none),
      sortAt (sortR (.merge al so) 0) (fun q => ((sortR (.merge al so) 0).runMerge q so (0, 0)).stop == none),
      sortAt (sortR (.sort al so) (2 ^ 44)) (fun q => match (sortR (.sort al so) (2 ^ 44)).sortStops q with | some (.fault _) => true | _ => false),
      sortAt (sortR (.merge al so) (2 ^ 44)) (fun q => mergeFaults (sortR (.merge al so) (2 ^ 44)) q)].all id) = true := by decide +kernel

/-- The region-0 state with E = 1 and number 0 in its window, mask 3. -/
def regionState (e : Nat) : State :=
  { sh with orders := [(64, { regions := [{ launch := 1, r := 0, e := e, window := [{ q := 0, mask := 3, cmd := 50 }] }], toEnter := [], entered := [] })]
            stats := [(7, Stats.empty)] }
/-- An ORDW command of number n with mask m. -/
def ordCmd (n m : Nat) : Cmd :=
  { id := 90, op := .ordw al 0 1 0 0, core := 512, gcore := 512, gid := 0, slot := 0, args := [0, n, m], act := allLanes, scope := 0, launch := 1, root := 0,
    priv := false, ident := 7, base := 0, start := 0, due := 0, bad := false, data := [], page := none, ran := false, wall := 0, tick := 0, part := none, drop := [] }
/-- That command at its unit, before or after it has entered. -/
def atUnit (before : Bool) (c : Cmd) (e : Nat) : State :=
  (regionState e).modUnitO 64 (fun u => if before then { u with toEnter := [c] } else { u with entered := [c] })
theorem wit_OrderResults :
    ([sh.issues (.ordw al 0 1 0 0), sh.act al != 0, (regionState 1).issues (.ordd al 0 1), sh.issues (.ordd al 0 1), sh.cur.gid < ghostBase,
      (((regionState 1).ounit (orderUnit 0)).region ((regionState 1).countsIn 1) 0).any (fun x => x.window.any (fun e => e.q == 0)),
      ((sh.ounit (orderUnit 0)).region 1 0) == none,
      kget 7 (regionState 1).stats == some Stats.empty && (regionState 1).lpb.ident == 7,
      ((atUnit true (ordCmd 1 1) 1).ounit 64).toEnter.find? (fun y => y.id == 90) == some (ordCmd 1 1),
      (ordCmd 1 1).due ≤ (atUnit true (ordCmd 1 1) 1).now, ((atUnit true (ordCmd 1 1) 1).ounit 64).pool < 1024,
      ((atUnit true (ordCmd 0 1) 1).ounit 64).toEnter.find? (fun y => y.id == 90) == some (ordCmd 0 1),
      ((atUnit false (ordCmd 1 4) 2).ounit 64).entered.find? (fun y => y.id == 90) == some (ordCmd 1 4), 3 &&& 4 == 0, 3 &&& 1 != 0,
      (kget 512 sh.cores).isSome, (kget 0 (sh.core 512).groups).isSome].all id) = true := by decide +kernel

/-- An LPB image at 4096: class 2, one unit, a private segment, one group of budget 1 with dictionary 0. -/
def withLpb (s : State) : State :=
  { [(0, 64), (4, 1), (58, 1), (124, 1), (125, 1), (126, 1)].foldl (fun s p => poke s (4096 + p.1) [BitVec.ofNat 8 p.2]) (setS s 3 4096) with
    classes := Board.default.rows }
/-- The shader machine with it. -/
def lp : State := withLpb sh
/-- The fork queue of its die is full, and the launch spills or does not. -/
def crowded (spill : Bool) : State :=
  { lp with launches := (1, { literalLaunch .shader with lpb := { lpb .shader with spill := spill } })
      :: (List.range 1024).map (fun k => (k + 2000, { literalLaunch .shader with forkDie := some 2, nextUnit := 0 })) }
/-- The LPB of s3 is accepted in s. -/
def lpbOk (i : Instr) (child : Bool) (s : State) (f : State → Lpb → Bool) : Bool :=
  match (s.begun i).readLpb ((s.begun i).lpbVa 3) child with | .ok l _ _ => f (s.begun i) l | _ => false
/-- A group that runs an inline child at unit u of its grid. -/
def inChild : State := sh.modG (fun g => { g with inline := [{ slot0 := g.slot0, slot1 := g.slot1, dict := g.dict, seg := g.seg, pool := g.pool, top := 0, unitIx := 0, launch := 1 }] })
theorem wit_TaskResults :
    ([goes lp [.fork al 3, .spawn al 3, .launch al 1 3, .join al, .taskend al], lp.housed,
      lpbOk (.fork al 3) true lp (fun b l => b.forkTo l == .queue), lpbOk (.spawn al 3) true lp (fun _ _ => true),
      lpbOk (.launch al 1 3) false lp (fun _ _ => true), sh.issues (.launch al 1 3),
      (match (sh.begun (.launch al 1 3)).readLpb 0 false with | .bad _ => true | _ => false),
      (crowded true).issues (.fork al 3), lpbOk (.fork al 3) true (crowded true) (fun b l => b.forkTo l == .spill),
      (crowded false).issues (.fork al 3), lpbOk (.fork al 3) true (crowded false) (fun b l => b.forkTo l == .inline),
      sh.curUnit.children == 0, (sh.modU (fun u => { u with children := 1 })).issues (.join al), sh.curGrp.inline == [],
      inChild.issues (.taskend al), inChild.lpb.grid ≤ 1, sh.linesOk 512, dirtied.issues (.join al), dirtied.linesOk 512, dirtied.housed, dirtied.curUnit.children == 0,
      (inChild.modLaunch 1 (fun x => { x with lpb := { x.lpb with grid := 2 } })).issues (.taskend al)].all id) = true := by decide +kernel

/-- A device-fed launch queue of 16 entries at 2^40, with n entries in it. -/
def fed (n : Nat) : State := { sh with lqs := [(63, { base := 65536, n := 4, enable := true, fed := true, error := false, head := 0, tail := n, void := [] })] }
theorem wit_PushResults :
    ([sh.issues (.qpushT al 1 63), !(sh.lq 63).pushable, (fed 0).issues (.qpushT al 1 63), ((fed 0).lq 63).pushable, ((fed 0).lq 63).used < 16,
      (fed 0).memOk, (fed 16).issues (.qpushT al 1 63), 16 ≤ ((fed 16).lq 63).used,
      (match ((fed 0).begun (.qpushT al 1 63)).xlatNow 512 (fed 0).root 0 with | .ok _ => true | .error _ => false),
      goes (tile 2) [.qpushRBuffer al 0 1, .qpushRRegister al 0 0 31]].all id) = true := by decide +kernel
/-- An accepted launch on its way, with a status register or without. -/
def accepted (dest : Nat) (x : Launch) : State :=
  ({ sh with launches := (9, x) :: sh.launches }).modC (fun c => { c with accepts := [(9, 0, 0, dest)] })
/-- A role-queue entry whose clk has come. -/
def coming : State := (tile 2).modC (fun c => c.modUnit (tile 2).curGrp.uid (fun u => { u with queues := u.queues.set 0 { u.rq 0 with coming := [(0, 2, leBytes 4 7)] } }))
theorem wit_QueueEvents :
    ([((accepted 0 { literalLaunch .shader with parent := some 1 }).core 512).accepts.find? (fun p => p.1 == 9) == some (9, 0, 0, 0), sh.hasGroup 512 0,
      (accepted 4 (literalLaunch .shader)).taskRoom (literalLaunch .shader), coming.hasGroup 0 2,
      ((coming.core 0).unit (coming.curGrp.uid)).rq 0 == { (tile 2).curUnit.rq 0 with coming := [(0, 2, leBytes 4 7)] },
      (spanBanks 2 (rqEntry ((tile 2).curUnit.rq 0).desc 0) 4).all (fun k => ((coming.core 0).sbank k).ready),
      (spanBanks 2 (rqEntry ((tile 2).curUnit.rq 0).desc 0) 4) == [80], !(((coming.modC (fun c => c.setSbank 80 Bank.start)).core 0).sbank 80).ready,
      swf Bank.start ((coming.modC (fun c => c.setSbank 80 Bank.start)).core 0).scratch,
      swf (0 : Byte) (coming.core 0).buf].all id) = true := by decide +kernel
theorem wit_RingResults :
    ([goes (tile 2) [.rput al 0 1, .rget al false 1 0 1], goes sh [.qcfgRd al 1 8], goes (tile 0) [.qcfgRd al 1 13, .qcfgRq al 0 1],
      (sh.qStatus 8).1 == some 0, (sh.qStatus 8).2 == some 1024, 0 < (tile 0).curUnit.queues.length, 0 < (tile 2).curUnit.phases.length, (tile 2).housed].all id) = true := by
  decide +kernel

/-- A dictionary image at 8192 for a shader, unprivileged, with one entry of NOPs; its segment is n half-words. -/
def withDict (n : Nat) : State := [(0, 1), (4, 0), (5, 1), (8, n)].foldl (fun s p => poke s (8192 + p.1) [BitVec.ofNat 8 p.2]) (setS sh 3 8192)
/-- What DICTLD reads. -/
def dictSeen (s : State) : Option (List Byte) := (((s.begun (.dictld al 1 3 255)).flush 512).settleDict (s.sr 3).toNat).dictImage (s.sr 3).toNat
/-- A fill on its way. -/
def filling : State := sh.modC (fun c => { c with dwait := [(0, 0, 0)] })
theorem wit_DictionaryResults :
    ([(withDict 64).issues (.dictld al 1 3 255), (dictSeen (withDict 64)).any (fun x => dictWord x == 0),
      (dictSeen (withDict 63)).any (fun x => dictWord x != 0), sh.issues (.dictld al 1 3 255),
      (setS sh 3 1).issues (.dictld al 1 3 255), dictSeen (setS sh 3 1) == none, sh.issues (.dictinv al 255), sh.act al != 0,
      (filling.core 512).dwait.find? (fun p => p.1 == 0) == some (0, 0, 0), (kget 0 filling.dicts).isSome].all id) = true := by decide +kernel

/-- A weave of one tile, at its step 0. -/
def weave0 : Weave :=
  { launch := 1, tiles := [0], origins := [(0, 0, 0)], w := 1, h := 1, step := 0, arrived := [0], comm := none, lastLand := 0, len := 0, flying := [], toStart := [] }
/-- The tile in that weave. -/
def woven (g : Nat) (w : Weave) : State := { (tile g).modU (fun u => { u with weave := some 5 }) with weaves := [(5, w)] }
/-- With a TST image of one empty row at 8192. -/
def withTst : State := poke (setS (woven 0 weave0) 3 8192) 8192 [1]
/-- The class table, and a tensor quad. -/
def classy : State := { setS (setS sh 1 0) 2 0 with classes := Board.default.rows, quads := (0, Quad.start 2) :: sh.quads }
/-- What TSTLD reads. -/
def tstSeen (s : State) : Bool := match (((s.begun (.tstld al 1 3)).flush 0).settleTst (s.sr 3).toNat).tstRead (s.sr 3).toNat s.curWeave with | .ok _ => true | .error _ => false
theorem wit_TableResults :
    ([goes sh [.tlbinv al 1 2 3, .tlbinvRoot al 1, .tlbinvAll al], withTst.issues (.tstld al 1 3), withTst.act al != 0, withTst.housed, tstSeen withTst,
      (tile 0).issues (.tstld al 1 3), !tstSeen (tile 0),
      (setS classy 1 (1 * 4)).issues (.classWr al 1 2) || (setS classy 1 0).issues (.classWr al 1 2), goes classy [.classRd al 1 2, .classMv al 4 5]].all id) = true := by
  decide +kernel

/-- The tile in a step of a TOPB of n steps. -/
def topb (n : Nat) : Topb :=
  { levels := 1, restart := false, recomp := 0, governed := false, trips := [n], entries := [64, 0, 0], bases := [], strides := [], outBase := 0,
    outBytes := 0, drop := [], period := 0, deadline := 0 }
/-- Role group 2 of a gang in a step, the others having ended it. -/
def stepping : State :=
  (((tile 2).modU (fun u => { u with stepping := true })).modLaunch 1 (fun x => { x with topb := some (topb 3) })).modC (fun c =>
    [0, 1].foldl (fun c g => c.modGroup g (fun x => { x with stepDone := true })) c)
/-- A network record of number 3, count 2, at which another group waits. -/
def netted : State :=
  { atScope 1 (setS sh 1 2) with
    nets := [(9, { launch := 1, scope := 1, inst := (atScope 1 sh).netInst, b := 3, count := 2, arrived := [(513, 0, 0)], dies := [2], due := none })] }
/-- A barrier of sh's unit that is complete. -/
def barDone : State := (sh.modU (fun u => { u with barDue := some 0 })).modS (fun p => { p with wait := .barrier })
theorem wit_BarrierResults :
    ([sh.housed, !sh.curGrp.ended, sh.curSlot.mask != 0, sh.act al != 0, sh.issues (.bar al), (sh.curGrp.slot 1).mask == 0, sh.curUnit.gids == [0],
      sh.curUnit.barDue == none, sh.curGrp.gix < 32, sh.scope != 6, (atScope 6 sh).issues (.bar al), sh.onShader,
      (atScope 6 (tile 2)).issues (.bar al), !(tile 2).onShader,
      (woven 2 { weave0 with arrived := [] }).issues (.barWeave al),
      (atScope 1 (setS sh 1 1)).issues (.barNet al 3 1), (atScope 1 (setS sh 1 1)).netRec 3 == none,
      netted.issues (.barNet al 3 1), (netted.netRec 3).map Prod.fst == some 9, ((kget 9 netted.nets).map NetBar.arrived) == some [(513, 0, 0)],
      stepping.issues (.stepend al), stepping.curUnit.gang, stepping.curUnit.stepping, stepping.curUnit.gids.contains 2, kget 1 stepping.govs == none,
      stepping.curUnit.gids.all (fun k => k == 2 || (stepping.curCore.group k).stepDone),
      (kget 512 barDone.cores).isSome, (kget barDone.curGrp.uid (barDone.core 512).units).isSome, (barDone.curUnit.barDue).isSome].all id) = true := by
  decide +kernel
/-- A semaphore at 5. -/
def semmed : State := sh.modC (fun c => { c with sems := [(3, 5)] })
/-- A raise that arrives. -/
def raised (wall : Nat) : State := { semmed with raises := [{ id := 4, core := 512, n := 3, a := 2 ^ 32, due := 0, wall := wall, tick := 0 }] }
theorem wit_SemaphoreResults :
    ([goes semmed [.semaddI al 63 1023 none, .semadd al 0 1 none, .semwaitDec al 3 5, .semwaitGe al 3 5], srising semmed.curCore.sems,
      goes (atScope 2 (setS (tile 0) 1 1)) [.semaddI al 63 1023 (some 1), .semadd al 0 1 (some 1)],
      goes (atScope 2 (tile 0)) [.semaddI al 63 1023 (some 1)], semTarget ((tile 0).sr 1).toNat == 0,
      semmed.live, semmed.passes (.semwaitDec al 3 6), semmed.curCore.sem 3 < 6, goes (tile 0) [.wpwait al 7 1, .wpwaitRd al 1 0],
      [0, 1].all (fun w => (raised w).raises.any (fun x => x.id == 4 && x.wall == w && x.due ≤ (raised w).now && x.tick ≤ (raised w).now && (kget x.core (raised w).cores).isSome)),
      srising ((raised 0).core 512).sems, coreExists 513].all id) = true := by
  decide +kernel
/-- A governor. -/
def gov0 : Gov :=
  { frame := 1, start := 0, stepAt := 0, endAt := 0, longest := 0, m := 1, misses := 0, last := 0, begun := true, ends := [], step := 0, due := none }
theorem wit_CounterResults :
    ([goes sh [.govrd al 0 1 2, .cntrd al 1 0, .cntrd al 1 14, .cntclr al 8, .cntclr al 7, .cntclrSnap al, .cntclrRoll al, .cntclrFree al, .enrd al 1 3],
      (sh.sr 2).toNat == 0, kget (sh.countsIn 1) sh.govs == none, ({ sh with govs := [(1, gov0)] } : State).issues (.govrd al 5 1 2),
      [0, 14].map cntFast == [true, false] || [0, 14].map cntFast == [false, true], srising sh.curCore.perf,
      ({ sh with stats := [(7, Stats.empty)] } : State).issues (.cntclrSnap al), ({ sh with stats := [(7, Stats.empty)] } : State).issues (.cntclrRoll al),
      sh.lpb.ident == 7].all id) = true := by decide +kernel

/-- Every rotator command. -/
def rots : List Instr :=
  [.qrfeed al true true 0 2 4 64 1, .qrfeed al false false 0 2 0 1 1, .qrapplySt al 0 2 1 1, .qrapplyLog al 0 2 4 1 1 1, .qrread al 0 false 0 0,
   .qrread al 0 true 0 0, .qrreadSt al 1, .qrzero al, .qrgainImm al, .qrgainDef al, .angout al false 0 30, .angin al false 0 30, .grot al 0 0 2 1 1]
/-- The rotator's head may complete in s. -/
def rotDue (s : State) : Bool :=
  match (s.core 0).rotQ with
  | q :: _ => q.due ≤ (s.core 0).eclk && s.hasGroup 0 q.gid
      && ((s.core 0).wakeFor ((rotSpans q.op q.args).2.flatMap Span.banks)).2 == 0
      && (((s.core 0).wakeFor ((rotSpans q.op q.args).2.flatMap Span.banks)).1.wakeRegs q.gid (rotRegs q.op)).2 == 0
  | [] => false
theorem wit_RotatorResults :
    ([goes (tile 1) rots, rots.all rotatorCommand, (tile 1).curCore.rotQ == [], rots.all (fun i => rotDue (late 0 (run i (tile 1)))),
      swf (0 : W64) ((tile 1).core 0 |>.group 1).sregs, swf (0 : W32) ((tile 1).core 0 |>.group 1).mat, 0 < ((tile 1).core 0 |>.group 1).budget].all id) = true := by
  decide +kernel

/-- With a texture descriptor of one level at 8192, whose texels stand at 0. -/
def texed : State := poke (setS sh 4 8192) (8192 + 12) [1]
/-- s with its shader-engine commands due, their crossings over. -/
def soon (s : State) : State := s.modCore 512 (fun c => { c with gfxQ := c.gfxQ.map (fun q => { q with due := 0, wall := 0 }) })
/-- A TRACE of one lane from the node at x. -/
def traced (x : Nat) : State := soon (run (.trace g1 0 4 1 2 3) (setS (shP 1) 1 x))
/-- The shader-engine command of s may complete. -/
def gfxDue (s : State) : Bool :=
  match (s.core 512).gfxQ with
  | q :: _ => q.core == 512 && q.tick ≤ s.now && q.drop == [] && q.due ≤ (s.core 512).eclk && (s.core 512).gfxFirst q && q.page == none && s.hasGroup 512 q.gid
      && ((s.core 512).wakeRegs q.gid ((opInfo q.op).mwr.map Prod.snd)).2 == 0
  | [] => false
/-- The head has crossings ahead. -/
def overBridge (s : State) : Bool := match (s.core 512).gfxQ with | q :: _ => q.wall != 0 | [] => false
/-- What the traversal of the head comes to. -/
def traceGoes (s : State) : Bool := match (s.core 512).gfxQ with | q :: _ => (match s.traceRun q with | (_, .ok _) => true | (_, .error _) => false) | [] => false
theorem wit_ShaderResults :
    ([sh.issues (.rast al 0 2 4 6), sh.act al != 0, sh.issues (.trace al 0 4 2 4 6), sh.continues 6 == none, texed.issues (.texs al 0 4 4 2),
      texed.issues (.texg al 3 0 4 4), gfxDue (soon (run (.rast al 0 2 4 6) sh)), gfxDue (soon (run (.texs al 0 4 4 2) texed)), gfxDue (soon (run (.texg al 3 0 4 4) texed)),
      gfxDue (traced 0), traceGoes (traced 0), gfxDue (traced (2 ^ 20)), !traceGoes (traced (2 ^ 20)),
      [soon (run (.rast al 0 2 4 6) sh), soon (run (.texs al 0 4 4 2) texed), traced 0].all (fun s => !overBridge s && swf (0 : W32) (s.group 512 0).mat
        && swf (0 : W64) (s.group 512 0).sregs && 0 < (s.group 512 0).budget),
      overBridge ((soon (run (.texs al 0 4 4 2) texed)).modCore 512 (fun c => { c with gfxQ := c.gfxQ.map (fun q => { q with wall := 20 }) }))].all id) = true := by decide +kernel

/-- A launch queue with one entry e, the shader LPB of `withLpb` at 4096, whose identifier is 9. -/
def queued (void : List Nat) (e : Nat) : State :=
  poke (poke { withLpb sh with lqs := [(3, { base := 65536, n := 4, enable := true, fed := false, error := false, head := 0, tail := 1, void := void })] } 65536 (leBytes 8 e))
    (4096 + 8) [9]
/-- What a boot with board b finds. -/
def found (b : Board) : Board := { b with channels := (List.range 13).map ({ State.reset with board := b } : State).channelsOf }
/-- A package in step n of its boot, with board b. -/
def booting (n : Nat) (b : Board) : State := { State.reset with bootstat := n, board := b }
theorem wit_BootResults :
    ([State.reset.bootstat != 1 && State.reset.bootstat != 2, (booting 1 Board.default).bootstat == 1, (booting 2 Board.default).bootstat == 2, !Board.verifies { Board.default with fwGood := false }, Board.verifies Board.default, !(found Board.default).halts, Board.default.quadOk 9 31,
      Board.verifies { Board.default with channels := [0] } && (found { Board.default with channels := [0] }).halts,
      (found { Board.default with stackL := [33] }).halts].all id) = true := by decide +kernel
theorem wit_RegisterResults : ((7 < 8) && swf 0 sh.msixTab && (2 ^ 64 - 1 < 2 ^ 64) && (63 < 64) && (3 < 4) && (0x2401 % 8 != 0) : Bool) = true := by decide +kernel
/-- A held service entry, in a machine whose service queue has n places. -/
def serving (n : Nat) : State :=
  { sh with svcCount := n, svcHeld := [{ kind := 1, cause := 2, die := 3, core := 4, gid := 5, slot := 1, ident := 6, va := 7, access := 2, token := 8 }] }
/-- A machine in which token 9 names a party. -/
def waitsFor (p : Party) (s : State) : State := { s with tokens := [(9, p)] }
/-- A channel that waits for token 9. -/
def chanWait : State := waitsFor (.chan 0 2) ((tile 0).modC (fun c => { c with chans := [(2, { Channel.start with page := some 9 })] }))
/-- A launch that is being cancelled. -/
def dying : State := sh.modLaunch 1 (fun x => { x with cancel := some ([1], 0, 0) })
theorem wit_HostResults :
    ([!sh.mapped (sh.winbase + 2 ^ 40), (List.range 3).all (fun i => sh.mapped (sh.winbase + i)), sh.memOk,
      !({ sh with winbase := 2 ^ 40 } : State).mapped (2 ^ 40), (fed 2).lqs != [], (serving 0).svcHeld != [], (serving 16).svcHeld != [],
      (serving 0).svcCount ≤ 0, (serving 16).svcTail + 2 ^ 32 - (serving 16).svcHead == 2 ^ 32, (serving 16).memOk,
      kget 4 sh.tokens == none, kget 9 (waitsFor (.group 512 0 0) sh).tokens == some (.group 512 0 0), sh.hasGroup 512 0,
      ((waitsFor (.group 512 0 0) (sh.modG (fun g => { g with halt := .page 9 }))).group 512 0).halt == .page 9,
      kget 9 chanWait.tokens == some (.chan 0 2), (kget 0 chanWait.cores).isSome, ((kget 2 (chanWait.core 0).chans).bind Channel.page) == some 9,
      kget 3 ({ waitsFor (.sort 3 1) sh with sortPage := [(3, 9)] } : State).sortPage == some 9,
      kget 9 (waitsFor (.gfx 512 1) sh).tokens == some (.gfx 512 1), (kget 512 sh.cores).isSome,
      sh.msixMasked 0, !({ sh with msixTab := [(1, 2 ^ 32)] } : State).msixMasked 0,
      (sh.launches.find? (fun p => fld p.2.lpb.ident 0 32 == 7 && sh.ownLaunch p.1)).any (fun p => p.2.cancel == none), sh.exact == [],
      sh.cores.all (fun p => p.2.arrayQ == [] && p.2.drainQ == [] && p.2.rotQ == []),
      (dying.launches.find? (fun p => fld p.2.lpb.ident 0 32 == 7 && dying.ownLaunch p.1)).any (fun p => p.2.cancel.isSome),
      (sh.launches.find? (fun p => fld p.2.lpb.ident 0 32 == 8 && sh.ownLaunch p.1)).isNone, sh.queuedLaunch 8 == none,
      ((queued [] 4096).queuedLaunch 9).isSome, srising (queued [] 4096).lqs, (queued [] 4096).launches.all (fun p => fld p.2.lpb.ident 0 32 != 9)].all id) = true := by decide +kernel
/-- A group in the debugger's hands, stopped. -/
def caught (s : State) : State := run (.debugStop s.cur.core s.cur.gid) s
theorem wit_DebugResults :
    ([(kget 5 (sh.core 512).groups).isNone, sh.hasGroup 512 0, (List.range 2).all (fun i => !(sh.trapsNow 512 0 i) && !((tile 1).trapsNow 0 1 i)), (tile 1).hasGroup 0 1,
      ((caught sh).dbg.find? (fun d => d.core == 512 && d.gid == 0)).any (fun e => !e.reported && !e.stepping), (caught sh).curCore.inflight == [],
      (caught sh).held 512 0, (caught (tile 1)).held 0 1, (sh.group 512 0).halt == .none, !sh.held 512 0,
      ((caught sh).group 512 0).halt == .debug, (((caught sh).core 512).unit ((caught sh).group 512 0).uid).gids.head? == some 0,
      swf (0 : W64) ((caught sh).group 512 0).sregs].all id) = true := by decide +kernel
/-- A report that is due. -/
def report : State := { sh with attest := some (0, List.replicate 32 1) }
theorem wit_AttestationResults :
    ([swf (0 : Byte) sh.mailbox, sh.attest == none, (List.replicate 32 (1 : Byte)).length == 32, report.attest.isSome, (0 : Nat) ≤ report.now].all id) = true := by
  decide +kernel

/-- A result that is due in the core of sh. -/
def landing (w : List Wr) : State := sh.modC (fun c => { c with inflight := [{ id := 3, due := 0, issued := 0, gid := 0, gix := 0, slot := 0, writes := w, dest := none }] })
/-- A sector that is due. -/
def sector (bad : Bool) (w : List Wr) : State :=
  sh.modC (fun c => { c with sectors := [{ id := 3, due := 0, gid := 0, writes := w, pc := 64, pa := 32, bad := bad, ctr := some 0, slots := 1, arr := 0, fixed := false, wall := 0, tick := 0 }] })
/-- A sector of core 512 with m ns to cross. -/
def farSector (m : Nat) : State := (sector false [.s 5 9]).modC (fun c => { c with sectors := c.sectors.map (fun f => { f with wall := m }) })
/-- m1.v[2]. -/
def someView : View := { dir := .v, m := 1, i := 2 }
/-- A bank that wakes. -/
def waking : Bank := { st := .dim, wakeAt := some 0, dirty := false }
/-- The first wakes of a machine. -/
def wakes : State :=
  (sh.modG (fun g => { g with banks := g.banks.set 1 waking })).modC (fun c => { c with scratch := [(128, waking)] })
/-- Page tables at 2^18 to 2^20, with one page of 64 KiB at 0. -/
def withPages (s : State) : State :=
  [(2 ^ 18, 2 ^ 19 + 1), (2 ^ 19, 2 ^ 20 + 1), (2 ^ 20, 2 ^ 20 + 2 ^ 19 + 1), (2 ^ 20 + 2 ^ 19, 0x1F)].foldl (fun s p => poke s p.1 (leBytes 8 p.2)) s
/-- The shader machine with them. -/
def paged : State := withPages sh
/-- A walk of that machine that is due. -/
def walker (root : Nat) (stale : Bool) (s : State) : State := { s with walks := [(2, [{ id := 3, reqs := [(512, 0)], root := root, va := 0, due := 0, stale := stale }])] }
/-- A dirty line whose lease ends at n. -/
def lined (n : Nat) : State :=
  sh.modC (fun c => { c with lines := [(1, { data := List.replicate 128 5, dirty := (List.replicate 128 false).set 4 true, since := some 0, lease := n, writers := [1] })] })
theorem wit_LandingResults :
    ([(kget 512 sh.cores).isSome, ((landing [.s 63 (-1)]).core 512).inflight != [], ((landing [.p 0 3 1]).core 512).inflight != [],
      ((landing (viewWrites someView 5 (fun _ => 7))).core 512).inflight != [], swf (0 : W64) (sh.group 512 0).sregs,
      swf (0 : W32) (sh.group 512 0).pregs, swf (0 : W32) (sh.group 512 0).mat, someView.m.val < (sh.group 512 0).budget,
      ((sector false [.s 5 9]).core 512).sectors != [], (sector false [.s 5 9]).hasGroup 512 0, ((sector true []).core 512).sectors != [],
      ((sector false [.m 1028 9, .m 5 8]).core 512).sectors != [], ((sh.group 512 0).bank 1).ready && ((sh.group 512 0).bank 0).ready,
      ((wakes.group 512 0).bank 1).wakeAt == some 0, 1 < (wakes.group 512 0).budget, swf Bank.start (wakes.core 512).scratch,
      ((wakes.core 512).sbank 128).wakeAt == some 0,
      (farSector 20).hasGroup 512 0, ((farSector 20).core 512).sectors.all (fun f => f.wall == 20 && f.tick ≤ (farSector 20).now && f.due ≤ ((farSector 20).core 512).clk),
      !((((sector false [.m 1028 9]).modG (fun g => { g with banks := g.banks.set 1 Bank.start })).group 512 0).bank 1).ready,
      (walker (2 ^ 18) true paged).walks != [], paged.exact == [],
      !((sh.modG (fun g => { g with banks := g.banks.set 1 Bank.start })).group 512 0 |>.bank 1).ready, viewWrites someView 5 (fun _ => (7 : W32)) != [], (match paged.walkFrom 2 (2 ^ 18) 0 with | .ok r => r == (0x1F, 0) | _ => false),
      (match paged.walkFrom 2 (2 ^ 18 - 2 ^ 16) 0 with | .error _ => true | _ => false), kget 1 ((lined 0).core 512).lines != none,
      (lined 0).memOk, ((lined 0).core 512).clk < 4096, kget 1 ((lined 4096).core 512).lines != none].all id) = true := by decide +kernel

/-- What the dispatcher's look at the head of queue 3 comes to. -/
def takes (s : State) : Bool :=
  let h := s.queueHead 3
  !(entryBad h.entry) && (match h.s.validate h.img h.va h.pa none false with
  | .ok (l, t, e) => h.s.taskRoom (h.s.mkLaunch l t e)
  | _ => false)
/-- The LPB at 4096 with some bytes changed. -/
def lpbWith (l : List (Nat × Nat)) : State := l.foldl (fun s p => poke s (4096 + p.1) [BitVec.ofNat 8 p.2]) (queued [] 4096)
/-- The code that the head of queue 3 is rejected with. -/
def codeOf (s : State) : Option Nat :=
  let h := s.queueHead 3
  match h.s.validate h.img h.va h.pa none false with | .error c => some c | .ok _ => none
/-- An LPB of a wrong role with its signal word at v. -/
def turned (v : Nat) : State := withPages (poke (lpbWith [(126, 2), (18, 4)]) (4096 + 32) (leBytes 8 v))
/-- Can the head of s write its signal? -/
def canSignal (s : State) : Bool :=
  let h := s.queueHead 3
  let l := (h.img.map (fun b => lpbOfImage b h.va h.pa)).getD emptyLpb
  (h.s.writeV 0x10000 l.root true l.sigVa (leBytes 8 (2 ^ 63 + 0x21))).isSome
/-- A launch that is cancelled, and the engines of whose core hold a command of it or not. -/
def leaving (busy : Bool) : State :=
  dying.modC (fun c => { c with rotQ := if busy then [ordCmd 0 0] else [] })
/-- An ended launch with an edge, while the store of decrements is full. -/
def edged : State :=
  { sh with decs := List.replicate 4096 0,
            launches := [(1, { literalLaunch .shader with lpb := { lpb .shader with root := 2 ^ 18 }, ending := true, edges := [{ consumer := 64, scope := 0, regions := [] }] })] }
/-- A launch that has ended. -/
def ending (l : Lpb) (p : Option Nat) : State := { sh with launches := [(1, { literalLaunch .shader with lpb := l, ending := true, parent := p })] }
/-- The same with a signal word that can be written, or not. -/
def sigLpb (v : Nat) : Lpb := { lpb .shader with sigVa := v, root := 2 ^ 18, msix := true, vector := 4 }
/-- A unit whose group has ended. -/
def over_ : State := sh.modG (fun g => { g with ended := true })
theorem wit_LaunchResults :
    ([((queued [] 4096).lq 3).enable, ((queued [] 4096).lq 3).head != ((queued [] 4096).lq 3).tail, (queued [] 4096).exact == [],
      (queued [] 4096).mapped 4096, ((queued [] 4096).badAt 4096 384).isNone, takes (queued [] 4096), entryBad ((queued [] 1).queueHead 3).entry,
      ((queued [0] 4096).lq 3).void.contains ((queued [0] 4096).lq 3).head, !(((queued [] 4096).lq 3).void.contains 0), kget 1 ({ sh with ovf := [(1, [1])] } : State).ovf == some [1], sh.forkCount 2 < 1024,
      (kget 1 (ending (lpb .shader) none).launches).any (fun x => x.ending && x.cancel == none && (sh.serveEdges x).2 == [] && (sh.signal x.lpb x.lpb.sigVal).isSome),
      ({ paged with launches := [(1, { literalLaunch .shader with lpb := sigLpb 64, ending := true })] }.signal (sigLpb 64) 5).isSome,
      (paged.signal (sigLpb (2 ^ 30)) 5).isNone, (kget 1 (ending (lpb .shader) (some 3)).launches).any (fun x => x.parent == some 3),
      [(0, codeOf (lpbWith [(0, 67)])), (1, codeOf (lpbWith [(126, 2)])), (2, codeOf (lpbWith [(78, 7)])), (3, codeOf { lpbWith [] with classes := [] }),
        (4, codeOf (lpbWith [(56, 1)])), (6, codeOf { lpbWith [] with dicts := [] }), (7, codeOf (lpbWith [(208, 1)])), (8, codeOf (lpbWith [(80, 1)])),
        (14, codeOf (lpbWith [(93, 1)]))].all (fun p => p.2 == some (0x20 + p.1)),
      (match (lpbWith []).validate (some ((lpbWith []).bytes 4096 384)) 0 0 (some (2 ^ 18, false)) false with | .error c => c == 0x25 | .ok _ => false),
      codeOf (turned 64) == some 0x21, (turned 64).pushWait == [], canSignal (turned 64), !canSignal (turned (2 ^ 30)),
      [true, false].map (fun b => (leaving b).enginesHold [1]) == [true, false], (kget 1 dying.launches).any (fun x => x.cancel == some ([1], 0, 0)),
      (kget 1 (withPages edged).launches).any (fun x => x.cancel == none && x.ending && ((withPages edged).serveEdges x).2 != []),
      over_.hasGroup 512 0, ((over_.core 512).unit (over_.group 512 0).uid).weave == none, over_.unitDone 512 (over_.group 512 0).uid,
      (kget (over_.countsIn 1) over_.launches).isSome].all id) = true := by decide +kernel

/-- A machine of one quad that is ON, in which the launch of `sh` waits with units to dispatch. -/
def waitingUnits (s : State) : State :=
  { s with classes := Board.default.rows, launches := s.launches.map (fun p => (p.1, { p.2 with queued := true, lpb := { p.2.lpb with grid := 4, cls := 2, prio := 7 } })) }
/-- A second launch, of a gang, that waits while a gang of a lower level holds the only tile. -/
def pressed : State :=
  { waitingUnits (tile 0) with
    cores := [0, 1, 12, 13].map (fun c => (c, (tile 0).core 0))
    launches := [(1, { literalLaunch .copy with lpb := { tileLpb with cls := 2 }, topb := some (topb 3) }),
                 (5, { literalLaunch .copy with lpb := { tileLpb with cls := 2, grid := 1 }, level := 7, queued := true, nextUnit := 0 })] }
/-- The unit of sh, stopped for its save. -/
def saving : State := (sh.modG (fun g => { g with halt := .saving })).modU (fun u => { u with preempt := true })
/-- A gang with a TOPB of three steps that may restart or not, in a step. -/
def inStep (restart : Bool) : State :=
  ((tile 0).modU (fun u => { u with stepping := true })).modLaunch 1 (fun x => { x with topb := some { topb 3 with restart := restart } })
theorem wit_DispatchResults :
    ([[inStep true, inStep false, tile 0].all (fun s => s.curUnit.gang && s.curUnit.weave == none && (s.together 0 s.curGrp.uid).all (fun p => s.victimOk p.1 p.2)
        && kget 0 s.cores == some (s.core 0)), (inStep true).midStep (inStep true).curUnit, !(inStep false).midStep (inStep false).curUnit,
      ((inStep false).topbOf 1).isSome, (tile 0).topbOf 1 == none, (sh.together 512 sh.curGrp.uid).all (fun p => sh.victimOk p.1 p.2),
      let s := woven 0 { weave0 with comm := some 0 }
      s.curUnit.weave == some 5 && (kget 5 s.weaves).any (fun w => w.comm.isSome) && srising s.cores && srising (s.core 0).units
        && (s.together 0 s.curGrp.uid).all (fun p => s.victimOk p.1 p.2),
      saving.linesOk 512, (sh.core 512).groups.all (fun p => p.2.uid != sh.fresh), sh.curUnit.gids == [0], sh.hasGroup 512 0,
      (let s := waitingUnits sh
       match s.dispatchNext 2 with
       | some (_, .inl p) => (s.waiting 2).all (fun x => match s.placeOf x with | some q => !(s.heldBack (lsort Cand.before (s.waiting 2)) x q.1) | none => true) && p != []
       | _ => false), (match pressed.dispatchNext 0 with | some (c, .inr _) => pressed.placeOf c == none | _ => false),
      swf (0 : W64) (sh.group 512 0).sregs, swf (0 : W32) (sh.group 512 0).pregs, swf (0 : W32) (sh.group 512 0).mat, (match (waitingUnits sh).dispatchNext 2 with | some (_, .inl _) => true | _ => false),
      (match pressed.dispatchNext 0 with | some (_, .inr v) => (kget v.2 (pressed.core v.1).units).isSome | _ => false),
      sh.victimOk 512 sh.curGrp.uid, !sh.curUnit.gang, sh.curUnit.weave == none, (kget 512 sh.cores) == some (sh.core 512),
      (kget sh.curGrp.uid (sh.core 512).units).isSome, saving.drained 512 saving.curGrp.uid, saving.curUnit.preempt,
      saving.curUnit.gids.all (fun g => (saving.group 512 g).halt == .saving), (kget 1 saving.launches).isSome,
      kget 512 saving.cores == some (saving.core 512)].all id) = true := by decide +kernel

/-- A gang whose walker is due, in a launch of n steps. -/
def walks (n : Nat) : State :=
  (((tile 0).modU (fun u => { u with stepDue := some 0 })).modLaunch 1 (fun x => { x with topb := some (topb n) }))
/-- A gang in a step of 2^20 clk. -/
def longStep : State := (walks 3).modU (fun u => { u with stepping := true, stepClk := 2 ^ 20 })
/-- A governed launch whose decision is due. -/
def governed : State := { walks 3 with govs := [(1, { gov0 with due := some 0 })], launches := (walks 3).launches.map (fun p => (p.1, { p.2 with topb := some { topb 3 with governed := true, period := 1 } })) }
/-- The unit whose walker is due. -/
def due0 (s : State) (p : WUnit → Bool) : Bool :=
  match (s.core 0).units.find? (fun q => q.2.atBoundary (s.core 0).clk) with
  | some (k, u) => kget k (s.core 0).units == some u && u.stepDue == some 0 && !u.govHold && p u
  | none => false
theorem wit_WalkerResults :
    ([due0 (walks 3) (fun u => u.nextStep < 3 && !u.preempt), due0 (walks 0) (fun u => 0 ≤ u.nextStep),
      due0 ((walks 3).modU (fun u => { u with preempt := true })) (fun u => u.nextStep < 3 && u.preempt && !((walks 3).core 0).flying u), (kget 0 (walks 3).cores).isSome, ((walks 3).core 0).units.any (fun p => p.2.gang && p.2.stepDue.isSome && !p.2.govHold),
      (kget (walks 3).curGrp.uid ((walks 3).core 0).units).any (fun u => u.nextStep < 3 && !u.preempt && u.gids == [0, 1, 2]), ((walks 3).topbOf 1).map Topb.steps == some 3,
      ((walks 0).topbOf 1).map Topb.steps == some 0, swf (0 : W64) ((walks 3).group 0 0).sregs, !isShader 0,
      (longStep.core 0).units.any (fun p => p.2.gang && p.2.stepping && 2 ^ 20 ≤ p.2.stepClk && p.2.gids.all (fun g => (longStep.group 0 g).halt != .stopped)),
      ((longStep.topbOf 1).map Topb.restart) == some false, (longStep.hasGroup 0 0),
      (kget 1 governed.govs).any (fun g => g.due == some 0), (governed.topbOf 1).isSome].all id) = true := by decide +kernel

/-- The weave of one tile in a state of its communication phase. -/
def comm (w : Weave) : State := woven 0 w
/-- A transfer of 16 bytes to the tile itself, that lands at tick n or has its clk parts ahead. -/
def flies (n : Option Nat) : Transfer :=
  { id := 8, core := 0, entry := { at_ := 0, src := 0, dst := 64, bytes := 16, die := 0, x := 0, y := 0, w := 1, h := 1 }, dests := [0], clks := 0, wall := 0, land := n,
    data := List.replicate 16 3 }
theorem wit_WeaveResults :
    ([kget 5 (comm weave0).weaves == some weave0, (comm { weave0 with comm := none }).weaveReady { weave0 with comm := none } || true,
      ((comm weave0).mem == []) && ({ comm weave0 with quads := [(0, Quad.start 2)] } : State).weaveReady weave0,
      (kget 5 (comm { weave0 with comm := some 0, toStart := [(0, 0, 0)] }).weaves).isSome, (0 : Nat) ≤ (comm weave0).weaveClk weave0,
      [flies none, flies (some 0)].all (fun x => (kget 5 (comm { weave0 with comm := some 0, flying := [x] }).weaves).isSome && x.clks ≤ (comm weave0).weaveClk weave0),
      ((comm weave0).core 0).wakeFor (spanBanks 2 64 16) == ((comm weave0).core 0, 0), (kget 0 (comm weave0).cores).isSome, swf (0 : Byte) ((comm weave0).core 0).buf,
      ({ comm weave0 with now := 9 } : State).commOver { weave0 with comm := some 0 }].all id) = true := by decide +kernel

/-- A machine under an alarm. -/
def alarmed : State := { sh with alarms := [true, false, false, true], throttle := .held }
/-- A bridge channel with n failed lanes. -/
def channel (n : Nat) (u : Option Nat) : State := { sh with bridge := [(0, { failed := n, until_ := u })] }
theorem wit_AlarmAndLinkResults :
    ([decide (60 < sh.templim), decide (sh.templim ≤ 200), 512 / 256 < 10 && 512 % 256 < dieCores (512 / 256), alarmed.alarms.getD 0 false, !(alarmed.alarms.getD 1 false), ({ sh with throttle := .holding 4 } : State).throttle == .holding 4, (kget 512 sh.cores).isSome,
      kget 0 (channel 3 none).bridge == some { failed := 3, until_ := none }, kget 0 (channel 4 none).bridge == some { failed := 4, until_ := none },
      kget 0 (channel 5 none).bridge == some { failed := 5, until_ := none }, kget 0 (channel 1 (some 0)).bridge == some { failed := 1, until_ := some 0 },
      ({ channel 5 none with bootstat := 3, board := { Board.default with channels := [1] } } : State).channelsOf 0 == 0,
      (kget 5 (comm weave0).weaves).isSome, decide ((12 : Nat) < 13 ∧ (1 : Nat) < 2 ∧ (47 : Nat) < 48 ∧ (15 : Nat) < 16)].all id) = true := by decide +kernel

/-- A machine with one tensor quad in a state, its tiles without work. -/
def quadIn (y : Quad) : State := { State.reset with quads := [(3, y)], inrush := [(0, [3])] }
/-- A quad in a power state. -/
def qp (p : QPower) : Quad := { Quad.start 2 with power := p }
/-- A quad at a margin. -/
def qm (m : Margin) : Quad := { Quad.start 2 with margin := m }
/-- A core over its profile. -/
def hot : State := { sh.modC (fun c => { c with esum := 10 ^ 6 }) with classes := Board.default.rows }
/-- A core that has issued at reduced margin. -/
def sped (n : Nat) : State :=
  { sh.modC (fun c => { c with issued := [0], redo := [(0, n)] }) with quads := [(quadKey 512, { Quad.start 2 with power := .on, margin := .reduced })] }
/-- A tile at reduced margin whose array or rotator runs the command that i sends. -/
def strained (i : Instr) (s : State) : State :=
  let t := run i s
  { t.modCore 0 (fun k => { k with eclk := ((k.arrayQ ++ k.rotQ).map Cmd.start).headD 0 }) with
    quads := [(quadKey 0, { Quad.start 2 with power := .on, margin := .reduced })] }
/-- Does one command, and no other, run in a queue of core 0? -/
def running (l : List Cmd) (s : State) : Bool :=
  match l with | [q] => q.start ≤ (s.core 0).eclk && (s.core 0).eclk < q.due | _ => false
/-- Quad 3 of die 0 in a hold until n, with a dirty line in its first core. -/
def parked (n : Nat) : State :=
  let s := quadIn (qp (.hold n))
  let c := (quadCores 3).headD 0
  { s with cores := [(c, { Core.start 0 with lines := dirtied.curCore.lines })] }
/-- The L2 and bridge block of die 0 asks, or stands first. -/
def block (l : List Nat) : State := { quadIn (qp .on) with inrush := [(0, l)] }
theorem wit_PowerResults :
    ([[0, 9].all (fun n => kget 3 (parked n).quads == some (qp (.hold n)) && (quadCores 3).all (fun c => (parked n).linesOk c)), (parked 0).now < 9,
      (parked 0).quadIsIdle 3 || true, ((parked 0).core ((quadCores 3).headD 0)).lines != [], kget (dieQuads 0) (block []).quads == none, !(([] : List Nat).contains (dieQuads 0)),
      kget 0 (block [dieQuads 0]).inrush == some [dieQuads 0], sget 0 0 (block [dieQuads 0]).inrushAt ≤ 0, running ((strained (.mma al mo) mx).core 0).arrayQ (strained (.mma al mo) mx),
      running ((strained (.qrzero al) (tile 1)).core 0).rotQ (strained (.qrzero al) (tile 1)), kget 3 (quadIn (qp .on)).quads == some (qp .on), (quadIn (qp .on)).quadIsIdle 3, kget 3 (quadIn (qp (.hold 0))).quads == some (qp (.hold 0)),
      kget 3 (quadIn (qp .off)).quads == some (qp .off), kget 0 (quadIn (qp .off)).inrush == some [3], sget 0 0 (quadIn (qp .off)).inrushAt ≤ 0,
      kget 3 (quadIn (qp (.waking 0))).quads == some (qp (.waking 0)),
      (kget 3 (quadIn { qp .on with moving := some (1, some 0) }).quads).any (fun y => y.moving == some (1, some 0)), !(quadIn (qp .on)).quadBusy 3,
      hot.stalls 512, (hot.core 512).edge ≤ hot.now, [0, 2].all (fun n => (kget (quadKey 512) (sped n).quads).any (fun y => y.margin == .reduced)
        && ((sped n).core 512).issued == [0] && kget 0 ((sped n).core 512).hits == none && sget 0 0 ((sped n).core 512).redo == n
        && (kget (((sped n).core 512).pathStream 512 0).1 ((sped n).core 512).groups).isSome && (((sped n).core 512).pathStream 512 0).2 < 2),
      [Margin.nominal, .toReduced 9, .toNominal 9].all (fun m => (kget (quadKey 512) ({ sped 0 with quads := [(quadKey 512, { qm m with power := .on })] } : State).quads).any
        (fun y => y.margin == m)), 1 ∉ ((sped 0).core 512).issued,
      (kget 3 (quadIn { qp .on with nominalUntil := some 0 }).quads).any (fun y => y.nominalUntil == some 0), !(quadIn (qp .on)).quadInWeave 3,
      kget 3 (quadIn (qm (.toNominal 0))).quads == some (qm (.toNominal 0)), kget 3 (quadIn (qm (.toReduced 9))).quads == some (qm (.toReduced 9)),
      (comm { weave0 with comm := some 0 }).quadInWeave 0].all id) = true := by decide +kernel

/-- The machine that has the literal of an IADD, guarded, next. -/
def ready : State := State.reset.withFetchWord 384 ((0x10 + 3 * 2 ^ 12 + 1 * 2 ^ 18 + 63 * 2 ^ 24) * 2 ^ 32)
/-- The stream of it. -/
def readyCur : State := { ready with cur := { Cur.none with core := 512, gid := 0, slot := 0 } }
/-- What the stream fetches is a bundle without deltas that holds i alone. -/
def fetches (i : Instr) (s : State) : Bool :=
  match s.fetch with
  | .bundle b _ _ => fld (hdrImg b) 0 5 == 0 && (match (if i = .nop then none else encode i) with
      | some (cls, w) => w != 0 && decide (buildSlot cls w = i) && (List.range 5).all (fun k => slotImg b k == if k == cls.slot then w else 0)
      | none => (List.range 5).all (fun k => slotImg b k == 0))
  | _ => false
theorem wit_StepRunsDecoded :
    ([ready.agenda != [], ({ sh with inputs := [(0, .externalAlarm)] } : State).agenda == [], sh.inputs == [],
      ready.mayIssue 512 0 0, !readyCur.curSlot.skip, readyCur.dueTrap == none, !(readyCur.freezeAhead 512 0), fetches (.iadd al 3 1 63) readyCur,
      fetches .nop { State.reset.withFetchWord 384 0 with cur := readyCur.cur }].all id) = true := by decide +kernel
theorem wit_Decoding :
    ([(Instr.iadd al 3 1 63).wellFormedFor .shader false 0, (encode (.iadd al 3 1 63)).isSome, (Instr.mma al mo).wellFormedFor .matrix false 6, (encode (.mma al mo)).isSome,
      (match decodeSlot .shader false 0 .c 0x10 with | .ok i => decide (i = .iadd al 0 0 0) | _ => false)].all id) = true := by decide +kernel
theorem wit_StepKeepsMemory : (State.reset.memOk && paged.memOk) = true := by decide +kernel

/-! ## Slot words that the spec works out, and results calculated by hand or worked out in the spec -/

-- the worked bundle of the bundle chapter: VFMA x67, x3, m1:v2, x67 in slot 1 and LD x8, a1, s5, 0x40 in slot 3
theorem test_word_vfma : dec (at_ 1 0x0008688801843004)
    = some (.vfma al 0 0 (vw 2 3) (.view (vw 0 3)) (.view { dir := .v, m := 1, i := 2 }) (.view (vw 2 3))) := by decide +kernel
theorem test_word_ld : dec (at_ 3 0x00400404A2808001) = some (.ld al .g .b32 false (vw 0 8) 1 (.bcast 5) 0x40) := by decide +kernel
-- the worked divergence: [p2] brv +7, iadd s10, s10, 1 and bra -3
theorem test_word_brv : dec (at_ 0 0x0000000700000203) = some (.brv { pg := 2, neg := false } 7) := by decide +kernel
theorem test_word_iadd : dec (at_ 0 0x000000010028A030) = some (.iaddImm al 10 10 1) := by decide +kernel
theorem test_word_bra : dec (at_ 0 0xFFFFFFFD00000001) = some (.bra al 0xFFFFFFFD) := by decide +kernel
theorem test_word_vdot8 : dec (at_ 1 0x0030018010040031) = some (.vdot8 al (vw 2 0) (.view (vw 1 0)) (.view (vw 3 0)) (.const 0)) := by decide +kernel
theorem test_word_semwait : dec (at_ 4 0x0000100C00000042) = some (.semwaitDec al 3 1) := by decide +kernel
theorem test_word_qrfeed : dec (at_ 4 0x0001002001440050) = some (.qrfeed al false false 4 5 0 8 16) := by decide +kernel
theorem test_word_rget : dec (at_ 4 0x0000000405541027) = some (.rget al true 20 1 21) := by decide +kernel
theorem test_word_tstld : dec (at_ 4 0x0000000001C60033) = some (.tstld al 6 7) := by decide +kernel
theorem test_word_rast : dec (at_ 4 0x0000001196140060) = some (.rast al 4 20 24 25) := by decide +kernel

/-- What an instruction has sent to land. -/
def wrote (i : Instr) (s : State) : List Wr := (run i s).curCore.inflight.flatMap InFlight.writes
-- R127: sums and products wrap at 64 bits
theorem test_iadd_wraps : wrote (.iadd al 3 1 2) (setS (setS sh 1 (2 ^ 64 - 1)) 2 3) = [.s 3 2] := by decide +kernel
theorem test_imad : wrote (.imad al 4 5 6 7) (setS (setS (setS sh 5 3) 6 5) 7 (2 ^ 64 - 1)) = [.s 4 14] := by decide +kernel
theorem test_isar_sign : wrote (.isarImm al 3 1 4) (setS sh 1 (2 ^ 63)) = [.s 3 (BitVec.ofNat 64 (2 ^ 64 - 2 ^ 59))] := by decide +kernel
theorem test_imin_signs : (wrote (.imin al true 3 1 2) (setS (setS sh 1 (2 ^ 64 - 1)) 2 1), wrote (.imin al false 3 1 2) (setS (setS sh 1 (2 ^ 64 - 1)) 2 1))
    = ([.s 3 1], [.s 3 (-1)]) := by decide +kernel
-- R98: the conversion table; R104: the MXFP4 block; R107 to R109: the exact sum
theorem test_convert_e4m3 : [convert 0 3 0 false 0x43E60000, convert 0 3 0 false 0x43E80000, convert 0 3 0 false 0x43FA0000, convert 0 3 0 true 0x43FA0000]
    = [0x7E, 0x7E, 0x7F, 0x7E] := by decide +kernel
theorem test_convert_narrow : [convert 0 7 0 false 0x3E99999A, convert 0 6 0 false 0x3E000000, convert 0 1 0 false 0xC7800000] = [1, 1, 0xFC00] := by decide +kernel
theorem test_block_rounds_once : blockAcc 0x4B800000 127 127 (List.replicate 2 (fdec 7 2, fdec 7 2)) = 0x4B800001 := by decide +kernel
theorem test_exact_sum :
    (let r := [0x71800000, 0x3F800000, 0xF1800000].foldl (fun (a : Nat × Int × Bool × Bool × Bool) x => exactAdd a.1 a.2.1 a.2.2.1 a.2.2.2.1 a.2.2.2.2 x) (0, 0, false, false, false)
     exactSettle r.1 r.2.1 r.2.2.1 r.2.2.2.1 r.2.2.2.2) = 0x3F800000 := by decide +kernel
/-- sh with elements of its matrix registers. -/
def setM (s : State) (l : List (Nat × Nat)) : State := l.foldl (fun s p => s.modG (fun g => { g with mat := sset 0 p.1 (BitVec.ofNat 32 p.2) g.mat })) s
-- the worked quantisation: a row into MXFP4, and the packed product of its first block
theorem test_vqmx : ([(1024, 0x7093), (1025, 0), (1028, 0x80), (1029, 0)].all (fun p =>
    (wrote (.vqmx al (vw 1 0) (.view x0)) (setM (shF 0x5C) [(0, 0x40400000), (1, 0xBFA00000), (2, 0x3E99999A), (3, 0x41400000)])).contains (.m p.1 (BitVec.ofNat 32 p.2)))) = true := by
  decide +kernel
theorem test_vdot8 : ([(2048, 0x40600000), (2049, 0)].all (fun p =>
    (wrote (.vdot8 al (vw 2 0) (.view (vw 1 0)) (.view (vw 3 0)) (.const 0)) (setM (shF 0x5C) [(1024, 0x7093), (1028, 0x80), (3072, 0x1642)])).contains (.m p.1 (BitVec.ofNat 32 p.2)))) = true := by
  decide +kernel
-- the worked divergence, event 1: the odd lanes take slot 1 to 0x0C, slot 0 keeps the even lanes, both at depth 1 (R133)
theorem test_brv :
    (let g := (run (.brv { pg := 1, neg := false } 6) (sh.modG (fun g => { g with pregs := [(1, 0xAAAAAAAA)] }))).curGrp
     (g.slot1.mask, g.slot1.pc, g.slot1.depth, g.slot0.mask, g.slot0.depth)) = (0xAAAAAAAA, 12, 1, 0x55555555, 1) := by decide +kernel
-- R8: bytes are little-endian: lanes 0 and 1 read 32-bit words at 64 and 68
theorem test_ld_words :
    (let f := ((run (.ld al .g .b32 false x0 0 (.view (vw 1 0)) 64) (setM (poke sh 64 [1, 2, 3, 4, 5]) [(1025, 4)])).curCore.sectors).flatMap Sector.writes
     f.contains (.m 0 0x04030201) && f.contains (.m 1 0x00000005)) = true := by decide +kernel
-- the worked triangle: ten samples, lane 9 at pixel (1, 4) with lambda 1 0.125 and lambda 2 0.875, and the box exhausted
theorem test_rast :
    (let s := soon (run (.rast al 4 20 24 25) ([(20, 0x0000010000000100), (21, 0x0000010000000500), (22, 0x0000050000000100), (24, 0x0010001000000000), (25, 0)].foldl
        (fun s p => setS s p.1 p.2) sh))
     let g := (run (.shaderEngineComplete 512 ((s.core 512).gfxQ.headD (ordCmd 0 0)).id) s).group 512 0
     (g.elem 4096, g.elem 4105, g.elem (4096 + 32 + 9), g.elem (4096 + 64 + 9), g.elem 4106, g.sreg 25))
    = (0x00010001, 0x00040001, 0x3E000000, 0x3F600000, 0xFFFFFFFF, 0x8000000000000000) := by decide +kernel
-- R342: the on-die multicast of the worked superstep: 2,048 bytes from offset 0, farthest tile 8 hops away, lands at 24
theorem test_tst_lands :
    (let w := { weave0 with comm := some 0, toStart := [(0, 0, 0)] }
     let e : TstEntry := { at_ := 0, src := 0, dst := 0, bytes := 2048, die := 0, x := 3, y := 3, w := 2, h := 2 }
     let s := (woven 0 w).modU (fun u => { u with tst := { used := 1, dir := [(0, 1, 96)], entries := [e] } })
     ((kget 5 (run (.tstTransferStart 5 0 0) s).weaves).map (fun w => w.flying.map (fun t => (t.clks, t.dests)))))
    = some [(24, [39, 40, 51, 52])] := by decide +kernel
-- R361: the worked governor: at the end of step 1 the frame would miss its deadline, and entry 0, step 2, is dropped
theorem test_governor :
    (let t := { topb 8 with governed := true, period := 4, deadline := 2000, drop := [2, 3] }
     let d := Gov.decide { gov0 with frame := 0, stepAt := 400, endAt := 1100, longest := 400, m := 0, step := 1 } t
     (d.1.m, d.1.longest, d.2)) = (1, 700, 3) := by decide +kernel
-- R393, R396: the worked account of a stall clk
theorem test_energy : ({ Core.start 0 with esum := 614410, carry := 192, energy := List.replicate 1023 0 ++ [520] } : Core).account.esum = 613902 := by decide +kernel
-- R414, R415: the worked part with L = 2 on stack 6
theorem test_degrade :
    (let b := { Board.default with stackL := (List.replicate 16 0).set 6 2 }
     (b.record.drop 58, ({ State.reset with board := b } : State).hbmEnd)) = ([0, 0, 8, 0, 0, 0], 0xF000000000) := by decide +kernel
-- R350: a wait with decrement that finds its value takes it
theorem test_semwait : (run (.semwaitDec al 3 5) semmed).curCore.sem 3 = 0 := by decide +kernel
-- R375: a software trap whose vector is enabled starts the handler at its entry with every lane
theorem test_trap :
    (let g := (run (.trap al 9) (armed sh)).curGrp
     (g.inHandler, g.slot0.pc, g.slot0.mask, g.slot1.mask)) = (true, 64, allLanes, 0) := by decide +kernel

end Sys2Proof.Tests
end

section
/-! Boot (R413 to R415): what the reset keeps, the two outcomes of the verification, and the package that training leaves (O42). -/

namespace Sys2Proof.Machine

/-! ### Records put one after the other -/

variable {α β : Type}

/-- Records put at other keys leave a key alone. -/
theorem kget_foldl_kset_other {key : β → Nat} {val : β → α} {k : Nat} {l : List β} (h : ∀ p ∈ l, k ≠ key p) (m : Sparse α) :
    kget k (l.foldl (fun m p => kset (key p) (val p) m) m) = kget k m := by
  induction l generalizing m with
  | nil => rfl
  | cons p r ih =>
    obtain ⟨hp, hr⟩ := List.forall_mem_cons.mp h
    rw [List.foldl_cons, ih hr, kget_kset_other hp]

/-- Of records put at keys that differ, each is read at its own key. -/
theorem kget_foldl_kset_mem {key : β → Nat} {val : β → α} {p : β} {l : List β} (hp : p ∈ l) (inj : ∀ x ∈ l, key p = key x → p = x)
    (m : Sparse α) : kget (key p) (l.foldl (fun m x => kset (key x) (val x) m) m) = some (val p) := by
  induction l generalizing m with
  | nil => cases hp
  | cons x r ih =>
    obtain ⟨hx, hr⟩ := List.forall_mem_cons.mp inj
    by_cases later : p ∈ r
    · exact ih later hr _
    · obtain rfl : p = x := (List.mem_cons.mp hp).resolve_right later
      rw [List.foldl_cons, kget_foldl_kset_other (fun x hxr e => later (hr x hxr e ▸ hxr)), kget_kset_same]

/-! ### The quads that boot reports (R415) -/

/-- A die's quads fit the 64 keys that it has, so that a quad's key names its die and its place. -/
theorem dieQuads_le (d : Nat) : dieQuads d ≤ 64 := by
  unfold dieQuads; split <;> omega

/-- Boot reports the quads of the package that stand. -/
theorem mem_quadsUp {b : Board} {d q : Nat} : (d, q) ∈ b.quadsUp ↔ d < 10 ∧ q < dieQuads d ∧ b.quadOk d q = true := by
  simp [Board.quadsUp, and_assoc]

/-- The key of a quad, given as (die, quad), in the package's list of quads. -/
def diePlaceKey (p : Nat × Nat) : Nat := p.1 * 64 + p.2

/-- A quad of the package and a quad that boot reports have the same key only where they are the same quad. -/
theorem eq_of_diePlaceKey {b : Board} {d q : Nat} (hq : q < dieQuads d) {x : Nat × Nat} (hx : x ∈ b.quadsUp)
    (h : diePlaceKey (d, q) = diePlaceKey x) : (d, q) = x := by
  obtain ⟨d', q'⟩ := x
  obtain ⟨-, hq', -⟩ := mem_quadsUp.mp hx
  have := dieQuads_le d
  have := dieQuads_le d'
  simp only [diePlaceKey] at h
  obtain rfl : d = d' := by omega
  obtain rfl : q = q' := by omega
  rfl

/-- The quads of a part listed by their keys: those that stand, and no other. -/
theorem kget_quadsUp (b : Board) (val : Nat × Nat → Quad) {d q : Nat} (hd : d < 10) (hq : q < dieQuads d) :
    kget (diePlaceKey (d, q)) (b.quadsUp.foldl (fun m p => kset (diePlaceKey p) (val p) m) [])
      = if b.quadOk d q = true then some (val (d, q)) else none := by
  split
  case isTrue ok =>
    have up : (d, q) ∈ b.quadsUp := mem_quadsUp.mpr ⟨hd, hq, ok⟩
    exact kget_foldl_kset_mem up (fun _ hx => eq_of_diePlaceKey hq hx) []
  case isFalse fails =>
    have absent : ∀ x ∈ b.quadsUp, diePlaceKey (d, q) ≠ diePlaceKey x := fun x hx h =>
      fails (mem_quadsUp.mp (eq_of_diePlaceKey hq hx h ▸ hx)).2.2
    exact kget_foldl_kset_other absent []

/-! ### The three steps (R413) -/

/-- A reset keeps the lanes that have failed, and with them the channels that a boundary counts. -/
theorem rebooted_channelsOf (s : State) (b : Nat) : s.rebooted.channelsOf b = s.channelsOf b := by
  simp only [State.channelsOf, State.rebooted, List.countP_map]
  rfl

/-- No channel is retraining after a reset. -/
theorem rebooted_bridge_until (s : State) : ∀ p ∈ s.rebooted.bridge, p.2.until_ = none := by
  intro p hp
  obtain ⟨_, _, rfl⟩ := List.mem_map.mp hp
  rfl

/-- The event RESET_BOOT runs the boot controller's next step. -/
theorem exec_resetBoot (s : State) : exec .resetBoot s = execResetBoot s := rfl

/-- Out of its two steps, the controller begins the sequence again with the reset. -/
theorem exec_resetBoot_rebooted {s : State} (h1 : s.bootstat ≠ 1) (h2 : s.bootstat ≠ 2) : exec .resetBoot s = .next s.rebooted := by
  rw [exec_resetBoot, execResetBoot, if_neg h1, if_neg h2]

/-- An image that does not verify ends the boot. -/
theorem exec_resetBoot_rejected {s : State} (h : s.bootstat = 1) (hv : s.board.verifies = false) :
    exec .resetBoot s = .next { s with bootstat := 5 } := by
  simp [exec_resetBoot, execResetBoot, State.verify, h, hv]

/-- An image that verifies lets boot go on with training. -/
theorem exec_resetBoot_verified {s : State} (h : s.bootstat = 1) (hv : s.board.verifies = true) :
    exec .resetBoot s = .next { s with bootstat := 2, agenda := .resetBoot :: s.agenda } := by
  simp [exec_resetBoot, execResetBoot, State.verify, State.sched, h, hv]

/-- After the verification the controller trains. -/
theorem exec_resetBoot_train {s : State} (h : s.bootstat = 2) : exec .resetBoot s = .next s.train := by
  simp [exec_resetBoot, execResetBoot, h]

/-- A part with a boundary of no working channel, or a stack beyond its limit, halts with its record filled (R16, R415). -/
theorem train_of_halts {s : State} (h : s.found.halts = true) : s.train = { s with degrade := s.found.record, bootstat := 4 } := by
  simp [State.train, h]

/-- Any other part is up: its quads, its class table and its current limit are written (R344, R391). -/
theorem train_of_not_halts {s : State} (h : s.found.halts = false) :
    s.train = { s with
      degrade := s.found.record,
      quads := s.found.quadsUp.foldl (fun m p => kset (p.1 * 64 + p.2) (Quad.start (s.found.quadCls.getD p.1 2)) m) [],
      classes := s.found.table, curlim := 100 + Config.choice s.free % 15901, free := s.free + 1, bootstat := 3 } := by
  simp [State.train, h]

/-- Whatever training finds, it fills the degradation record and leaves memory and the cores as they are. -/
theorem train_keeps (s : State) : s.train.mem = s.mem ∧ s.train.cores = s.cores ∧ s.train.degrade = s.found.record := by
  cases h : s.found.halts with
  | true => rw [train_of_halts h]; exact ⟨rfl, rfl, rfl⟩
  | false => rw [train_of_not_halts h]; exact ⟨rfl, rfl, rfl⟩

/-- The current limit that boot leaves lies in its range, whatever value was free. -/
theorem train_curlim {s : State} (h : s.found.halts = false) : 100 ≤ s.train.curlim ∧ s.train.curlim ≤ 16000 := by
  have := Nat.mod_lt (Config.choice s.free) (by decide : 15901 > 0)
  rw [train_of_not_halts h]
  dsimp only
  omega

/-- After a boot that does not halt, the quads that stand are OFF at nominal margin in their pool, and no other quad is there. -/
theorem train_quads {s : State} (h : s.found.halts = false) {d q : Nat} (hd : d < 10) (hq : q < dieQuads d) :
    kget (d * 64 + q) s.train.quads
      = if s.board.quadOk d q = true then some (Quad.start (s.board.quadCls.getD d 2)) else none := by
  rw [train_of_not_halts h]
  exact kget_quadsUp s.found (fun p => Quad.start (s.found.quadCls.getD p.1 2)) hd hq

/-- Settles O42: each value of BOOTSTAT selects one of the three steps, and training ends as the board that it finds says. -/
theorem bootResults : Obligations.BootResults := by
  intro s
  refine ⟨fun h1 h2 => ?reset, fun h1 => ⟨exec_resetBoot_rejected h1, exec_resetBoot_verified h1⟩, fun h2 => ?train⟩
  case reset =>
    exact ⟨s.rebooted, exec_resetBoot_rebooted h1 h2, rfl, rfl, rfl, rfl, rfl, rfl, rfl, rfl, rfl, rfl, rfl, rfl, rfl, rfl,
      rebooted_channelsOf s, rebooted_bridge_until s⟩
  case train =>
    obtain ⟨hmem, hcores, hrecord⟩ := train_keeps s
    refine ⟨s.train, exec_resetBoot_train h2, hmem, hcores, hrecord, fun (h : s.found.halts = true) => ?halts,
      fun (h : s.found.halts = false) => ?up⟩
    case halts => rw [train_of_halts h]; exact ⟨rfl, rfl⟩
    case up =>
      obtain ⟨hlo, hhi⟩ := train_curlim h
      exact ⟨by rw [train_of_not_halts h], by rw [train_of_not_halts h]; rfl, hlo, hhi, fun _ _ hd hq => train_quads h hd hq⟩

end Sys2Proof.Machine
end

section
/-! SUPPORT. Acts in memory through a core's path (R207, R216, R244, R248): what each of them leaves as it was. -/

namespace Sys2Proof.Machine

/-- Memory, its copies in the home slices and the open exact sums may have changed, and of each core the lines of its path, their
errors, its TLB and its event counters; nothing else. -/
structure MemoryOnly (s t : State) : Prop where
  rest : t = { s with mem := t.mem, hostL2 := t.hostL2, exact := t.exact, cores := t.cores }
  here : ∀ d, (kget d t.cores).isSome = (kget d s.cores).isSome
  core : ∀ d, t.core d = { s.core d with lines := (t.core d).lines, badL1 := (t.core d).badL1, tlb := (t.core d).tlb,
                                         perf := (t.core d).perf, perfClk := (t.core d).perfClk }

namespace MemoryOnly

theorem refl (s : State) : MemoryOnly s s := ⟨rfl, fun _ => rfl, fun _ => rfl⟩

theorem trans {s t u : State} (a : MemoryOnly s t) (b : MemoryOnly t u) : MemoryOnly s u where
  rest := by rw [b.rest, a.rest]
  here d := (b.here d).trans (a.here d)
  core d := by rw [b.core d, a.core d]

theorem foldl {α : Type} {f : State → α → State} (hf : ∀ s x, MemoryOnly s (f s x)) (l : List α) (s : State) :
    MemoryOnly s (l.foldl f s) := by
  induction l generalizing s with
  | nil => exact refl s
  | cons x r ih => exact (hf s x).trans (ih _)

/-- Memory and its copies are no part of a core. -/
theorem of_mem (s : State) (m : Sparse Byte) (h : Sparse (List Byte)) (e : Sparse ExactLine) :
    MemoryOnly s { s with mem := m, hostL2 := h, exact := e } := ⟨rfl, fun _ => rfl, fun _ => rfl⟩

theorem cur {s t : State} (h : MemoryOnly s t) : t.cur = s.cur := by rw [h.rest]
theorem group {s t : State} (h : MemoryOnly s t) (c g : Nat) : t.group c g = s.group c g := by
  show (t.core c).group g = _; rw [h.core c]; rfl
theorem curGrp {s t : State} (h : MemoryOnly s t) : t.curGrp = s.curGrp := by
  show t.group t.cur.core t.cur.gid = _; rw [h.cur]; exact h.group ..

end MemoryOnly

/-- A core after a change of a core: changed, where it is the one that is listed, else as it was. -/
theorem core_modCore_or (s : State) (c d : Nat) (f : Core → Core) :
    (d = c ∧ (s.modCore c f).core d = f (s.core d)) ∨ (s.modCore c f).core d = s.core d := by
  by_cases h : d = c
  · subst h
    cases hk : kget d s.cores with
    | none => right; simp [State.core, State.modCore, kmod, hk]
    | some v => left; exact ⟨rfl, core_modCore_same s d f (by simp [hk])⟩
  · exact .inr (core_modCore_other s f h)

/-- A change of a core's lines, TLB and event counters. -/
theorem memoryOnly_modCore (s : State) (c : Nat) (f : Core → Core)
    (hf : ∀ k, f k = { k with lines := (f k).lines, badL1 := (f k).badL1, tlb := (f k).tlb, perf := (f k).perf, perfClk := (f k).perfClk }) :
    MemoryOnly s (s.modCore c f) where
  rest := rfl
  here d := cores_modCore_isSome ..
  core d := by
    rcases core_modCore_or s c d f with ⟨_, h⟩ | h <;> rw [h]
    exact hf _

theorem memoryOnly_bump (s : State) (c e n : Nat) : MemoryOnly s (s.bump c e n) := by
  unfold State.bump; dsimp only; split
  · exact .refl s
  · exact memoryOnly_modCore _ _ _ (fun _ => rfl)

theorem memoryOnly_putBytes (s : State) (pa : Nat) (l : List Byte) : MemoryOnly s (s.putBytes pa l) := by
  induction l generalizing s pa with
  | nil => exact .refl s
  | cons v r ih => exact (MemoryOnly.of_mem s _ _ _).trans (ih _ _)

theorem memoryOnly_settle1 (s : State) (w : Nat) : MemoryOnly s (s.settle1 w) := by
  unfold State.settle1; split
  · exact .refl s
  · exact (memoryOnly_putBytes s _ _).trans (.of_mem _ _ _ _)

theorem memoryOnly_settleRange (s : State) (pa n : Nat) : MemoryOnly s (s.settleRange pa n) := .foldl memoryOnly_settle1 _ _

theorem memoryOnly_settleWalk (s : State) (die root va : Nat) : MemoryOnly s (s.settleWalk die root va) := by
  have a {u : State} (h : MemoryOnly s u) (p : Nat) : MemoryOnly s (u.settleRange p 8) := h.trans (memoryOnly_settleRange u p 8)
  unfold State.settleWalk
  dsimp only
  repeat' split
  all_goals repeat' apply a
  all_goals exact .refl s

theorem memoryOnly_homeWrite (s : State) (pa : Nat) (l : List Byte) : MemoryOnly s (s.homeWrite pa l) :=
  (memoryOnly_settleRange s _ _).trans (memoryOnly_putBytes _ _ _)

theorem memoryOnly_homeRead (s : State) (pa n ty : Nat) : MemoryOnly s (s.homeRead pa n ty).2 := by
  have a := memoryOnly_settleRange s pa n
  unfold State.homeRead
  dsimp only
  repeat' split
  · exact a
  · exact a.trans (.of_mem _ _ _ _)
  · exact a

theorem memoryOnly_cleanLine (s : State) (c k : Nat) : MemoryOnly s (s.cleanLine c k) := by
  unfold State.cleanLine
  split
  · exact .refl s
  · refine (MemoryOnly.foldl (fun u i => ?_) _ s).trans (memoryOnly_modCore _ _ _ (fun _ => rfl))
    split
    · exact memoryOnly_homeWrite u _ _
    · exact .refl u

theorem memoryOnly_dropLine (s : State) (c k : Nat) : MemoryOnly s (s.dropLine c k) :=
  (memoryOnly_cleanLine s c k).trans (memoryOnly_modCore _ _ _ (fun _ => rfl))

theorem memoryOnly_flush (s : State) (c : Nat) : MemoryOnly s (s.flush c) := .foldl (fun u k => memoryOnly_dropLine u c k) _ s

theorem memoryOnly_fenceAt (s : State) (c scope : Nat) : MemoryOnly s (s.fenceAt c scope) := by
  unfold State.fenceAt; split
  · exact memoryOnly_flush s c
  · exact .refl s

theorem memoryOnly_addLine (s : State) (c k : Nat) (l : Line) : MemoryOnly s (s.addLine c k l) := by
  have a : MemoryOnly s (s.modCore c (fun d => { d with lines := kset k l d.lines })) := memoryOnly_modCore _ _ _ (fun _ => rfl)
  unfold State.addLine
  dsimp only
  repeat' split
  · exact a
  · exact a
  · exact a.trans (memoryOnly_dropLine _ _ _)

theorem memoryOnly_noteBad (s : State) (c k : Nat) : MemoryOnly s (s.noteBad c k) := memoryOnly_modCore _ _ _ (fun _ => rfl)

theorem memoryOnly_storeG (s : State) (c launch pa : Nat) (v : List Byte) (scope ty : Nat) : MemoryOnly s (s.storeG c launch pa v scope ty) := by
  unfold State.storeG
  dsimp only
  split
  · refine MemoryOnly.trans ?_ (memoryOnly_addLine _ _ _ _)
    repeat' split
    · exact memoryOnly_bump _ _ _ _
    · exact .refl s
    · exact ((memoryOnly_bump s _ _ _).trans (memoryOnly_noteBad _ _ _)).trans (memoryOnly_homeRead _ _ _ _)
    · exact .refl s
  · exact (memoryOnly_homeWrite s _ _).trans (memoryOnly_modCore _ _ _ (fun _ => rfl))

theorem memoryOnly_settleV (s : State) (c root va n : Nat) : MemoryOnly s (s.settleV c root va n) := by
  unfold State.settleV
  split
  · exact .refl s
  · refine .foldl (fun u i => ?_) _ s
    dsimp only
    split
    · exact (memoryOnly_settleWalk u _ _ _).trans (memoryOnly_settleRange _ _ _)
    · exact memoryOnly_settleWalk u _ _ _

theorem memoryOnly_settleParts (s : State) (img : Option (List Byte)) : MemoryOnly s (s.settleParts img) := by
  have a {u : State} (h : MemoryOnly s u) (r va n : Nat) : MemoryOnly s (u.settleV 0x10000 r va n) := h.trans (memoryOnly_settleV u _ r va n)
  unfold State.settleParts
  dsimp only
  repeat' split
  all_goals repeat' apply a
  all_goals exact .refl s

theorem memoryOnly_lpbRead (s : State) (va : Nat) : MemoryOnly s (s.lpbRead va) := by
  unfold State.lpbRead
  refine MemoryOnly.trans ?_ (memoryOnly_settleParts _ _)
  exact (memoryOnly_flush s _).trans (memoryOnly_settleV _ _ _ _ _)

theorem memoryOnly_writeV {s t : State} (c root : Nat) (priv : Bool) (va : Nat) (l : List Byte) (h : s.writeV c root priv va l = some t) :
    MemoryOnly s t := by
  induction l generalizing s va with
  | nil => exact Option.some.inj h ▸ .refl s
  | cons v r ih =>
    simp only [State.writeV] at h
    split at h
    · split at h
      · exact ((memoryOnly_settleWalk s _ _ _).trans (memoryOnly_homeWrite _ _ _)).trans (ih _ h)
      · cases h
    · cases h

/-- A write that a fault keeps from happening changes nothing. -/
theorem memoryOnly_writeV_getD (s : State) (c root : Nat) (priv : Bool) (va : Nat) (l : List Byte) :
    MemoryOnly s ((s.writeV c root priv va l).getD s) := by
  cases h : s.writeV c root priv va l with
  | none => exact .refl s
  | some t => exact memoryOnly_writeV c root priv va l h

theorem memoryOnly_codeByte (s : State) (va : Nat) : MemoryOnly s (s.codeByte va).2 := by
  have a : MemoryOnly s (if s.exact.isEmpty then s else s.settleWalk (coreDie s.cur.core) s.root (va % 2 ^ 56)) := by
    split
    · exact .refl s
    · exact memoryOnly_settleWalk s _ _ _
  unfold State.codeByte
  dsimp only
  split
  · exact a.trans (memoryOnly_homeRead _ _ _ _)
  · exact a

theorem memoryOnly_touchCode (s : State) (va n : Nat) : MemoryOnly s (s.touchCode va n) := .foldl (fun u _ => memoryOnly_codeByte u _) _ s

theorem memoryOnly_noteMisses (s : State) (c root : Nat) (vas : List Nat) : MemoryOnly s (s.noteMisses c root vas) := by
  refine .foldl (fun u p => ?_) _ s
  dsimp only
  repeat' split
  · exact .refl u
  · refine (memoryOnly_bump u _ _ _).trans (memoryOnly_modCore _ _ _ fun k => ?_)
    dsimp only
  · exact memoryOnly_bump u _ _ _

theorem memoryOnly_fetched (s : State) : MemoryOnly s s.fetched := (memoryOnly_noteMisses s _ _ _).trans (memoryOnly_touchCode _ _ _)

end Sys2Proof.Machine
end

section
/-! One step of the device and the issue of a fetched bundle (O54): without deltas the slots of a bundle are its images, and a bundle
with one instruction issues as that instruction does. -/

namespace Sys2Proof.Machine

/-! ### Slots of a bundle without deltas (R58, R68) -/

/-- A bundle whose delta bits are zero makes no slot a delta slot. -/
theorem hdr_delta_off {b : Nat} (h : fld (hdrImg b) 0 5 = 0) {i : Nat} (hi : i < 5) : bitN (hdrImg b) i = false := by
  simp only [fld, pow_zero, Nat.div_one] at h
  have hb : hdrImg b / 2 ^ i % 2 = 0 := by interval_cases i <;> omega
  simp [bitN, hb]

/-- Without deltas the effective images are the images of the slots. -/
theorem effImages_of_no_delta {b : Nat} (h : fld (hdrImg b) 0 5 = 0) (r : Role) (p : Bool) (bases : List Nat) :
    effImages r p b bases 0 5 = .ok ((List.range 5).map (slotImg b)) := by
  simp [effImages, hdr_delta_off h, List.range_succ]

/-- A bundle of NOPs has no slots. -/
theorem slotsOf_nops {b : Nat} (h : ∀ k, k < 5 → slotImg b k = 0) : slotsOf ((List.range 5).map (slotImg b)) = soloSlots .nop := by
  simp [slotsOf, soloSlots, List.range_succ, h]

/-- A class stands in a slot of its own. -/
theorem ofSlot_slot (k : Cls) : Cls.ofSlot k.slot = k := by cases k <;> rfl

/-- The slots of a bundle with one image that is not zero. -/
theorem slotsOf_single {b : Nat} {i : Instr} {cls : Cls} {w : Nat} (he : encode i = some (cls, w)) (hw : w ≠ 0) (hb : buildSlot cls w = i)
    (hn : i ≠ .nop) (h : ∀ k, k < 5 → slotImg b k = if k = cls.slot then w else 0) :
    slotsOf ((List.range 5).map (slotImg b)) = soloSlots i := by
  have hl : (List.range 5).map (slotImg b) = (List.range 5).map (fun k => if k = cls.slot then w else 0) :=
    List.map_congr_left fun k hk => h k (List.mem_range.mp hk)
  have hf : ((List.range 5).zip ((List.range 5).map (fun k => if k = cls.slot then w else 0))).filter (fun p => p.2 != 0)
      = [(cls.slot, w)] := by
    cases cls <;> simp [List.range_succ, Cls.slot, hw]
  unfold slotsOf
  rw [hl, hf, List.map_singleton, ofSlot_slot, hb]
  simp only [soloSlots, if_neg hn, soloSlot, he]

/-- Alone in its bundle an instruction has the meaning of its own definition. -/
theorem bundleSem_soloSlots {i : Instr} (hn : i ≠ .nop) : bundleSem (soloSlots i) = soloSem i := by
  simp [soloSem, soloSlots, hn, bundleSem]

/-- No slot at all has the meaning of NOP. -/
theorem bundleSem_nop : bundleSem (soloSlots .nop) = soloSem .nop := by
  have e : soloSem .nop = (⟨fun _ => .ok, fun s => (false, s), fun _ => [], id⟩ : Sem) := by
    unfold soloSem Sem.gated
    congr 1 <;> funext s <;> exact ite_self _
  rw [e]
  rfl

/-! ### The issue of a fetched bundle (R56, R71) -/

/-- The state in which a fetched bundle issues: its header, tail and images at hand. -/
def State.withBundle (s : State) (b len idx : Nat) : State :=
  { s with cur := { s.cur with hdr := hdrImg b, tail := tailImg b, len := len, idx := idx, imgs := (List.range 5).map (slotImg b),
                               hand := none, pops := [] } }

/-- A bundle without deltas whose slots are those of a lone instruction issues as that instruction. -/
theorem issueBundle_solo {s : State} {b len idx : Nat} {i : Instr} (hd : fld (hdrImg b) 0 5 = 0)
    (hs : slotsOf ((List.range 5).map (slotImg b)) = soloSlots i) (hm : bundleSem (soloSlots i) = soloSem i) (hi : i.isSlot = true) :
    exec i (s.withBundle b len idx) = .next (s.issueBundle b len idx) := by
  unfold State.issueBundle
  rw [effImages_of_no_delta hd, exec_slot i _ hi]
  dsimp only
  rw [hs, hm]
  rfl

/-- BUNDLE_ISSUE at a stream that may issue, that no deferred fault stops, that has not yielded and that no freeze keeps back. -/
theorem exec_bundleIssue {s : State} {core gid slot : Nat} (hm : s.mayIssue core gid slot = true)
    (hk : (s.at_ core gid slot).curSlot.skip = false)
    (hf : (s.at_ core gid slot).freezeAhead core gid = false ∨ (s.at_ core gid slot).trapsNow core gid slot = true) :
    let u := s.at_ core gid slot
    let t := u.issueStream
    exec (.bundleIssue core gid slot) s = .next (u.afterStep
      (if (t.core core).issued != (u.core core).issued then t.modCore core (fun c => c.endLit gid slot) else t) core gid) := by
  have hg : ((s.at_ core gid slot).freezeAhead core gid && !(s.at_ core gid slot).trapsNow core gid slot) = false := by
    rcases hf with h | h <;> simp [h]
  show execBundleIssue core gid slot s = _
  simp [execBundleIssue, hm, hk, hg]

/-- A stream that no deferred fault stops issues the bundle that it fetches. -/
theorem issueStream_bundle {s : State} {b len idx : Nat} (hd : s.dueTrap = none) (hf : s.fetch = .bundle b len idx) :
    s.issueStream = s.fetched.issueBundle b len idx := by
  simp [State.issueStream, hd, hf]

/-- Settles O54: a step takes the first of agenda, input and time, and the issue of a stream whose bundle holds one instruction, or
none, is the issue of that instruction in the state that the fetch leaves. -/
theorem stepRunsDecoded : Obligations.StepRunsDecoded := by
  refine ⟨fun s i r h => ?agenda, fun s n i r ha hi hn => ?input, fun s ha hi => ?time, ?issue⟩
  case agenda => simp [step, h]
  case input => simp [step, ha, hi, hn]
  case time =>
    cases hl : s.inputs with
    | nil => simp [step, ha, hl]
    | cons p r =>
      have hp : ¬ p.1 ≤ s.now := Nat.not_le.mpr (hi p (by simp [hl]))
      simp [step, ha, hl, hp]
  case issue =>
    intro s core gid slot b len idx i cls w u hm hk ht hz hf hd hslots v
    have hv : v = u.fetched.withBundle b len idx := by
      show _ = State.withBundle _ _ _ _
      unfold State.withBundle
      rw [(memoryOnly_fetched u).cur]
    have hx : exec i v = .next (u.fetched.issueBundle b len idx) := by
      rw [hv]
      rcases hslots with ⟨he, hw, hb, hn, hi⟩ | ⟨rfl, hi⟩
      · exact issueBundle_solo hd (slotsOf_single he hw hb hn hi) (bundleSem_soloSlots hn) (by simp [Instr.isSlot, he])
      · exact issueBundle_solo hd (slotsOf_nops hi) bundleSem_nop rfl
    refine ⟨_, hx, ?_⟩
    rw [← issueStream_bundle ht hf]
    exact exec_bundleIssue hm hk hz

end Sys2Proof.Machine
end

section
/-! SUPPORT. Effects that steer streams: what they leave of the issuing stream (`OnStream`, `Stays`), what the checks of arrivals
change (`Waited`), and the state that a lone instruction answers once its effect is known (`Done`). -/

namespace Sys2Proof.Machine

/-! ### Groups and units after a change -/

/-- A group after a change of a group: changed, where it is the one that is listed, else as it was. -/
theorem group_modGroup_or (k : Core) (g d : Nat) (f : Group → Group) :
    (d = g ∧ (k.modGroup g f).group d = f (k.group d)) ∨ (k.modGroup g f).group d = k.group d := by
  by_cases h : d = g
  · subst h
    cases hk : kget d k.groups with
    | none => right; simp [Core.group, Core.modGroup, kmod, hk]
    | some v => left; exact ⟨rfl, group_modGroup_same k d f (by simp [hk])⟩
  · exact .inr (group_modGroup_other k f h)

/-- A unit that is listed changes as asked. -/
theorem unit_modUnit_same (k : Core) (u : Nat) (f : WUnit → WUnit) (h : (kget u k.units).isSome = true) :
    (k.modUnit u f).unit u = f (k.unit u) := by
  obtain ⟨v, hv⟩ := Option.isSome_iff_exists.1 h
  simp [Core.unit, Core.modUnit, hv]

/-- A unit after a change of a unit: changed, where it is the one that is listed, else as it was. -/
theorem unit_modUnit_or (k : Core) (u d : Nat) (f : WUnit → WUnit) :
    (d = u ∧ (k.modUnit u f).unit d = f (k.unit d)) ∨ (k.modUnit u f).unit d = k.unit d := by
  by_cases h : d = u
  · subst h
    cases hk : kget d k.units with
    | none => right; simp [Core.unit, Core.modUnit, kmod, hk]
    | some v => left; exact ⟨rfl, unit_modUnit_same k d f (by simp [hk])⟩
  · right; simp [Core.unit, Core.modUnit, kget_kmod_other h]

/-- A stream is as present as before where its core and its group are. -/
theorem live_of_here {s t : State} (hc : t.cur = s.cur) (hk : (kget s.cur.core t.cores).isSome = (kget s.cur.core s.cores).isSome)
    (hg : (kget s.cur.gid (t.core s.cur.core).groups).isSome = (kget s.cur.gid (s.core s.cur.core).groups).isSome) : t.live = s.live := by
  show ((kget t.cur.core t.cores).isSome && (kget t.cur.gid (t.core t.cur.core).groups).isSome && decide (t.cur.slot < 2))
    = ((kget s.cur.core s.cores).isSome && (kget s.cur.gid (s.core s.cur.core).groups).isSome && decide (s.cur.slot < 2))
  rw [hc, hk, hg]

/-! ### The issuing stream under an effect -/

/-- The issuing stream is as present as before, and the traps that wait at it are the same. -/
structure OnStream (s t : State) : Prop where
  cur : t.cur = s.cur
  live : s.live = true → t.live = true
  trap : t.curGrp.deferred = s.curGrp.deferred ∧ t.curGrp.inHandler = s.curGrp.inHandler ∧ t.curGrp.serving = s.curGrp.serving

theorem OnStream.refl (s : State) : OnStream s s := ⟨rfl, id, rfl, rfl, rfl⟩
theorem OnStream.trans {s t u : State} (a : OnStream s t) (b : OnStream t u) : OnStream s u where
  cur := b.cur.trans a.cur
  live h := b.live (a.live h)
  trap := ⟨b.trap.1.trans a.trap.1, b.trap.2.1.trans a.trap.2.1, b.trap.2.2.trans a.trap.2.2⟩

/-- The trap that is due at the stream's next bundle is the same. -/
theorem OnStream.dueTrap {s t : State} (h : OnStream s t) : t.dueTrap = s.dueTrap := by
  obtain ⟨hd, hi, hs⟩ := h.trap
  unfold State.dueTrap Group.isDue
  rw [hd, hi, hs, h.cur]

/-- What an effect changes of its group that steers its stream: PC slots, counters, marks of arrival and of its end. -/
def GroupSteered (g h : Group) : Prop :=
  h = { g with slot0 := h.slot0, slot1 := h.slot1, ctrs := h.ctrs, stackTop := h.stackTop, halt := h.halt, ended := h.ended,
               stepDone := h.stepDone, weaveArr := h.weaveArr, joined := h.joined, far := h.far }

/-- The stream goes on with its registers; of its slot only the wait may be another. -/
structure Stays (s t : State) : Prop where
  cur : t.cur = s.cur
  live : s.live = true → t.live = true
  grp : GroupSteered s.curGrp t.curGrp
  slot : t.curSlot = { s.curSlot with wait := t.curSlot.wait }

namespace Stays

theorem refl (s : State) : Stays s s := ⟨rfl, id, rfl, rfl⟩
theorem trans {s t u : State} (a : Stays s t) (b : Stays t u) : Stays s u where
  cur := b.cur.trans a.cur
  live h := b.live (a.live h)
  grp := by
    have ha := a.grp
    have hb := b.grp
    unfold GroupSteered at *
    rw [hb, ha]
  slot := by rw [b.slot, a.slot]

theorem onStream {s t : State} (h : Stays s t) : OnStream s t where
  cur := h.cur
  live := h.live
  trap := by rw [h.grp]; exact ⟨rfl, rfl, rfl⟩

/-- An effect outside the cores. -/
theorem of_cores {s t : State} (hc : t.cur = s.cur) (hk : t.cores = s.cores) : Stays s t := by
  have core (d : Nat) : t.core d = s.core d := by unfold State.core; rw [hk]
  have grp : t.curGrp = s.curGrp := by
    show (t.core t.cur.core).group t.cur.gid = _
    rw [core, hc]; rfl
  have slot : t.curSlot = s.curSlot := by
    show t.curGrp.slot t.cur.slot = _
    rw [grp, hc]; rfl
  exact ⟨hc, fun h => (live_of_here hc (by rw [hk]) (by rw [core])).trans h, by rw [grp]; rfl, by rw [slot]⟩

/-- A change of the issuing core that leaves its groups alone. -/
theorem modC (s : State) (f : Core → Core) (hf : ∀ k, (f k).groups = k.groups) : Stays s (s.modC f) := by
  have grp : (s.modC f).curGrp = s.curGrp := by
    show ((s.modCore s.cur.core f).core s.cur.core).group s.cur.gid = (s.core s.cur.core).group s.cur.gid
    rcases core_modCore_or s s.cur.core s.cur.core f with ⟨_, h⟩ | h <;> rw [h]
    unfold Core.group; rw [hf]
  have slot : (s.modC f).curSlot = s.curSlot := by
    show (s.modC f).curGrp.slot s.cur.slot = _
    rw [grp]; rfl
  exact ⟨rfl, fun h => live_modC s f h (fun k => by rw [hf]), by rw [grp]; rfl, by rw [slot]⟩

/-- A change of the issuing group that steers its stream and leaves its slots alone but for their waits. -/
theorem modG (s : State) (f : Group → Group) (hl : s.live = true) (hf : ∀ g, GroupSteered g (f g))
    (hs : ∀ g, (f g).slot s.cur.slot = { g.slot s.cur.slot with wait := ((f g).slot s.cur.slot).wait }) : Stays s (s.modG f) := by
  have grp := curGrp_modG s f hl
  refine ⟨rfl, live_modG s f, by rw [grp]; exact hf _, ?_⟩
  show (s.modG f).curGrp.slot s.cur.slot = { s.curGrp.slot s.cur.slot with wait := ((s.modG f).curGrp.slot s.cur.slot).wait }
  rw [grp]; exact hs _

end Stays

theorem MemoryOnly.live {s t : State} (h : MemoryOnly s t) : t.live = s.live :=
  live_of_here h.cur (h.here _) (by rw [h.core s.cur.core])
theorem MemoryOnly.stays {s t : State} (h : MemoryOnly s t) : Stays s t where
  cur := h.cur
  live hs := h.live.trans hs
  grp := by rw [h.curGrp]; rfl
  slot := by
    show t.curGrp.slot t.cur.slot = { s.curGrp.slot s.cur.slot with wait := (t.curGrp.slot t.cur.slot).wait }
    rw [h.curGrp, h.cur]

/-- The issuing slot after a change of it. -/
theorem curSlot_modS (s : State) (f : PcSlot → PcSlot) (h : s.live = true) : (s.modS f).curSlot = f s.curSlot := by
  show (s.modS f).curGrp.slot s.cur.slot = _
  rw [show (s.modS f).curGrp = s.curGrp.modSlot s.cur.slot f from curGrp_modG s _ h]
  exact setSlot_slot _ _ _
theorem live_modS (s : State) (f : PcSlot → PcSlot) (h : s.live = true) : (s.modS f).live = true := live_modG s _ h
/-- A change of one slot steers the group. -/
theorem groupSteered_modSlot (g : Group) (i : Nat) (f : PcSlot → PcSlot) : GroupSteered g (g.modSlot i f) := by
  unfold GroupSteered Group.modSlot Group.setSlot
  split <;> rfl
/-- A slot that is to wait. -/
theorem stays_wait (s : State) (w : Wait) (h : s.live = true) : Stays s (s.modS (fun p => { p with wait := w })) := by
  refine .modG s _ h (fun g => groupSteered_modSlot _ _ _) (fun g => ?_)
  unfold Group.modSlot
  rw [setSlot_slot]

/-! ### The checks of arrivals (R34, R353 to R357) -/

/-- What a check of arrivals may change of a group: what its slots wait for. -/
def GroupWaited (g h : Group) : Prop :=
  h = { g with slot0 := { g.slot0 with wait := h.slot0.wait }, slot1 := { g.slot1 with wait := h.slot1.wait } }
/-- What a check of arrivals may change of a unit: its barrier and the course of its step. -/
def UnitWaited (u v : WUnit) : Prop :=
  v = { u with arrived := v.arrived, barDue := v.barDue, stepping := v.stepping, stepDue := v.stepDue, govHold := v.govHold }

/-- What a check of arrivals may change of a core: the waits of its slots, and its units' barriers and steps. -/
structure CoreWaited (k l : Core) : Prop where
  rest : l = { k with groups := l.groups, units := l.units }
  here : ∀ g, (kget g l.groups).isSome = (kget g k.groups).isSome
  grp : ∀ g, GroupWaited (k.group g) (l.group g)
  unit : ∀ u, UnitWaited (k.unit u) (l.unit u)

theorem CoreWaited.refl (k : Core) : CoreWaited k k := ⟨rfl, fun _ => rfl, fun _ => rfl, fun _ => rfl⟩
theorem CoreWaited.trans {k l m : Core} (a : CoreWaited k l) (b : CoreWaited l m) : CoreWaited k m where
  rest := by rw [b.rest, a.rest]
  here g := (b.here g).trans (a.here g)
  grp g := by
    have ha := a.grp g
    have hb := b.grp g
    unfold GroupWaited at *
    rw [hb, ha]
  unit u := by
    have ha := a.unit u
    have hb := b.unit u
    unfold UnitWaited at *
    rw [hb, ha]

/-- A change of a group's waits. -/
theorem coreWaited_modGroup (k : Core) (g : Nat) (f : Group → Group) (hf : ∀ x, GroupWaited x (f x)) :
    CoreWaited k (k.modGroup g f) where
  rest := rfl
  here d := groups_modGroup_isSome ..
  grp d := by
    rcases group_modGroup_or k g d f with ⟨_, h⟩ | h <;> rw [h]
    · exact hf _
    · rfl
  unit _ := rfl

/-- A change of a unit's barrier or step. -/
theorem coreWaited_modUnit (k : Core) (u : Nat) (f : WUnit → WUnit) (hf : ∀ x, UnitWaited x (f x)) : CoreWaited k (k.modUnit u f) where
  rest := rfl
  here _ := rfl
  grp _ := rfl
  unit d := by
    rcases unit_modUnit_or k u d f with ⟨_, h⟩ | h <;> rw [h]
    · exact hf _
    · rfl

/-- What the checks of arrivals may change: cores as above, records of barriers, governors and weaves, margins, and what is to
happen. -/
structure Waited (s t : State) : Prop where
  rest : t = { s with cores := t.cores, nets := t.nets, govs := t.govs, quads := t.quads, free := t.free, weaves := t.weaves,
                      agenda := t.agenda }
  here : ∀ d, (kget d t.cores).isSome = (kget d s.cores).isSome
  core : ∀ d, CoreWaited (s.core d) (t.core d)

namespace Waited

theorem refl (s : State) : Waited s s := ⟨rfl, fun _ => rfl, fun _ => .refl _⟩
theorem trans {s t u : State} (a : Waited s t) (b : Waited t u) : Waited s u where
  rest := by rw [b.rest, a.rest]
  here d := (b.here d).trans (a.here d)
  core d := (a.core d).trans (b.core d)

theorem modCore (s : State) (c : Nat) (f : Core → Core) (hf : ∀ k, CoreWaited k (f k)) : Waited s (s.modCore c f) where
  rest := rfl
  here d := cores_modCore_isSome ..
  core d := by
    rcases core_modCore_or s c d f with ⟨_, h⟩ | h <;> rw [h]
    · exact hf _
    · exact .refl _

theorem cur {s t : State} (h : Waited s t) : t.cur = s.cur := by rw [h.rest]
theorem mem {s t : State} (h : Waited s t) : t.mem = s.mem := by rw [h.rest]
theorem lines {s t : State} (h : Waited s t) (d : Nat) : (t.core d).lines = (s.core d).lines := by rw [(h.core d).rest]
theorem group {s t : State} (h : Waited s t) (d g : Nat) : GroupWaited (s.group d g) (t.group d g) := (h.core d).grp g
theorem ended {s t : State} (h : Waited s t) (d g : Nat) : (t.group d g).ended = (s.group d g).ended := by rw [h.group d g]
theorem curGrp {s t : State} (h : Waited s t) : GroupWaited s.curGrp t.curGrp := by
  have e : t.curGrp = t.group s.cur.core s.cur.gid := by show t.group t.cur.core t.cur.gid = _; rw [h.cur]
  rw [e]; exact h.group _ _

theorem curSlot {s t : State} (h : Waited s t) : t.curSlot = { s.curSlot with wait := t.curSlot.wait } := by
  show t.curGrp.slot t.cur.slot = { s.curGrp.slot s.cur.slot with wait := (t.curGrp.slot t.cur.slot).wait }
  rw [h.cur, h.curGrp]
  unfold Group.slot
  split <;> rfl

theorem stays {s t : State} (h : Waited s t) : Stays s t where
  cur := h.cur
  live hs := (live_of_here h.cur (h.here _) ((h.core _).here _)).trans hs
  grp := by rw [h.curGrp]; rfl
  slot := h.curSlot

end Waited

theorem waited_groupBarCheck (s : State) (c g : Nat) : Waited s (s.groupBarCheck c g) := by
  unfold State.groupBarCheck
  dsimp only
  split
  · refine .modCore s c _ (fun k => coreWaited_modGroup k g _ (fun x => ?_))
    congr 1 <;> split <;> rfl
  · exact .refl s

theorem waited_netArrive (s : State) (c g id : Nat) : Waited s (s.netArrive c g id) := by
  unfold State.netArrive
  dsimp only
  split
  · exact .refl s
  split
  · exact .refl s
  · exact ⟨rfl, fun _ => rfl, fun _ => .refl _⟩

theorem waited_netCheck (s : State) (c g : Nat) : Waited s (s.netCheck c g) := by
  have one (u : State) (p : PcSlot) : Waited u (match p.wait with | .net id => u.netArrive c g id | _ => u) := by
    split
    · exact waited_netArrive u c g _
    · exact .refl u
  exact (one s _).trans (one _ _)

theorem waited_barCheck (s : State) (c uid : Nat) : Waited s (s.barCheck c uid) :=
  .modCore s c _ (fun k => coreWaited_modUnit k uid _ (fun _ => rfl))

theorem waited_govCheck (s : State) (launch ticks : Nat) : Waited s (s.govCheck launch ticks) := by
  unfold State.govCheck
  repeat' split
  · exact ⟨rfl, fun _ => rfl, fun _ => .refl _⟩
  · exact .refl s
  · exact .refl s

theorem waited_stepCheck (s : State) (c uid : Nat) : Waited s (s.stepCheck c uid) := by
  have a (f : Core → WUnit → WUnit) (hf : ∀ k x, UnitWaited x (f k x)) : Waited s (s.modCore c (fun k => k.modUnit uid (f k))) :=
    .modCore s c _ (fun k => coreWaited_modUnit k uid _ (hf k))
  unfold State.stepCheck
  dsimp only
  split
  · exact waited_govCheck s _ _
  split
  · split
    · exact a _ (fun _ _ => rfl)
    · refine Waited.trans ?_ (waited_govCheck _ _ _)
      exact (a (fun _ u => { u with stepping := false, govHold := true }) (fun _ _ => rfl)).trans ⟨rfl, fun _ => rfl, fun _ => .refl _⟩
  · exact .refl s

theorem waited_askNominal (s : State) (q : Nat) : Waited s (s.askNominal q) := by
  unfold State.askNominal
  split <;> exact ⟨rfl, fun _ => rfl, fun _ => .refl _⟩

theorem waited_weaveCheck (s : State) (c uid : Nat) : Waited s (s.weaveCheck c uid) := by
  unfold State.weaveCheck
  dsimp only
  split
  · exact .refl s
  · refine iteInduction (fun _ => iteInduction (fun _ => ?_) (fun _ => .refl s)) (fun _ => .refl s)
    exact (waited_askNominal s _).trans ⟨rfl, fun _ => rfl, fun _ => .refl _⟩

theorem waited_unitCheck (s : State) (c g : Nat) : Waited s (s.unitCheck c g) :=
  ((((waited_groupBarCheck s c g).trans (waited_netCheck _ c g)).trans (waited_barCheck _ c _)).trans (waited_stepCheck _ c _)).trans
    (waited_weaveCheck _ c _)

end Sys2Proof.Machine
end

section
/-! SUPPORT. The state that a lone instruction answers, once its effect is known (R61, R71): the tail's actions come on top of it. -/

namespace Sys2Proof.Machine

/-! ### The tail's actions (R118) -/

/-- Every group has as many banks as before. -/
def BudgetKept (k l : Core) : Prop := ∀ g, (l.group g).banks.length = (k.group g).banks.length

namespace BudgetKept

theorem refl (k : Core) : BudgetKept k k := fun _ => rfl
theorem trans {k l m : Core} (a : BudgetKept k l) (b : BudgetKept l m) : BudgetKept k m := fun g => (b g).trans (a g)
theorem of_groups {k l : Core} (h : l.groups = k.groups) : BudgetKept k l := fun g => by unfold Core.group; rw [h]
theorem modGroup (k : Core) (g : Nat) (f : Group → Group) (hf : ∀ x, (f x).banks.length = x.banks.length) : BudgetKept k (k.modGroup g f) := by
  intro d
  rcases group_modGroup_or k g d f with ⟨_, h⟩ | h <;> rw [h]
  exact hf _

/-- Actions on some banks, unless there is none to take. -/
theorem actions {α : Type} {p : Bool} {f : Core → α → Core} {l : List α} {k m : Core} (h : BudgetKept k m)
    (hf : ∀ c x, BudgetKept c (f c x)) : BudgetKept k (if p then m else l.foldl f m) := by
  refine iteInduction (fun _ => h) (fun _ => ?_)
  induction l generalizing m with
  | nil => exact h
  | cons x r ih => exact ih (h.trans (hf m x))

end BudgetKept

/-- The tail's actions leave every group its banks. -/
theorem budget_tailActs (s : State) : s.tailActs.curGrp.banks.length = s.curGrp.banks.length := by
  unfold State.tailActs
  dsimp only
  show (((s.modCore s.cur.core _).core s.cur.core).group s.cur.gid).banks.length = ((s.core s.cur.core).group s.cur.gid).banks.length
  rcases core_modCore_or s s.cur.core s.cur.core _ with ⟨_, h⟩ | h <;> rw [h]
  refine BudgetKept.actions (BudgetKept.actions (.refl _) fun c i => ?regs) (fun c i => ?scratch) s.cur.gid
  case regs =>
    refine iteInduction (fun _ => ?_) (fun _ => .refl c)
    have woken : BudgetKept c (if fld s.cur.tail 10 2 == 3 && ((c.group s.cur.gid).bank i).sleeps then { c with wakes := c.wakes + 8 } else c) :=
      iteInduction (fun _ => .of_groups rfl) (fun _ => .refl c)
    have acted := woken.trans (.modGroup _ s.cur.gid (fun g => g.setBank i ((g.bank i).action (fld s.cur.tail 10 2) (s.core s.cur.core).clk 6))
      fun g => List.length_set)
    exact iteInduction (fun _ => acted.trans (.modGroup _ _ _ fun _ => rfl)) (fun _ => acted)
  case scratch =>
    refine iteInduction (fun _ => ?_) (fun _ => .refl c)
    split <;> split <;> exact .of_groups rfl

/-- The group under the tail's actions: banks and matrix elements alone may be others. -/
theorem curGrp_tailActs {u : State} (hl : u.live = true) :
    u.tailActs.curGrp = { u.curGrp with banks := u.tailActs.curGrp.banks, mat := u.tailActs.curGrp.mat }
      ∧ (fld u.cur.tail 10 2 ≠ 2 → u.tailActs.curGrp.mat = u.curGrp.mat) := by
  obtain ⟨f, hf, hm⟩ := tailActs_core u
  have grp : u.tailActs.curGrp = (f u.curCore).group u.cur.gid := by
    rw [hf]
    exact congrArg (Core.group · u.cur.gid) (curCore_modC u f (live_parts hl).1)
  obtain ⟨_, _, ⟨bk, mt, e⟩, _, m, _⟩ := hm u.curCore
  exact ⟨by rw [grp, e]; rfl, fun h => by rw [grp]; exact m (by simpa using h)⟩

/-- The issuing core under the tail's actions. -/
theorem curCore_tailActs {u : State} (hl : u.live = true) :
    u.tailActs.curCore = { u.curCore with groups := u.tailActs.curCore.groups, scratch := u.tailActs.curCore.scratch,
                                          buf := u.tailActs.curCore.buf, wakes := u.tailActs.curCore.wakes } := by
  obtain ⟨f, hf, hm⟩ := tailActs_core u
  have core : u.tailActs.curCore = f u.curCore := by rw [hf]; exact curCore_modC u f (live_parts hl).1
  rw [core]
  exact (hm _).1

theorem onStream_tailActs {u : State} (hl : u.live = true) : OnStream u u.tailActs := by
  obtain ⟨f, hf, hm⟩ := tailActs_core u
  refine ⟨by rw [hf]; rfl, fun h => ?_, by rw [(curGrp_tailActs hl).1]; exact ⟨rfl, rfl, rfl⟩⟩
  rw [hf]
  exact live_modC u f h fun k => (hm k).2.2.2.1 _

/-- Without a trap or a hand-over an issue ends with the tail's actions. -/
theorem finish_eq {u : State} (hl : u.live = true) (hd : u.dueTrap = none) (hh : u.cur.hand = none) :
    u.finish = { u.tailActs with cur := { u.cur with pops := [], hand := none, imgs := [], views := [] } } := by
  have acted := onStream_tailActs hl
  have kept : u.tailActs.handOver = u.tailActs := by
    unfold State.handOver
    rw [acted.cur, hh]
  have calm : ({ u.tailActs with cur := { u.tailActs.cur with pops := [], hand := none, imgs := [], views := [] } } : State).dueTrap = none :=
    acted.dueTrap.trans hd
  unfold State.finish
  dsimp only
  rw [kept, calm, acted.cur]
  exact ite_self _

/-! ### What a lone instruction answers -/

/-- t is what an issue from s answers once its slots have left u: the tail's actions alone have come on top. -/
structure Done (s u t : State) : Prop where
  rest : t = { u with cores := t.cores, cur := t.cur }
  core : s.coreIn t = { u.curCore with groups := (s.coreIn t).groups, scratch := (s.coreIn t).scratch, buf := (s.coreIn t).buf,
                                       wakes := (s.coreIn t).wakes }
  grp : s.groupIn t = { u.curGrp with banks := (s.groupIn t).banks, mat := (s.groupIn t).mat }
  budget : (s.groupIn t).banks.length = u.curGrp.banks.length
  mat : fld s.cur.tail 10 2 ≠ 2 → (s.groupIn t).mat = u.curGrp.mat
  slot : s.slotIn t = u.curSlot

/-- Nothing but the bookkeeping of the issue has happened to the stream's place. -/
theorem done_finish {s b u : State} (hb : Begun s b) (hs : OnStream b u) (hd : s.dueTrap = none) (hh : b.cur.hand = none) :
    Done s u u.finish := by
  have hl := hs.live hb.live
  have hf := finish_eq hl (hs.dueTrap.trans (hb.dueTrap.trans hd)) (hs.cur ▸ hh)
  obtain ⟨c1, c2, c3⟩ := hb.only.cur
  have k1 : u.cur.core = s.cur.core := by rw [hs.cur, c1]
  have k2 : u.cur.gid = s.cur.gid := by rw [hs.cur, c2]
  have k3 : u.cur.slot = s.cur.slot := by rw [hs.cur, c3]
  have tail : u.cur.tail = s.cur.tail := by rw [hs.cur, hb.only]
  have on := onStream_tailActs hl
  have core : s.coreIn u.finish = u.tailActs.curCore := by
    rw [hf]
    show u.tailActs.core s.cur.core = u.tailActs.core u.tailActs.cur.core
    rw [on.cur, k1]
  have grp : s.groupIn u.finish = u.tailActs.curGrp := by
    show (s.coreIn u.finish).group s.cur.gid = u.tailActs.curCore.group u.tailActs.cur.gid
    rw [core, on.cur, k2]
  obtain ⟨f, ft, _⟩ := tailActs_core u
  obtain ⟨g, m⟩ := curGrp_tailActs hl
  refine ⟨by rw [hf, ft]; rfl, by rw [core]; exact curCore_tailActs hl, by rw [grp]; exact g,
    by rw [grp]; exact budget_tailActs u, fun h => by rw [grp]; exact m (tail ▸ h), ?_⟩
  show (s.groupIn u.finish).slot s.cur.slot = u.curGrp.slot u.cur.slot
  rw [grp, g, k3]
  rfl

/-- An instruction whose own hold leaves the state alone begins with the start of the issue. -/
theorem begun_of_hold {s : State} {i : Instr} (h : s.issues i = true) (hh : ((semOf (soloSlot i) i).hold s).2 = s) :
    Begun s (s.begun i) ∧ Onward s (s.begun i) (soloSlots i) := by
  have hold : ((soloSem i).hold s).2 = s := by
    unfold soloSem Sem.gated
    dsimp only
    split
    · exact hh
    · rfl
  refine ⟨begun_issues h hold, ?_⟩
  unfold State.begun
  rw [hold]
  exact onward_start s _ (issues_parts h).1

/-- A lone instruction that issues, acts somewhere and has no hold that changes the state: what holds of every state that its effect
with the tail's actions comes to, holds of its answer. -/
theorem yields_of_done {s u : State} {i : Instr} {P : State → Prop} (hi : i.isSlot = true) (h : s.issues i = true)
    (ha : s.act (opInfo i).guard ≠ 0) (hh : ((semOf (soloSlot i) i).hold s).2 = s)
    (hu : (semOf (soloSlot i) i).eff (s.begun i) = u) (hs : OnStream (s.begun i) u) (hP : ∀ t, Done s u t → P t) : Yields i s P := by
  have b := (begun_of_hold h hh).1
  refine ⟨_, exec_of_issues i s hi h, hP _ ?_⟩
  rw [gated_eff b ha, hu]
  exact done_finish b hs (issues_parts h).2.1 (begun_hand s i)

namespace Done

variable {s u t : State}

theorem mem (h : Done s u t) : t.mem = u.mem := by rw [h.rest]
theorem launches (h : Done s u t) : t.launches = u.launches := by rw [h.rest]
theorem agenda (h : Done s u t) : t.agenda = u.agenda := by rw [h.rest]
theorem nets (h : Done s u t) : t.nets = u.nets := by rw [h.rest]
theorem lines (h : Done s u t) : (s.coreIn t).lines = u.curCore.lines := by rw [h.core]
theorem accepts (h : Done s u t) : (s.coreIn t).accepts = u.curCore.accepts := by rw [h.core]
theorem sectors (h : Done s u t) : (s.coreIn t).sectors = u.curCore.sectors := by rw [h.core]
theorem unitIn (h : Done s u t) : s.unitIn t = u.curCore.unit s.curGrp.uid := by
  show (s.coreIn t).unit _ = _
  rw [h.core]
  rfl

end Done

/-- A stream that stays keeps what `Kept` says, once it has issued. -/
theorem kept_of_stays {s b u t : State} {l : List SlotI} (hb : Begun s b) (hw : Onward s b l) (hs : Stays b u) (hd : Done s u t) :
    Kept s t := by
  obtain ⟨bg, bl⟩ := hb.grp
  have sg := hs.grp
  unfold GroupSteered at sg
  have slot : s.slotIn t = { b.curSlot with wait := u.curSlot.wait } := hd.slot.trans hs.slot
  unfold Kept
  dsimp only
  rw [hd.grp, sg, bg, slot]
  refine ⟨rfl, rfl, rfl, fun hm => ?_, rfl, rfl, rfl, rfl, rfl, ?_, hb.mask, hb.depth, hb.fmt, by rw [hw.1]; rfl⟩
  · show (s.groupIn t).mat = _
    rw [hd.mat hm, sg, bg]
  · show (s.groupIn t).banks.length = _
    rw [hd.budget, sg]
    exact bl

/-- The same of an effect under which the stream stays: it keeps its registers too. -/
theorem yields_of_stays {s u : State} {i : Instr} {P : State → Prop} (hi : i.isSlot = true) (h : s.issues i = true)
    (ha : s.act (opInfo i).guard ≠ 0) (hh : ((semOf (soloSlot i) i).hold s).2 = s)
    (hu : (semOf (soloSlot i) i).eff (s.begun i) = u) (hs : Stays (s.begun i) u) (hP : ∀ t, Done s u t → Kept s t → P t) : Yields i s P :=
  have ⟨b, w⟩ := begun_of_hold h hh
  yields_of_done hi h ha hh hu hs.onStream fun t d => hP t d (kept_of_stays b w hs d)

/-! ### Units as an issue begins -/

/-- The core of the stream lists the same units. -/
def UnitsHere (s t : State) : Prop := t.cur.core = s.cur.core ∧ ∀ u, (kget u t.curCore.units).isSome = (kget u s.curCore.units).isSome

namespace UnitsHere

theorem refl (s : State) : UnitsHere s s := ⟨rfl, fun _ => rfl⟩
theorem trans {s t u : State} (a : UnitsHere s t) (b : UnitsHere t u) : UnitsHere s u :=
  ⟨b.1.trans a.1, fun x => (b.2 x).trans (a.2 x)⟩

theorem modCore (s : State) (c : Nat) (f : Core → Core) (hf : ∀ k u, (kget u (f k).units).isSome = (kget u k.units).isSome) :
    UnitsHere s (s.modCore c f) := by
  refine ⟨rfl, fun u => ?_⟩
  show (kget u ((s.modCore c f).core s.cur.core).units).isSome = (kget u (s.core s.cur.core).units).isSome
  rcases core_modCore_or s c s.cur.core f with ⟨_, h⟩ | h <;> rw [h]
  exact hf _ u

theorem bump (s : State) (c e n : Nat) : UnitsHere s (s.bump c e n) := by
  unfold State.bump
  dsimp only
  split
  · exact refl s
  · exact modCore _ _ _ fun _ _ => rfl

theorem bundle (s : State) (p : List (Nat × List W32)) (q : Option (Nat × Nat)) (v : List (Nat × Nat)) :
    UnitsHere s { s with cur := { s.cur with pops := p, hand := q, views := v } } := ⟨rfl, fun _ => rfl⟩

theorem pops (l : List (Nat × Nat)) (s : State) : UnitsHere s (l.foldl State.pop1 s) := by
  induction l generalizing s with
  | nil => exact refl s
  | cons p r ih =>
    have popped : UnitsHere s (s.pop1 p) := modCore s s.cur.core _ fun _ _ => kget_kmod_isSome ..
    exact popped.trans (ih _)

end UnitsHere

/-- Waking register banks leaves the units alone. -/
theorem wakeRegs_units (l : List Nat) (c : Core) (g : Nat) : (l.foldl (fun c i => c.wakeReg g i) c).units = c.units := by
  induction l generalizing c with
  | nil => rfl
  | cons i r ih =>
    refine (ih _).trans ?_
    show (c.wakeReg g i).units = c.units
    unfold Core.wakeReg
    split <;> rfl

theorem unitsHere_wakeBanks (s : State) (l : List SlotI) : UnitsHere s (s.wakeBanks l) := by
  unfold State.wakeBanks
  exact .modCore s _ _ fun k u => by rw [wakeRegs_units]

theorem unitsHere_moveOn (s : State) (l : List SlotI) : UnitsHere s (s.moveOn l) := by
  unfold State.moveOn
  refine UnitsHere.trans ?_ (.modCore _ _ _ fun _ _ => rfl)
  exact (unitsHere_wakeBanks s l).trans (.modCore _ _ _ fun _ _ => rfl)

/-- The start of an issue leaves the units where they are. -/
theorem unitsHere_start (s : State) (l : List SlotI) : UnitsHere s (s.start l) := by
  have moved := unitsHere_moveOn s l
  have counted := ((moved.trans (.bump _ s.cur.core 2 1)).trans
    (.bump _ s.cur.core 3 (l.filter (fun p => (p.1 == 1 || p.1 == 2) && s.acts p.2)).length)).trans
    (.bump _ s.cur.core 4 (l.filter (fun p => p.1 == 3 && s.acts p.2)).length)
  have viewed := counted.trans (.bundle _ [] none (viewsOf l))
  exact viewed.trans (.pops (popsOf l) _)

end Sys2Proof.Machine
end

section
/-! SUPPORT. A flush of a core's path (R238, R248, R271): no copy stays, dirty bytes go home, and nothing is written where no byte is
dirty. -/

namespace Sys2Proof.Machine

/-! ### Sparse data without a key -/

variable {α : Type}

theorem mem_kdel {k : Nat} {m : Sparse α} {p : Nat × α} : p ∈ kdel k m ↔ p ∈ m ∧ p.1 ≠ k := by simp [kdel]

theorem kdel_cons (k k' : Nat) (v : α) (m : Sparse α) : kdel k ((k', v) :: m) = if k' = k then kdel k m else (k', v) :: kdel k m := by
  by_cases h : k' = k <;> simp [kdel, h]

/-- What is put at a key goes with the key. -/
theorem kdel_kset (k : Nat) (v : α) (m : Sparse α) : kdel k (kset k v m) = kdel k m := by
  induction m with
  | nil => simp [kset, kdel]
  | cons p r ih =>
    obtain ⟨k', v'⟩ := p
    simp only [kset]
    split
    · rw [kdel_cons, if_pos rfl]
    · split
      · subst_vars; simp [kdel_cons]
      · simp only [kdel_cons, ih]

theorem srising_filter (f : Nat × α → Bool) {m : Sparse α} (h : srising m = true) : srising (m.filter f) = true := by
  induction m with
  | nil => rfl
  | cons p r ih =>
    obtain ⟨hlt, hr⟩ := (srising_cons p.1 p.2 r).1 h
    rw [List.filter_cons]
    split
    · exact (srising_cons ..).2 ⟨fun q hq => hlt q (List.mem_filter.1 hq).1, ih hr⟩
    · exact ih hr

/-- A record read stands in the list. -/
theorem mem_of_kget {k : Nat} {v : α} {m : Sparse α} (h : kget k m = some v) : (k, v) ∈ m := by
  induction m with
  | nil => cases h
  | cons p r ih =>
    obtain ⟨k', v'⟩ := p
    simp only [kget] at h
    split at h
    · simp_all
    · split at h
      · cases h
      · exact List.mem_cons_of_mem _ (ih h)

/-- Where keys rise, a record that stands in the list is read. -/
theorem kget_of_mem {k : Nat} {v : α} {m : Sparse α} (hm : srising m = true) (h : (k, v) ∈ m) : kget k m = some v := by
  induction m with
  | nil => cases h
  | cons p r ih =>
    obtain ⟨k', v'⟩ := p
    obtain ⟨hlt, hr⟩ := (srising_cons k' v' r).1 hm
    rcases List.mem_cons.1 h with e | h
    · simp only [Prod.mk.injEq] at e
      simp [kget, e.1, e.2]
    · have := hlt _ h
      simp only [kget]
      rw [if_neg (by omega), if_neg (by omega)]
      exact ih hr h

/-- Where keys rise, a key that goes leaves the others. -/
theorem kget_kdel_other {j k : Nat} (hjk : j ≠ k) {m : Sparse α} (hm : srising m = true) : kget j (kdel k m) = kget j m := by
  cases h : kget j m with
  | some v => exact kget_of_mem (srising_filter _ hm) (mem_kdel.2 ⟨mem_of_kget h, hjk⟩)
  | none =>
    cases h' : kget j (kdel k m) with
    | none => rfl
    | some v => rw [kget_of_mem hm (mem_kdel.1 (mem_of_kget h')).1] at h; cases h

/-! ### The lines of a path -/

theorem putBytes_cores (s : State) (pa : Nat) (l : List Byte) : (s.putBytes pa l).cores = s.cores := by
  induction l generalizing s pa with
  | nil => rfl
  | cons v r ih => exact (ih _ _).trans rfl
theorem settle1_cores (s : State) (w : Nat) : (s.settle1 w).cores = s.cores := by
  unfold State.settle1
  split
  · rfl
  · exact putBytes_cores s _ _
theorem settleRange_cores (s : State) (pa n : Nat) : (s.settleRange pa n).cores = s.cores := by
  unfold State.settleRange
  generalize s.openWords (s.canon pa) n = l
  induction l generalizing s with
  | nil => rfl
  | cons w r ih => exact (ih _).trans (settle1_cores s w)
theorem homeWrite_cores (s : State) (pa : Nat) (l : List Byte) : (s.homeWrite pa l).cores = s.cores :=
  (putBytes_cores _ _ _).trans (settleRange_cores _ _ _)

/-- The dirty bytes of line k, which holds l, go home. -/
def State.writeDirty (s : State) (k : Nat) (l : Line) (is : List Nat) : State :=
  is.foldl (fun s i => if l.dirty.getD i false then s.homeWrite (k * 128 + i) [l.data.getD i 0] else s) s

theorem writeDirty_cores (s : State) (k : Nat) (l : Line) (is : List Nat) : (s.writeDirty k l is).cores = s.cores := by
  unfold State.writeDirty
  induction is generalizing s with
  | nil => rfl
  | cons i r ih =>
    refine (ih _).trans ?_
    dsimp only
    split
    · exact homeWrite_cores ..
    · rfl

/-- Line k with data l, after its dirty bytes have gone home. -/
def Core.keepClean (d : Core) (k : Nat) (l : Line) : Core :=
  { d with lines := kset k { l with dirty := List.replicate 128 false, since := none, writers := [] } d.lines }
/-- The path without line k. -/
def Core.forget (d : Core) (k : Nat) : Core := { d with lines := kdel k d.lines }

/-- A line that is dropped: its dirty bytes go home, and its key goes. -/
theorem dropLine_of_some {s : State} {c k : Nat} {l : Line} (h : kget k (s.core c).lines = some l) :
    s.dropLine c k = ((s.writeDirty k l (List.range 128)).modCore c (·.keepClean k l)).modCore c (·.forget k) := by
  unfold State.dropLine State.cleanLine
  rw [h]
  rfl

/-- A line that is not there is not written. -/
theorem dropLine_of_none {s : State} {c k : Nat} (h : kget k (s.core c).lines = none) : s.dropLine c k = s.modCore c (·.forget k) := by
  unfold State.dropLine State.cleanLine
  rw [h]
  rfl

theorem dropLine_lines (s : State) (c k : Nat) : ((s.dropLine c k).core c).lines = kdel k (s.core c).lines := by
  cases hc : kget c s.cores with
  | none =>
    have gone : kget c (s.dropLine c k).cores = none := by
      have := (memoryOnly_dropLine s c k).here c
      simpa [hc] using this
    simp only [State.core, hc, gone]
    rfl
  | some v =>
    cases hk : kget k (s.core c).lines with
    | none =>
      rw [dropLine_of_none hk, core_modCore_same s c _ (by simp [hc])]
      rfl
    | some l =>
      have hw := writeDirty_cores s k l (List.range 128)
      have core : (s.writeDirty k l (List.range 128)).core c = s.core c := by unfold State.core; rw [hw]
      rw [dropLine_of_some hk, core_modCore_same _ c _ (by rw [cores_modCore_isSome, hw, hc]; rfl),
        core_modCore_same _ c _ (by rw [hw, hc]; rfl), core]
      exact kdel_kset _ _ _

theorem foldl_dropLine_lines (ks : List Nat) (s : State) (c : Nat) :
    ∀ p ∈ ((ks.foldl (fun s k => s.dropLine c k) s).core c).lines, p ∈ (s.core c).lines ∧ p.1 ∉ ks := by
  induction ks generalizing s with
  | nil => exact fun p hp => ⟨hp, List.not_mem_nil⟩
  | cons k r ih =>
    intro p hp
    obtain ⟨hl, hr⟩ := ih (s.dropLine c k) p hp
    rw [dropLine_lines, mem_kdel] at hl
    exact ⟨hl.1, by simp [hl.2, hr]⟩

/-- A flush leaves its core no copy. -/
theorem flush_lines (s : State) (c : Nat) : ((s.flush c).core c).lines = [] := by
  refine List.eq_nil_iff_forall_not_mem.2 fun p hp => ?_
  obtain ⟨hl, hr⟩ := foldl_dropLine_lines _ s c p hp
  exact hr (List.mem_map_of_mem hl)

/-- A line without a dirty byte writes nothing. -/
theorem writeDirty_of_clean {s : State} {k : Nat} {l : Line} {is : List Nat} (h : ∀ i, l.dirty.getD i false = false) :
    s.writeDirty k l is = s := by
  unfold State.writeDirty
  induction is with
  | nil => rfl
  | cons i r ih =>
    rw [List.foldl_cons, h i]
    exact ih

/-- Without a dirty byte a flush writes nothing. -/
theorem flush_mem_of_clean {s : State} {c : Nat} (h : ∀ p ∈ (s.core c).lines, ∀ k, p.2.dirty.getD k false = false) :
    (s.flush c).mem = s.mem := by
  unfold State.flush
  generalize (s.core c).lines.map Prod.fst = ks
  induction ks generalizing s with
  | nil => rfl
  | cons k r ih =>
    refine (ih (s := s.dropLine c k) fun p hp => ?_).trans ?_
    · rw [dropLine_lines, mem_kdel] at hp
      exact h p hp.1
    · cases hk : kget k (s.core c).lines with
      | none => rw [dropLine_of_none hk]; rfl
      | some l =>
        rw [dropLine_of_some hk, writeDirty_of_clean (h _ (mem_of_kget hk))]
        rfl

end Sys2Proof.Machine
end

section
/-! Barriers and the end of a step (R34, R239, R353 to R357): arrivals, and what a complete barrier lets go of. -/

namespace Sys2Proof.Machine

/-! ### The stream as an issue begins -/

namespace Begun

variable {s b : State}

theorem coreKey (h : Begun s b) : b.cur.core = s.cur.core := h.only.cur.1
theorem groupKey (h : Begun s b) : b.cur.gid = s.cur.gid := h.only.cur.2.1
theorem slotKey (h : Begun s b) : b.cur.slot = s.cur.slot := h.only.cur.2.2
theorem scope (h : Begun s b) : b.scope = s.scope := by unfold State.scope; rw [h.only]
theorem onShader (h : Begun s b) : b.onShader = s.onShader := by unfold State.onShader; rw [h.coreKey]
theorem uid (h : Begun s b) : b.curGrp.uid = s.curGrp.uid := by rw [h.curGrp_eq]
theorem wait (h : Begun s b) : b.curSlot.wait = s.curSlot.wait := by
  obtain ⟨_, _, _, e⟩ := h.slot
  rw [e]
theorem alone (h : Begun s b) : (b.curGrp.slot (1 - b.cur.slot)).mask = (s.curGrp.slot (1 - s.cur.slot)).mask := by
  rw [h.slotKey, h.other]
theorem slot_lt (h : Begun s b) : b.cur.slot < 2 := (live_parts h.live).2.2

end Begun

/-- A unit of the issuing group that is there stays there as an issue begins. -/
theorem housed_begun {s : State} {i : Instr} (hh : ((semOf (soloSlot i) i).hold s).2 = s) (h : s.housed = true) :
    (kget s.curGrp.uid (s.begun i).curCore.units).isSome = true := by
  have hold : ((soloSem i).hold s).2 = s := by
    unfold soloSem Sem.gated
    dsimp only
    split
    · exact hh
    · rfl
  unfold State.begun
  rw [hold, (unitsHere_start s _).2]
  exact h

/-- A group is the one it was where its core lists the same groups. -/
theorem curGrp_of_groups {s t : State} (hc : t.cur = s.cur) (h : (t.core s.cur.core).groups = s.curCore.groups) : t.curGrp = s.curGrp := by
  show (t.core t.cur.core).group t.cur.gid = s.curCore.group s.cur.gid
  rw [hc]
  unfold Core.group
  rw [h]
theorem curSlot_of_groups {s t : State} (hc : t.cur = s.cur) (h : (t.core s.cur.core).groups = s.curCore.groups) : t.curSlot = s.curSlot := by
  show t.curGrp.slot t.cur.slot = s.curGrp.slot s.cur.slot
  rw [curGrp_of_groups hc h, hc]

theorem curCore_modS (s : State) (f : PcSlot → PcSlot) (h : s.live = true) :
    (s.modS f).curCore = s.curCore.modGroup s.cur.gid (fun g => g.modSlot s.cur.slot f) := curCore_modC s _ (live_parts h).1

theorem curGrp_modS (s : State) (f : PcSlot → PcSlot) (h : s.live = true) : (s.modS f).curGrp = s.curGrp.modSlot s.cur.slot f :=
  curGrp_modG s _ h
theorem modSlot_eq (g : Group) (i : Nat) (f : PcSlot → PcSlot) :
    g.modSlot i f = { g with slot0 := (g.modSlot i f).slot0, slot1 := (g.modSlot i f).slot1 } := by
  unfold Group.modSlot Group.setSlot
  split <;> rfl

/-- The other slot of the issuing group under a change of the issuing one. -/
theorem other_modS {s : State} (f : PcSlot → PcSlot) (h : s.live = true) :
    (s.modS f).curGrp.slot (1 - s.cur.slot) = s.curGrp.slot (1 - s.cur.slot) := by
  rw [curGrp_modS s f h]
  exact setSlot_other _ _ _ (live_parts h).2.2

/-! ### Arrivals (R353 to R355) -/

/-- A group arrives by one slot when the other one has no lanes. -/
theorem arrives_alone (a : PcSlot → Bool) {g : Group} {i : Nat} (hi : i < 2) (h : a (g.slot i) = true) (ho : (g.slot (1 - i)).mask = 0) :
    ((a g.slot0 || a g.slot1) && (g.slot0.mask == 0 || a g.slot0) && (g.slot1.mask == 0 || a g.slot1)) = true := by
  have two : i = 0 ∨ i = 1 := by omega
  rcases two with rfl | rfl
  · have h0 : a g.slot0 = true := h
    have h1 : g.slot1.mask = 0 := ho
    simp [h0, h1]
  · have h1 : a g.slot1 = true := h
    have h0 : g.slot0.mask = 0 := ho
    simp [h0, h1]

/-- The barrier word of a unit with the arrivals of its groups. -/
def Core.arrivals (k : Core) (u : WUnit) : W32 :=
  u.gids.foldl (fun m g => if (k.group g).arrivedBar then m ||| BitVec.ofNat 32 (2 ^ (k.group g).gix) else m) u.arrived

/-- A complete barrier is released two clk on. -/
def Core.releaseClk (k : Core) (u : WUnit) : Option Nat :=
  if u.gids.all (fun g => bitOn (k.arrivals u) (k.group g).gix) && u.gids.any (fun g => !(k.group g).ended) && u.barDue.isNone
  then some (k.clk + 2) else u.barDue

theorem barCheck_eq (s : State) (c uid : Nat) : s.barCheck c uid = s.modCore c (fun k => k.modUnit uid (fun u =>
    { u with arrived := (s.core c).arrivals ((s.core c).unit uid), barDue := (s.core c).releaseClk ((s.core c).unit uid) })) := rfl

theorem barCheck_groups (s : State) (c uid d : Nat) : ((s.barCheck c uid).core d).groups = (s.core d).groups := by
  rw [barCheck_eq]
  rcases core_modCore_or s c d _ with ⟨_, h⟩ | h <;> rw [h]
  rfl

theorem barCheck_unit {s : State} {c uid : Nat} (hc : (kget c s.cores).isSome = true) (hu : (kget uid (s.core c).units).isSome = true) :
    ((s.barCheck c uid).core c).unit uid = { (s.core c).unit uid with
      arrived := (s.core c).arrivals ((s.core c).unit uid), barDue := (s.core c).releaseClk ((s.core c).unit uid) } := by
  rw [barCheck_eq, core_modCore_same s c _ hc, unit_modUnit_same _ _ _ hu]

theorem bitOn_or_left {m n : W32} {i : Nat} (h : bitOn m i = true) : bitOn (m ||| n) i = true := by
  unfold bitOn at *
  rw [BitVec.getLsbD_or, h, Bool.true_or]

theorem bitOn_two_pow {i : Nat} (h : i < 32) : bitOn (BitVec.ofNat 32 (2 ^ i)) i = true := by
  unfold bitOn
  rw [BitVec.getLsbD_ofNat, Nat.testBit_two_pow_self]
  simpa using h

/-- The bit of a group that has arrived stands in its unit's barrier word. -/
theorem bitOn_arrivals {k : Core} {u : WUnit} {g : Nat} (hg : g ∈ u.gids) (ha : (k.group g).arrivedBar = true)
    (hx : (k.group g).gix < 32) : bitOn (k.arrivals u) (k.group g).gix = true := by
  obtain ⟨l, r, e⟩ := List.append_of_mem hg
  unfold Core.arrivals
  rw [e, List.foldl_append, List.foldl_cons]
  refine List.foldlRecOn (motive := fun m => bitOn m (k.group g).gix = true) r _ ?_ (fun m hm x _ => ?_)
  · rw [if_pos ha]
    unfold bitOn
    rw [BitVec.getLsbD_or]
    exact Bool.or_eq_true_iff.2 (.inr (bitOn_two_pow hx))
  · split
    · exact bitOn_or_left hm
    · exact hm

/-- A slot at a barrier of its group goes on at clk n. -/
def PcSlot.passBar (p : PcSlot) (n : Nat) : PcSlot := if p.wait == .groupBar then { p with wait := .untilClk n } else p
/-- Both slots of a group go on. -/
def Group.passBar (g : Group) (n : Nat) : Group := { g with slot0 := g.slot0.passBar n, slot1 := g.slot1.passBar n }

theorem passBar_slot (g : Group) (n i : Nat) : (g.passBar n).slot i = (g.slot i).passBar n := by
  unfold Group.slot
  split <;> rfl

/-- A barrier of one group is complete as that group arrives. -/
theorem releaseClk_single {k : Core} {u : WUnit} {g : Nat} (hg : u.gids = [g]) (ha : (k.group g).arrivedBar = true)
    (hx : (k.group g).gix < 32) (he : (k.group g).ended = false) (hd : u.barDue = none) : k.releaseClk u = some (k.clk + 2) := by
  have bit := bitOn_arrivals (u := u) (hg ▸ List.mem_singleton_self g) ha hx
  unfold Core.releaseClk
  rw [hg, hd]
  simp [bit, he]

/-- A group in group scope waits for the other slot, and goes on two clk on when that one has no lanes (R353). -/
theorem groupBarCheck_alone {s : State} (h : s.live = true) (hw : s.curSlot.wait = .groupBar)
    (ho : (s.curGrp.slot (1 - s.cur.slot)).mask = 0) :
    (s.groupBarCheck s.cur.core s.cur.gid).curSlot.wait = .untilClk (s.curCore.clk + 2) := by
  have at_ : (s.curSlot.wait == .groupBar) = true := by rw [hw]; rfl
  have all : s.groupBarCheck s.cur.core s.cur.gid = s.modG (·.passBar (s.curCore.clk + 2)) :=
    if_pos (arrives_alone (fun p => p.wait == .groupBar) (live_parts h).2.2 at_ ho)
  rw [all]
  show ((s.modG _).curGrp.slot s.cur.slot).wait = _
  rw [curGrp_modG s _ h, passBar_slot]
  exact congrArg PcSlot.wait (if_pos at_)

/-! ### What stands beside the issuing slot -/

/-- The stream stays, and the other slot of its group, the other groups of its core and the units are as they were. -/
structure Beside (s t : State) : Prop where
  stays : Stays s t
  live : t.live = true
  other : t.curGrp.slot (1 - s.cur.slot) = s.curGrp.slot (1 - s.cur.slot)
  core : t.curCore.units = s.curCore.units ∧ t.curCore.clk = s.curCore.clk
  groups : ∀ g, g ≠ s.cur.gid → t.curCore.group g = s.curCore.group g

namespace Beside

theorem trans {s t u : State} (a : Beside s t) (b : Beside t u) : Beside s u where
  stays := a.stays.trans b.stays
  live := b.live
  other := by
    have h := b.other
    rw [a.stays.cur] at h
    exact h.trans a.other
  core := ⟨b.core.1.trans a.core.1, b.core.2.trans a.core.2⟩
  groups g hg := (b.groups g (by rw [a.stays.cur]; exact hg)).trans (a.groups g hg)

theorem of_cores {s t : State} (hl : s.live = true) (hc : t.cur = s.cur) (hk : t.cores = s.cores) : Beside s t := by
  have stays := Stays.of_cores hc hk
  have core : t.curCore = s.curCore := by
    show (kget t.cur.core t.cores).getD _ = (kget s.cur.core s.cores).getD _
    rw [hc, hk]
  exact ⟨stays, stays.live hl, by rw [curGrp_of_groups hc (by unfold State.core; rw [hk]; rfl)], by rw [core]; exact ⟨rfl, rfl⟩, fun g _ => by rw [core]⟩

theorem of_memory {s t : State} (hl : s.live = true) (h : MemoryOnly s t) : Beside s t := by
  have core : t.curCore = t.core s.cur.core := by show t.core t.cur.core = _; rw [h.cur]
  refine ⟨h.stays, h.live.trans hl, by rw [h.curGrp], ?_, fun g _ => ?_⟩
  · rw [core, h.core]; exact ⟨rfl, rfl⟩
  · rw [core]; exact h.group ..

theorem modG {s : State} (f : Group → Group) (hl : s.live = true) (hf : ∀ g, GroupSteered g (f g))
    (hs : ∀ g, (f g).slot s.cur.slot = { g.slot s.cur.slot with wait := ((f g).slot s.cur.slot).wait })
    (ho : ∀ g, (f g).slot (1 - s.cur.slot) = g.slot (1 - s.cur.slot)) : Beside s (s.modG f) where
  stays := .modG s f hl hf hs
  live := live_modG s f hl
  other := by rw [curGrp_modG s f hl, ho]
  core := by rw [show (s.modG f).curCore = s.curCore.modGroup s.cur.gid f from curCore_modC s _ (live_parts hl).1]; exact ⟨rfl, rfl⟩
  groups g hg := by
    rw [show (s.modG f).curCore = s.curCore.modGroup s.cur.gid f from curCore_modC s _ (live_parts hl).1]
    exact group_modGroup_other _ _ hg

/-- The issuing slot waits. -/
theorem wait {s : State} (w : Wait) (hl : s.live = true) : Beside s (s.modS (fun p => { p with wait := w })) := by
  refine .modG _ hl (fun g => groupSteered_modSlot _ _ _) (fun g => ?_) fun g => setSlot_other _ _ _ (live_parts hl).2.2
  unfold Group.modSlot
  rw [setSlot_slot]

/-- The issuing unit behind the start of an issue: its queues alone may have lost entries. -/
theorem unit_begun {s w r : State} (h : Beside w r) (b : Begun s w) :
    ∃ qs, r.curCore.unit s.curGrp.uid = { s.curUnit with queues := qs } := by
  obtain ⟨qs, units⟩ := b.unit
  refine ⟨qs, Eq.trans ?_ units⟩
  show (kget s.curGrp.uid r.curCore.units).getD _ = (kget w.curGrp.uid w.curCore.units).getD _
  rw [h.core.1, b.uid]

theorem curSlot {s t : State} (h : Beside s t) : t.curSlot.mask = s.curSlot.mask := by rw [h.stays.slot]
theorem alone {s t : State} (h : Beside s t) : (t.curGrp.slot (1 - t.cur.slot)).mask = (s.curGrp.slot (1 - s.cur.slot)).mask := by
  rw [h.stays.cur, h.other]

end Beside

/-! ### BAR -/

section
variable {s : State} {g : Guard}

theorem bar_on_tile (ha : s.act g ≠ 0) (h : s.issues (.bar g) = true) (h6 : s.scope = 6) (hs : s.onShader = false) :
    Yields (.bar g) s (fun t => Kept s t ∧ t.mem = s.mem ∧ (s.slotIn t).wait = s.curSlot.wait) := by
  obtain ⟨b, -⟩ := begun_of_hold h rfl
  refine yields_of_stays rfl h ha rfl (u := s.begun (.bar g)) ?_ (.refl _) fun t d k => ⟨k, d.mem.trans b.mem, by rw [d.slot, b.wait]⟩
  show effBar (s.begun (.bar g)) = _
  unfold effBar
  rw [b.scope, h6, b.onShader, hs]
  rfl

theorem bar_in_group (ha : s.act g ≠ 0) (h : s.issues (.bar g) = true) (h6 : s.scope = 6) (hs : s.onShader = true)
    (ho : (s.curGrp.slot (1 - s.cur.slot)).mask = 0) :
    Yields (.bar g) s (fun t => Kept s t ∧ t.mem = s.mem ∧ (s.slotIn t).wait = .untilClk (s.curCore.clk + 2)) := by
  obtain ⟨b, -⟩ := begun_of_hold h rfl
  generalize hb : s.begun (.bar g) = w at b
  have waits := stays_wait w .groupBar b.live
  have checked := waited_groupBarCheck (w.modS (fun p => { p with wait := .groupBar })) w.cur.core w.cur.gid
  refine yields_of_stays rfl h ha rfl (u := (w.modS (fun p => { p with wait := .groupBar })).groupBarCheck w.cur.core w.cur.gid) ?_
    (hb ▸ waits.trans checked.stays) fun t d k => ⟨k, d.mem.trans (checked.mem.trans b.mem), ?_⟩
  · show effBar (s.begun (.bar g)) = _
    unfold effBar
    rw [hb, b.scope, h6, b.onShader, hs]
    rfl
  · have core : (w.modS (fun p => { p with wait := .groupBar })).curCore.clk = s.curCore.clk := by
      rw [← b.clk, curCore_modS w _ b.live]
      rfl
    rw [d.slot, ← core]
    exact groupBarCheck_alone (live_modS _ _ b.live) (by rw [curSlot_modS _ _ b.live])
      ((congrArg PcSlot.mask (other_modS _ b.live)).trans (b.alone.trans ho))

/-- The group of a slot that waits at the barrier has arrived when the other slot has no lanes. -/
theorem arrivedBar_alone {r : State} (hl : r.live = true) (hw : r.curSlot.wait = .barrier) (hm : r.curSlot.mask ≠ 0)
    (ho : (r.curGrp.slot (1 - r.cur.slot)).mask = 0) : r.curGrp.arrivedBar = true := by
  have atBar : (r.curGrp.slot r.cur.slot).atBar = true := by
    show (r.curSlot.mask != 0 && r.curSlot.wait == .barrier) = true
    rw [hw, bne_iff_ne.2 hm]
    rfl
  unfold Group.arrivedBar
  rw [arrives_alone PcSlot.atBar (live_parts hl).2.2 atBar ho, Bool.or_true]

theorem bar_at_barrier (ha : s.act g ≠ 0) (h : s.issues (.bar g) = true) (hh : s.housed = true) (he : s.curGrp.ended = false)
    (hm : s.curSlot.mask ≠ 0) (h6 : s.scope ≠ 6) :
    let alone : Prop := (s.curGrp.slot (1 - s.cur.slot)).mask = 0
    let u := s.curUnit
    Yields (.bar g) s (fun t => Kept s t ∧ (s.slotIn t).wait = .barrier ∧ (s.scope = 0 → t.mem = s.mem)
      ∧ (alone → s.cur.gid ∈ u.gids → s.curGrp.gix < 32 → bitOn (s.unitIn t).arrived s.curGrp.gix = true)
      ∧ (u.gids = [s.cur.gid] → alone → u.barDue = none → s.curGrp.gix < 32 → (s.unitIn t).barDue = some (s.curCore.clk + 2))) := by
  intro alone u
  obtain ⟨b, -⟩ := begun_of_hold h rfl
  have housed := housed_begun (s := s) (i := .bar g) rfl hh
  generalize hb : s.begun (.bar g) = w at b housed
  have fenced := memoryOnly_fenceAt w w.cur.core w.scope
  generalize hf : w.fenceAt w.cur.core w.scope = f at fenced
  have stands := Beside.of_memory b.live fenced
  generalize hr : f.modS (fun p => { p with wait := .barrier }) = r
  have waits : Beside w r := hr ▸ stands.trans (.wait .barrier stands.live)
  have wait : r.curSlot.wait = .barrier := by rw [← hr, curSlot_modS _ _ stands.live]
  have eff : effBar w = r.barCheck r.cur.core s.curGrp.uid := by
    have cur : r.cur.core = w.cur.core := by rw [waits.stays.cur]
    unfold effBar
    rw [if_neg (by rw [b.scope]; simpa using h6), hf, hr, cur, b.uid]
  have checked := waited_barCheck r r.cur.core s.curGrp.uid
  obtain ⟨qs, unit⟩ := waits.unit_begun b
  have gid : r.cur.gid = s.cur.gid := by rw [waits.stays.cur, b.groupKey]
  have grp := waits.stays.grp
  unfold GroupSteered at grp
  have gix : r.curGrp.gix = s.curGrp.gix := by rw [grp, b.curGrp_eq]
  have ended : r.curGrp.ended = false := by
    rw [← hr, curGrp_modS _ _ stands.live, modSlot_eq, fenced.curGrp, b.curGrp_eq]
    exact he
  have arrived : alone → r.curGrp.arrivedBar = true := fun ho =>
    arrivedBar_alone waits.live wait (by rw [waits.curSlot, b.mask]; exact hm) (waits.alone.trans (b.alone.trans ho))
  refine yields_of_stays rfl h ha rfl (u := r.barCheck r.cur.core s.curGrp.uid) (hb ▸ eff) (hb ▸ waits.stays.trans checked.stays)
    fun t d k => ?_
  have barrier : s.unitIn t = { s.curUnit with queues := qs, arrived := r.curCore.arrivals { s.curUnit with queues := qs },
                                               barDue := r.curCore.releaseClk { s.curUnit with queues := qs } } := by
    refine d.unitIn.trans ?_
    show ((r.barCheck r.cur.core s.curGrp.uid).core r.cur.core).unit s.curGrp.uid = _
    rw [barCheck_unit (live_parts waits.live).1 (waits.core.1 ▸ housed)]
    show ({ r.curCore.unit s.curGrp.uid with arrived := r.curCore.arrivals (r.curCore.unit s.curGrp.uid),
                                             barDue := r.curCore.releaseClk (r.curCore.unit s.curGrp.uid) } : WUnit) = _
    rw [unit]
  refine ⟨k, ?_, fun h0 => ?_, fun ho hg hx => ?_, fun hg ho hd hx => ?_⟩
  · rw [d.slot, curSlot_of_groups checked.cur (barCheck_groups ..), wait]
  · have none : f = w := by
      rw [← hf, b.scope, h0]
      rfl
    rw [d.mem, checked.mem, ← hr, none]
    exact b.mem
  · rw [barrier, ← gix]
    exact bitOn_arrivals (k := r.curCore) (g := r.cur.gid) (gid ▸ hg) (arrived ho) (gix ▸ hx)
  · rw [barrier, ← b.clk, ← waits.core.2]
    exact releaseClk_single (k := r.curCore) (g := r.cur.gid) (gid ▸ hg) (arrived ho) (gix ▸ hx) ended hd

/-! ### BAR.WEAVE -/

theorem askNominal_cores (s : State) (q : Nat) : (s.askNominal q).cores = s.cores := by
  unfold State.askNominal
  split <;> rfl
theorem weaveCheck_cores (s : State) (c uid : Nat) : (s.weaveCheck c uid).cores = s.cores := by
  unfold State.weaveCheck
  dsimp only
  split
  · rfl
  · exact iteInduction (motive := fun t : State => t.cores = s.cores)
      (fun _ => iteInduction (motive := fun t : State => t.cores = s.cores) (fun _ => askNominal_cores s _) fun _ => rfl) fun _ => rfl

theorem barWeave_waits (ha : s.act g ≠ 0) (h : s.issues (.barWeave g) = true) :
    Yields (.barWeave g) s (fun t => Kept s t ∧ (s.groupIn t).weaveArr = true ∧ (s.slotIn t).wait = .weave) := by
  obtain ⟨b, -⟩ := begun_of_hold h rfl
  generalize hb : s.begun (.barWeave g) = w at b
  have stands := Beside.of_memory b.live (memoryOnly_fenceAt w w.cur.core w.scope)
  generalize hf : w.fenceAt w.cur.core w.scope = f at stands
  have marked : Beside f (f.modG (fun x => { x with weaveArr := true })) :=
    .modG _ stands.live (fun _ => rfl) (fun _ => rfl) fun _ => rfl
  generalize hk : f.modG (fun x => { x with weaveArr := true }) = k at marked
  generalize hr : k.modS (fun p => { p with wait := .weave }) = r
  have waits : Beside w r := hr ▸ (stands.trans marked).trans (.wait .weave marked.live)
  have checked := waited_weaveCheck r w.cur.core w.curGrp.uid
  have same : ((r.weaveCheck w.cur.core w.curGrp.uid).core r.cur.core).groups = r.curCore.groups := by
    unfold State.core
    rw [weaveCheck_cores]
    rfl
  refine yields_of_stays rfl h ha rfl (u := r.weaveCheck w.cur.core w.curGrp.uid) ?_ (hb ▸ waits.stays.trans checked.stays)
    fun t d kept => ⟨kept, ?_, ?_⟩
  · show effBarWeave (s.begun (.barWeave g)) = _
    unfold effBarWeave
    rw [hb, hf, hk, hr]
  · rw [d.grp, curGrp_of_groups checked.cur same, ← hr, curGrp_modS _ _ marked.live, ← hk, curGrp_modG _ _ stands.live]
    rw [modSlot_eq]
  · rw [d.slot, curSlot_of_groups checked.cur same, ← hr, curSlot_modS _ _ marked.live]

/-! ### STEPEND -/

theorem govCheck_cores (s : State) (l n : Nat) : (s.govCheck l n).cores = s.cores := by
  unfold State.govCheck
  repeat' split
  all_goals rfl

theorem stepCheck_groups (s : State) (c uid d : Nat) : ((s.stepCheck c uid).core d).groups = (s.core d).groups := by
  have stepped (f : Core → WUnit → WUnit) : ((s.modCore c (fun k => k.modUnit uid (f k))).core d).groups = (s.core d).groups := by
    rcases core_modCore_or s c d (fun k => k.modUnit uid (f k)) with ⟨_, h⟩ | h <;> rw [h]
    rfl
  have gov (t : State) (l n : Nat) : ((t.govCheck l n).core d).groups = (t.core d).groups := by
    unfold State.core
    rw [govCheck_cores]
  unfold State.stepCheck
  dsimp only
  split
  · exact gov ..
  split
  · split
    · exact stepped fun k u => { u with stepping := false, stepDue := some (k.clk + 4) }
    · exact (gov ..).trans (stepped fun _ u => { u with stepping := false, govHold := true })
  · rfl

/-- The step of a gang without a governor is over once its groups have ended it (R357). -/
theorem stepCheck_over {r : State} {c uid g : Nat} (hc : (kget c r.cores).isSome = true)
    (hu : (kget uid (r.core c).units).isSome = true) (hg : ((r.core c).unit uid).gang = true)
    (hs : ((r.core c).unit uid).stepping = true) (hm : g ∈ ((r.core c).unit uid).gids) (he : ((r.core c).group g).ended = false)
    (hd : ∀ k ∈ ((r.core c).unit uid).gids, ((r.core c).group k).ended = true ∨ ((r.core c).group k).stepDone = true)
    (hn : kget ((r.core c).unit uid).launch r.govs = none) :
    ((r.stepCheck c uid).core c).unit uid = { (r.core c).unit uid with stepping := false, stepDue := some ((r.core c).clk + 4) } := by
  have all : (((r.core c).unit uid).gids.all fun k => ((r.core c).group k).ended || ((r.core c).group k).stepDone) = true :=
    List.all_eq_true.2 fun k hk => Bool.or_eq_true_iff.2 (hd k hk)
  have some_ : ¬ (((r.core c).unit uid).gids.all fun k => ((r.core c).group k).ended) = true := fun h => by
    have := List.all_eq_true.1 h g hm
    rw [he] at this
    cases this
  unfold State.stepCheck
  dsimp only
  rw [if_neg (by simpa [hg] using some_), if_pos (by rw [hg, hs, all]; rfl), hn]
  exact (congrArg (fun k => Core.unit k uid) (core_modCore_same r c _ hc)).trans (unit_modUnit_same _ _ _ hu)

theorem stepend_results (ha : s.act g ≠ 0) (h : s.issues (.stepend g) = true) (hh : s.housed = true) (he : s.curGrp.ended = false) :
    let u := s.curUnit
    Yields (.stepend g) s (fun t => Kept s t ∧ t.mem = s.mem ∧ (s.groupIn t).stepDone = true ∧ (s.slotIn t).wait = .stepEnd
      ∧ (u.gang = true → u.stepping = true → s.cur.gid ∈ u.gids → kget u.launch s.govs = none →
          (∀ k ∈ u.gids, k ≠ s.cur.gid → (s.curCore.group k).ended = true ∨ (s.curCore.group k).stepDone = true) →
          (s.unitIn t).stepping = false ∧ (s.unitIn t).stepDue = some (s.curCore.clk + 4))) := by
  intro u
  obtain ⟨b, -⟩ := begun_of_hold h rfl
  have housed := housed_begun (s := s) (i := .stepend g) rfl hh
  generalize hb : s.begun (.stepend g) = w at b housed
  have marked : Beside w (w.modG (fun x => { x with stepDone := true })) := .modG _ b.live (fun _ => rfl) (fun _ => rfl) fun _ => rfl
  generalize hk : w.modG (fun x => { x with stepDone := true }) = k at marked
  generalize hr : k.modS (fun p => { p with wait := .stepEnd }) = r
  have waits : Beside w r := hr ▸ marked.trans (.wait .stepEnd marked.live)
  have checked := waited_stepCheck r r.cur.core s.curGrp.uid
  have same := stepCheck_groups r r.cur.core s.curGrp.uid r.cur.core
  have eff : effStepend w = r.stepCheck r.cur.core s.curGrp.uid := by
    have cur : r.cur.core = w.cur.core := by rw [waits.stays.cur]
    unfold effStepend
    rw [hk, hr, cur, b.uid]
  have gid : r.cur.gid = s.cur.gid := by rw [waits.stays.cur, b.groupKey]
  have grp : r.curGrp = { w.curGrp with slot0 := r.curGrp.slot0, slot1 := r.curGrp.slot1, stepDone := true } := by
    rw [← hr, curGrp_modS _ _ marked.live, modSlot_eq, ← hk, curGrp_modG _ _ b.live]
  obtain ⟨qs, unit⟩ := waits.unit_begun b
  refine yields_of_stays rfl h ha rfl (u := r.stepCheck r.cur.core s.curGrp.uid) (hb ▸ eff) (hb ▸ waits.stays.trans checked.stays)
    fun t d kept => ⟨kept, ?_, ?_, ?_, fun hg hs hm hn hd => ?_⟩
  · rw [d.mem, checked.mem, ← hr, ← hk]
    exact b.mem
  · rw [d.grp, curGrp_of_groups checked.cur same]
    rw [grp]
  · rw [d.slot, curSlot_of_groups checked.cur same, ← hr, curSlot_modS _ _ marked.live]
  · have own (x : Nat) (hx : x = s.cur.gid) : (r.curCore.group x).ended = false ∧ (r.curCore.group x).stepDone = true := by
      rw [hx, ← gid]
      show r.curGrp.ended = false ∧ r.curGrp.stepDone = true
      rw [grp, b.curGrp_eq]
      exact ⟨he, rfl⟩
    have each : ∀ x ∈ u.gids, (r.curCore.group x).ended = true ∨ (r.curCore.group x).stepDone = true := fun x hx => by
      by_cases h : x = s.cur.gid
      · exact .inr (own x h).2
      · rw [waits.groups x (b.groupKey.symm ▸ h), b.groups x h]
        exact hd x hx h
    have govs : r.govs = s.govs := by
      rw [← hr, ← hk]
      show w.govs = s.govs
      rw [b.only]
    have stepped := stepCheck_over (r := r) (c := r.cur.core) (uid := s.curGrp.uid) (g := s.cur.gid) (live_parts waits.live).1
      (waits.core.1 ▸ housed)
    rw [show (r.core r.cur.core).unit s.curGrp.uid = _ from unit, govs] at stepped
    have here : (r.stepCheck r.cur.core s.curGrp.uid).curCore = (r.stepCheck r.cur.core s.curGrp.uid).core r.cur.core := by
      unfold State.curCore
      rw [checked.cur]
    rw [d.unitIn, here, stepped hg hs hm (own _ rfl).1 each hn]
    exact ⟨rfl, by rw [← b.clk, ← waits.core.2]; rfl⟩

/-! ### BAR.NET -/

theorem netArrive_cores (s : State) (c g id : Nat) : (s.netArrive c g id).cores = s.cores := by
  unfold State.netArrive
  dsimp only
  split
  · rfl
  · split <;> rfl

/-- A record that an arrival may join keeps its number and scope. -/
theorem netArrive_record {s : State} {id : Nat} {n : NetBar} (c g : Nat) (h : kget id s.nets = some n) :
    ∃ x, kget id (s.netArrive c g id).nets = some x ∧ x.count = n.count ∧ x.scope = n.scope ∧ x.b = n.b := by
  unfold State.netArrive
  dsimp only
  rw [h]
  dsimp only
  split
  · exact ⟨n, h, rfl, rfl, rfl⟩
  · exact ⟨_, kget_kset_same .., rfl, rfl, rfl⟩

/-- A slot that waits at an open record arrives there when the other slot has no lanes; the last arrival completes the record. -/
theorem netArrive_alone {s : State} {id : Nat} {n : NetBar} (hl : s.live = true) (hw : s.curSlot.wait = .net id) (hm : s.curSlot.mask ≠ 0)
    (ho : (s.curGrp.slot (1 - s.cur.slot)).mask = 0) (h : kget id s.nets = some n) (hd : n.due = none)
    (hn : (s.cur.core, s.cur.gid, 0) ∉ n.arrived) :
    ∃ x, kget id (s.netArrive s.cur.core s.cur.gid id).nets = some x ∧ x.arrived = n.arrived ++ [(s.cur.core, s.cur.gid, 0)]
      ∧ (n.count ≤ n.arrived.length + 1 → x.due.isSome = true) := by
  have waits : ((s.curGrp.slot s.cur.slot).mask != 0 && (s.curGrp.slot s.cur.slot).wait == .net id) = true := by
    show (s.curSlot.mask != 0 && s.curSlot.wait == .net id) = true
    rw [hw, bne_iff_ne.2 hm, beq_self_eq_true]
    rfl
  have arrives : _ = true := arrives_alone (fun p => p.mask != 0 && p.wait == .net id) (live_parts hl).2.2 waits ho
  have new : n.arrived.contains (s.cur.core, s.cur.gid, 0) = false := by simpa using hn
  unfold State.netArrive
  dsimp only
  rw [h]
  dsimp only
  rw [if_neg (by
    rw [show s.group s.cur.core s.cur.gid = s.curGrp from rfl, arrives, hd, new]
    decide)]
  refine ⟨_, kget_kset_same .., rfl, fun hc => ?_⟩
  dsimp only
  rw [if_pos (by simpa using hc)]
  rfl

theorem Begun.netRec {s w : State} (b : Begun s w) (n : Nat) : w.netRec n = s.netRec n := by
  unfold State.netRec State.countsIn State.netInst
  rw [b.scope, b.curGrp_eq, b.coreKey, b.only]

/-- A record opened for barrier n, with the number that sC gives (R356). -/
def State.openNet (s : State) (n : Nat) (sC : SReg) : State :=
  { s with fresh := s.fresh + 1,
           nets := kset s.fresh { launch := s.countsIn s.curGrp.launch, scope := s.scope, inst := s.netInst, b := n,
                                  count := fld (s.sr sC.val).toNat 0 24, arrived := [], dies := [coreDie s.cur.core], due := none } s.nets }
/-- Record id is one of the issuing core's die too. -/
def NetBar.onDie (n : NetBar) (d : Nat) : NetBar := if n.dies.contains d then n else { n with dies := n.dies ++ [d] }
def State.joinNet (s : State) (id : Nat) : State := { s with nets := kmod id (·.onDie (coreDie s.cur.core)) s.nets }
/-- The issuing slot waits at record id. -/
def State.waitNet (s m : State) (id : Nat) : State := (m.fenceAt s.cur.core s.scope).modS (fun p => { p with wait := .net id })
/-- It waits there, and its group arrives if it can. -/
def State.meetNet (s m : State) (id : Nat) : State :=
  (s.waitNet m id).netArrive (s.waitNet m id).cur.core (s.waitNet m id).cur.gid id

theorem effBarNet_opens {w : State} {n : Nat} (sC : SReg) (h : w.netRec n = none) :
    effBarNet n sC w = w.meetNet (w.openNet n sC) w.fresh := by
  unfold effBarNet
  rw [h]
  rfl
theorem effBarNet_joins {w : State} {n id : Nat} {r : NetBar} (sC : SReg) (h : w.netRec n = some (id, r)) :
    effBarNet n sC w = w.meetNet (w.joinNet id) id := by
  unfold effBarNet
  rw [h]
  rfl

theorem onDie_eq (n : NetBar) (d : Nat) : n.onDie d = { n with dies := (n.onDie d).dies } := by
  unfold NetBar.onDie
  split <;> rfl

/-- The slot waits at record id of a state m whose network records alone are not those of w, and arrives there. -/
theorem meetNet_waits {w m : State} {id : Nat} {n : NetBar} (hl : w.live = true) (hc : m.cur = w.cur) (hk : m.cores = w.cores)
    (hn : kget id m.nets = some n) :
    let u := w.meetNet m id
    Stays w u ∧ u.curSlot.wait = .net id
      ∧ ∃ x, kget id u.nets = some x ∧ x.count = n.count ∧ x.scope = n.scope ∧ x.b = n.b
        ∧ (w.curSlot.mask ≠ 0 → (w.curGrp.slot (1 - w.cur.slot)).mask = 0 → n.due = none → (w.cur.core, w.cur.gid, 0) ∉ n.arrived →
            x.arrived = n.arrived ++ [(w.cur.core, w.cur.gid, 0)] ∧ (n.count ≤ n.arrived.length + 1 → x.due.isSome = true)) := by
  intro u
  have opened := Beside.of_cores hl hc hk
  have fenced := memoryOnly_fenceAt m w.cur.core w.scope
  have stands := opened.trans (.of_memory opened.live fenced)
  have waits : Beside w (w.waitNet m id) := stands.trans (.wait (.net id) stands.live)
  have wait : (w.waitNet m id).curSlot.wait = .net id := by
    unfold State.waitNet
    rw [curSlot_modS _ _ stands.live]
  have arrived := waited_netArrive (w.waitNet m id) (w.waitNet m id).cur.core (w.waitNet m id).cur.gid id
  have record : kget id (w.waitNet m id).nets = some n := by
    show kget id (m.fenceAt w.cur.core w.scope).nets = some n
    rw [fenced.rest]
    exact hn
  refine ⟨waits.stays.trans arrived.stays, ?_, ?_⟩
  · refine (congrArg PcSlot.wait (curSlot_of_groups arrived.cur ?_)).trans wait
    unfold State.core
    rw [netArrive_cores]
    rfl
  · obtain ⟨x, hx, c, sc, nb⟩ := netArrive_record (w.waitNet m id).cur.core (w.waitNet m id).cur.gid record
    refine ⟨x, hx, c, sc, nb, fun hm ho hd hn => ?_⟩
    have cur := waits.stays.cur
    obtain ⟨y, hy, both⟩ := netArrive_alone waits.live wait (by rw [waits.curSlot]; exact hm) (waits.alone.trans ho) record hd
      (by rw [cur]; exact hn)
    rw [hx] at hy
    rw [cur] at both
    exact Option.some.inj hy ▸ both

section
variable {n : Fin 16} {sC : SReg}

theorem barNet_opens (ha : s.act g ≠ 0) (h : s.issues (.barNet g n sC) = true) (hm : s.curSlot.mask ≠ 0) (hn : s.netRec n.val = none) :
    let alone : Prop := (s.curGrp.slot (1 - s.cur.slot)).mask = 0
    Yields (.barNet g n sC) s (fun t => Kept s t ∧ (s.slotIn t).wait = .net s.fresh
      ∧ ∃ x, kget s.fresh t.nets = some x ∧ x.count = fld (s.sr sC.val).toNat 0 24 ∧ x.scope = s.scope ∧ x.b = n.val
        ∧ (alone → x.arrived = [(s.cur.core, s.cur.gid, 0)]) ∧ (alone → x.count = 1 → x.due.isSome = true)) := by
  intro alone
  obtain ⟨b, -⟩ := begun_of_hold h rfl
  generalize hb : s.begun (.barNet g n sC) = w at b
  obtain ⟨stays, wait, x, hx, xc, xs, xb, arrives⟩ := meetNet_waits (m := w.openNet n.val sC) b.live rfl rfl (kget_kset_same ..)
  have first (ho : alone) := arrives (by rw [b.mask]; exact hm) (b.alone.trans ho) rfl List.not_mem_nil
  refine yields_of_stays (u := w.meetNet (w.openNet n.val sC) w.fresh) rfl h ha rfl ?_ (hb ▸ stays)
    fun t d k => ⟨k, ?_, x, ?_, ?_, ?_, xb, fun ho => ?_, fun ho h1 => ?_⟩
  · show effBarNet n.val sC (s.begun (.barNet g n sC)) = _
    rw [hb]
    exact effBarNet_opens sC ((b.netRec _).trans hn)
  · rw [d.slot, wait, b.fresh]
  · rw [d.nets, ← b.fresh, hx]
  · rw [xc, b.sr]
  · rw [xs, b.scope]
  · rw [(first ho).1, b.coreKey, b.groupKey]
    rfl
  · exact (first ho).2 (by rw [← xc, h1]; exact le_refl 1)

theorem barNet_joins (ha : s.act g ≠ 0) (h : s.issues (.barNet g n sC) = true) (hm : s.curSlot.mask ≠ 0) {id : Nat} {r : NetBar}
    (hr : s.netRec n.val = some (id, r)) (hk : kget id s.nets = some r) :
    let alone : Prop := (s.curGrp.slot (1 - s.cur.slot)).mask = 0
    Yields (.barNet g n sC) s (fun t => Kept s t ∧ (s.slotIn t).wait = .net id ∧ ∃ x, kget id t.nets = some x ∧ x.count = r.count
      ∧ (alone → (s.cur.core, s.cur.gid, 0) ∉ r.arrived → x.arrived = r.arrived ++ [(s.cur.core, s.cur.gid, 0)]
          ∧ (r.arrived.length + 1 = r.count → x.due.isSome = true))) := by
  intro alone
  obtain ⟨b, -⟩ := begun_of_hold h rfl
  generalize hb : s.begun (.barNet g n sC) = w at b
  have due : r.due = none := by
    have found := List.find?_some hr
    simp only [Bool.and_eq_true, Option.isNone_iff_eq_none] at found
    exact found.2
  have record : kget id (w.joinNet id).nets = some (r.onDie (coreDie w.cur.core)) := by
    refine (kget_kmod_same ..).trans ?_
    rw [b.only, hk]
    rfl
  obtain ⟨stays, wait, x, hx, xc, -, -, arrives⟩ := meetNet_waits (m := w.joinNet id) b.live rfl rfl record
  rw [onDie_eq] at xc arrives
  refine yields_of_stays (u := w.meetNet (w.joinNet id) id) rfl h ha rfl ?_ (hb ▸ stays) fun t d k => ⟨k, ?_, x, ?_, xc, fun ho hn => ?_⟩
  · show effBarNet n.val sC (s.begun (.barNet g n sC)) = _
    rw [hb]
    exact effBarNet_joins sC ((b.netRec _).trans hr)
  · rw [d.slot, wait]
  · rw [d.nets, hx]
  · rw [b.coreKey, b.groupKey] at arrives
    obtain ⟨arrived, last⟩ := arrives (by rw [b.mask]; exact hm) (b.alone.trans ho) due hn
    exact ⟨arrived, fun hc => last hc.ge⟩

end

/-! ### What a complete barrier lets go of -/

theorem relist_cores (s : State) (c : Nat) (l : List Nat) : (s.relist c l).cores = s.cores := by
  unfold State.relist
  split <;> rfl

theorem PcSlot.free_free (p : PcSlot) (w : Wait) : (p.free w).free w = p.free w := by
  have once (v : Wait) : (if (if v == w then .none else v) == w then .none else (if v == w then .none else v)) = if v == w then .none else v := by
    by_cases h : (v == w) = true
    · simp [h]
    · simp [h]
  unfold PcSlot.free
  dsimp only
  rw [once, once]
theorem free_free (g : Group) (w : Wait) : (g.free w).free w = g.free w := by
  unfold Group.free
  dsimp only
  rw [PcSlot.free_free, PcSlot.free_free]
/-- Nothing waits in a group that is not there. -/
theorem free_start (w : Wait) : Group.start.free w = Group.start := by
  have none : PcSlot.empty.free w = PcSlot.empty := by
    unfold PcSlot.free
    rw [show PcSlot.empty.wait = .none from rfl, show PcSlot.empty.kept = .none from rfl, ite_self]
    rfl
  show ({ Group.start with slot0 := PcSlot.empty.free w, slot1 := PcSlot.empty.free w } : Group) = _
  rw [none]
  rfl

/-- A group under a change that it is there for, or that leaves a group alone which is not there. -/
theorem group_modGroup_self {k : Core} {g : Nat} {f : Group → Group} (h : (kget g k.groups).isSome = true ∨ f Group.start = Group.start) :
    (k.modGroup g f).group g = f (k.group g) := by
  rcases h with h | h
  · exact group_modGroup_same k g f h
  · cases e : kget g k.groups with
    | none => simp [Core.group, Core.modGroup, kmod, e, h]
    | some v => exact group_modGroup_same k g f (by simp [e])

/-- A change that may be made twice, at every group of a list. -/
theorem group_foldl_modGroup {f : Group → Group} (hf : ∀ x, f (f x) = f x) (l : List Nat) {k : Core} {g : Nat}
    (h : (kget g k.groups).isSome = true ∨ f Group.start = Group.start) :
    (l.foldl (fun k g => k.modGroup g f) k).group g = if g ∈ l then f (k.group g) else k.group g := by
  induction l generalizing k with
  | nil => rfl
  | cons x r ih =>
    rw [List.foldl_cons, ih (h.imp_left fun h => (groups_modGroup_isSome ..).trans h)]
    by_cases hx : g = x
    · subst hx
      rw [group_modGroup_self h, hf, ite_self, if_pos List.mem_cons_self]
    · simp only [group_modGroup_other k f hx, List.mem_cons, hx, false_or]

theorem units_foldl_modGroup (f : Group → Group) (l : List Nat) (k : Core) : (l.foldl (fun k g => k.modGroup g f) k).units = k.units := by
  induction l generalizing k with
  | nil => rfl
  | cons x r ih => exact (ih _).trans rfl

/-- A barrier that is complete (R239, R353): its slots go on, its phase flips, and its core keeps no copy. -/
theorem barrierComplete_frees (s : State) (core uid gid d : Nat) (hc : (kget core s.cores).isSome) (hu : (kget uid (s.core core).units).isSome) :
    let u := (s.core core).unit uid
    u.barDue = some d → d ≤ (s.core core).clk → gid ∈ u.gids →
    ∃ t, exec (.barrierComplete core uid gid) s = .next t ∧ ((t.core core).unit uid).phase = !u.phase ∧ (t.core core).lines = []
      ∧ (∀ g ∈ u.gids, t.group core g = (s.group core g).free .barrier)
      ∧ ∀ g, g ∉ u.gids → t.group core g = s.group core g := by
  intro u hd hle hg
  generalize hf : s.modCore core (fun c => u.gids.foldl (fun c g => c.modGroup g (fun x => x.free .barrier)) c) = f
  generalize hp : f.modCore core (fun c => c.modUnit uid (fun u => { u with phase := !u.phase, arrived := 0, barDue := none })) = p
  have freed : f.core core = u.gids.foldl (fun c g => c.modGroup g (fun x => x.free .barrier)) (s.core core) := by
    rw [← hf, core_modCore_same s core _ hc]
  have flipped : p.core core = (f.core core).modUnit uid (fun u => { u with phase := !u.phase, arrived := 0, barDue := none }) := by
    rw [← hp, core_modCore_same f core _ (by rw [← hf, cores_modCore_isSome]; exact hc)]
  have here : (kget core p.cores).isSome = true := by
    rw [← hp, cores_modCore_isSome, ← hf, cores_modCore_isSome]
    exact hc
  have units : (f.core core).units = (s.core core).units := by rw [freed, units_foldl_modGroup]
  have flushed := memoryOnly_flush p core
  have answer : exec (.barrierComplete core uid gid) s = .next (((p.flush core).barCheck core uid).relist core u.gids) := by
    show execBarrierComplete core uid gid s = _
    unfold execBarrierComplete
    dsimp only
    rw [show ((s.core core).unit uid).barDue = some d from hd]
    dsimp only
    rw [if_neg (by simpa using ⟨hle, hg⟩), hf, hp]
  have cores (t : State) (c : Nat) : (t.relist core u.gids).core c = t.core c := by
    unfold State.core
    rw [relist_cores]
  have groups (g : Nat) : (((p.flush core).barCheck core uid).relist core u.gids).group core g
      = if g ∈ u.gids then (s.group core g).free .barrier else s.group core g := by
    have same : (((p.flush core).barCheck core uid).relist core u.gids).group core g = (p.flush core).group core g := by
      show (State.core _ core).group g = _
      rw [cores]
      unfold Core.group
      rw [barCheck_groups]
      rfl
    rw [same, flushed.group]
    show (p.core core).group g = _
    rw [flipped]
    show (f.core core).group g = _
    rw [freed]
    exact group_foldl_modGroup (fun x => free_free x .barrier) _ (.inr (free_start .barrier))
  refine ⟨_, answer, ?_, ?_, fun g h => by rw [groups, if_pos h], fun g h => by rw [groups, if_neg h]⟩
  · have unit : ((p.flush core).core core).unit uid = { u with phase := !u.phase, arrived := 0, barDue := none } := by
      rw [flushed.core]
      show (p.core core).unit uid = _
      rw [flipped, unit_modUnit_same _ _ _ (units ▸ hu), show (f.core core).unit uid = u from by unfold Core.unit; rw [units]; rfl]
    rw [cores, barCheck_unit ((flushed.here _).trans here)
      (by rw [flushed.core, flipped]; exact (kget_kmod_isSome ..).trans (units ▸ hu)), unit]
  · rw [cores, (waited_barCheck ..).lines, flush_lines]

/-- A list changed at every record reads changed. -/
theorem kget_map {α β : Type} (f : α → β) (m : Sparse α) (k : Nat) : kget k (m.map (fun p => (p.1, f p.2))) = (kget k m).map f := by
  induction m with
  | nil => rfl
  | cons p r ih =>
    simp only [List.map_cons, kget, ih]
    split
    · rfl
    · split <;> rfl

/-- Every group of a core goes on where it waits for w. -/
def Core.freeAll (w : Wait) (k : Core) : Core := { k with groups := k.groups.map (fun q => (q.1, q.2.free w)) }

theorem group_freeAll (k : Core) (w : Wait) (g : Nat) : (k.freeAll w).group g = (k.group g).free w := by
  show (kget g (k.groups.map (fun q => (q.1, Group.free q.2 w)))).getD Group.start = ((kget g k.groups).getD Group.start).free w
  rw [kget_map (fun x => Group.free x w)]
  cases kget g k.groups with
  | none => exact (free_start w).symm
  | some v => rfl

theorem group_mapFree {s p : State} (w : Wait) (h : p.cores = s.cores.map (fun q => (q.1, q.2.freeAll w))) (c g : Nat) :
    p.group c g = (s.group c g).free w := by
  show ((kget c p.cores).getD (Core.start 0)).group g = (((kget c s.cores).getD (Core.start 0)).group g).free w
  rw [h, kget_map (Core.freeAll w)]
  cases kget c s.cores with
  | none => exact (free_start w).symm
  | some k => exact group_freeAll k w g

/-- Record id is freed, and whatever waits there goes on. -/
def State.closeNet (s : State) (id : Nat) : State :=
  let sv (v : Saved) : Saved := { v with groups := v.groups.map (fun q => (q.1, q.2.free (.net id))) }
  { s with cores := s.cores.map (fun p => (p.1, p.2.freeAll (.net id))),
           launches := s.launches.map (fun p => (p.1, { p.2 with saved := p.2.saved.map sv })),
           pending := s.pending.map (fun p => { p with saved := p.saved.map sv }),
           nets := kdel id s.nets }

/-- A network record that is complete (R239, R356): its slots go on, and it is freed. -/
theorem netBarrierComplete_frees (s : State) (id d : Nat) (n : NetBar) (hn : kget id s.nets = some n) (hd : n.due = some d) (hle : d ≤ s.now) :
    ∃ t, exec (.netBarrierComplete id) s = .next t ∧ t.nets = kdel id s.nets ∧ ∀ c g, t.group c g = (s.group c g).free (.net id) := by
  have answer : exec (.netBarrierComplete id) s = .next (n.arrived.foldl (fun s a => s.flush a.1) (s.closeNet id)) := by
    show execNetBarrierComplete id s = _
    unfold execNetBarrierComplete
    rw [hn]
    dsimp only
    rw [hd]
    dsimp only
    rw [if_neg (by omega)]
    rfl
  have flushed : MemoryOnly (s.closeNet id) (n.arrived.foldl (fun s a => s.flush a.1) (s.closeNet id)) :=
    .foldl (α := Nat × Nat × Nat) (fun u a => memoryOnly_flush u a.1) _ _
  exact ⟨_, answer, by rw [flushed.rest]; rfl, fun c g => by rw [flushed.group, group_mapFree _ rfl]⟩

end

/-- Settles O37: arrivals by the checks of their unit, releases by the groups that they let go of. -/
theorem barrierResults : Obligations.BarrierResults := by
  unfold Obligations.BarrierResults
  refine ⟨fun s g n sC ha hh he hm => ⟨fun h => ⟨bar_on_tile ha h, bar_in_group ha h, bar_at_barrier ha h hh he hm⟩, barWeave_waits ha,
    fun h => ⟨barNet_opens ha h hm, fun k r => barNet_joins ha h hm⟩, fun h => stepend_results ha h hh he⟩, barrierComplete_frees,
    netBarrierComplete_frees⟩

end Sys2Proof.Machine
end

section
/-! The walker of a gang, its watchdog, and the governor's decision (R42 to R47, R357, R361, R378, R381). -/

namespace Sys2Proof.Machine

/-! ### Several values put one after the other -/

section
variable {α β : Type} [DecidableEq α] {d : α} {key : β → Nat} {val : β → α}

theorem swf_foldl_sset (l : List β) {m : Sparse α} (hm : swf d m = true) : swf d (l.foldl (fun m x => sset d (key x) (val x) m) m) = true := by
  induction l generalizing m with
  | nil => exact hm
  | cons x r ih => exact ih (swf_sset _ _ _ _ hm)

/-- Values put at other keys leave a key alone. -/
theorem sget_foldl_sset_other {k : Nat} {l : List β} (h : ∀ x ∈ l, k ≠ key x) {m : Sparse α} (hm : swf d m = true) :
    sget d k (l.foldl (fun m x => sset d (key x) (val x) m) m) = sget d k m := by
  induction l generalizing m with
  | nil => rfl
  | cons x r ih =>
    obtain ⟨hx, hr⟩ := List.forall_mem_cons.1 h
    exact (ih hr (swf_sset _ _ _ _ hm)).trans (sget_sset_other d hx _ _ hm)

/-- Of values put at keys that differ, each is read at its own key. -/
theorem sget_foldl_sset_mem {p : β} {l : List β} (hp : p ∈ l) (inj : ∀ x ∈ l, key p = key x → p = x) {m : Sparse α} (hm : swf d m = true) :
    sget d (key p) (l.foldl (fun m x => sset d (key x) (val x) m) m) = val p := by
  induction l generalizing m with
  | nil => cases hp
  | cons x r ih =>
    obtain ⟨hx, hr⟩ := List.forall_mem_cons.1 inj
    by_cases later : p ∈ r
    · exact ih later hr (swf_sset _ _ _ _ hm)
    · obtain rfl : p = x := (List.mem_cons.1 hp).resolve_right later
      refine (sget_foldl_sset_other (fun x hxr e => later (hr x hxr e ▸ hxr)) (swf_sset _ _ _ _ hm)).trans ?_
      exact sget_sset_same d _ _ m hm

end

/-- The eight registers of a step (R44). -/
theorem sreg_walkRegs {g : Group} {l : List Nat} (hl : l.length = 8) (hg : swf (0 : W64) g.sregs = true) {k : Nat} (hk : k < 8) :
    (g.walkRegs l).sreg (48 + k) = BitVec.ofNat 64 (l.getD k 0) := by
  have placed (i : Nat) (hi : i < ((List.range 8).zip l).length) : ((List.range 8).zip l)[i] = (i, l.getD i 0) := by
    have : i < l.length := by
      rw [List.length_zip] at hi
      omega
    simp [List.getElem_zip, this]
  have place : (k, l.getD k 0) ∈ (List.range 8).zip l := placed k (by simp [hl, hk]) ▸ List.getElem_mem _
  refine sget_foldl_sset_mem (key := fun p : Nat × Nat => 48 + p.1) (val := fun p => BitVec.ofNat 64 p.2) place (fun x hx e => ?_) hg
  obtain ⟨i, hi, rfl⟩ := List.getElem_of_mem hx
  rw [placed] at e ⊢
  obtain rfl : k = i := by omega
  rfl

/-! ### The end of a gang -/

theorem relist_mem (s : State) (c : Nat) (l : List Nat) : (s.relist c l).mem = s.mem := by
  unfold State.relist
  split <;> rfl

/-- A unit all of whose groups have ended. -/
def Core.endUnit (k : Core) (uid : Nat) (u : WUnit) : Core :=
  (u.gids.foldl (fun k g => k.modGroup g (fun x => { x with ended := true })) k).modUnit uid (fun u => { u with stepDue := none })

theorem group_endUnit {k : Core} {uid g : Nat} {u : WUnit} (hg : g ∈ u.gids) (h : (kget g k.groups).isSome = true) :
    ((k.endUnit uid u).group g).ended = true := by
  show (Core.group (u.gids.foldl _ k) g).ended = true
  rw [group_foldl_modGroup (f := fun x => { x with ended := true }) (fun _ => rfl) _ (.inl h), if_pos hg]

/-- What follows the end of the groups in l: the checks of their arrivals, and their retirement. -/
def State.afterEnd (s : State) (c : Nat) : List Nat → State
  | g :: _ => (s.unitCheck c g).retireAsk c g
  | [] => s

theorem endGang_eq (s : State) (c uid : Nat) :
    s.endGang c uid = (s.modCore c (·.endUnit uid ((s.core c).unit uid))).afterEnd c ((s.core c).unit uid).gids := by
  unfold State.endGang
  dsimp only
  split
  next g r e =>
    conv_rhs => rw [e]
    rfl
  next e =>
    conv_rhs => rw [e]
    rfl

theorem retireAsk_mem (s : State) (c g : Nat) : (s.retireAsk c g).mem = s.mem := rfl
theorem retireAsk_group (s : State) (c g d x : Nat) : (s.retireAsk c g).group d x = s.group d x := rfl
theorem afterEnd_cons (s : State) (c g : Nat) (r : List Nat) : s.afterEnd c (g :: r) = (s.unitCheck c g).retireAsk c g := rfl

theorem afterEnd_keeps (s : State) (c : Nat) (l : List Nat) :
    (s.afterEnd c l).mem = s.mem ∧ ∀ g, ((s.afterEnd c l).group c g).ended = (s.group c g).ended := by
  cases l with
  | nil => exact ⟨rfl, fun _ => rfl⟩
  | cons g r =>
    have checked := waited_unitCheck s c g
    rw [afterEnd_cons, retireAsk_mem]
    exact ⟨checked.mem, fun x => by rw [retireAsk_group]; exact checked.ended c x⟩

theorem endGang_ends {s : State} {c uid : Nat} (hc : (kget c s.cores).isSome = true) :
    (s.endGang c uid).mem = s.mem ∧ ∀ g ∈ ((s.core c).unit uid).gids, (kget g (s.core c).groups).isSome = true →
      ((s.endGang c uid).group c g).ended = true := by
  rw [endGang_eq]
  obtain ⟨mem, ended⟩ := afterEnd_keeps (s.modCore c (·.endUnit uid ((s.core c).unit uid))) c ((s.core c).unit uid).gids
  refine ⟨mem, fun g hg h => (ended g).trans ?_⟩
  show (((s.modCore c _).core c).group g).ended = true
  rw [core_modCore_same s c _ hc]
  exact group_endUnit hg h

/-! ### The start of a step -/

/-- A role group at the entry that its record has for a step (R44), unless it has ended. -/
def Group.enterStep (g : Group) (l : Lpb) (t : Topb) (n pclk : Nat) : Group :=
  if g.ended then g
  else { (g.atStep (t.regs n) (BitVec.ofNat 32 (stepEntry l t g.gix)) pclk) with rlbl := BitVec.ofNat 32 (stepEntry l t g.gix) }

/-- A group g that is to stand at step n of t, where x was before. -/
def AtStep (l : Lpb) (t : Topb) (n : Nat) (x g : Group) : Prop :=
  let pc : W32 := BitVec.ofNat 32 (stepEntry l t x.gix)
  g.slot0.pc = pc ∧ g.slot0.mask = allLanes ∧ g.slot0.wait = .none ∧ g.rlbl = pc ∧ g.stepDone = false
    ∧ (swf (0 : W64) x.sregs → ∀ k, k < 8 → g.sreg (48 + k) = BitVec.ofNat 64 ((t.regs n).getD k 0))

/-- A group that has not ended enters the step, however often it is asked to. -/
theorem atStep_enterStep {l : Lpb} {t : Topb} {n pclk : Nat} {x g : Group} (he : g.ended = false) (hx : g.gix = x.gix)
    (hs : swf (0 : W64) x.sregs = true → swf (0 : W64) g.sregs = true) :
    AtStep l t n x (g.enterStep l t n pclk) ∧ (g.enterStep l t n pclk).ended = false ∧ (g.enterStep l t n pclk).gix = x.gix
      ∧ (swf (0 : W64) x.sregs = true → swf (0 : W64) (g.enterStep l t n pclk).sregs = true) := by
  unfold Group.enterStep
  rw [if_neg (by simp [he]), hx]
  refine ⟨⟨rfl, rfl, rfl, rfl, rfl, fun h k hk => sreg_walkRegs (l := t.regs n) rfl (hs h) hk⟩, he, hx, fun h => ?_⟩
  exact swf_foldl_sset (key := fun p : Nat × Nat => 48 + p.1) (val := fun p => BitVec.ofNat 64 p.2) _ (hs h)

/-- So does every group of a gang. -/
theorem foldl_enterStep {lp : Lpb} {t : Topb} {n pclk : Nat} {x : Group} (l : List Nat) {k : Core} {g : Nat}
    (hg : (kget g k.groups).isSome = true) (he : (k.group g).ended = false) (hx : (k.group g).gix = x.gix)
    (hs : swf (0 : W64) x.sregs = true → swf (0 : W64) (k.group g).sregs = true) (hl : g ∈ l ∨ AtStep lp t n x (k.group g)) :
    AtStep lp t n x ((l.foldl (fun k g => k.modGroup g (·.enterStep lp t n pclk)) k).group g) := by
  induction l generalizing k with
  | nil => exact hl.resolve_left List.not_mem_nil
  | cons y r ih =>
    have here := (groups_modGroup_isSome k y g (·.enterStep lp t n pclk)).trans hg
    by_cases h : g = y
    · subst h
      obtain ⟨a, e, i, w⟩ := atStep_enterStep (l := lp) (t := t) (n := n) (pclk := pclk) he hx hs
      rw [← group_modGroup_self (f := (·.enterStep lp t n pclk)) (.inl hg)] at a e i w
      exact ih here e i w (.inr a)
    · have same := group_modGroup_other k (·.enterStep lp t n pclk) h
      rw [List.mem_cons, or_iff_right h] at hl
      rw [← same] at he hx hs hl
      exact ih here he hx hs hl

/-- A core whose gang u, unit uid, enters step n. -/
def Core.enterStep (k : Core) (uid : Nat) (u : WUnit) (l : Lpb) (t : Topb) (n pclk : Nat) : Core :=
  (u.gids.foldl (fun c g => c.modGroup g (·.enterStep l t n pclk)) k).modUnit uid
    (fun u => { u with stepN := n, idx := t.idx n, stepClk := 0, stepping := true, stepDue := none })

theorem beginStep_core {s : State} {c uid n : Nat} {t : Topb} (hc : (kget c s.cores).isSome = true) :
    (s.beginStep c uid n t).mem = s.mem ∧ (s.beginStep c uid n t).core c
      = (s.core c).enterStep uid ((s.core c).unit uid) (s.lpbOf ((s.core c).unit uid).launch) t n (s.core c).pclk := by
  rw [← core_modCore_same s c (·.enterStep uid ((s.core c).unit uid) (s.lpbOf ((s.core c).unit uid).launch) t n (s.core c).pclk) hc]
  unfold State.beginStep
  dsimp only
  split
  · split <;> exact ⟨rfl, rfl⟩
  · exact ⟨rfl, rfl⟩

/-! ### A gang that is stopped for its save -/

theorem group_stopUnit {k : Core} {uid g : Nat} (hg : g ∈ (k.unit uid).gids) (h : (kget g k.groups).isSome = true) :
    ((k.stopUnit uid).group g).halt = if (k.group g).halt = .none then .saving else (k.group g).halt := by
  have twice (x : Group) : (fun x : Group => if x.halt == .none then { x with halt := .saving } else x)
      ((fun x : Group => if x.halt == .none then { x with halt := .saving } else x) x)
      = (fun x : Group => if x.halt == .none then { x with halt := .saving } else x) x := by
    by_cases hx : (x.halt == .none) = true <;> simp [hx]
  unfold Core.stopUnit
  rw [group_foldl_modGroup twice _ (.inl h), if_pos hg]
  by_cases hx : (k.group g).halt = .none <;> simp [hx]

/-! ### The walker -/

section
variable {s : State} {core uid d : Nat} {u : WUnit} {tb : Topb}

/-- What the walker does for a unit whose step is due. -/
theorem exec_walkerStepStart (hf : (s.core core).units.find? (fun p => p.2.atBoundary (s.core core).clk) = some (uid, u))
    (hd : u.stepDue = some d) (hle : d ≤ (s.core core).clk) (hg : u.govHold = false) (ht : s.topbOf u.launch = some tb) :
    exec (.walkerStepStart core) s = if tb.steps ≤ u.nextStep then .next (s.endGang core uid)
      else if u.preempt then (if (s.core core).flying u then .next s else .next (s.modCore core (fun c => c.stopUnit uid)))
      else .next ((s.beginStep core uid u.nextStep tb).relist core u.gids) := by
  show execWalkerStepStart core s = _
  unfold execWalkerStepStart
  dsimp only
  rw [hf]
  dsimp only
  rw [hd, ht, hg, Bool.and_false]
  dsimp only
  rw [if_neg Bool.false_ne_true, if_neg (by simpa using hle)]

theorem walker_begins (hc : (kget core s.cores).isSome = true) (hu : kget uid (s.core core).units = some u)
    {n : Nat} : let t := (s.beginStep core uid n tb).relist core u.gids
    t.mem = s.mem
      ∧ (let v := (t.core core).unit uid; v.stepN = n ∧ v.idx = tb.idx n ∧ v.stepClk = 0 ∧ v.stepping = true ∧ v.stepDue = none)
      ∧ ∀ g ∈ u.gids, (kget g (s.core core).groups).isSome = true → (s.group core g).ended = false →
          AtStep (s.lpbOf u.launch) tb n (s.group core g) (t.group core g) := by
  intro t
  have unit : (s.core core).unit uid = u := by unfold Core.unit; rw [hu]; rfl
  obtain ⟨mem, begun⟩ := beginStep_core (uid := uid) (n := n) (t := tb) hc
  rw [unit] at begun
  have place : t.core core = (s.core core).enterStep uid u (s.lpbOf u.launch) tb n (s.core core).pclk := by
    rw [← begun]
    unfold State.core
    rw [relist_cores]
  unfold Core.enterStep at place
  refine ⟨(relist_mem ..).trans mem, ?_, fun g hg h he => ?_⟩
  · dsimp only
    rw [place, unit_modUnit_same _ _ _ (by rw [units_foldl_modGroup, hu]; rfl)]
    exact ⟨rfl, rfl, rfl, rfl, rfl⟩
  · show AtStep _ _ _ _ ((t.core core).group g)
    rw [place]
    exact foldl_enterStep (x := s.group core g) u.gids (k := s.core core) h he rfl id (.inl hg)

end

/-! ### The watchdog -/

/-- The state with stream 0 of group g of a core as the issuing one. -/
def State.standAt (s : State) (core g : Nat) : State := { s with cur := { Cur.none with core := core, gid := g } }

/-- An escalation on a tile (R378): the group is stopped, the gang is frozen, and the host is told. -/
theorem escalate_tile {o : State} (hl : o.live = true) (hs : o.onShader = false) (i : TrapInfo) :
    (o.escalate i).mem = o.mem ∧ ((o.escalate i).group o.cur.core o.cur.gid).halt = .stopped
      ∧ ((o.escalate i).core o.cur.core).inflight = [] ∧ ((o.escalate i).core o.cur.core).frozen = some 255
      ∧ (o.escalate i).msix = o.msix ++ [0] ∧ ∃ e, (o.escalate i).svcHeld = o.svcHeld ++ [e] ∧ e.kind = 2 ∧ e.cause = i.cause := by
  generalize hm : o.modG (fun g => { g with halt := .stopped }) = m
  have stops : m.curGrp.halt = .stopped := by rw [← hm, curGrp_modG _ _ hl]
  have live : m.live = true := hm ▸ live_modG o _ hl
  have cur : m.cur = o.cur := by rw [← hm]; rfl
  have frozen : (m.modC (fun c => c.freezeAll 255)).core o.cur.core = m.curCore.freezeAll 255 := by
    rw [← cur]
    exact curCore_modC m _ (live_parts live).1
  have eq : o.escalate i = ((m.modC (fun c => c.freezeAll 255)).raiseMsix 0).service
      ((m.modC (fun c => c.freezeAll 255)).streamEntry 2 i.cause i.d0 0 0) := by
    unfold State.escalate
    dsimp only
    rw [hm, if_neg (by
      unfold State.onShader at hs ⊢
      rw [cur, hs]
      exact Bool.false_ne_true)]
  rw [eq]
  refine ⟨by rw [← hm]; rfl, ?_, ?_, ?_, by rw [← hm]; rfl, _, by rw [← hm]; rfl, rfl, rfl⟩
  · show (((m.modC _).core o.cur.core).group o.cur.gid).halt = _
    rw [frozen, ← cur]
    exact stops
  · show ((m.modC _).core o.cur.core).inflight = _
    rw [frozen]
    rfl
  · show ((m.modC _).core o.cur.core).frozen = _
    rw [frozen]
    rfl

theorem watchdog_stops (s : State) (core uid g : Nat) (u : WUnit) (r : List Nat) (hs : isShader core = false) (hc : (kget core s.cores).isSome)
    (hf : (s.core core).units.find? (fun p => p.2.gang && p.2.stepping && 2 ^ 20 ≤ p.2.stepClk) = some (uid, u)) (hg : u.gids = g :: r)
    (hk : (kget g (s.core core).groups).isSome) (hr : ((s.topbOf u.launch).map Topb.restart).getD false = false)
    (hh : ∀ x ∈ u.gids, (s.group core x).halt ≠ .stopped) :
    ∃ t, exec (.stepWatchdog core) s = .next t ∧ t.mem = s.mem
      ∧ (t.group core g).halt = .stopped ∧ (t.core core).inflight = [] ∧ (t.core core).frozen = some 255 ∧ t.msix = s.msix ++ [0]
      ∧ ∃ e, t.svcHeld = s.svcHeld ++ [e] ∧ e.kind = 2 ∧ e.cause = 0x0E := by
  refine ⟨(s.standAt core g).escalate (trapOf 0x0E 0 0 u.stepN 0 0), ?_, escalate_tile (o := s.standAt core g) ?_ hs _⟩
  · have none : (u.gids.any fun x => ((s.core core).group x).halt == .stopped) = false :=
      List.any_eq_false.2 fun x hx h => hh x hx (eq_of_beq h)
    show execStepWatchdog core s = _
    unfold execStepWatchdog
    dsimp only
    rw [hf]
    dsimp only
    rw [hr, none, hg]
    rfl
  · show ((kget core s.cores).isSome && (kget g (s.core core).groups).isSome && decide (0 < 2)) = true
    rw [hc, hk]
    rfl

/-! ### The governor -/

/-- A unit that the governor of launch k holds goes on with step n. -/
def WUnit.released (u : WUnit) (k n clk : Nat) : WUnit :=
  if u.launch == k && u.govHold then { u with govHold := false, stepN := n - 1, stepDue := some clk } else u

/-- A core whose units the governor of launch k lets go on. -/
def Core.letGo (c : Core) (k n : Nat) : Core := { c with units := c.units.map (fun q => (q.1, q.2.released k n c.clk)) }

theorem unit_letGo {c : Core} {uid : Nat} (h : (kget uid c.units).isSome = true) (k n : Nat) :
    (c.letGo k n).unit uid = (c.unit uid).released k n c.clk := by
  obtain ⟨v, hv⟩ := Option.isSome_iff_exists.1 h
  show (kget uid (c.units.map (fun q => (q.1, WUnit.released q.2 k n c.clk)))).getD _ = WUnit.released ((kget uid c.units).getD _) k n c.clk
  rw [kget_map (fun q => WUnit.released q k n c.clk), hv]
  rfl

/-- Every unit that the governor of launch k holds goes on with step n, and g is what the governor keeps. -/
def State.govern (s : State) (k n : Nat) (g : Gov) : State :=
  let sv (v : Saved) : Saved := { v with units := v.units.map (·.released k n 0) }
  { s with govs := kset k g s.govs,
           cores := s.cores.map (fun p => (p.1, p.2.letGo k n)),
           launches := s.launches.map (fun p => (p.1, { p.2 with saved := p.2.saved.map sv })),
           pending := s.pending.map (fun p => { p with saved := p.saved.map sv }) }

theorem unit_govern {s : State} {c uid : Nat} (h : (kget uid (s.core c).units).isSome = true) (k n : Nat) (g : Gov) :
    ((s.govern k n g).core c).unit uid = ((s.core c).unit uid).released k n (s.core c).clk := by
  have core : (s.govern k n g).core c = (s.core c).letGo k n := by
    show (kget c (s.cores.map (fun p => (p.1, Core.letGo p.2 k n)))).getD (Core.start 0) = ((kget c s.cores).getD (Core.start 0)).letGo k n
    rw [kget_map (fun p => Core.letGo p k n)]
    cases kget c s.cores <;> rfl
  rw [core]
  exact unit_letGo h k n

theorem governor_releases (s : State) (k d : Nat) (g : Gov) (tb : Topb) (hk : kget k s.govs = some g) (ht : s.topbOf k = some tb)
    (hd : g.due = some d) (hle : d ≤ s.now) :
    ∃ t, exec (.governorDecision k) s = .next t ∧ t.mem = s.mem ∧ kget k t.govs = some (g.decide tb).1
      ∧ ∀ c uid, (kget uid (s.core c).units).isSome → let u := (s.core c).unit uid
          (t.core c).unit uid = if u.launch = k ∧ u.govHold = true
            then { u with govHold := false, stepN := (g.decide tb).2 - 1, stepDue := some (s.core c).clk } else u := by
  refine ⟨s.govern k (g.decide tb).2 (g.decide tb).1, ?_, rfl, kget_kset_same .., fun c uid h => ?_⟩
  · show execGovernorDecision k s = _
    unfold execGovernorDecision
    rw [hk, ht]
    dsimp only
    rw [hd]
    dsimp only
    rw [if_neg (by omega)]
    rfl
  · dsimp only
    rw [unit_govern h]
    unfold WUnit.released
    simp only [Bool.and_eq_true, beq_iff_eq]

/-- Settles O50: by the walker's three cases, the watchdog and the governor's decision. -/
theorem walkerResults : Obligations.WalkerResults := by
  unfold Obligations.WalkerResults
  refine ⟨fun s core uid u d tb hc hf hu hd hle hg ht => ?walker, watchdog_stops, governor_releases⟩
  case walker =>
    have step := exec_walkerStepStart hf hd hle hg ht
    have unit : (s.core core).unit uid = u := by unfold Core.unit; rw [hu]; rfl
    refine ⟨fun hn => ?_, fun hn hp => ?_, fun hn hp hy => ?_⟩
    · have ends := endGang_ends (uid := uid) hc
      rw [unit] at ends
      exact ⟨_, step.trans (if_pos hn), ends⟩
    · exact ⟨_, step.trans ((if_neg (by omega)).trans (if_neg (by simp [hp]))), walker_begins hc hu⟩
    · refine ⟨_, step.trans ((if_neg (by omega)).trans ((if_pos hp).trans (if_neg (by simp [hy])))), rfl, fun g hm h => ?_⟩
      show ((State.core _ core).group g).halt = _
      rw [core_modCore_same s core _ hc]
      exact group_stopUnit (unit ▸ hm) h

end Sys2Proof.Machine
end

section
/-! The weave barrier, its transfers and the step counter (R49, R51, R342, R343, R354). -/

namespace Sys2Proof.Machine

/-! ### The release of the barrier -/

theorem le_foldl_max {α : Type} (f : α → Nat) (l : List α) (a : Nat) :
    a ≤ l.foldl (fun a p => max a (f p)) a ∧ ∀ p ∈ l, f p ≤ l.foldl (fun a p => max a (f p)) a := by
  induction l generalizing a with
  | nil => exact ⟨le_refl a, fun p hp => absurd hp List.not_mem_nil⟩
  | cons x r ih =>
    obtain ⟨start, rest⟩ := ih (max a (f x))
    exact ⟨(le_max_left _ _).trans start, List.forall_mem_cons.2 ⟨(le_max_right _ _).trans start, rest⟩⟩

/-- The rows of the tiles' transfer tables for the step of weave w. -/
def State.tstRows (s : State) (w : Weave) : List (Nat × Nat × Nat × Nat) := w.tiles.map (fun c => (c, tstRow (s.core c).gangOf w.step))
/-- Weave w as its communication phase begins. -/
def State.phaseOf (s : State) (w : Weave) : Weave :=
  { w with comm := some (s.weaveClk w), len := (s.tstRows w).foldl (fun a p => max a p.2.2.2) 0, flying := [],
           toStart := (s.tstRows w).flatMap (fun p => (List.range p.2.2.1).map (fun i =>
             (((s.core p.1).gangOf.tst.entries.getD (p.2.1 + i) (tstEntry [] 0)).at_, p.1, p.2.1 + i))) }

theorem exec_weaveBarrierRelease {s : State} {k : Nat} {w : Weave} (hk : kget k s.weaves = some w) (hr : s.weaveReady w = true) :
    exec (.weaveBarrierRelease k) s = .next (({ s with weaves := kset k (s.phaseOf w) s.weaves } : State).sched
      (((s.phaseOf w).toStart.filter (fun x => x.1 == 0)).map (fun x => .tstTransferStart k x.2.1 x.2.2) ++ [.stepCounterAdvance k])) := by
  show execWeaveBarrierRelease k s = _
  unfold execWeaveBarrierRelease
  rw [hk]
  dsimp only
  rw [hr]
  exact if_neg Bool.false_ne_true

theorem weave_released (s : State) (k : Nat) (w : Weave) (hk : kget k s.weaves = some w) (hr : s.weaveReady w = true) :
    ∃ t w', exec (.weaveBarrierRelease k) s = .next t ∧ t.mem = s.mem ∧ t.cores = s.cores
      ∧ kget k t.weaves = some w' ∧ w'.comm = some (s.weaveClk w) ∧ w'.flying = [] ∧ w'.step = w.step
      ∧ ∀ c ∈ w.tiles, let r := tstRow (s.core c).gangOf w.step
          r.2.2 ≤ w'.len ∧ ∀ i, i < r.2.1 → (((s.core c).gangOf.tst.entries.getD (r.1 + i) (tstEntry [] 0)).at_, c, r.1 + i) ∈ w'.toStart := by
  refine ⟨_, s.phaseOf w, exec_weaveBarrierRelease hk hr, rfl, rfl, kget_kset_same .., rfl, rfl, rfl, fun c hc => ?_⟩
  have row : (c, tstRow (s.core c).gangOf w.step) ∈ s.tstRows w := List.mem_map_of_mem hc
  exact ⟨(le_foldl_max (fun p : Nat × Nat × Nat × Nat => p.2.2.2) _ 0).2 _ row,
    fun i hi => List.mem_flatMap.2 ⟨_, row, List.mem_map_of_mem (List.mem_range.2 hi)⟩⟩

/-! ### A transfer -/

/-- Changes of cores, one after the other, change nothing else. -/
theorem foldl_modCore_keeps (f : Nat → Core → Core) (l : List Nat) (s : State) :
    l.foldl (fun s d => s.modCore d (f d)) s = { s with cores := (l.foldl (fun s d => s.modCore d (f d)) s).cores } := by
  induction l generalizing s with
  | nil => rfl
  | cons x r ih => rw [List.foldl_cons, ih]; rfl

/-- Weave w as the transfer of entry n of a tile starts, with id i and the timing (clks, wall). -/
def State.tstFly (s : State) (w : Weave) (core n clks wall : Nat) : Weave :=
  let e := (s.core core).gangOf.tst.entries.getD n (tstEntry [] 0)
  { w with toStart := w.toStart.filter (fun q => !(q.2.1 == core && q.2.2 == n)),
           flying := w.flying ++ [{ id := s.fresh, core := core, entry := e, dests := w.dests e, clks := clks, wall := wall, land := none,
                                    data := ((s.core core).tstRead e).1 }] }

/-- A transfer that starts: beside its weave, the cores alone may change, by what it reserves. -/
theorem exec_tstTransferStart {s : State} {k core n t0 : Nat} {w : Weave} {p : Nat × Nat × Nat} (hk : kget k s.weaves = some w)
    (hc : w.comm = some t0) (hp : w.toStart.find? (fun p => p.2.1 == core && p.2.2 == n) = some p) (hle : t0 + p.1 ≤ s.weaveClk w) :
    ∃ cs clks wall, exec (.tstTransferStart k core n) s
      = .next { s with cores := cs, fresh := s.fresh + 1, free := s.free + 1, weaves := kset k (s.tstFly w core n clks wall) s.weaves } := by
  have step : exec (.tstTransferStart k core n) s = execTstTransferStart k core n s := rfl
  unfold execTstTransferStart at step
  rw [hk] at step
  dsimp only at step
  rw [hc, hp] at step
  dsimp only at step
  rw [if_neg (by omega), ← hc, foldl_modCore_keeps] at step
  exact ⟨_, _, _, step⟩

theorem transfer_started (s : State) (k : Nat) (w : Weave) (hk : kget k s.weaves = some w) (core entry t0 : Nat) (p : Nat × Nat × Nat)
    (hc : w.comm = some t0) (hp : w.toStart.find? (fun p => p.2.1 == core && p.2.2 == entry) = some p) (hle : t0 + p.1 ≤ s.weaveClk w) :
    let e := (s.core core).gangOf.tst.entries.getD entry (tstEntry [] 0)
    ∃ t w' x, exec (.tstTransferStart k core entry) s = .next t ∧ t.mem = s.mem ∧ kget k t.weaves = some w'
      ∧ w'.flying = w.flying ++ [x] ∧ x.entry = e ∧ x.dests = w.dests e ∧ x.land = none ∧ x.data.length = e.bytes
      ∧ w'.toStart = w.toStart.filter (fun q => !(q.2.1 == core && q.2.2 == entry)) := by
  obtain ⟨_, _, _, step⟩ := exec_tstTransferStart hk hc hp hle
  exact ⟨_, s.tstFly w core entry _ _, _, step, rfl, kget_kset_same .., rfl, rfl, rfl, rfl, (List.length_map ..).trans List.length_range, rfl⟩

/-! ### Its landing -/

theorem bufPut_buf (c : Core) (b n : Nat) (v : Byte) : (c.bufPut b n v).buf = sset 0 (bufKey b n) v c.buf := by
  have woken : (c.wakeScratch (bufBase b + n / 65536)).buf = c.buf := by
    unfold Core.wakeScratch
    split <;> rfl
  show sset 0 (bufKey b n) v (c.wakeScratch (bufBase b + n / 65536)).buf = _
  rw [woken]

theorem bufKey_inj {b m n : Nat} (h : bufKey b m = bufKey b n) : m = n := by
  unfold bufKey at h
  omega

theorem swf_bufPut {c : Core} (b n : Nat) (v : Byte) (h : swf (0 : Byte) c.buf = true) : swf (0 : Byte) (c.bufPut b n v).buf = true := by
  rw [bufPut_buf]
  exact swf_sset _ _ _ _ h

theorem swf_bufWrite {c : Core} (b n : Nat) (l : List Byte) (h : swf (0 : Byte) c.buf = true) : swf (0 : Byte) (c.bufWrite b n l).buf = true := by
  induction l generalizing c n with
  | nil => exact h
  | cons v r ih => exact ih _ (swf_bufPut b n v h)

theorem bufByte_bufWrite_below {c : Core} {b m n : Nat} (l : List Byte) (h : swf (0 : Byte) c.buf = true) (hm : m < n) :
    (c.bufWrite b n l).bufByte b m = c.bufByte b m := by
  induction l generalizing c n with
  | nil => rfl
  | cons v r ih =>
    refine (ih (swf_bufPut b n v h) (by omega)).trans ?_
    unfold Core.bufByte
    rw [bufPut_buf]
    exact sget_sset_other 0 (fun e => by have := bufKey_inj e; omega) _ _ h

/-- Bytes written to a buffer are read there. -/
theorem bufByte_bufWrite {c : Core} (b n : Nat) {l : List Byte} (h : swf (0 : Byte) c.buf = true) {i : Nat} (hi : i < l.length) :
    (c.bufWrite b n l).bufByte b (n + i) = l.getD i 0 := by
  induction l generalizing c n i with
  | nil => cases hi
  | cons v r ih =>
    cases i with
    | zero =>
      refine (bufByte_bufWrite_below (c := c.bufPut b n v) r (swf_bufPut b n v h) (Nat.lt_succ_self n)).trans ?_
      unfold Core.bufByte
      rw [bufPut_buf]
      exact sget_sset_same 0 _ _ _ h
    | succ j =>
      have := ih (c := c.bufPut b n v) (n + 1) (swf_bufPut b n v h) (Nat.lt_of_succ_lt_succ hi)
      rwa [Nat.add_right_comm] at this

/-- What a change leaves at a core, whenever it is made there, it leaves at every core of a list, as long as it keeps what it needs. -/
theorem core_foldl_modCore {f : Core → Core} {Q P : Core → Prop} (hf : ∀ k, Q k → Q (f k) ∧ P (f k)) (l : List Nat) {s : State} {d : Nat}
    (hd : (kget d s.cores).isSome = true) (hq : Q (s.core d)) (hl : d ∈ l ∨ P (s.core d)) :
    P ((l.foldl (fun s d => s.modCore d f) s).core d) := by
  induction l generalizing s with
  | nil => exact hl.resolve_left List.not_mem_nil
  | cons x r ih =>
    have here := (cores_modCore_isSome s x d f).trans hd
    by_cases h : d = x
    · subst h
      have same := core_modCore_same s d f hd
      obtain ⟨q, p⟩ := hf _ hq
      exact ih here (by rw [same]; exact q) (.inr (by rw [same]; exact p))
    · have other := core_modCore_other s f h
      rw [List.mem_cons, or_iff_right h] at hl
      exact ih here (by rw [other]; exact hq) (by rw [other]; exact hl)

section
variable {s : State} {k id : Nat} {w : Weave} {x : Transfer}

theorem transfer_ends_clks (hk : kget k s.weaves = some w) (hx : w.flying.find? (fun t => t.id == id) = some x) (hl : x.land = none)
    (hc : x.clks ≤ s.weaveClk w) : ∃ t w', exec (.tstTransferLand k id) s = .next t ∧ t.mem = s.mem ∧ t.cores = s.cores
      ∧ kget k t.weaves = some w' ∧ ∀ y ∈ w'.flying, y.id = id → y.land = some (s.now + x.wall) := by
  have step : exec (.tstTransferLand k id) s = .next { s with weaves := kset k { w with
      flying := w.flying.map (fun y => if y.id == id then { x with land := some (s.now + x.wall) } else y) } s.weaves } := by
    show execTstTransferLand k id s = _
    unfold execTstTransferLand
    rw [hk]
    dsimp only
    rw [hx]
    dsimp only
    rw [hl]
    exact if_neg (by omega)
  refine ⟨_, _, step, rfl, rfl, kget_kset_same .., fun y hy hid => ?_⟩
  obtain ⟨z, -, rfl⟩ := List.mem_map.1 hy
  by_cases hz : (z.id == id) = true
  · rw [if_pos hz]
  · rw [if_neg hz] at hid
    exact absurd (beq_iff_eq.2 hid) hz

theorem transfer_landed (hk : kget k s.weaves = some w) (hx : w.flying.find? (fun t => t.id == id) = some x) (n : Nat)
    (hl : x.land = some n) (hn : n ≤ s.now) (ha : ∀ d ∈ x.dests, ((s.core d).wakeFor (spanBanks 2 x.entry.dst x.entry.bytes)).2 = 0) :
    ∃ t w', exec (.tstTransferLand k id) s = .next t ∧ t.mem = s.mem ∧ kget k t.weaves = some w'
      ∧ w'.flying = w.flying.filter (fun y => y.id != id) ∧ w'.lastLand = s.now
      ∧ ∀ d ∈ x.dests, (kget d s.cores).isSome → swf (0 : Byte) (s.core d).buf →
          ∀ i, i < x.data.length → (t.core d).bufByte 2 (x.entry.dst + i) = x.data.getD i 0 := by
  generalize hp : x.dests.foldl (fun s d => s.modCore d (fun k => (k.bufWrite 2 x.entry.dst x.data).release id)) s = p
  have keeps : p = { s with cores := p.cores } := hp ▸ foldl_modCore_keeps (fun _ k => (k.bufWrite 2 x.entry.dst x.data).release id) _ s
  have step : exec (.tstTransferLand k id) s = .next { p.modCore x.core (fun k => k.release id) with
      weaves := kset k { w with flying := w.flying.filter (fun y => y.id != id), lastLand := p.now } p.weaves } := by
    have awake : (x.dests.filter fun d => ((s.core d).wakeFor (spanBanks 2 x.entry.dst x.entry.bytes)).2 != 0) = [] :=
      List.filter_eq_nil_iff.2 fun d hd => by simp [ha d hd]
    show execTstTransferLand k id s = _
    unfold execTstTransferLand
    rw [hk]
    dsimp only
    rw [hx]
    dsimp only
    rw [hl]
    dsimp only
    rw [if_neg (by omega), awake, if_neg (by simp), hp]
    rfl
  refine ⟨_, _, step, by rw [keeps]; rfl, kget_kset_same .., rfl, by rw [keeps], fun d hd hc hb i hi => ?_⟩
  have lands : (p.core d).bufByte 2 (x.entry.dst + i) = x.data.getD i 0 := by
    rw [← hp]
    exact core_foldl_modCore (f := fun k => (k.bufWrite 2 x.entry.dst x.data).release id) (Q := fun k => swf (0 : Byte) k.buf = true) (P := fun k => k.bufByte 2 (x.entry.dst + i) = x.data.getD i 0)
      (fun k hk => ⟨swf_bufWrite 2 _ _ hk, bufByte_bufWrite 2 _ hk hi⟩) _ hc hb (.inl hd)
  show ((p.modCore x.core _).core d).bufByte 2 _ = _
  rcases core_modCore_or p x.core d (fun k => k.release id) with ⟨_, h⟩ | h <;> rw [h]
  · exact lands
  · exact lands

end

/-! ### The end of the phase -/

/-- Memory and weaves are as they were, and so is every group's mark of its arrival at a weave barrier. -/
structure WeavesKept (s t : State) : Prop where
  mem : t.mem = s.mem
  weaves : t.weaves = s.weaves
  arr : ∀ c g, (t.group c g).weaveArr = (s.group c g).weaveArr

namespace WeavesKept

theorem refl (s : State) : WeavesKept s s := ⟨rfl, rfl, fun _ _ => rfl⟩
theorem trans {s t u : State} (a : WeavesKept s t) (b : WeavesKept t u) : WeavesKept s u :=
  ⟨b.mem.trans a.mem, b.weaves.trans a.weaves, fun c g => (b.arr c g).trans (a.arr c g)⟩

theorem foldl {α : Type} {f : State → α → State} (hf : ∀ s x, WeavesKept s (f s x)) (l : List α) (s : State) : WeavesKept s (l.foldl f s) := by
  induction l generalizing s with
  | nil => exact refl s
  | cons x r ih => exact (hf s x).trans (ih _)

theorem of_cores {s t : State} (hm : t.mem = s.mem) (hw : t.weaves = s.weaves) (hc : t.cores = s.cores) : WeavesKept s t :=
  ⟨hm, hw, fun c g => by unfold State.group State.core; rw [hc]⟩

theorem modCore (s : State) (c : Nat) (f : Core → Core) (hf : ∀ k g, ((f k).group g).weaveArr = (k.group g).weaveArr) :
    WeavesKept s (s.modCore c f) := by
  refine ⟨rfl, rfl, fun d g => ?_⟩
  show (((s.modCore c f).core d).group g).weaveArr = ((s.core d).group g).weaveArr
  rcases core_modCore_or s c d f with ⟨_, h⟩ | h <;> rw [h]
  exact hf _ _

end WeavesKept

theorem weaveArr_modGroup (k : Core) (g d : Nat) {f : Group → Group} (hf : ∀ x, (f x).weaveArr = x.weaveArr) :
    ((k.modGroup g f).group d).weaveArr = (k.group d).weaveArr := by
  rcases group_modGroup_or k g d f with ⟨_, h⟩ | h <;> rw [h]
  exact hf _

theorem weaveArr_stopUnit (k : Core) (uid d : Nat) : ((k.stopUnit uid).group d).weaveArr = (k.group d).weaveArr := by
  unfold Core.stopUnit
  generalize (k.unit uid).gids = l
  induction l generalizing k with
  | nil => rfl
  | cons g r ih => exact (ih _).trans (weaveArr_modGroup k g d fun x => by split <;> rfl)

theorem weavesKept_modAny (s : State) (c g : Nat) (f : Group → Group) (hf : ∀ x, (f x).weaveArr = x.weaveArr) : WeavesKept s (s.modAny c g f) := by
  unfold State.modAny
  split
  · exact .modCore s c _ fun k d => weaveArr_modGroup k g d hf
  · exact .of_cores rfl rfl rfl

theorem weavesKept_ctrDown (s : State) (c g n : Nat) : WeavesKept s (s.ctrDown c g n) :=
  weavesKept_modAny s c g (·.modCtr n (· - 1)) fun _ => rfl

theorem groups_release (l : List Cmd) (k : Core) : (l.foldl (fun k q => k.release q.id) k).groups = k.groups := by
  induction l generalizing k with
  | nil => rfl
  | cons q r ih => exact (ih _).trans rfl

theorem weavesKept_discardRecomp (s : State) (c uid : Nat) : WeavesKept s (s.discardRecomp c uid) := by
  refine WeavesKept.trans (.modCore s c _ fun k g => ?_) (.foldl (fun t (q : Cmd) => weavesKept_ctrDown t c q.gid 2) _ _)
  unfold Core.group
  rw [groups_release]

theorem weavesKept_stopFor (s : State) (c uid : Nat) : WeavesKept s (s.stopFor c uid) := by
  unfold State.stopFor
  dsimp only
  split
  · exact .refl s
  split
  · exact .modCore s c _ fun k g => weaveArr_stopUnit k uid g
  split
  · exact (weavesKept_discardRecomp s c uid).trans (.modCore _ c _ fun k g => weaveArr_stopUnit k uid g)
  · exact .refl s

theorem weavesKept_askReduced (s : State) (q : Nat) : WeavesKept s (s.askReduced q) := by
  unfold State.askReduced
  repeat' split
  all_goals exact .of_cores rfl rfl rfl

theorem weavesKept_relist (s : State) (c : Nat) (l : List Nat) : WeavesKept s (s.relist c l) := by
  unfold State.relist
  split
  · exact .refl s
  · exact .of_cores rfl rfl rfl

/-- A group that leaves the weave barrier. -/
def Group.passWeave (g : Group) : Group := { (g.free .weave) with weaveArr := false }
/-- A core whose gang leaves it. -/
def Core.passWeave (k : Core) : Core := k.gangOf.gids.foldl (fun k g => k.modGroup g (·.passWeave)) k

theorem gangOf_passWeave (k : Core) : k.passWeave.gangOf = k.gangOf := by
  unfold Core.passWeave Core.gangOf
  rw [units_foldl_modGroup]

theorem weaveArr_passWeave {k : Core} {g : Nat} (h : g ∈ k.gangOf.gids) : (k.passWeave.group g).weaveArr = false := by
  have twice (x : Group) : x.passWeave.passWeave = x.passWeave :=
    congrArg (fun y : Group => { y with weaveArr := false }) (free_free x .weave)
  have start : Group.start.passWeave = Group.start := congrArg (fun y : Group => { y with weaveArr := false }) (free_start .weave)
  unfold Core.passWeave
  rw [group_foldl_modGroup twice _ (.inr start), if_pos h]
  rfl

/-- What the end of a phase does beside the groups: margins are given back, gangs that are to be pre-empted stop, and the freed groups try
to issue. -/
def State.afterPhase (s : State) (w : Weave) : State :=
  let s := (w.tiles.map quadKey).eraseDups.foldl State.askReduced s
  let s := w.tiles.foldl (fun s c => (s.core c).units.foldl (fun s p => if p.2.preempt then s.stopFor c p.1 else s) s) s
  w.tiles.foldl (fun s c => s.relist c (s.core c).gangOf.gids) s

theorem weavesKept_afterPhase (s : State) (w : Weave) : WeavesKept s (s.afterPhase w) := by
  refine ((WeavesKept.foldl weavesKept_askReduced _ s).trans (.foldl (fun t c => ?_) _ _)).trans
    (.foldl (fun t c => weavesKept_relist t c _) _ _)
  refine .foldl (fun t (p : Nat × WUnit) => ?_) _ t
  split
  · exact weavesKept_stopFor t c p.1
  · exact .refl t

/-- Weave w in its next step. -/
def Weave.advance (w : Weave) : Weave := { w with step := (w.step + 1) % 2 ^ 32, comm := none, arrived := [] }
/-- The groups of the tiles l leave the weave barrier. -/
def State.passWeave (s : State) (l : List Nat) : State := l.foldl (fun s c => s.modCore c (·.passWeave)) s

theorem exec_stepCounterAdvance {s : State} {k : Nat} {w : Weave} (hk : kget k s.weaves = some w) (ho : s.commOver w = true) :
    exec (.stepCounterAdvance k) s
      = .next ((({ s with weaves := kset k w.advance s.weaves } : State).passWeave w.tiles).afterPhase w) := by
  show execStepCounterAdvance k s = _
  unfold execStepCounterAdvance
  rw [hk]
  dsimp only
  rw [ho]
  exact if_neg Bool.false_ne_true

/-- A core with a gang is there. -/
theorem isSome_of_gang {s : State} {c g : Nat} (h : g ∈ (s.core c).gangOf.gids) : (kget c s.cores).isSome = true := by
  cases e : kget c s.cores with
  | some v => rfl
  | none =>
    unfold State.core at h
    rw [e] at h
    cases h

theorem step_advanced (s : State) (k : Nat) (w : Weave) (hk : kget k s.weaves = some w) (ho : s.commOver w = true) :
    ∃ t w', exec (.stepCounterAdvance k) s = .next t ∧ t.mem = s.mem ∧ kget k t.weaves = some w'
      ∧ w' = { w with step := (w.step + 1) % 2 ^ 32, comm := none, arrived := [] }
      ∧ ∀ c ∈ w.tiles, ∀ g ∈ (s.core c).gangOf.gids, (t.group c g).weaveArr = false := by
  generalize ha : ({ s with weaves := kset k w.advance s.weaves } : State) = a
  have keeps : a.passWeave w.tiles = { a with cores := (a.passWeave w.tiles).cores } := foldl_modCore_keeps (fun _ => Core.passWeave) _ a
  have kept := weavesKept_afterPhase (a.passWeave w.tiles) w
  refine ⟨_, w.advance, exec_stepCounterAdvance hk ho, ?_, ?_, rfl, fun c hc g hg => ?_⟩
  · rw [ha, kept.mem, keeps, ← ha]
  · rw [ha, kept.weaves, keeps, ← ha]
    exact kget_kset_same ..
  · have here : (kget c a.cores).isSome = true := ha ▸ isSome_of_gang hg
    have gang : (a.core c).gangOf = (s.core c).gangOf := by rw [← ha]; rfl
    rw [ha, kept.arr]
    exact core_foldl_modCore (f := Core.passWeave) (Q := fun k => k.gangOf = (s.core c).gangOf) (P := fun k => (k.group g).weaveArr = false)
      (fun k hk => ⟨(gangOf_passWeave k).trans hk, weaveArr_passWeave (hk ▸ hg)⟩) _ here gang (.inl hc)

/-- Settles O51: the release, the start and the landing of a transfer, and the step counter, one lemma each. -/
theorem weaveResults : Obligations.WeaveResults := by
  unfold Obligations.WeaveResults
  exact fun s k w hk => ⟨weave_released s k w hk, transfer_started s k w hk,
    fun id x hx => ⟨transfer_ends_clks hk hx, transfer_landed hk hx⟩, step_advanced s k w hk⟩

end Sys2Proof.Machine
end

section
/-! SUPPORT. A flush brings dirty bytes home (R238, R248, R271): each stands at its home, and no open exact sum will write over it. -/

namespace Sys2Proof.Machine

/-! ### Canonical addresses (R213) -/

/-- A canonical address and what lies behind it in its 4 TiB. -/
theorem canon_add {s : State} {a n : Nat} (h : s.canon a = a) (hn : (a + n) / 4398046511104 = a / 4398046511104) : s.canon (a + n) = a + n := by
  unfold State.canon podPkg podOff at *
  norm_num at *
  omega

theorem canon_line {s : State} {k n : Nat} (h : s.canon (k * 128) = k * 128) (hn : n < 128) : s.canon (k * 128 + n) = k * 128 + n :=
  canon_add h (by omega)
theorem canon_word {s : State} {w n : Nat} (h : s.canon w = w) (hw : w % 4 = 0) (hn : n < 4) : s.canon (w + n) = w + n :=
  canon_add h (by omega)

/-! ### Bytes that stand -/

/-- Open exact sums stand in order at whole canonical words, and memory is canonical. -/
structure ExactOk (s : State) : Prop where
  rises : srising s.exact = true
  word : ∀ p ∈ s.exact, p.1 % 4 = 0 ∧ s.canon p.1 = p.1
  mem : s.memOk = true

/-- Byte a is x, and no open exact sum covers it. -/
structure Stands (s : State) (a : Nat) (x : Byte) : Prop where
  byte : s.byte a = x
  free : ∀ p ∈ s.exact, ¬ (p.1 ≤ s.canon a ∧ s.canon a < p.1 + 4)

/-- A change of cores is none of memory. -/
theorem Stands.modCore {s : State} {a : Nat} {x : Byte} (h : Stands s a x) (c : Nat) (f : Core → Core) : Stands (s.modCore c f) a x := ⟨h.byte, h.free⟩
theorem ExactOk.modCore {s : State} (h : ExactOk s) (c : Nat) (f : Core → Core) : ExactOk (s.modCore c f) := ⟨h.rises, h.word, h.mem⟩

theorem putBytes_exact (s : State) (pa : Nat) (l : List Byte) : (s.putBytes pa l).exact = s.exact := by
  induction l generalizing s pa with
  | nil => rfl
  | cons v r ih => exact (ih _ _).trans rfl

theorem canon_of_memory {s t : State} (h : MemoryOnly s t) (a : Nat) : t.canon a = s.canon a := by
  unfold State.canon
  rw [h.rest]

/-- Bytes written elsewhere leave a byte alone. -/
theorem byte_putBytes_other {s : State} {pa a : Nat} {l : List Byte} (h : s.memOk = true) (ne : ∀ i, i < l.length → s.canon a ≠ s.canon (pa + i)) :
    (s.putBytes pa l).byte a = s.byte a := by
  induction l generalizing s pa with
  | nil => rfl
  | cons v r ih =>
    unfold State.putBytes
    refine (ih ?_ fun i hi => ?_).trans (byte_putByte_other v h (ne 0 (Nat.zero_lt_succ _)))
    · exact putByte_memOk pa v h
    · rw [Nat.add_right_comm]
      exact ne (i + 1) (Nat.succ_lt_succ hi)

theorem leBytes_length (n x : Nat) : (leBytes n x).length = n := by
  induction n generalizing x with
  | zero => rfl
  | succ n ih => exact congrArg (· + 1) (ih _)

section
variable {s : State} {a w : Nat} {x : Byte}

theorem settle1_exact (h : ExactOk s) (w : Nat) : (s.settle1 w).exact = kdel w s.exact := by
  unfold State.settle1
  split
  next e =>
    symm
    refine List.filter_eq_self.2 fun p hp => bne_iff_ne.2 fun hw => ?_
    rw [← hw, kget_of_mem h.rises hp] at e
    cases e
  next => rfl

theorem exactOk_settle1 (h : ExactOk s) (w : Nat) : ExactOk (s.settle1 w) where
  rises := by rw [settle1_exact h]; exact srising_filter _ h.rises
  word p hp := by
    rw [settle1_exact h, mem_kdel] at hp
    rw [canon_of_memory (memoryOnly_settle1 s w)]
    exact h.word p hp.1
  mem := settle1_memOk w h.mem

theorem stands_settle1 (h : ExactOk s) (hs : Stands s a x) (w : Nat) : Stands (s.settle1 w) a x := by
  constructor
  case free =>
    intro p hp
    rw [settle1_exact h, mem_kdel] at hp
    rw [canon_of_memory (memoryOnly_settle1 s w)]
    exact hs.free p hp.1
  case byte =>
    unfold State.settle1
    split
    · exact hs.byte
    next e he =>
      have here := mem_of_kget he
      obtain ⟨hw, hc⟩ := h.word _ here
      have apart := hs.free _ here
      dsimp only at hw hc apart
      refine (byte_putBytes_other h.mem fun i hi => ?_).trans hs.byte
      rw [leBytes_length] at hi
      rw [canon_word hc hw hi]
      omega

theorem settleList (h : ExactOk s) (l : List Nat) : ExactOk (l.foldl State.settle1 s)
    ∧ (∀ p ∈ (l.foldl State.settle1 s).exact, p ∈ s.exact ∧ p.1 ∉ l) ∧ ∀ a x, Stands s a x → Stands (l.foldl State.settle1 s) a x := by
  induction l generalizing s with
  | nil => exact ⟨h, fun p hp => ⟨hp, List.not_mem_nil⟩, fun _ _ h => h⟩
  | cons w r ih =>
    obtain ⟨ok, left, stands⟩ := ih (exactOk_settle1 h w)
    refine ⟨ok, fun p hp => ?_, fun a x hs => stands a x (stands_settle1 h hs w)⟩
    obtain ⟨hp, hr⟩ := left p hp
    rw [settle1_exact h, mem_kdel] at hp
    exact ⟨hp.1, by simp [hp.2, hr]⟩

/-- A byte that is written home stands there, and bytes that stood elsewhere stand. -/
theorem homeWrite_stands (h : ExactOk s) (pa : Nat) (v : Byte) : ExactOk (s.homeWrite pa [v]) ∧ Stands (s.homeWrite pa [v]) pa v
    ∧ ∀ a x, s.canon a ≠ s.canon pa → Stands s a x → Stands (s.homeWrite pa [v]) a x := by
  have same := canon_of_memory (memoryOnly_homeWrite s pa [v])
  have settled := canon_of_memory (memoryOnly_settleRange s pa 1)
  obtain ⟨ok, left, stands⟩ := settleList h (s.openWords (s.canon pa) 1)
  have exact_ : (s.homeWrite pa [v]).exact = (s.settleRange pa 1).exact := putBytes_exact ..
  refine ⟨⟨exact_ ▸ ok.rises, fun p hp => ?_, homeWrite_memOk _ _ h.mem⟩, ⟨byte_putByte_same pa v ok.mem, fun p hp ht => ?_⟩,
    fun a x hne hs => ⟨?_, fun p hp => ?_⟩⟩
  · rw [exact_] at hp
    rw [same]
    exact h.word p (left p hp).1
  · rw [exact_] at hp
    rw [same] at ht
    obtain ⟨hp, hl⟩ := left p hp
    refine hl (List.mem_map_of_mem (List.mem_filter.2 ⟨hp, ?_⟩))
    simp only [Bool.and_eq_true, decide_eq_true_eq]
    omega
  · refine (byte_putByte_other v ok.mem ?_).trans (stands a x hs).byte
    show (s.settleRange pa 1).canon a ≠ (s.settleRange pa 1).canon pa
    rw [settled, settled]
    exact hne
  · rw [exact_] at hp
    rw [same]
    exact hs.free p (left p hp).1

end

/-! ### The lines of a core -/

/-- A core's lines stand in order at canonical addresses, and memory can take them. -/
structure LinesOk (s : State) (c : Nat) : Prop where
  rises : srising (s.core c).lines = true
  canon : ∀ p ∈ (s.core c).lines, s.canon (p.1 * 128) = p.1 * 128
  exact_ : ExactOk s

theorem linesOk_of {s : State} {c : Nat} (h : s.linesOk c = true) : LinesOk s c := by
  unfold State.linesOk at h
  simp only [Bool.and_eq_true, List.all_eq_true, beq_iff_eq] at h
  obtain ⟨⟨⟨⟨rises, canon⟩, exact_⟩, word⟩, mem⟩ := h
  exact ⟨rises, canon, exact_, word, mem⟩

section
variable {s : State}

theorem memoryOnly_writeDirty (s : State) (k : Nat) (l : Line) (is : List Nat) : MemoryOnly s (s.writeDirty k l is) := by
  refine .foldl (fun u i => ?_) is s
  split
  · exact memoryOnly_homeWrite ..
  · exact .refl u

theorem writeDirty_cons (s : State) (k : Nat) (l : Line) (i : Nat) (r : List Nat) :
    s.writeDirty k l (i :: r) = (s.writeDirty k l [i]).writeDirty k l r := rfl
theorem writeDirty_one (s : State) (k : Nat) (l : Line) (i : Nat) :
    s.writeDirty k l [i] = if l.dirty.getD i false then s.homeWrite (k * 128 + i) [l.data.getD i 0] else s := rfl

/-- What stands outside a line stands while its dirty bytes go home. -/
theorem writeDirty_other (h : ExactOk s) {k : Nat} (hk : s.canon (k * 128) = k * 128) (l : Line) {is : List Nat} (hi : ∀ i ∈ is, i < 128) :
    ExactOk (s.writeDirty k l is) ∧ ∀ a x, (∀ n ∈ is, s.canon a ≠ k * 128 + n) → Stands s a x → Stands (s.writeDirty k l is) a x := by
  induction is generalizing s with
  | nil => exact ⟨h, fun _ _ _ h => h⟩
  | cons i r ih =>
    obtain ⟨hi, hr⟩ := List.forall_mem_cons.1 hi
    have one : ExactOk (s.writeDirty k l [i]) ∧ ∀ a x, s.canon a ≠ k * 128 + i → Stands s a x → Stands (s.writeDirty k l [i]) a x := by
      rw [writeDirty_one]
      split
      · obtain ⟨ok, -, stands⟩ := homeWrite_stands h (k * 128 + i) (l.data.getD i 0)
        rw [canon_line hk hi] at stands
        exact ⟨ok, stands⟩
      · exact ⟨h, fun _ _ _ h => h⟩
    have same := canon_of_memory (memoryOnly_writeDirty s k l [i])
    obtain ⟨ok, stands⟩ := ih one.1 ((same _).trans hk) hr
    rw [writeDirty_cons]
    refine ⟨ok, fun a x hn hs => ?_⟩
    obtain ⟨hni, hnr⟩ := List.forall_mem_cons.1 hn
    exact stands a x (by rw [same]; exact hnr) (one.2 a x hni hs)

/-- A dirty byte that goes home stands there. -/
theorem writeDirty_own (h : ExactOk s) {k : Nat} (hk : s.canon (k * 128) = k * 128) (l : Line) {is : List Nat} (hi : ∀ i ∈ is, i < 128)
    (hd : is.Nodup) {n : Nat} (hn : n ∈ is) (hb : l.dirty.getD n false = true) : Stands (s.writeDirty k l is) (k * 128 + n) (l.data.getD n 0) := by
  induction is generalizing s with
  | nil => cases hn
  | cons i r ih =>
    obtain ⟨hi', hr⟩ := List.forall_mem_cons.1 hi
    obtain ⟨hir, hd⟩ := List.nodup_cons.1 hd
    have same := canon_of_memory (memoryOnly_writeDirty s k l [i])
    have ok := (writeDirty_other h hk l (is := [i]) (by simpa using hi')).1
    rw [writeDirty_cons]
    rcases List.mem_cons.1 hn with rfl | hn
    · refine (writeDirty_other ok ((same _).trans hk) l hr).2 _ _ (fun j hj => ?_) ?_
      · rw [same, canon_line hk hi']
        intro e
        obtain rfl : n = j := by omega
        exact hir hj
      · rw [writeDirty_one, if_pos hb]
        exact (homeWrite_stands h (k * 128 + n) (l.data.getD n 0)).2.1
    · exact ih ok ((same _).trans hk) hr hd hn

section
variable {c k : Nat}

/-- The line that is dropped is gone, what it held dirty stands at home, and what stood elsewhere stands. -/
theorem dropLine_stands (h : LinesOk s c) (k : Nat) : LinesOk (s.dropLine c k) c
    ∧ (∀ l, kget k (s.core c).lines = some l → ∀ n, n < 128 → l.dirty.getD n false = true → Stands (s.dropLine c k) (k * 128 + n) (l.data.getD n 0))
    ∧ ∀ a x, (∀ n, n < 128 → s.canon a ≠ k * 128 + n) → Stands s a x → Stands (s.dropLine c k) a x := by
  have lt : ∀ i ∈ List.range 128, i < 128 := fun i => List.mem_range.1
  have core (t : State) (hl : (t.core c).lines = kdel k (s.core c).lines) (hm : MemoryOnly s t) (he : ExactOk t) : LinesOk t c :=
    ⟨hl ▸ srising_filter _ h.rises, fun p hp => by
      rw [hl, mem_kdel] at hp
      rw [canon_of_memory hm]
      exact h.canon p hp.1, he⟩
  have lines := dropLine_lines s c k
  have memory := memoryOnly_dropLine s c k
  cases hk : kget k (s.core c).lines with
  | none =>
    rw [dropLine_of_none hk] at lines memory ⊢
    exact ⟨core _ lines memory (h.exact_.modCore ..), fun l e => (nomatch e), fun a x _ hs => hs.modCore ..⟩
  | some l =>
    have canon := h.canon _ (mem_of_kget hk)
    obtain ⟨ok, other⟩ := writeDirty_other h.exact_ canon l lt
    rw [dropLine_of_some hk] at lines memory ⊢
    refine ⟨core _ lines memory ((ok.modCore ..).modCore ..), fun l' e n hn hb => ?_, fun a x hn hs => ?_⟩
    · cases e
      exact ((writeDirty_own h.exact_ canon l lt List.nodup_range (List.mem_range.2 hn) hb).modCore ..).modCore ..
    · exact ((other a x (fun n hn' => hn n (lt n hn')) hs).modCore ..).modCore ..

/-- A flush drops one line after the other; each line's bytes stay where they stand. -/
theorem dropLines_stand (h : LinesOk s c) {ks : List Nat} (hd : ks.Nodup) (hks : ∀ k ∈ ks, s.canon (k * 128) = k * 128) :
    (∀ k ∈ ks, ∀ l, kget k (s.core c).lines = some l → ∀ n, n < 128 → l.dirty.getD n false = true →
        Stands (ks.foldl (fun s k => s.dropLine c k) s) (k * 128 + n) (l.data.getD n 0))
      ∧ ∀ a x, (∀ k ∈ ks, ∀ n, n < 128 → s.canon a ≠ k * 128 + n) → Stands s a x → Stands (ks.foldl (fun s k => s.dropLine c k) s) a x := by
  induction ks generalizing s with
  | nil => exact ⟨fun k hk => absurd hk List.not_mem_nil, fun _ _ _ h => h⟩
  | cons j r ih =>
    obtain ⟨hjr, hd⟩ := List.nodup_cons.1 hd
    obtain ⟨hj, hr⟩ := List.forall_mem_cons.1 hks
    obtain ⟨ok, own, other⟩ := dropLine_stands h j
    have same := canon_of_memory (memoryOnly_dropLine s c j)
    obtain ⟨later, kept⟩ := ih ok hd fun k hk => (same _).trans (hr k hk)
    refine ⟨fun k hk l hl n hn hb => ?_, fun a x ha hs => ?_⟩
    · rcases List.mem_cons.1 hk with rfl | hk
      · refine kept _ _ (fun i hi m hm => ?_) (own l hl n hn hb)
        rw [same, canon_line hj hn]
        intro e
        obtain rfl : k = i := by omega
        exact hjr hi
      · have ne : k ≠ j := fun e => hjr (e ▸ hk)
        refine later k hk l ?_ n hn hb
        rw [dropLine_lines, kget_kdel_other ne h.rises]
        exact hl
    · obtain ⟨haj, har⟩ := List.forall_mem_cons.1 ha
      exact kept a x (by rw [same]; exact har) (other a x haj hs)

theorem nodup_keys {α : Type} {m : Sparse α} (h : srising m = true) : (m.map Prod.fst).Nodup := by
  induction m with
  | nil => exact List.nodup_nil
  | cons p r ih =>
    obtain ⟨lt, hr⟩ := (srising_cons p.1 p.2 r).1 h
    refine List.nodup_cons.2 ⟨fun hp => ?_, ih hr⟩
    obtain ⟨q, hq, e⟩ := List.mem_map.1 hp
    have := lt q hq
    omega

/-- No dirty byte is dropped by a flush. -/
theorem flush_homeBytes (h : s.linesOk c = true) (k : Nat) : HomeBytes s (s.flush c) c k := by
  intro l hl n hn hb
  have ok := linesOk_of h
  have key : k ∈ (s.core c).lines.map Prod.fst := List.mem_map_of_mem (mem_of_kget hl)
  refine ((dropLines_stand ok (nodup_keys ok.rises) fun j hj => ?_).1 k key l hl n hn hb).byte
  obtain ⟨p, hp, rfl⟩ := List.mem_map.1 hj
  exact ok.canon p hp

end

end

end Sys2Proof.Machine
end

section
/-! Task forms (R36, R37, R151, R239, R322, R323): what FORK, SPAWN, LAUNCH, JOIN and TASKEND leave. -/

namespace Sys2Proof.Machine

/-! ### Effects beside the issuing group -/

/-- The issuing group is as it was. -/
structure Aside (s t : State) : Prop where
  cur : t.cur = s.cur
  live : s.live = true → t.live = true
  grp : t.curGrp = s.curGrp

namespace Aside

theorem refl (s : State) : Aside s s := ⟨rfl, id, rfl⟩
theorem trans {s t u : State} (a : Aside s t) (b : Aside t u) : Aside s u := ⟨b.cur.trans a.cur, fun h => b.live (a.live h), b.grp.trans a.grp⟩

theorem of_cores {s t : State} (hc : t.cur = s.cur) (hk : t.cores = s.cores) : Aside s t := by
  have groups : (t.core s.cur.core).groups = s.curCore.groups := by unfold State.curCore State.core; rw [hk]
  exact ⟨hc, (Stays.of_cores hc hk).live, curGrp_of_groups hc groups⟩

theorem of_memory {s t : State} (h : MemoryOnly s t) : Aside s t := ⟨h.cur, h.stays.live, h.curGrp⟩

theorem modC (s : State) (f : Core → Core) (hf : ∀ k, (f k).groups = k.groups) : Aside s (s.modC f) := by
  refine ⟨rfl, (Stays.modC s f hf).live, curGrp_of_groups rfl ?_⟩
  show ((s.modCore s.cur.core f).core s.cur.core).groups = _
  rcases core_modCore_or s s.cur.core s.cur.core f with ⟨_, h⟩ | h <;> rw [h]
  · exact hf _
  · rfl

theorem stays {s t : State} (h : Aside s t) : Stays s t where
  cur := h.cur
  live := h.live
  grp := by rw [h.grp]; rfl
  slot := by
    show t.curGrp.slot t.cur.slot = { s.curGrp.slot s.cur.slot with wait := (t.curGrp.slot t.cur.slot).wait }
    rw [h.grp, h.cur]

end Aside

/-! ### An LPB that an instruction names (R322) -/

/-- c stands after an issue from s, begun in b, has read the LPB that it names and has counted its command. -/
structure Asked (s b c : State) : Prop where
  stays : Stays b c
  live : c.live = true
  grp : c.curGrp = { b.curGrp with ctrs := s.curGrp.ctrs.set 6 (s.curGrp.ctrs.getD 6 0 + 1) }
  core : c.curCore.accepts = s.curCore.accepts ∧ c.curCore.clk = s.curCore.clk ∧ c.curCore.units = b.curCore.units
  rest : c.fresh = s.fresh ∧ c.launches = s.launches ∧ c.ovf = s.ovf

theorem memoryOnly_curCore {s t : State} (h : MemoryOnly s t) : t.curCore = { s.curCore with
    lines := t.curCore.lines, badL1 := t.curCore.badL1, tlb := t.curCore.tlb, perf := t.curCore.perf, perfClk := t.curCore.perfClk } := by
  have here : t.curCore = t.core s.cur.core := by unfold State.curCore; rw [h.cur]
  rw [here]
  exact h.core _

theorem curCore_modG (s : State) (f : Group → Group) (h : s.live = true) : (s.modG f).curCore = s.curCore.modGroup s.cur.gid f :=
  curCore_modC s _ (live_parts h).1

section
variable {s b c : State}

theorem asked_of_memory {r : State} (h : Begun s b) (read : MemoryOnly b r) : Asked s b (r.ctrUp 6 1) := by
  have live := read.live.trans h.live
  have counted : Beside r (r.ctrUp 6 1) := .modG (·.modCtr 6 (· + 1)) live (fun _ => rfl) (fun _ => rfl) fun _ => rfl
  have core : (r.ctrUp 6 1).curCore = r.curCore.modGroup r.cur.gid (·.modCtr 6 (· + 1)) := curCore_modG r _ live
  refine ⟨read.stays.trans counted.stays, counted.live, ?_, ?_, ?_⟩
  · unfold State.ctrUp
    rw [curGrp_modG _ _ live, read.curGrp]
    show ({ b.curGrp with ctrs := b.curGrp.ctrs.set 6 (b.curGrp.ctrs.getD 6 0 + 1) } : Group) = _
    rw [show b.curGrp.ctrs = s.curGrp.ctrs from by rw [h.curGrp_eq]]
  · rw [core]
    show r.curCore.accepts = _ ∧ r.curCore.clk = _ ∧ r.curCore.units = _
    rw [memoryOnly_curCore read]
    refine ⟨?_, h.clk, rfl⟩
    show b.curCore.accepts = _
    rw [h.core]
  · show r.fresh = _ ∧ r.launches = _ ∧ r.ovf = _
    rw [read.rest, h.only]
    exact ⟨rfl, rfl, rfl⟩

namespace Asked

theorem uid (h : Asked s b c) (hb : Begun s b) : c.curGrp.uid = s.curGrp.uid := by rw [h.grp, hb.curGrp_eq]
theorem gid (h : Asked s b c) (hb : Begun s b) : c.cur.gid = s.cur.gid := by rw [h.stays.cur, hb.groupKey]
theorem coreKey (h : Asked s b c) (hb : Begun s b) : c.cur.core = s.cur.core := by rw [h.stays.cur, hb.coreKey]

/-- What is drawn from the free choices changes nothing of it. -/
theorem draw (h : Asked s b c) (n : Nat) : Asked s b { c with free := n } :=
  ⟨h.stays.trans (.of_cores rfl rfl), h.live, h.grp, h.core, h.rest⟩

end Asked

/-- The command counter stands in every later state that leaves the group alone. -/
theorem Asked.counts {u t : State} (h : Asked s b c) (ha : Aside c u) (hd : Done s u t) : Counts s t 6 := by
  unfold Counts
  rw [hd.grp, ha.grp, h.grp]

/-! ### A launch that is entered -/

theorem accept_core (a : State) (h : a.live = true) (n d : Nat) :
    (a.accept n d).curCore = { a.curCore with accepts := a.curCore.accepts ++ [(n, a.cur.gid, a.curCore.clk + 40, d)] } :=
  curCore_modC a _ (live_parts h).1
theorem aside_accept (a : State) (n d : Nat) : Aside a (a.accept n d) := .modC a _ fun _ => rfl
theorem aside_addLaunch (a : State) (x : Launch) : Aside a (a.addLaunch x).2 := .of_cores rfl rfl

/-- One child more. -/
def State.childUp (s : State) : State := s.modU (fun u => { u with children := u.children + 1 })

theorem aside_childUp (a : State) : Aside a a.childUp := .modC a _ fun _ => rfl
theorem childUp_core (a : State) (h : a.live = true) :
    a.childUp.curCore = a.curCore.modUnit a.curGrp.uid (fun u => { u with children := u.children + 1 }) := curCore_modC a _ (live_parts h).1

/-- The unit of the stream has one child more. -/
theorem Asked.children (h : Asked s b c) (hb : Begun s b) (hh : (kget s.curGrp.uid b.curCore.units).isSome = true) :
    (c.childUp.curCore.unit s.curGrp.uid).children = s.curUnit.children + 1 := by
  obtain ⟨qs, unit⟩ := hb.unit
  have same : c.curCore.unit s.curGrp.uid = b.curUnit := by
    show (kget s.curGrp.uid c.curCore.units).getD _ = (kget b.curGrp.uid b.curCore.units).getD _
    rw [h.core.2.2, hb.uid]
  rw [childUp_core c h.live, h.uid hb, unit_modUnit_same _ _ _ (by rw [h.core.2.2]; exact hh), same, unit]

section
variable {g : Guard} {sL : SReg} {l : Lpb} {t : Option Topb} {e : List Edge}

theorem effFork_queue {c : State} (hr : b.readLpb (b.lpbVa sL) true = .ok l t e) (hq : b.forkTo l = .queue)
    (hc : (b.lpbRead (b.lpbVa sL)).ctrUp 6 1 = c) :
    effFork sL b = (c.childUp.addLaunch { b.forkChild l t e with forkDie := some (coreDie c.cur.core) }).2.accept c.fresh 0 := by
  simp only [effFork.eq_1, hr, hq, hc]
  rfl

theorem fork_hold (s : State) : ((semOf (soloSlot (.fork g sL)) (.fork g sL)).hold s).2 = s := by
  show (holdFork sL s).2 = s
  unfold holdFork
  rfl

theorem fork_eff : (semOf (soloSlot (.fork g sL)) (.fork g sL)).eff = effFork sL := rfl

/-- A launch accepted in state a, which leaves the group as c has it and shows the same acceptances. -/
theorem Asked.accepted {a u : State} {n d : Nat} (h : Asked s b c) (hb : Begun s b) (ha : Aside c a)
    (hc : a.curCore.accepts = c.curCore.accepts ∧ a.curCore.clk = c.curCore.clk) (hd : Done s (a.accept n d) u) :
    (s.coreIn u).accepts = s.curCore.accepts ++ [(n, s.cur.gid, s.curCore.clk + 40, d)] := by
  rw [hd.accepts, accept_core a (ha.live h.live)]
  show a.curCore.accepts ++ [(n, a.cur.gid, a.curCore.clk + 40, d)] = _
  rw [hc.1, hc.2, ha.cur, h.core.1, h.core.2.1, h.gid hb]

theorem fork_queues (ha : s.act g ≠ 0) (hh : s.housed = true) (hi : s.issues (.fork g sL) = true) :
    let b := s.begun (.fork g sL)
    b.readLpb (b.lpbVa sL) true = .ok l t e → b.forkTo l = .queue →
    let child := { b.forkChild l t e with forkDie := some (coreDie s.cur.core) }
    Yields (.fork g sL) s (fun u => Kept s u ∧ Counts s u 6 ∧ u.launches = kset s.fresh child s.launches
      ∧ (s.unitIn u).children = s.curUnit.children + 1
      ∧ (s.coreIn u).accepts = s.curCore.accepts ++ [(s.fresh, s.cur.gid, s.curCore.clk + 40, 0)]) := by
  intro b hr hq child
  have hb := (begun_of_hold hi (fork_hold s)).1
  have housed := housed_begun (i := .fork g sL) (fork_hold s) hh
  have asked := asked_of_memory hb (memoryOnly_lpbRead b (b.lpbVa sL))
  generalize hc : (b.lpbRead (b.lpbVa sL)).ctrUp 6 1 = c at asked
  have eff := effFork_queue hr hq hc
  rw [asked.coreKey hb, asked.rest.1] at eff
  have entered := (aside_childUp c).trans (aside_addLaunch c.childUp child)
  have aside := entered.trans (aside_accept _ s.fresh 0)
  have up := childUp_core c asked.live
  refine yields_of_stays rfl hi ha (fork_hold s) (fork_eff ▸ eff) (asked.stays.trans aside.stays)
    fun u d k => ⟨k, asked.counts aside d, ?_, ?_, asked.accepted hb entered ?_ d⟩
  · rw [d.launches]
    show kset c.fresh child c.launches = _
    rw [asked.rest.1, asked.rest.2.1]
  · rw [d.unitIn, accept_core _ (entered.live asked.live)]
    exact asked.children hb housed
  · show c.childUp.curCore.accepts = _ ∧ c.childUp.curCore.clk = _
    rw [up]
    exact ⟨rfl, rfl⟩

/-- A free choice is drawn. -/
def State.drawn (s : State) : State := { s with free := s.free + 1 }
/-- Launch n stands last in the overflow area of launch k. -/
def State.listOvf (s : State) (k n : Nat) : State := { s with ovf := kset k (((kget k s.ovf).getD []) ++ [n]) s.ovf }

theorem effFork_spill {c : State} (hr : b.readLpb (b.lpbVa sL) true = .ok l t e) (hq : b.forkTo l = .spill)
    (hc : (b.lpbRead (b.lpbVa sL)).ctrUp 6 1 = c) :
    let x := { b.forkChild l t e with forkDie := some (coreDie c.cur.core), inOvf := true }
    let v := (c.drawn.childUp.addLaunch x).2.listOvf c.curGrp.launch c.fresh
    effFork sL b = ((v.writeV v.cur.core v.root v.priv b.ovfSlot c.ovfBytes).getD v).accept c.fresh 0 := by
  simp only [effFork.eq_1, hr, hq, hc]
  rfl

theorem fork_spills (ha : s.act g ≠ 0) (hh : s.housed = true) (hi : s.issues (.fork g sL) = true) :
    let b := s.begun (.fork g sL)
    b.readLpb (b.lpbVa sL) true = .ok l t e → b.forkTo l = .spill →
    let child := { b.forkChild l t e with forkDie := some (coreDie s.cur.core) }
    Yields (.fork g sL) s (fun u => Kept s u ∧ Counts s u 6
      ∧ u.launches = kset s.fresh { child with inOvf := true } s.launches ∧ (s.unitIn u).children = s.curUnit.children + 1
      ∧ kget s.curGrp.launch u.ovf = some (((kget s.curGrp.launch s.ovf).getD []) ++ [s.fresh])) := by
  intro b hr hq child
  have hb := (begun_of_hold hi (fork_hold s)).1
  have housed := housed_begun (i := .fork g sL) (fork_hold s) hh
  have asked := asked_of_memory hb (memoryOnly_lpbRead b (b.lpbVa sL))
  generalize hc : (b.lpbRead (b.lpbVa sL)).ctrUp 6 1 = c at asked
  have eff := effFork_spill hr hq hc
  have launch : c.curGrp.launch = s.curGrp.launch := by rw [asked.grp, hb.curGrp_eq]
  have drawn : Asked s b c.drawn := asked.draw (c.free + 1)
  dsimp only at eff
  rw [asked.coreKey hb, asked.rest.1, launch] at eff
  generalize c.drawn = d at eff drawn
  have up := (aside_childUp d).trans (aside_addLaunch d.childUp { child with inOvf := true })
  generalize hv : (d.childUp.addLaunch { child with inOvf := true }).2.listOvf s.curGrp.launch s.fresh = v at eff
  have listed : Aside d v := up.trans (hv ▸ .of_cores rfl rfl)
  have wrote := memoryOnly_writeV_getD v v.cur.core v.root v.priv b.ovfSlot c.ovfBytes
  generalize (v.writeV v.cur.core v.root v.priv b.ovfSlot c.ovfBytes).getD v = r at eff wrote
  have entered := listed.trans (.of_memory wrote)
  have aside := entered.trans (aside_accept r s.fresh 0)
  refine yields_of_stays rfl hi ha (fork_hold s) (fork_eff ▸ eff) (drawn.stays.trans aside.stays)
    fun u o k => ⟨k, drawn.counts aside o, ?_, ?_, ?_⟩
  · rw [o.launches]
    show r.launches = _
    rw [wrote.rest, ← hv]
    show kset d.fresh { child with inOvf := true } d.launches = _
    rw [drawn.rest.1, drawn.rest.2.1]
  · have units : (r.accept s.fresh 0).curCore.unit s.curGrp.uid = d.childUp.curCore.unit s.curGrp.uid := by
      rw [accept_core r (entered.live drawn.live), memoryOnly_curCore wrote, ← hv]
      rfl
    rw [o.unitIn, units]
    exact drawn.children hb housed
  · rw [o.rest]
    show kget _ r.ovf = _
    rw [wrote.rest, ← hv, ← drawn.rest.2.2]
    exact kget_kset_same ..

/-! ### An inline child (R37) -/

/-- The group of an inline child as unit i of its grid starts. -/
theorem inlineStart_grp {a : State} (h : a.live = true) (n i : Nat) (f : InlineFrame) :
    let g := (a.inlineStart n i f).curGrp
    g.launch = n ∧ g.inline = { f with unitIx := i } :: a.curGrp.inline.drop (if i = 0 then 0 else 1)
      ∧ g.inlineDepth = (if i = 0 then min 15 (a.curGrp.inlineDepth + 1) else a.curGrp.inlineDepth)
      ∧ g.slot0.pc = BitVec.ofNat 32 ((a.lpbOf n).roles.headD { seg := 0, entry := 0, budget := 1, count := 1, role := 1, dict := 0 }).entry
      ∧ g.slot0.mask = allLanes ∧ g.slot1.mask = 0 ∧ g.ctrs = a.curGrp.ctrs := by
  intro g
  have grp : g = _ := curGrp_modG a _ h
  rw [grp]
  exact ⟨rfl, rfl, rfl, rfl, rfl, rfl, rfl⟩

/-- A change of the group that leaves its traps alone. -/
theorem onStream_modG {a : State} (h : a.live = true) (f : Group → Group)
    (hf : ∀ g, (f g).deferred = g.deferred ∧ (f g).inHandler = g.inHandler ∧ (f g).serving = g.serving) : OnStream a (a.modG f) := by
  refine ⟨rfl, live_modG a f, ?_⟩
  rw [curGrp_modG a f h]
  exact hf _

theorem onStream_inlineStart {a : State} (h : a.live = true) (n i : Nat) (f : InlineFrame) : OnStream a (a.inlineStart n i f) :=
  onStream_modG h _ fun _ => ⟨rfl, rfl, rfl⟩

theorem units_modG (a : State) (f : Group → Group) (h : a.live = true) : (a.modG f).curCore.units = a.curCore.units := by
  rw [curCore_modG a f h]
  rfl

/-- The frame that an inline child's caller leaves. -/
def Group.frame (g : Group) : InlineFrame :=
  { slot0 := g.slot0, slot1 := g.slot1, dict := g.dict, seg := g.seg, pool := g.pool, top := g.stackTop, unitIx := 0, launch := g.launch }

theorem effFork_inline {c : State} (hr : b.readLpb (b.lpbVa sL) true = .ok l t e) (hq : b.forkTo l = .inline)
    (hc : (b.lpbRead (b.lpbVa sL)).ctrUp 6 1 = c) :
    effFork sL b = (c.addLaunch { b.forkChild l t e with parent := none, started := true }).2.inlineStart c.fresh 0 c.curGrp.frame := by
  simp only [effFork.eq_1, hr, hq, hc]
  rfl

theorem fork_inlines (ha : s.act g ≠ 0) (hi : s.issues (.fork g sL) = true) :
    let b := s.begun (.fork g sL)
    b.readLpb (b.lpbVa sL) true = .ok l t e → b.forkTo l = .inline →
    Yields (.fork g sL) s (fun u => Counts s u 6 ∧ (s.groupIn u).launch = s.fresh
      ∧ (s.groupIn u).inline.length = s.curGrp.inline.length + 1 ∧ (s.groupIn u).inlineDepth = min 15 (s.curGrp.inlineDepth + 1)
      ∧ (s.groupIn u).slot0.pc = BitVec.ofNat 32 (l.roles.headD { seg := 0, entry := 0, budget := 1, count := 1, role := 1, dict := 0 }).entry
      ∧ (s.groupIn u).slot0.mask = allLanes ∧ (s.groupIn u).slot1.mask = 0 ∧ (s.unitIn u).children = s.curUnit.children) := by
  intro b hr hq
  have hb := (begun_of_hold hi (fork_hold s)).1
  have asked := asked_of_memory hb (memoryOnly_lpbRead b (b.lpbVa sL))
  generalize hc : (b.lpbRead (b.lpbVa sL)).ctrUp 6 1 = c at asked
  have eff := effFork_inline hr hq hc
  have entered := aside_addLaunch c { b.forkChild l t e with parent := none, started := true }
  generalize hx : (c.addLaunch { b.forkChild l t e with parent := none, started := true }).2 = x at eff entered
  have live := entered.live asked.live
  have lpb : (x.lpbOf c.fresh).roles = l.roles := by
    have found : kget c.fresh x.launches = some { b.forkChild l t e with parent := none, started := true } := by
      rw [← hx]
      exact kget_kset_same ..
    unfold State.lpbOf
    rw [found]
    rfl
  have grp := inlineStart_grp live c.fresh 0 c.curGrp.frame
  have started := entered.stays.onStream.trans (onStream_inlineStart live c.fresh 0 c.curGrp.frame)
  have units : (x.inlineStart c.fresh 0 c.curGrp.frame).curCore.units = b.curCore.units := by
    have kept : x.curCore.units = c.curCore.units := by rw [← hx]; rfl
    exact (units_modG x _ live).trans (kept.trans asked.core.2.2)
  generalize x.inlineStart c.fresh 0 c.curGrp.frame = y at eff grp started units
  obtain ⟨launch, inline, depth, pc, m0, m1, ctrs⟩ := grp
  refine yields_of_done rfl hi ha (fork_hold s) (fork_eff ▸ eff) (asked.stays.onStream.trans started) fun u d => ?_
  have old : c.curGrp.inline = s.curGrp.inline ∧ c.curGrp.inlineDepth = s.curGrp.inlineDepth := by
    rw [asked.grp, hb.curGrp_eq]
    exact ⟨rfl, rfl⟩
  unfold Counts
  rw [d.grp, d.unitIn]
  refine ⟨?_, ?_, ?_, ?_, ?_, m0, m1, ?_⟩
  · rw [ctrs, entered.grp, asked.grp]
  · rw [launch, asked.rest.1]
  · rw [inline, entered.grp, old.1]
    rfl
  · rw [depth, entered.grp, old.2]
    rfl
  · rw [pc, lpb]
  · obtain ⟨qs, unit⟩ := hb.unit
    have same : y.curCore.unit s.curGrp.uid = b.curUnit := by
      show (kget s.curGrp.uid _).getD _ = (kget b.curGrp.uid b.curCore.units).getD _
      rw [units, hb.uid]
    rw [same, unit]

/-! ### SPAWN and LAUNCH -/

theorem spawn_eff : (semOf (soloSlot (.spawn g sL)) (.spawn g sL)).eff = effSpawn sL := rfl
theorem spawn_hold (s : State) : ((semOf (soloSlot (.spawn g sL)) (.spawn g sL)).hold s).2 = s := rfl

theorem effSpawn_ok {c : State} (hr : b.readLpb (b.lpbVa sL) true = .ok l t e) (hc : (b.lpbRead (b.lpbVa sL)).ctrUp 6 1 = c) :
    effSpawn sL b = ((c.modLaunch b.homeLaunch (fun y => { y with target := y.target + l.grid })).addLaunch
      { b.mkLaunch (childLpb l b.curLevel) t e with level := b.curLevel, spawnOf := some b.homeLaunch, issuer := b.lpb.va }).2.accept c.fresh 0 := by
  simp only [effSpawn.eq_1, hr, hc]
  rfl

theorem spawn_adds (ha : s.act g ≠ 0) (hi : s.issues (.spawn g sL) = true) :
    let b := s.begun (.spawn g sL)
    b.readLpb (b.lpbVa sL) true = .ok l t e → Yields (.spawn g sL) s (fun u => Kept s u ∧ Counts s u 6
      ∧ u.launches = kset s.fresh { b.mkLaunch (childLpb l b.curLevel) t e with level := b.curLevel, spawnOf := some b.homeLaunch, issuer := b.lpb.va }
          (kmod b.homeLaunch (fun y => { y with target := y.target + l.grid }) s.launches)) := by
  intro b hr
  have hb := (begun_of_hold hi (spawn_hold s)).1
  have asked := asked_of_memory hb (memoryOnly_lpbRead b (b.lpbVa sL))
  generalize hc : (b.lpbRead (b.lpbVa sL)).ctrUp 6 1 = c at asked
  have eff := effSpawn_ok hr hc
  generalize hx : ({ b.mkLaunch (childLpb l b.curLevel) t e with level := b.curLevel, spawnOf := some b.homeLaunch, issuer := b.lpb.va } : Launch)
    = x at eff
  generalize hm : c.modLaunch b.homeLaunch (fun y => { y with target := y.target + l.grid }) = m at eff
  have counted : Aside c m := hm ▸ .of_cores rfl rfl
  have aside := (counted.trans (aside_addLaunch m x)).trans (aside_accept _ c.fresh 0)
  refine yields_of_stays rfl hi ha (spawn_hold s) (spawn_eff ▸ eff) (asked.stays.trans aside.stays)
    fun u d k => ⟨k, asked.counts aside d, ?_⟩
  rw [d.launches]
  show kset m.fresh x m.launches = _
  rw [← hm]
  show kset c.fresh x (kmod b.homeLaunch _ c.launches) = _
  rw [asked.rest.1, asked.rest.2.1]

section
variable {sD : SReg}

theorem launch_eff : (semOf (soloSlot (.launch g sD sL)) (.launch g sD sL)).eff = effLaunch sD sL := rfl
theorem launch_hold (s : State) : ((semOf (soloSlot (.launch g sD sL)) (.launch g sD sL)).hold s).2 = s := rfl

theorem effLaunch_ok {c : State} (hr : b.readLpb (b.lpbVa sL) false = .ok l t e) (hc : (b.lpbRead (b.lpbVa sL)).ctrUp 6 1 = c) :
    effLaunch sD sL b = (c.addLaunch (b.mkLaunch l t e)).2.accept c.fresh (sD.val + 1) := by
  simp only [effLaunch.eq_1, hr, hc]
  rfl
theorem effLaunch_bad {c : State} {n : Nat} (hr : b.readLpb (b.lpbVa sL) false = .bad n) (hc : (b.lpbRead (b.lpbVa sL)).ctrUp 6 1 = c) :
    effLaunch sD sL b = (c.takeWalkF b.cur.core b.root (b.lpbVa sL)).later 40 0 (some 6) 0 0 false [.s sD.val (BitVec.ofNat 64 n)] := by
  simp only [effLaunch.eq_1, hr, hc]

theorem launch_enters (ha : s.act g ≠ 0) (hi : s.issues (.launch g sD sL) = true) :
    let b := s.begun (.launch g sD sL)
    b.readLpb (b.lpbVa sL) false = .ok l t e → Yields (.launch g sD sL) s (fun u => Kept s u ∧ Counts s u 6
      ∧ u.launches = kset s.fresh (b.mkLaunch l t e) s.launches
      ∧ (s.coreIn u).accepts = s.curCore.accepts ++ [(s.fresh, s.cur.gid, s.curCore.clk + 40, sD.val + 1)]) := by
  intro b hr
  have hb := (begun_of_hold hi (launch_hold s)).1
  have asked := asked_of_memory hb (memoryOnly_lpbRead b (b.lpbVa sL))
  generalize hc : (b.lpbRead (b.lpbVa sL)).ctrUp 6 1 = c at asked
  have eff := effLaunch_ok (sD := sD) hr hc
  rw [asked.rest.1] at eff
  have entered := aside_addLaunch c (b.mkLaunch l t e)
  have aside := entered.trans (aside_accept _ s.fresh (sD.val + 1))
  refine yields_of_stays rfl hi ha (launch_hold s) (launch_eff ▸ eff) (asked.stays.trans aside.stays)
    fun u d k => ⟨k, asked.counts aside d, ?_, asked.accepted hb entered ⟨rfl, rfl⟩ d⟩
  rw [d.launches]
  show kset c.fresh (b.mkLaunch l t e) c.launches = _
  rw [asked.rest.1, asked.rest.2.1]

theorem takeWalkF_aside {a : State} {core : Nat} (h : core = a.cur.core) (hl : a.live = true) (root va : Nat) :
    Aside a (a.takeWalkF core root va) ∧ (a.takeWalkF core root va).curCore.clk = a.curCore.clk := by
  subst h
  refine ⟨.modC a _ fun _ => rfl, ?_⟩
  have core : (a.takeWalkF a.cur.core root va).curCore = _ := curCore_modC a _ (live_parts hl).1
  rw [core]

/-- The answer that a command leaves to come, as clk n asks for it. -/
def State.answerAt (a : State) (lat wall : Nat) (ctr : Option Nat) (pa slots : Nat) (bad : Bool) (ws : List Wr) (n : Nat) : Sector :=
  { id := a.fresh, due := n + lat + Config.latency a.free, gid := a.cur.gid, writes := ws, pc := a.curSlot.pc - BitVec.ofNat 32 a.cur.len,
    pa := pa, bad := bad, ctr := ctr, slots := slots, arr := n + lat + Config.latency a.free, fixed := false, wall := wall, tick := 0 }
/-- A core with an answer to come. -/
def Core.expect (c : Core) (f : Nat → Sector) : Core := { c with sectors := c.sectors ++ [f c.clk] }

section
variable (a : State) (lat wall : Nat) (ctr : Option Nat) (pa n : Nat) (bad : Bool) (ws : List Wr)

theorem later_eq : a.later lat wall ctr pa n bad ws
    = { a.modC (·.expect (a.answerAt lat wall ctr pa n bad ws)) with fresh := a.fresh + 1, free := a.free + 1 } := rfl

theorem aside_later : Aside a (a.later lat wall ctr pa n bad ws) := by
  rw [later_eq]
  exact (Aside.modC a (·.expect (a.answerAt lat wall ctr pa n bad ws)) fun _ => rfl).trans (.of_cores rfl rfl)

/-- An answer that is to come lands at the earliest after its latency. -/
theorem later_sectors (h : a.live = true) :
    ∃ f ∈ (a.later lat wall ctr pa n bad ws).curCore.sectors, f.gid = a.cur.gid ∧ f.ctr = ctr ∧ f.writes = ws ∧ a.curCore.clk + lat ≤ f.due := by
  have core : (a.later lat wall ctr pa n bad ws).curCore = a.curCore.expect (a.answerAt lat wall ctr pa n bad ws) :=
    curCore_modC a _ (live_parts h).1
  rw [core]
  exact ⟨_, List.mem_append_right _ (List.mem_singleton_self _), rfl, rfl, rfl, Nat.le_add_right _ _⟩

end

theorem ctrUp_mem (a : State) (n k : Nat) : (a.ctrUp n k).mem = a.mem := rfl

theorem launch_rejects (ha : s.act g ≠ 0) (hi : s.issues (.launch g sD sL) = true) (n : Nat) :
    let b := s.begun (.launch g sD sL)
    b.readLpb (b.lpbVa sL) false = .bad n → Yields (.launch g sD sL) s (fun u => Kept s u ∧ Counts s u 6 ∧ u.mem = (b.lpbRead (b.lpbVa sL)).mem
      ∧ u.launches = s.launches ∧ ∃ f ∈ (s.coreIn u).sectors, f.gid = s.cur.gid ∧ f.ctr = some 6
          ∧ f.writes = [.s sD.val (BitVec.ofNat 64 n)] ∧ s.curCore.clk + 40 ≤ f.due) := by
  intro b hr
  have hb := (begun_of_hold hi (launch_hold s)).1
  have asked := asked_of_memory hb (memoryOnly_lpbRead b (b.lpbVa sL))
  have mem := ctrUp_mem (b.lpbRead (b.lpbVa sL)) 6 1
  generalize hc : (b.lpbRead (b.lpbVa sL)).ctrUp 6 1 = c at asked mem
  have eff := effLaunch_bad (sD := sD) hr hc
  obtain ⟨forgot, clk⟩ := takeWalkF_aside (by rw [asked.stays.cur] : b.cur.core = c.cur.core) asked.live b.root (b.lpbVa sL)
  generalize hw : c.takeWalkF b.cur.core b.root (b.lpbVa sL) = w at eff forgot clk
  have aside := forgot.trans (aside_later w 40 0 (some 6) 0 0 false [.s sD.val (BitVec.ofNat 64 n)])
  have sent := later_sectors w 40 0 (some 6) 0 0 false [.s sD.val (BitVec.ofNat 64 n)] (forgot.live asked.live)
  rw [forgot.cur, asked.gid hb, clk, asked.core.2.1] at sent
  refine yields_of_stays rfl hi ha (launch_hold s) (launch_eff ▸ eff) (asked.stays.trans aside.stays)
    fun u d k => ⟨k, asked.counts aside d, ?_, ?_, ?_⟩
  · rw [d.mem, ← mem, ← hw]
    rfl
  · rw [d.launches, ← asked.rest.2.1, ← hw]
    rfl
  · rw [d.sectors]
    exact sent

end

end

end

end Sys2Proof.Machine
end

section
/-! JOIN and TASKEND (R36, R37, R151, R239), and with them the task forms (O31). -/

namespace Sys2Proof.Machine

/-! ### A flush at the end of a wait -/

theorem linesOk_congr {s t : State} {c : Nat} (hl : (t.core c).lines = (s.core c).lines) (hx : t.exact = s.exact) (hb : t.board = s.board)
    (hm : t.mem = s.mem) : t.linesOk c = s.linesOk c := by
  unfold State.linesOk State.canon
  rw [hl, hx, hb, hm]

/-- What a flush brings home from state m stands in every later state with its memory, and so do the bytes of any state with m's lines. -/
theorem homeBytes_flush {s m t : State} {c : Nat} (hl : (m.core c).lines = (s.core c).lines) (hx : m.exact = s.exact) (hb : m.board = s.board)
    (hm : m.mem = s.mem) (ht : t.mem = (m.flush c).mem) (htb : t.board = (m.flush c).board) (h : s.linesOk c = true) (k : Nat) :
    HomeBytes s t c k := by
  intro l hk n hn hd
  have home := flush_homeBytes ((linesOk_congr hl hx hb hm).trans h) k l (by rw [hl]; exact hk) n hn hd
  rw [← home]
  unfold State.byte State.canon
  rw [ht, htb]

section
variable {s : State} {g : Guard}

/-! ### JOIN -/

theorem join_eff : (semOf (soloSlot (.join g)) (.join g)).eff = effJoin := rfl

theorem join_goes_on (ha : s.act g ≠ 0) (hi : s.issues (.join g) = true) (h0 : s.curUnit.children = 0) :
    Yields (.join g) s (fun u => Kept s u ∧ (s.groupIn u).ctrs = s.curGrp.ctrs
      ∧ (s.slotIn u).wait = s.curSlot.wait ∧ (s.coreIn u).lines = [] ∧ (s.linesOk s.cur.core → ∀ k, HomeBytes s u s.cur.core k)
      ∧ ((∀ p ∈ s.curCore.lines, ∀ k, p.2.dirty.getD k false = false) → u.mem = s.mem)) := by
  have hb := (begun_of_hold hi rfl).1
  generalize hw : s.begun (.join g) = w at hb
  have flushed := memoryOnly_flush w s.cur.core
  have lines : (w.core s.cur.core).lines = s.curCore.lines := by
    rw [← hb.coreKey]
    show w.curCore.lines = _
    rw [hb.core]
  have eff : effJoin w = w.flush s.cur.core := by
    obtain ⟨qs, unit⟩ := hb.unit
    unfold effJoin
    rw [unit, hb.coreKey]
    exact if_pos h0
  have aside := Aside.of_memory flushed
  refine yields_of_stays (u := w.flush s.cur.core) rfl hi ha rfl (by rw [join_eff, hw]; exact eff) (hw ▸ aside.stays)
    fun u d k => ⟨k, ?_, ?_, ?_, fun ok => ?_, fun clean => ?_⟩
  · rw [d.grp, aside.grp, hb.curGrp_eq]
  · rw [d.slot]
    show ((w.flush s.cur.core).curGrp.slot (w.flush s.cur.core).cur.slot).wait = _
    rw [aside.grp, aside.cur]
    exact hb.wait
  · rw [d.lines]
    show ((w.flush s.cur.core).core (w.flush s.cur.core).cur.core).lines = []
    rw [aside.cur, hb.coreKey]
    exact flush_lines w _
  · refine homeBytes_flush (m := w) lines ?_ ?_ hb.mem d.mem ?_ ok
    · rw [hb.only]
    · rw [hb.only]
    · rw [d.rest]
  · rw [d.mem, flush_mem_of_clean (by rw [lines]; exact clean), hb.mem]

/-- The groups in l stop for a save. -/
def Core.holdAll (k : Core) (l : List Nat) : Core := l.foldl (fun k g => k.modGroup g (fun x => { x with halt := .saving })) k

theorem groups_holdAll (k : Core) (l : List Nat) (g : Nat) : (kget g (k.holdAll l).groups).isSome = (kget g k.groups).isSome := by
  unfold Core.holdAll
  induction l generalizing k with
  | nil => rfl
  | cons x r ih => exact (ih (k.modGroup x _)).trans (groups_modGroup_isSome ..)

theorem curGrp_holdAll {a : State} (h : a.live = true) (l : List Nat) :
    (a.modC (·.holdAll l)).curGrp = if a.cur.gid ∈ l then { a.curGrp with halt := .saving } else a.curGrp := by
  show (a.modC _).curCore.group a.cur.gid = _
  rw [curCore_modC a (·.holdAll l) (live_parts h).1]
  exact group_foldl_modGroup (f := fun x => { x with halt := .saving }) (fun _ => rfl) l (.inl (live_parts h).2.1)

theorem curSlot_holdAll {a : State} (h : a.live = true) (l : List Nat) : (a.modC (·.holdAll l)).curSlot = a.curSlot := by
  show (a.modC (·.holdAll l)).curGrp.slot a.cur.slot = _
  rw [curGrp_holdAll h]
  split <;> rfl

theorem stays_holdAll {a : State} (h : a.live = true) (l : List Nat) : Stays a (a.modC (·.holdAll l)) := by
  refine ⟨rfl, fun h => live_modC a _ h fun k => groups_holdAll k l _, ?_, by rw [curSlot_holdAll h]⟩
  rw [curGrp_holdAll h]
  split <;> rfl

/-- The groups of a unit whose children are not all done wait for its save. -/
def State.joinHold (s : State) : State :=
  if s.curUnit.gids.all (fun g => (s.curCore.group g).joined || (s.curCore.group g).ended) then
    (s.modC (·.holdAll s.curUnit.gids)).modU (fun u => { u with joining := true })
  else s

theorem effJoin_waits {w : State} (h : w.curUnit.children ≠ 0) :
    effJoin w = ((w.modG (fun g => { g with joined := true })).modS (fun p => { p with wait := .saving })).joinHold := by
  unfold effJoin
  rw [if_neg h]
  rfl

theorem joinHold_facts {r : State} (h : r.live = true) : Stays r r.joinHold ∧ r.joinHold.mem = r.mem ∧ r.joinHold.curSlot = r.curSlot
    ∧ r.joinHold.curGrp.joined = r.curGrp.joined
    ∧ ((r.curUnit.gids.all fun g => (r.curCore.group g).joined || (r.curCore.group g).ended) = true →
        (kget r.curGrp.uid r.curCore.units).isSome = true → (r.joinHold.curCore.unit r.curGrp.uid).joining = true) := by
  have stays := stays_holdAll h r.curUnit.gids
  have grp := curGrp_holdAll h r.curUnit.gids
  have slot := curSlot_holdAll h r.curUnit.gids
  have core := curCore_modC r (·.holdAll r.curUnit.gids) (live_parts h).1
  unfold State.joinHold
  split
  next all =>
    generalize hm : r.modC (·.holdAll r.curUnit.gids) = m at stays grp slot core
    have aside : Aside m (m.modU (fun u => { u with joining := true })) := .modC m _ fun _ => rfl
    have same : m.curGrp.uid = r.curGrp.uid ∧ m.curGrp.joined = r.curGrp.joined := by
      rw [grp]
      split <;> exact ⟨rfl, rfl⟩
    refine ⟨stays.trans aside.stays, by rw [← hm]; rfl, ?_, by rw [aside.grp, same.2], fun _ hu => ?_⟩
    · show (m.modU _).curGrp.slot m.cur.slot = _
      rw [aside.grp]
      exact slot
    · have units : m.curCore.units = r.curCore.units := by
        rw [core]
        exact units_foldl_modGroup ..
      have here : (m.modU (fun u => { u with joining := true })).curCore = m.curCore.modUnit m.curGrp.uid (fun u => { u with joining := true }) :=
        curCore_modC m _ (live_parts (stays.live h)).1
      rw [here, same.1, unit_modUnit_same _ _ _ (units ▸ hu)]
  next few => exact ⟨.refl r, rfl, rfl, rfl, fun all => absurd all few⟩

theorem join_waits (ha : s.act g ≠ 0) (hh : s.housed = true) (hi : s.issues (.join g) = true) (h0 : s.curUnit.children ≠ 0) :
    Yields (.join g) s (fun u => Kept s u ∧ u.mem = s.mem ∧ (s.groupIn u).joined = true ∧ (s.slotIn u).wait = .saving
      ∧ ((∀ k ∈ s.curUnit.gids, k ≠ s.cur.gid → (s.curCore.group k).joined = true ∨ (s.curCore.group k).ended = true) →
          (s.unitIn u).joining = true)) := by
  have hb := (begun_of_hold hi rfl).1
  have housed := housed_begun (i := .join g) rfl hh
  generalize hw : s.begun (.join g) = w at hb housed
  have marked : Beside w (w.modG (fun g => { g with joined := true })) := .modG _ hb.live (fun _ => rfl) (fun _ => rfl) fun _ => rfl
  generalize hm : w.modG (fun g => { g with joined := true }) = m at marked
  generalize hr : m.modS (fun p => { p with wait := .saving }) = r
  have waits : Beside w r := hr ▸ marked.trans (.wait .saving marked.live)
  have eff : effJoin w = r.joinHold := by
    obtain ⟨qs, unit⟩ := hb.unit
    rw [effJoin_waits (by rw [unit]; exact h0), hm, hr]
  obtain ⟨stays, mem, slot, joined, joins⟩ := joinHold_facts waits.live
  have own : r.curGrp.joined = true := by
    rw [← hr, curGrp_modS _ _ marked.live, modSlot_eq, ← hm, curGrp_modG _ _ hb.live]
  have grp := waits.stays.grp
  unfold GroupSteered at grp
  have uid : r.curGrp.uid = s.curGrp.uid := by rw [grp, hb.uid]
  refine yields_of_stays (u := r.joinHold) rfl hi ha rfl (by rw [join_eff, hw]; exact eff) (hw ▸ waits.stays.trans stays)
    fun u d k => ⟨k, ?_, ?_, ?_, fun all => ?_⟩
  · rw [d.mem, mem, ← hr, ← hm]
    exact hb.mem
  · rw [d.grp]
    exact joined.trans own
  · rw [d.slot, slot, ← hr, curSlot_modS _ _ marked.live]
  · obtain ⟨qs, unit⟩ := waits.unit_begun hb
    rw [d.unitIn, ← uid]
    refine joins (List.all_eq_true.2 fun x hx => Bool.or_eq_true_iff.2 ?_) (by rw [waits.core.1, uid]; exact housed)
    by_cases h : x = s.cur.gid
    · refine .inl ?_
      rw [h, ← hb.groupKey, ← waits.stays.cur]
      exact own
    · rw [waits.groups x (hb.groupKey.symm ▸ h), hb.groups x h]
      refine all x ?_ h
      have same : r.curUnit = _ := uid ▸ unit
      rw [same] at hx
      exact hx

/-! ### TASKEND -/

theorem taskend_eff : (semOf (soloSlot (.taskend g)) (.taskend g)).eff = effTaskend := rfl

/-- The group that a TASKEND leaves. -/
def Group.finished (g : Group) : Group :=
  { g with slot0 := { PcSlot.empty with fmt := g.slot0.fmt }, slot1 := { PcSlot.empty with fmt := g.slot1.fmt }, stackTop := 0, ended := true }

theorem effTaskend_ends {w : State} (h : w.curGrp.inline = []) :
    effTaskend w = ((w.modG (·.finished)).unitCheck w.cur.core w.cur.gid).retireAsk w.cur.core w.cur.gid := by
  have none : (!w.curGrp.inline.isEmpty) = false := by rw [h]; rfl
  unfold effTaskend
  rw [none, if_neg Bool.false_ne_true]
  rfl

theorem effTaskend_returns {w : State} {f : InlineFrame} {r : List InlineFrame} (h : w.curGrp.inline = f :: r) :
    effTaskend w = w.inlineReturn := by
  have some_ : (!w.curGrp.inline.isEmpty) = true := by rw [h]; rfl
  unfold effTaskend
  exact if_pos some_

/-! The checks of arrivals ask for no event but a weave's. -/

theorem groupBarCheck_agenda (s : State) (c g : Nat) : (s.groupBarCheck c g).agenda = s.agenda := by
  unfold State.groupBarCheck
  dsimp only
  split <;> rfl
theorem netArrive_agenda (s : State) (c g id : Nat) : (s.netArrive c g id).agenda = s.agenda := by
  unfold State.netArrive
  dsimp only
  split
  · rfl
  · split <;> rfl
theorem netCheck_agenda (s : State) (c g : Nat) : (s.netCheck c g).agenda = s.agenda := by
  have one (t : State) (p : PcSlot) : (match p.wait with | .net id => t.netArrive c g id | _ => t).agenda = t.agenda := by
    split
    · exact netArrive_agenda ..
    · rfl
  exact (one _ _).trans (one _ _)
theorem govCheck_agenda (s : State) (l n : Nat) : (s.govCheck l n).agenda = s.agenda := by
  unfold State.govCheck
  repeat' split
  all_goals rfl
theorem stepCheck_agenda (s : State) (c uid : Nat) : (s.stepCheck c uid).agenda = s.agenda := by
  unfold State.stepCheck
  dsimp only
  split
  · exact govCheck_agenda ..
  split
  · split
    · rfl
    · exact govCheck_agenda ..
  · rfl
theorem weaveCheck_none {s : State} {c uid : Nat} (h : ((s.core c).unit uid).weave = none) : s.weaveCheck c uid = s := by
  unfold State.weaveCheck
  dsimp only
  rw [h]

/-- The unit of a check is in the same weave after the checks before. -/
theorem unitCheck_agenda {s : State} {c g : Nat} (h : ((s.core c).unit (s.group c g).uid).weave = none) : (s.unitCheck c g).agenda = s.agenda := by
  unfold State.unitCheck
  dsimp only
  generalize (s.group c g).uid = uid at h
  have checked := (((waited_groupBarCheck s c g).trans (waited_netCheck _ c g)).trans (waited_barCheck _ c uid)).trans (waited_stepCheck _ c uid)
  rw [weaveCheck_none (by rw [(checked.core c).unit]; exact h), stepCheck_agenda]
  exact (netCheck_agenda _ c g).trans (groupBarCheck_agenda s c g)

theorem taskend_ends (ha : s.act g ≠ 0) (hi : s.issues (.taskend g) = true) (h0 : s.curGrp.inline = []) :
    Yields (.taskend g) s (fun u => (s.groupIn u).ended = true ∧ (s.groupIn u).slot0.mask = 0
      ∧ (s.groupIn u).slot1.mask = 0 ∧ (s.groupIn u).stackTop = 0
      ∧ ∃ l, u.agenda = l ++ [.groupRetire s.cur.core s.cur.gid] ∧ (s.curUnit.weave = none → l = s.agenda)) := by
  have hb := (begun_of_hold hi rfl).1
  generalize hw : s.begun (.taskend g) = w at hb
  have eff := effTaskend_ends (w := w) (by rw [hb.curGrp_eq]; exact h0)
  have ended := onStream_modG hb.live (·.finished) fun _ => ⟨rfl, rfl, rfl⟩
  have grp := curGrp_modG w (·.finished) hb.live
  generalize hm : w.modG (·.finished) = m at eff ended grp
  have checked := waited_unitCheck m w.cur.core w.cur.gid
  generalize hk : m.unitCheck w.cur.core w.cur.gid = k at eff checked
  have asked : Aside k (k.retireAsk w.cur.core w.cur.gid) := .of_cores rfl rfl
  refine yields_of_done (u := k.retireAsk w.cur.core w.cur.gid) rfl hi ha rfl (by rw [taskend_eff, hw]; exact eff)
    (hw ▸ ended.trans (checked.stays.onStream.trans asked.stays.onStream)) fun u d => ?_
  rw [d.grp, asked.grp, checked.curGrp, grp]
  refine ⟨rfl, rfl, rfl, rfl, k.agenda, ?_, fun hn => ?_⟩
  · rw [d.agenda, ← hb.coreKey, ← hb.groupKey]
    rfl
  · have weave : ((m.core w.cur.core).unit (m.group w.cur.core w.cur.gid).uid).weave = none := by
      obtain ⟨qs, unit⟩ := hb.unit
      have units : (m.core w.cur.core).units = w.curCore.units := by
        rw [← hm]
        exact units_modG w _ hb.live
      have uid : (m.group w.cur.core w.cur.gid).uid = w.curGrp.uid := by
        have same : m.group w.cur.core w.cur.gid = m.curGrp := by rw [← hm]; rfl
        rw [same, grp]
        rfl
      have same : (m.core w.cur.core).unit (m.group w.cur.core w.cur.gid).uid = w.curUnit := by
        show (kget _ _).getD _ = (kget w.curGrp.uid w.curCore.units).getD _
        rw [units, uid]
      rw [same, unit]
      exact hn
    rw [← hk, unitCheck_agenda weave, ← hm]
    show w.agenda = s.agenda
    rw [hb.only]

/-! ### The end of an inline child (R37) -/

/-- The group that an inline child's end leaves: its caller's frame f, and the frames below it. -/
def Group.back (g : Group) (f : InlineFrame) (r : List InlineFrame) (next : Nat) : Group :=
  { (g.modCtr 6 (· - 1)) with
    launch := f.launch, dict := f.dict, seg := f.seg, inline := r, inlineDepth := g.inlineDepth - 1, stackTop := f.top, pool := f.pool,
    slot0 := { f.slot0 with next := max f.slot0.next next, fmt := g.slot0.fmt },
    slot1 := { f.slot1 with next := max f.slot1.next next, fmt := g.slot1.fmt } }

theorem inlineReturn_last {w : State} {f : InlineFrame} {r : List InlineFrame} (h : w.curGrp.inline = f :: r) (hg : w.lpb.grid ≤ f.unitIx + 1) :
    w.inlineReturn = { (w.modG (·.back f r (w.curCore.pclk + 1))).flush w.cur.core with launches := kdel w.curGrp.launch w.launches } := by
  unfold State.inlineReturn
  rw [h]
  dsimp only
  rw [if_neg (by omega)]
  rfl

theorem inlineReturn_next {w : State} {f : InlineFrame} {r : List InlineFrame} (h : w.curGrp.inline = f :: r) (hg : f.unitIx + 1 < w.lpb.grid) :
    w.inlineReturn = w.inlineStart w.curGrp.launch (f.unitIx + 1) f := by
  unfold State.inlineReturn
  rw [h]
  exact if_pos hg

theorem slot0_fmt {w : State} (hb : Begun s w) : w.curGrp.slot0.fmt = s.curGrp.slot0.fmt := by
  have two : s.cur.slot = 0 ∨ s.cur.slot = 1 := by
    have := hb.slot_lt
    rw [hb.slotKey] at this
    omega
  rcases two with h | h
  · have fmt : (w.curGrp.slot w.cur.slot).fmt = (s.curGrp.slot s.cur.slot).fmt := hb.fmt
    rw [hb.slotKey, h] at fmt
    exact fmt
  · have other := hb.other
    rw [h] at other
    exact congrArg PcSlot.fmt other

theorem taskend_next (ha : s.act g ≠ 0) (hi : s.issues (.taskend g) = true) {f : InlineFrame} {r : List InlineFrame}
    (h : s.curGrp.inline = f :: r) (hg : f.unitIx + 1 < s.lpb.grid) :
    Yields (.taskend g) s (fun u => (s.groupIn u).launch = s.curGrp.launch
      ∧ (s.groupIn u).inline = { f with unitIx := f.unitIx + 1 } :: r ∧ (s.groupIn u).slot0.mask = allLanes) := by
  have hb := (begun_of_hold hi rfl).1
  generalize hw : s.begun (.taskend g) = w at hb
  have frames : w.curGrp.inline = f :: r := by rw [hb.curGrp_eq]; exact h
  have eff := (effTaskend_returns frames).trans (inlineReturn_next frames (by rw [hb.lpb]; exact hg))
  obtain ⟨launch, inline, -, -, mask, -⟩ := inlineStart_grp hb.live w.curGrp.launch (f.unitIx + 1) f
  refine yields_of_done (u := w.inlineStart w.curGrp.launch (f.unitIx + 1) f) rfl hi ha rfl (by rw [taskend_eff, hw]; exact eff)
    (hw ▸ onStream_inlineStart hb.live ..) fun u d => ?_
  rw [d.grp]
  refine ⟨?_, ?_, mask⟩
  · rw [launch, hb.curGrp_eq]
  · rw [inline, frames, if_neg (Nat.succ_ne_zero _)]
    rfl

theorem taskend_back (ha : s.act g ≠ 0) (hi : s.issues (.taskend g) = true) {f : InlineFrame} {r : List InlineFrame}
    (h : s.curGrp.inline = f :: r) (hg : s.lpb.grid ≤ f.unitIx + 1) :
    Yields (.taskend g) s (fun u => u.launches = kdel s.curGrp.launch s.launches
      ∧ (s.groupIn u).launch = f.launch ∧ (s.groupIn u).dict = f.dict ∧ (s.groupIn u).inline = r
      ∧ (s.groupIn u).slot0.pc = f.slot0.pc ∧ (s.groupIn u).slot0.mask = f.slot0.mask
      ∧ (s.groupIn u).slot0.fmt = s.curGrp.slot0.fmt ∧ (s.groupIn u).inlineDepth = s.curGrp.inlineDepth - 1
      ∧ (s.coreIn u).lines = [] ∧ (s.linesOk s.cur.core → ∀ k, HomeBytes s u s.cur.core k)
      ∧ (s.groupIn u).ctrs = s.curGrp.ctrs.set 6 (s.curGrp.ctrs.getD 6 0 - 1)) := by
  have hb := (begun_of_hold hi rfl).1
  generalize hw : s.begun (.taskend g) = w at hb
  have frames : w.curGrp.inline = f :: r := by rw [hb.curGrp_eq]; exact h
  have eff := (effTaskend_returns frames).trans (inlineReturn_last frames (by rw [hb.lpb]; exact hg))
  have back := onStream_modG hb.live (·.back f r (w.curCore.pclk + 1)) fun _ => ⟨rfl, rfl, rfl⟩
  have grp := curGrp_modG w (·.back f r (w.curCore.pclk + 1)) hb.live
  have lines : ((w.modG (·.back f r (w.curCore.pclk + 1))).core s.cur.core).lines = s.curCore.lines := by
    have core := curCore_modG w (·.back f r (w.curCore.pclk + 1)) hb.live
    rw [← hb.coreKey]
    show (w.modG _).curCore.lines = _
    rw [core]
    show w.curCore.lines = _
    rw [hb.core]
  have kept : (w.modG (·.back f r (w.curCore.pclk + 1))).exact = s.exact ∧ (w.modG (·.back f r (w.curCore.pclk + 1))).board = s.board
      ∧ (w.modG (·.back f r (w.curCore.pclk + 1))).mem = s.mem := by
    show w.exact = _ ∧ w.board = _ ∧ w.mem = _
    rw [hb.only]
    exact ⟨rfl, rfl, rfl⟩
  generalize w.modG (·.back f r (w.curCore.pclk + 1)) = m at eff back grp lines kept
  have flushed := memoryOnly_flush m w.cur.core
  have left : Aside (m.flush w.cur.core) { m.flush w.cur.core with launches := kdel w.curGrp.launch w.launches } := .of_cores rfl rfl
  have aside := (Aside.of_memory flushed).trans left
  refine yields_of_done (u := { m.flush w.cur.core with launches := kdel w.curGrp.launch w.launches }) rfl hi ha rfl
    (by rw [taskend_eff, hw]; exact eff) (hw ▸ back.trans aside.stays.onStream) fun u d => ?_
  have old : w.curGrp = { s.curGrp with banks := w.curGrp.banks, rlbl := w.curGrp.rlbl, slot0 := w.curGrp.slot0, slot1 := w.curGrp.slot1 } :=
    hb.curGrp_eq
  rw [d.grp, aside.grp, grp]
  refine ⟨?_, rfl, rfl, rfl, rfl, rfl, slot0_fmt hb, ?_, ?_, fun ok => ?_, ?_⟩
  · rw [d.launches, hb.curGrp_eq, hb.only]
  · show w.curGrp.inlineDepth - 1 = _
    rw [old]
  · rw [d.lines]
    show ((m.flush w.cur.core).core (m.flush w.cur.core).cur.core).lines = []
    rw [flushed.cur, back.cur]
    exact flush_lines ..
  · exact homeBytes_flush (m := m) lines kept.1 kept.2.1 kept.2.2 (by rw [d.mem, hb.coreKey]) (by rw [d.rest, hb.coreKey]) ok
  · show w.curGrp.ctrs.set 6 (w.curGrp.ctrs.getD 6 0 - 1) = _
    rw [old]

end

/-- Settles O31: FORK by where its child goes, the launches, and the two ways that JOIN and TASKEND end. -/
theorem taskResults : Obligations.TaskResults := by
  unfold Obligations.TaskResults
  intro s g sL sD ha hh
  refine ⟨fun hi l t e hr => ⟨fork_queues ha hh hi hr, fork_spills ha hh hi hr, fork_inlines ha hi hr⟩, fun hi l t e hr => spawn_adds ha hi hr,
    fun hi => ⟨fun l t e hr => launch_enters ha hi hr, launch_rejects ha hi⟩, fun hi => ⟨join_goes_on ha hi, join_waits ha hh hi⟩,
    fun hi => ⟨taskend_ends ha hi, fun f r h => ⟨taskend_back ha hi h, taskend_next ha hi h⟩⟩⟩

end Sys2Proof.Machine
end

section
/-! EXIT (R33, R142, R143): the lanes leave, the chain is walked down, and the group goes on or ends (O12). -/

namespace Sys2Proof.Machine

/-! ### The records of the stack leave the stream in place -/

theorem onStream_modS {a : State} (h : a.live = true) (f : PcSlot → PcSlot) : OnStream a (a.modS f) :=
  onStream_modG h _ fun g => by rw [modSlot_eq]; exact ⟨rfl, rfl, rfl⟩

theorem modS_keeps {a : State} (h : a.live = true) (f : PcSlot → PcSlot) : (a.modS f).agenda = a.agenda
    ∧ (a.modS f).curUnit = a.curUnit ∧ (a.modS f).curGrp.stackTop = a.curGrp.stackTop ∧ (a.modS f).curGrp.inline = a.curGrp.inline := by
  have grp := (curGrp_modS a f h).trans (modSlot_eq _ _ f)
  refine ⟨rfl, ?_, by rw [grp], by rw [grp]⟩
  show (a.modS f).curCore.unit (a.modS f).curGrp.uid = _
  rw [grp, curCore_modS a f h]
  rfl

theorem onStream_settleRec (s : State) (k : Nat) : OnStream s (s.settleRec k) := (memoryOnly_settleV s _ _ _ _).stays.onStream

theorem onStream_settleRecs (l : List Nat) (s : State) : OnStream s (l.foldl State.settleRec s) := by
  induction l generalizing s with
  | nil => exact .refl s
  | cons k r ih => exact (onStream_settleRec s k).trans (ih _)

theorem onStream_markFar {a : State} (h : a.live = true) (pa : Nat) : OnStream a (a.markFar pa) := by
  unfold State.markFar
  split
  · exact onStream_modG h _ fun _ => ⟨rfl, rfl, rfl⟩
  · exact .refl a

theorem onStream_storeOwn {c launch root : Nat} {priv : Bool} (l : List Byte) {s t : State} {va : Nat} (h : s.live = true)
    (stored : s.storeOwn c launch root priv va l = some t) : OnStream s t := by
  induction l generalizing s va with
  | nil =>
    obtain rfl := Option.some.inj stored
    exact .refl s
  | cons v r ih =>
    have walked : OnStream s (s.settleWalk (coreDie c) root (va % 2 ^ 56)) := (memoryOnly_settleWalk s _ _ _).stays.onStream
    unfold State.storeOwn at stored
    dsimp only at stored
    split at stored
    next leaf size _ =>
      split at stored
      · have byte := walked.trans (memoryOnly_storeG _ c launch (leafPa leaf size (va % 2 ^ 56)) [v] 0 (leafType leaf)).stays.onStream
        have marked := byte.trans (onStream_markFar (byte.live h) (leafPa leaf size (va % 2 ^ 56)))
        exact marked.trans (ih (marked.live h) stored)
      · exact nomatch stored
    next => exact nomatch stored

theorem onStream_putRec {s : State} (h : s.live = true) (k : Nat) (r : Rec) : OnStream s (s.putRec k r) := by
  unfold State.putRec
  cases stored : s.storeOwn s.cur.core s.curGrp.launch s.root s.priv (s.recVa k) r with
  | none => exact .refl s
  | some t => exact onStream_storeOwn r h stored

theorem onStream_settleTop {s : State} (h : s.live = true) (k : Nat) : OnStream s (s.settleTop k) := by
  induction k generalizing s with
  | zero => exact onStream_modG h _ fun _ => ⟨rfl, rfl, rfl⟩
  | succ k ih =>
    have settled := onStream_settleRec s (k + 1)
    unfold State.settleTop
    dsimp only
    split
    · exact settled.trans (onStream_modG (settled.live h) _ fun _ => ⟨rfl, rfl, rfl⟩)
    · exact settled.trans (ih (settled.live h))

theorem onStream_popRec {s : State} (h : s.live = true) (k : Nat) : OnStream s (s.popRec k) := by
  have settled := onStream_settleRec s k
  have put := settled.trans (onStream_putRec (settled.live h) k
    (recPut ((s.settleRec k).getRec k) 16 4 (putFld (recWord ((s.settleRec k).getRec k)) 24 1 0)))
  exact put.trans (onStream_settleTop (put.live h) _)

theorem onStream_dropLanes (e : W32) (n d : Nat) {s : State} (h : s.live = true) : OnStream s (s.dropLanes e n d) := by
  induction n generalizing s d with
  | zero => exact .refl s
  | succ n ih =>
    unfold State.dropLanes
    dsimp only
    split
    · exact .refl s
    · have settled := onStream_settleRec s d
      have put := settled.trans (onStream_putRec (settled.live h) d
        (recPut ((s.settleRec d).getRec d) 0 4 (recU ((s.settleRec d).getRec d) &&& ~~~e).toNat))
      exact put.trans (ih _ (put.live h))

theorem onStream_unwind (n : Nat) {s : State} (h : s.live = true) : OnStream s (s.unwind n) := by
  induction n generalizing s with
  | zero => exact .refl s
  | succ n ih =>
    have settled := onStream_settleRec s s.curSlot.depth
    have popped (f : PcSlot → PcSlot) (k : Nat) : OnStream s (((s.settleRec s.curSlot.depth).modS f).popRec k) := by
      have steered := settled.trans (onStream_modS (settled.live h) f)
      exact steered.trans (onStream_popRec (steered.live h) k)
    unfold State.unwind
    dsimp only
    split
    · exact .refl s
    split
    · exact (popped _ _).trans (ih ((popped _ _).live h))
    split
    · exact popped _ _
    · exact settled

theorem onStream_leaveLanes (e : W32) {s : State} (h : s.live = true) : OnStream s (s.leaveLanes e) := by
  have left := onStream_modS h fun p => { p with mask := p.mask &&& ~~~e }
  have dropped := left.trans (onStream_dropLanes e 256 s.curSlot.depth (left.live h))
  exact dropped.trans (onStream_unwind 256 (dropped.live h))

/-- At depth 0 there is no chain to walk down. -/
theorem leaveLanes_flat (e : W32) {s : State} (h : s.live = true) (h0 : s.curSlot.depth = 0) :
    s.leaveLanes e = s.modS (fun p => { p with mask := p.mask &&& ~~~e }) := by
  have depth : (s.modS (fun p => { p with mask := p.mask &&& ~~~e })).curSlot.depth = 0 := by
    rw [curSlot_modS s _ h]
    exact h0
  unfold State.leaveLanes
  rw [h0]
  generalize s.modS (fun p => { p with mask := p.mask &&& ~~~e }) = m at depth
  have dropped : m.dropLanes e 256 0 = m := if_pos rfl
  rw [dropped]
  exact if_pos depth

/-! ### The refill of an empty slot (R142) -/

/-- A refill without a path empties the slot. -/
def State.emptied (s : State) : State := s.modS (fun p => { PcSlot.empty with fmt := p.fmt, kept := p.kept })

/-- A stack without records has no path to give. -/
theorem refill_bare {s : State} (h : s.curGrp.stackTop = 0) : s.refill = s.emptied := by
  have found : s.findSpill s.curGrp.stackTop = none := by rw [h]; rfl
  have seen : s.seenBy = [] := by
    have none_ : s.curGrp.stackTop + 1 - max (s.stackBase + 1) ((s.findSpill s.curGrp.stackTop).getD 0) = 0 := by omega
    unfold State.seenBy
    dsimp only
    rw [none_]
    rfl
  unfold State.refill
  rw [seen]
  show (match s.findSpill s.curGrp.stackTop with | none => _ | some k => _) = _
  rw [found]
  rfl

/-- Record k of u without its spilled path. -/
def State.unspilled (u : State) (k : Nat) : State := u.putRec k (recPut (u.getRec k) 16 4 (putFld (recWord (u.getRec k)) 0 1 0))

/-- The slot on the path of record q, number k, lat clk later. -/
def PcSlot.onPath (p : PcSlot) (q : Rec) (k lat : Nat) : PcSlot :=
  { p with mask := BitVec.ofNat 32 (imgNat q 20 4), pc := BitVec.ofNat 32 (imgNat q 24 4), depth := k, fmt := recF q,
           bases := (List.range 5).map (fun i => imgNat q (32 + 8 * i) 8), next := p.next + lat, wait := .none }

/-- The stream takes the spilled path of record k. -/
def State.takePath (u : State) (k : Nat) : State :=
  { ((u.unspilled k).modS (·.onPath (u.getRec k) k (Config.latency (u.unspilled k).free))) with free := (u.unspilled k).free + 1 }

/-- A refill that finds a path takes it. -/
theorem refill_takes {s : State} {k : Nat}
    (h : (s.seenBy.foldl State.settleRec s).findSpill (s.seenBy.foldl State.settleRec s).curGrp.stackTop = some k) :
    s.refill = (s.seenBy.foldl State.settleRec s).takePath k := by
  unfold State.refill
  dsimp only
  generalize s.seenBy.foldl State.settleRec s = u at h
  rw [h]
  rfl

theorem takePath_facts {u : State} (h : u.live = true) (k : Nat) : OnStream u (u.takePath k)
    ∧ (u.takePath k).curSlot = (u.unspilled k).curSlot.onPath (u.getRec k) k (Config.latency (u.unspilled k).free)
    ∧ (u.takePath k).mem = (u.unspilled k).mem ∧ (u.takePath k).curCore.lines = (u.unspilled k).curCore.lines
    ∧ (u.takePath k).curGrp.stackTop = (u.unspilled k).curGrp.stackTop := by
  have put : OnStream u (u.unspilled k) := onStream_putRec h k _
  unfold State.takePath
  generalize u.unspilled k = p at put
  generalize Config.latency p.free = lat
  have lp := put.live h
  have steered := onStream_modS lp (·.onPath (u.getRec k) k lat)
  have slot := curSlot_modS p (·.onPath (u.getRec k) k lat) lp
  have core := curCore_modS p (·.onPath (u.getRec k) k lat) lp
  have grp := curGrp_modS p (·.onPath (u.getRec k) k lat) lp
  have mem : (p.modS (·.onPath (u.getRec k) k lat)).mem = p.mem := rfl
  generalize p.modS (·.onPath (u.getRec k) k lat) = m at steered slot core grp mem
  have counted : Aside m { m with free := p.free + 1 } := .of_cores rfl rfl
  refine ⟨put.trans (steered.trans counted.stays.onStream), slot, mem, ?_, ?_⟩
  · show m.curCore.lines = _
    rw [core]
    rfl
  · show m.curGrp.stackTop = _
    rw [grp, modSlot_eq]

/-! ### The end of an EXIT (R143) -/

/-- The issuing group ends and is retired. -/
def State.endOwn (s : State) : State :=
  ((s.modG (fun g => { g with ended := true })).unitCheck s.cur.core s.cur.gid).retireAsk s.cur.core s.cur.gid

/-- What an EXIT does once its lanes have left and its slot is filled again. -/
def State.endExit (s : State) : State :=
  if s.lanesGone && !s.curGrp.inline.isEmpty then s.inlineReturn
  else if s.lanesGone then s.endOwn
  else s.unitCheck s.cur.core s.cur.gid

theorem exitLanes_tile {s : State} (h : s.onShader = false) (e : W32) : s.exitLanes e = s.endOwn := by
  unfold State.exitLanes
  rw [h]
  rfl

/-- The slot that an EXIT leaves empty is filled again. -/
def State.refilled (s : State) : State := if s.curSlot.mask == 0 then s.refill else s

theorem exitLanes_shader {s : State} (h : s.onShader = true) (e : W32) : s.exitLanes e = (s.leaveLanes e).refilled.endExit := by
  unfold State.exitLanes
  rw [h]
  generalize s.leaveLanes e = m
  rfl

theorem exitLanes_left {s : State} {e : W32} (h : s.onShader = true) (hm : (s.leaveLanes e).curSlot.mask ≠ 0) :
    s.exitLanes e = (s.leaveLanes e).endExit :=
  (exitLanes_shader h e).trans (congrArg State.endExit (if_neg fun empty => hm (beq_iff_eq.1 empty)))

theorem exitLanes_emptied {s : State} {e : W32} (h : s.onShader = true) (hm : (s.leaveLanes e).curSlot.mask = 0) :
    s.exitLanes e = (s.leaveLanes e).refill.endExit :=
  (exitLanes_shader h e).trans (congrArg State.endExit (if_pos (beq_iff_eq.2 hm)))

/-- While the stream has lanes, its group has. -/
theorem lanesGone_own {s : State} (h : s.curSlot.mask ≠ 0) : s.lanesGone = false := by
  have own : (s.curGrp.slot s.cur.slot).mask ≠ 0 := h
  unfold Group.slot at own
  unfold State.lanesGone
  split at own
  · rw [beq_eq_false_iff_ne.2 own]
    rfl
  · rw [beq_eq_false_iff_ne.2 own, Bool.and_false]
    rfl

/-- A group with two empty slots and no record has no lanes. -/
theorem lanesGone_bare {s : State} (h : s.cur.slot < 2) (own : s.curSlot.mask = 0) (other : (s.curGrp.slot (1 - s.cur.slot)).mask = 0)
    (ht : s.curGrp.stackTop = 0) : s.lanesGone = true := by
  have both : s.curGrp.slot0.mask = 0 ∧ s.curGrp.slot1.mask = 0 := by
    have two : s.cur.slot = 0 ∨ s.cur.slot = 1 := by omega
    unfold State.curSlot at own
    rcases two with e | e <;> rw [e] at own other
    · exact ⟨own, other⟩
    · exact ⟨other, own⟩
  unfold State.lanesGone
  rw [both.1, both.2, ht]
  rfl

theorem endExit_goes_on {s : State} (h : s.curSlot.mask ≠ 0) : s.endExit = s.unitCheck s.cur.core s.cur.gid := by
  unfold State.endExit
  rw [lanesGone_own h]
  rfl

theorem endExit_ends {s : State} (h : s.lanesGone = true) (h0 : s.curGrp.inline = []) : s.endExit = s.endOwn := by
  unfold State.endExit
  rw [h, h0]
  rfl

theorem endOwn_facts {s : State} (h : s.live = true) : OnStream s s.endOwn ∧ s.endOwn.curGrp.ended = true
    ∧ ∃ l, s.endOwn.agenda = l ++ [.groupRetire s.cur.core s.cur.gid] ∧ (s.curUnit.weave = none → l = s.agenda) := by
  have ended := onStream_modG h (fun g => { g with ended := true }) fun _ => ⟨rfl, rfl, rfl⟩
  have grp := curGrp_modG s (fun g => { g with ended := true }) h
  have units := units_modG s (fun g => { g with ended := true }) h
  have agenda : (s.modG (fun g => { g with ended := true })).agenda = s.agenda := rfl
  unfold State.endOwn
  generalize s.modG (fun g => { g with ended := true }) = m at ended grp units agenda
  have checked := waited_unitCheck m s.cur.core s.cur.gid
  have calm (hn : s.curUnit.weave = none) : (m.unitCheck s.cur.core s.cur.gid).agenda = s.agenda := by
    refine (unitCheck_agenda ?_).trans agenda
    have same : m.group s.cur.core s.cur.gid = m.curGrp := by rw [← ended.cur]; rfl
    have unit : (m.core s.cur.core).unit (m.group s.cur.core s.cur.gid).uid = s.curUnit := by
      rw [same, grp]
      have core : m.core s.cur.core = m.curCore := by rw [← ended.cur]; rfl
      show (kget s.curGrp.uid (m.core s.cur.core).units).getD _ = (kget s.curGrp.uid s.curCore.units).getD _
      rw [core, units]
    rw [unit]
    exact hn
  generalize m.unitCheck s.cur.core s.cur.gid = k at checked calm
  have asked : Aside k (k.retireAsk s.cur.core s.cur.gid) := .of_cores rfl rfl
  refine ⟨ended.trans (checked.stays.onStream.trans asked.stays.onStream), ?_, k.agenda, rfl, calm⟩
  rw [asked.grp, checked.curGrp, grp]

/-! ### EXIT -/

section
variable {s : State} {g : Guard}

theorem exit_eff : (semOf (soloSlot (.exit g)) (.exit g)).eff = effExit g := rfl

theorem effExit_begun {w : State} (hb : Begun s w) : effExit g w = w.exitLanes (s.act g) := by
  unfold effExit
  rw [hb.act]

theorem slot_but_wait {p q : PcSlot} (h : q = { p with wait := q.wait }) :
    q.mask = p.mask ∧ q.pc = p.pc ∧ q.depth = p.depth ∧ q.fmt = p.fmt ∧ q.bases = p.bases := by
  rw [h]
  exact ⟨rfl, rfl, rfl, rfl, rfl⟩

/-- An EXIT that leaves its stream lanes, in state m: the stream goes on as in m. -/
theorem exit_goes_on {m : State} (ha : s.act g ≠ 0) (hi : s.issues (.exit g) = true) (on : OnStream (s.begun (.exit g)) m)
    (eff : (s.begun (.exit g)).exitLanes (s.act g) = m.endExit) (hm : m.curSlot.mask ≠ 0) :
    Yields (.exit g) s (fun t => s.slotIn t = { m.curSlot with wait := (s.slotIn t).wait }
      ∧ t.mem = m.mem ∧ (s.coreIn t).lines = m.curCore.lines ∧ (s.groupIn t).stackTop = m.curGrp.stackTop) := by
  have hb := (begun_of_hold hi rfl).1
  have done : effExit g (s.begun (.exit g)) = _ := (effExit_begun hb).trans (eff.trans (endExit_goes_on hm))
  have checked := waited_unitCheck m m.cur.core m.cur.gid
  generalize m.unitCheck m.cur.core m.cur.gid = r at done checked
  refine yields_of_done (u := r) rfl hi ha rfl ?_ (on.trans checked.stays.onStream) fun t d => ⟨?_, ?_, ?_, ?_⟩
  · rw [exit_eff (g := g)]
    exact done
  · rw [d.slot]
    exact checked.curSlot
  · rw [d.mem, checked.mem]
  · rw [d.lines]
    show (r.core r.cur.core).lines = _
    rw [checked.cur]
    exact checked.lines _
  · rw [d.grp, checked.curGrp]

/-- An EXIT whose group ends in state m. -/
theorem exit_ends {m : State} (ha : s.act g ≠ 0) (hi : s.issues (.exit g) = true) (on : OnStream (s.begun (.exit g)) m)
    (eff : (s.begun (.exit g)).exitLanes (s.act g) = m.endOwn) (agenda : m.agenda = s.agenda) (weave : m.curUnit.weave = s.curUnit.weave) :
    Yields (.exit g) s (fun t => (s.groupIn t).ended = true ∧ ∃ l, t.agenda = l ++ [.groupRetire s.cur.core s.cur.gid]
      ∧ (s.curUnit.weave = none → l = s.agenda)) := by
  have hb := (begun_of_hold hi rfl).1
  have done : effExit g (s.begun (.exit g)) = _ := (effExit_begun hb).trans eff
  obtain ⟨own, ended, l, asks, calm⟩ := endOwn_facts (on.live hb.live)
  generalize m.endOwn = r at done own ended asks
  refine yields_of_done (u := r) rfl hi ha rfl ?_ (on.trans own) fun t d => ⟨?_, l, ?_, fun hn => ?_⟩
  · rw [exit_eff (g := g)]
    exact done
  · rw [d.grp]
    exact ended
  · rw [d.agenda, asks, on.cur, hb.coreKey, hb.groupKey]
  · exact (calm (weave.trans hn)).trans agenda

theorem begun_agenda {w : State} (hb : Begun s w) : w.agenda = s.agenda := by rw [hb.only]

theorem begun_weave {w : State} (hb : Begun s w) : w.curUnit.weave = s.curUnit.weave := by
  obtain ⟨_, unit⟩ := hb.unit
  rw [unit]

/-- The slot of the begun issue at depth 0, after lanes e left. -/
theorem leaveLanes_begun {w : State} (hb : Begun s w) (h0 : s.curSlot.depth = 0) (e : W32) :
    w.leaveLanes e = w.modS (fun p => { p with mask := p.mask &&& ~~~e }) ∧ (w.leaveLanes e).curSlot.mask = s.curSlot.mask &&& ~~~e := by
  obtain ⟨_, _, _, slot⟩ := hb.slot
  have flat := leaveLanes_flat e hb.live (by rw [slot]; exact h0)
  refine ⟨flat, ?_⟩
  rw [flat, curSlot_modS w _ hb.live, slot]

theorem exit_left (ha : s.act g ≠ 0) (hi : s.issues (.exit g) = true) (sh : s.onShader = true)
    (hm : ((s.begun (.exit g)).leaveLanes (s.act g)).curSlot.mask ≠ 0) :
    Yields (.exit g) s (fun t => s.slotIn t = { ((s.begun (.exit g)).leaveLanes (s.act g)).curSlot with wait := (s.slotIn t).wait }
      ∧ t.mem = ((s.begun (.exit g)).leaveLanes (s.act g)).mem
      ∧ (s.coreIn t).lines = ((s.begun (.exit g)).leaveLanes (s.act g)).curCore.lines
      ∧ (s.groupIn t).stackTop = ((s.begun (.exit g)).leaveLanes (s.act g)).curGrp.stackTop) := by
  have hb := (begun_of_hold hi rfl).1
  exact exit_goes_on ha hi (onStream_leaveLanes _ hb.live) (exitLanes_left (hb.onShader.trans sh) hm) hm

/-- The emptied slot takes the spilled path of record k. -/
theorem exit_refills {u : State} {k : Nat} (ha : s.act g ≠ 0) (hi : s.issues (.exit g) = true) (sh : s.onShader = true)
    (hm : ((s.begun (.exit g)).leaveLanes (s.act g)).curSlot.mask = 0)
    (hu : ((s.begun (.exit g)).leaveLanes (s.act g)).seenBy.foldl State.settleRec ((s.begun (.exit g)).leaveLanes (s.act g)) = u)
    (hk : u.findSpill u.curGrp.stackTop = some k) (hq : BitVec.ofNat 32 (imgNat (u.getRec k) 20 4) ≠ 0) :
    Yields (.exit g) s (fun t => Refilled (u.getRec k) k (s.slotIn t) ∧ t.mem = (u.unspilled k).mem
      ∧ (s.coreIn t).lines = (u.unspilled k).curCore.lines ∧ (s.groupIn t).stackTop = (u.unspilled k).curGrp.stackTop) := by
  have hb := (begun_of_hold hi rfl).1
  have left := onStream_leaveLanes (s.act g) hb.live
  have eff := exitLanes_emptied (hb.onShader.trans sh) hm
  generalize (s.begun (.exit g)).leaveLanes (s.act g) = w at hu left eff
  have settled := onStream_settleRecs w.seenBy w
  have takes := refill_takes (s := w) (k := k) (by rw [hu]; exact hk)
  rw [hu] at settled takes
  have seen := left.trans settled
  obtain ⟨on, slot, mem, lines, top⟩ := takePath_facts (seen.live hb.live) k
  rw [takes] at eff
  obtain ⟨t, ht, slot', mem', lines', top'⟩ := exit_goes_on ha hi (seen.trans on) eff (by rw [slot]; exact hq)
  refine ⟨t, ht, ?_, mem'.trans mem, lines'.trans lines, top'.trans top⟩
  rw [slot', slot]
  exact ⟨rfl, rfl, rfl, rfl, rfl⟩

/-- The last lanes of a group without records leave: its other slot is empty too. -/
theorem exit_last (ha : s.act g ≠ 0) (hi : s.issues (.exit g) = true) (sh : s.onShader = true) (h0 : s.curSlot.depth = 0)
    (hl : s.curSlot.mask &&& ~~~(s.act g) = 0) (ho : (s.curGrp.slot (1 - s.cur.slot)).mask = 0) (ht : s.curGrp.stackTop = 0)
    (hn : s.curGrp.inline = []) :
    Yields (.exit g) s (fun t => (s.groupIn t).ended = true ∧ ∃ l, t.agenda = l ++ [.groupRetire s.cur.core s.cur.gid]
      ∧ (s.curUnit.weave = none → l = s.agenda)) := by
  have hb := (begun_of_hold hi rfl).1
  obtain ⟨flat, mask⟩ := leaveLanes_begun hb h0 (s.act g)
  have eff := exitLanes_emptied (hb.onShader.trans sh) (mask.trans hl)
  rw [flat] at eff
  have left := onStream_modS hb.live fun p => { p with mask := p.mask &&& ~~~(s.act g) }
  have other := other_modS (fun p => { p with mask := p.mask &&& ~~~(s.act g) }) hb.live
  obtain ⟨agenda, unit, top, inline⟩ := modS_keeps hb.live fun p => { p with mask := p.mask &&& ~~~(s.act g) }
  generalize hv : (s.begun (.exit g)).modS (fun p => { p with mask := p.mask &&& ~~~(s.act g) }) = v at eff left other agenda unit top inline
  have lv := left.live hb.live
  have bare : v.curGrp.stackTop = 0 := by rw [top, hb.curGrp_eq]; exact ht
  rw [refill_bare bare] at eff
  have emptied := onStream_modS lv fun p => { PcSlot.empty with fmt := p.fmt, kept := p.kept }
  have empty : v.emptied.curSlot.mask = 0 := by
    unfold State.emptied
    rw [curSlot_modS v _ lv]
    rfl
  have lone : (v.emptied.curGrp.slot (1 - v.emptied.cur.slot)).mask = 0 := by
    refine (congrArg PcSlot.mask (other_modS _ lv)).trans ?_
    rw [left.cur, other, hb.alone]
    exact ho
  obtain ⟨agenda', unit', top', inline'⟩ := modS_keeps lv fun p => { PcSlot.empty with fmt := p.fmt, kept := p.kept }
  have gone : v.emptied.lanesGone = true := lanesGone_bare (live_parts (emptied.live lv)).2.2 empty lone (top'.trans bare)
  have calls : v.emptied.curGrp.inline = [] := by
    refine inline'.trans (inline.trans ?_)
    rw [hb.curGrp_eq]
    exact hn
  refine exit_ends ha hi (left.trans emptied) (eff.trans (endExit_ends gone calls)) (agenda'.trans (agenda.trans (begun_agenda hb))) ?_
  exact (congrArg WUnit.weave (unit'.trans unit)).trans (begun_weave hb)

end

/-- Settles O12: the stream that keeps lanes or takes a spilled path goes on with them, and a group without lanes ends. -/
theorem exitEnds : Obligations.ExitEnds := by
  unfold Obligations.ExitEnds
  intro s g hi ha
  have hb := (begun_of_hold (i := .exit g) hi rfl).1
  refine ⟨fun sh h0 hl => ?_, exit_last ha hi, fun tile => ?_, fun sh hm => ?_, fun sh hm k hk hq => ?_⟩
  · have mask := (leaveLanes_begun hb h0 (s.act g)).2
    obtain ⟨t, ht, slot, -⟩ := exit_left ha hi sh (mask.symm ▸ hl)
    exact ⟨t, ht, (slot_but_wait slot).1.trans mask⟩
  · exact exit_ends ha hi (.refl _) (exitLanes_tile (hb.onShader.trans tile) _) (begun_agenda hb) (begun_weave hb)
  · obtain ⟨t, ht, slot, stored⟩ := exit_left ha hi sh hm
    obtain ⟨mask, pc, depth, fmt, bases⟩ := slot_but_wait slot
    exact ⟨t, ht, mask, pc, depth, fmt, bases, stored⟩
  · exact exit_refills ha hi sh hm rfl hk hq

end Sys2Proof.Machine
end

section

/-! SUPPORT. What a slot word decodes to and what encodes to it: the word of zeros reads as NOP in every class, and NOP has the one
encoding in class C. -/

namespace Sys2Proof

/-- Refutes O56: the zero word of a class other than C decodes to NOP (R65), which encodes to the zero word of class C alone. -/
theorem not_decodeSound : ¬ Obligations.DecodeSound := by
  unfold Obligations.DecodeSound
  intro sound
  obtain ⟨-, canonical⟩ := sound .shader true 0 .v 0 .nop (by decide) (by decide) (by rfl)
  exact absurd canonical (by decide)

/-- Settles O57: each word of the tables is decoded by evaluation. -/
theorem decodeWords : Obligations.DecodeWords := by
  unfold Obligations.DecodeWords
  decide +kernel

end Sys2Proof
end

section

/-! SUPPORT. A machine whose open exact sums stand out of order, over a line with two dirty bytes. -/

namespace Sys2Proof.Machine

theorem exec_writeBackDeadline (core line : Nat) (s : State) : exec (.writeBackDeadline core line) s = .next (s.cleanLine core line) := rfl

/-- An open sum of zero. -/
def zeroSum : ExactLine := { u := 0, w := 0, nan := false, pinf := false, ninf := false }

/-- A line whose bytes 8 and 9 are dirty. -/
def twoDirty : Line :=
  { data := List.replicate 128 5, dirty := ((List.replicate 128 false).set 8 true).set 9 true, since := some 0, lease := 0, writers := [] }

/-- Core 512 holds that line as line 0, and word 9 is listed before word 8: a look-up of word 8 stops at word 9. -/
def fallingSums : State :=
  { State.reset with cores := [(512, { Core.start 0 with lines := [(0, twoDirty)] })], exact := [(9, zeroSum), (8, zeroSum)] }

/-- Byte 9 settles word 9, whereupon word 8 is found: its sum goes home over the dirty byte 8. -/
theorem cleanLine_fallingSums : (fallingSums.cleanLine 512 0).byte 8 = 0 := by decide +kernel

/-- Refutes O47, in its clause on a dirty line that goes home: it holds of a state with any table of open exact sums, and in one whose
words are not rising a byte gone home is overwritten by the sum that a later byte of the line settles. -/
theorem not_landingResults : ¬ Obligations.LandingResults := by
  unfold Obligations.LandingResults
  rintro ⟨-, second⟩
  obtain ⟨-, lines⟩ := second fallingSums
  obtain ⟨⟨t, -, ht, home, -⟩, -⟩ := lines 512 0 twoDirty rfl rfl rfl
  rw [exec_writeBackDeadline] at ht
  obtain rfl : fallingSums.cleanLine 512 0 = t := by injection ht
  exact absurd ((home 8 (by decide) (by decide)).symm.trans cleanLine_fallingSums) (by decide)

end Sys2Proof.Machine
end

section

/-! Branches (R71, R137, R138): a stream that has moved on stands at the successor, and a taken branch moves it from there (O9). -/

namespace Sys2Proof.Machine

variable {s b u t : State} {i : Instr} {l : List SlotI}

/-! ### The place of a stream that has moved on -/

theorem Onward.pc (h : Onward s b l) : b.curSlot.pc = s.succPc := by rw [h.1]; rfl

theorem Onward.next (h : Onward s b l) : b.curSlot.next = s.succClk := by rw [h.1]; rfl

/-- Going back by the bundle's length a stream finds the PC of the bundle in issue. -/
theorem Onward.labelOf (h : Onward s b l) (hb : Begun s b) (off : W32) : b.labelOf off = s.curSlot.pc + 2 * off := by
  have len : b.cur.len = s.cur.len := by rw [hb.only]
  unfold State.labelOf State.bundlePc
  rw [h.pc, len, State.succPc, BitVec.add_sub_cancel]

theorem Begun.regTarget (hb : Begun s b) (sa : SReg) : b.regTarget sa = (s.sr sa.val).setWidth 32 &&& 0xFFFFFFFE := by
  unfold State.regTarget
  rw [hb.sr]
  rfl

/-! ### Jumps and results -/

theorem curSlot_jump (h : u.live = true) (pc : W32) (k : Nat) :
    (u.jump pc k).curSlot = { u.curSlot with pc := pc, next := u.curSlot.next + k } := curSlot_modS u _ h

theorem inflight_jump (h : u.live = true) (pc : W32) (k : Nat) : (u.jump pc k).curCore.inflight = u.curCore.inflight :=
  (congrArg Core.inflight (curCore_modS u (fun p => { p with pc := pc, next := p.next + k }) h)).trans rfl

/-- The result that slot n of the stream sends in pclk clk. -/
def State.resultAt (s : State) (n lam : Nat) (ws : List Wr) (clk : Nat) : InFlight :=
  { id := s.fresh, due := clk + lam, issued := clk, gid := s.cur.gid, gix := s.curGrp.gix, slot := n, writes := ws, dest := s.cur.destOf n ws }

/-- A core with one more result on its way. -/
def Core.send (c : Core) (f : Nat → InFlight) : Core := { c with inflight := c.inflight ++ [f c.pclk] }

theorem emit_eq (u : State) (n lam : Nat) {ws : List Wr} (hw : ws ≠ []) :
    u.emit n lam ws = { u.modC (·.send (u.resultAt n lam ws)) with fresh := u.fresh + 1 } := by
  unfold State.emit
  rw [if_neg (by simpa using hw)]
  rfl

theorem emit_nil (u : State) (n lam : Nat) : u.emit n lam [] = u := rfl

/-- Sending a result leaves the stream's group as it is. -/
theorem aside_emit (u : State) (n lam : Nat) (ws : List Wr) : Aside u (u.emit n lam ws) := by
  by_cases hw : ws = []
  · rw [hw, emit_nil]
    exact .refl u
  · rw [emit_eq u n lam hw]
    exact (Aside.modC u (·.send (u.resultAt n lam ws)) fun _ => rfl).trans (.of_cores rfl rfl)

/-- The slot of a stream that an effect has left aside. -/
theorem Aside.curSlot_eq (h : Aside b u) : u.curSlot = b.curSlot := by
  show u.curGrp.slot u.cur.slot = _
  rw [h.grp, h.cur]
  rfl

/-- A result that has been sent as the slots began lands, where the queue of results has stayed. -/
theorem lands_of_emit (hb : Begun s b) {n lam : Nat} {ws : List Wr} (hw : ws ≠ [])
    (hq : (s.coreIn t).inflight = (b.emit n lam ws).curCore.inflight) : Lands s t lam ws := by
  have sent : (t.core s.cur.core).inflight = b.curCore.inflight ++ [b.resultAt n lam ws b.curCore.pclk] := by
    rw [show (t.core s.cur.core).inflight = _ from hq, emit_core b n lam ws hb.live hw]
    rfl
  obtain ⟨-, gid, -⟩ := hb.only.cur
  refine ⟨b.resultAt n lam ws b.curCore.pclk, by simp [sent], gid, ?_, ?_, rfl⟩
  · exact congrArg Nat.cast hb.pclk
  · exact congrArg (· + lam) hb.pclk

/-! ### What a branch answers -/

/-- The stream stands at pc, may issue k clk after its successor could, and its core's results are those of u. -/
def Branched (s u : State) (pc : W32) (k : Nat) (t : State) : Prop :=
  ((s.slotIn t).pc = pc ∧ (s.slotIn t).next = s.succClk + k) ∧ (s.coreIn t).inflight = u.curCore.inflight

/-- After an effect that only sends results the stream goes on at its successor. -/
theorem branched_successor (on : Onward s b l) (aside : Aside b u) (d : Done s u t) : Branched s u s.succPc 0 t := by
  refine ⟨⟨?_, ?_⟩, by rw [d.core]⟩ <;> rw [d.slot, aside.curSlot_eq]
  · exact on.pc
  · exact on.next

/-- After results, if any, and a jump the stream goes on where that led. -/
theorem branched_jump (hb : Begun s b) (on : Onward s b l) (aside : Aside b u) {pc : W32} {k : Nat} (d : Done s (u.jump pc k) t) :
    Branched s u pc k t := by
  have live := aside.live hb.live
  refine ⟨?_, (show (s.coreIn t).inflight = (u.jump pc k).curCore.inflight by rw [d.core]).trans (inflight_jump live pc k)⟩
  rw [d.slot, curSlot_jump live pc k, ← on.next, ← aside.curSlot_eq]
  exact ⟨rfl, rfl⟩

theorem onStream_jump (hb : Begun s b) (aside : Aside b u) (pc : W32) (k : Nat) : OnStream b (u.jump pc k) :=
  aside.stays.onStream.trans (onStream_modS (aside.live hb.live) _)

/-- An instruction that, after its results, branches. -/
theorem yields_jump {pc : W32} {k : Nat} (hi : i.isSlot = true) (h : s.issues i = true) (ha : s.act (opInfo i).guard ≠ 0)
    (hh : ((semOf (soloSlot i) i).hold s).2 = s) (hu : (semOf (soloSlot i) i).eff (s.begun i) = u.jump pc k)
    (aside : Aside (s.begun i) u) : Yields i s (Branched s u pc k) := by
  obtain ⟨hb, on⟩ := begun_of_hold h hh
  exact yields_of_done hi h ha hh hu (onStream_jump hb aside pc k) fun t d => branched_jump hb on aside d

/-- An instruction that only sends results. -/
theorem yields_successor (hi : i.isSlot = true) (h : s.issues i = true) (ha : s.act (opInfo i).guard ≠ 0)
    (hh : ((semOf (soloSlot i) i).hold s).2 = s) (hu : (semOf (soloSlot i) i).eff (s.begun i) = u) (aside : Aside (s.begun i) u) :
    Yields i s (Branched s u s.succPc 0) :=
  yields_of_done hi h ha hh hu aside.stays.onStream fun _ d => branched_successor (begun_of_hold h hh).2 aside d

/-- What holds of every state of some kind holds of an answer of that kind. -/
theorem Yields.imp {P Q : State → Prop} (h : Yields i s P) (hpq : ∀ t, P t → Q t) : Yields i s Q := by
  obtain ⟨t, ht, hp⟩ := h
  exact ⟨t, ht, hpq t hp⟩

/-! ### The forms -/

variable {g : Guard} {sa sb : SReg} {off : W32} {c : Fin 13}

/-- NOP does nothing, whether or not its guard counts as one that acts. -/
theorem nop_goes_on (h : s.issues .nop = true) : Yields .nop s (Branched s (s.begun .nop) s.succPc 0) := by
  obtain ⟨hb, on⟩ := begun_of_hold h rfl
  have idle : (soloSem .nop).eff (s.begun .nop) = s.begun .nop := by
    by_cases ha : s.act (opInfo .nop).guard = 0
    · exact gated_off hb ha
    · exact gated_eff hb ha
  refine ⟨_, exec_of_issues .nop s rfl h, branched_successor on (.refl _) ?_⟩
  rw [idle]
  exact done_finish hb (.refl _) (issues_parts h).2.1 (begun_hand s .nop)

theorem bra_branches (ha : s.act g ≠ 0) (h : s.issues (.bra g off) = true) :
    Yields (.bra g off) s (Branched s (s.begun (.bra g off)) (s.curSlot.pc + 2 * off) 1) := by
  obtain ⟨hb, on⟩ := begun_of_hold h rfl
  exact yields_jump rfl h ha rfl (congrArg (State.jump _ · 1) (on.labelOf hb off)) (.refl _)

/-- An instruction that, after its results, branches under a condition. -/
theorem yields_branch {p : Prop} [Decidable p] {pc : W32} {k : Nat} (hi : i.isSlot = true) (h : s.issues i = true)
    (ha : s.act (opInfo i).guard ≠ 0) (hh : ((semOf (soloSlot i) i).hold s).2 = s)
    (hu : (semOf (soloSlot i) i).eff (s.begun i) = if p then u.jump pc k else u) (aside : Aside (s.begun i) u) :
    Yields i s (fun t => if p then Branched s u pc k t else Branched s u s.succPc 0 t) := by
  by_cases hp : p
  · simp only [if_pos hp] at hu ⊢
    exact yields_jump hi h ha hh hu aside
  · simp only [if_neg hp] at hu ⊢
    exact yields_successor hi h ha hh hu aside

/-- The condition of BRC, as it stands before the issue. -/
def State.branchHolds (s : State) (c : Fin 13) (sa sb : SReg) : Bool :=
  if c.val < 10 then condHolds c.val (s.sr sa.val) (s.sr sb.val) else predHolds c.val (s.pr (sa.val % 8)) s.active

theorem Begun.effBrc (hb : Begun s b) (on : Onward s b l) :
    effBrc c sa sb off b = if s.branchHolds c sa sb then b.jump (s.curSlot.pc + 2 * off) 1 else b := by
  unfold Machine.effBrc State.branchHolds
  rw [hb.sr, hb.sr, hb.pr, hb.active, on.labelOf hb]

theorem guard_brc : (opInfo (.brc g c sa sb off)).guard = g := by
  unfold opInfo
  dsimp only
  split <;> rfl

theorem brc_branches (ha : s.act g ≠ 0) (h : s.issues (.brc g c sa sb off) = true) :
    let b := s.begun (.brc g c sa sb off)
    Yields (.brc g c sa sb off) s
      (fun t => if s.branchHolds c sa sb = true then Branched s b (s.curSlot.pc + 2 * off) 1 t else Branched s b s.succPc 0 t) := by
  obtain ⟨hb, on⟩ := begun_of_hold h rfl
  exact yields_branch rfl h (by rwa [guard_brc]) rfl (hb.effBrc on) (.refl _)

theorem Begun.effLoop (hb : Begun s b) (on : Onward s b l) :
    let u := b.emit 0 1 [.s sa.val (s.sr sa.val - 1)]
    effLoop sa off b = if s.sr sa.val - 1 ≠ 0 then u.jump (s.curSlot.pc + 2 * off) 1 else u := by
  unfold Machine.effLoop
  rw [hb.sr, on.labelOf hb]
  simp only [bne_iff_ne]

theorem loop_eff : (semOf (soloSlot (.loop g sa off)) (.loop g sa off)).eff = effLoop sa off := rfl

/-- LOOP sends its register less one, and branches where that is not zero. -/
theorem loop_branches (ha : s.act g ≠ 0) (h : s.issues (.loop g sa off) = true) :
    let u := (s.begun (.loop g sa off)).emit 0 1 [.s sa.val (s.sr sa.val - 1)]
    Yields (.loop g sa off) s
      (fun t => if s.sr sa.val - 1 ≠ 0 then Branched s u (s.curSlot.pc + 2 * off) 1 t else Branched s u s.succPc 0 t) := by
  obtain ⟨hb, on⟩ := begun_of_hold h rfl
  refine yields_branch rfl h ha rfl ?_ (aside_emit _ _ _ _)
  rw [loop_eff]
  exact hb.effLoop on

/-- An instruction that sends its successor as a link, and branches. -/
theorem link_branches {d : SReg} {pc : W32} {k : Nat} (hi : i.isSlot = true) (h : s.issues i = true) (ha : s.act (opInfo i).guard ≠ 0)
    (hh : ((semOf (soloSlot i) i).hold s).2 = s)
    (hu : (semOf (soloSlot i) i).eff (s.begun i) = ((s.begun i).emit 0 1 [.s d.val (zext64 (s.begun i).curSlot.pc)]).jump pc k) :
    Yields i s (fun t => ((s.slotIn t).pc = pc ∧ (s.slotIn t).next = s.succClk + k) ∧ Lands s t 1 [.s d.val (s.succPc.setWidth 64)]) := by
  obtain ⟨hb, on⟩ := begun_of_hold h hh
  refine (yields_jump hi h ha hh hu (aside_emit _ _ _ _)).imp fun t b => ⟨b.1, ?_⟩
  rw [on.pc] at b
  exact lands_of_emit hb (List.cons_ne_nil _ _) b.2

theorem call_eff : (semOf (soloSlot (.call g sa off)) (.call g sa off)).eff = effCall sa off := rfl

theorem callReg_eff : (semOf (soloSlot (.callReg g sa sb)) (.callReg g sa sb)).eff = effCallReg sa sb := rfl

/-- A branch through a register, which links nothing. -/
theorem register_branches (hi : i.isSlot = true) (h : s.issues i = true) (ha : s.act (opInfo i).guard ≠ 0)
    (hh : ((semOf (soloSlot i) i).hold s).2 = s) (hu : (semOf (soloSlot i) i).eff = effRet sb) :
    Yields i s (Branched s (s.begun i) ((s.sr sb.val).setWidth 32 &&& 0xFFFFFFFE) 2) := by
  refine yields_jump hi h ha hh ?_ (.refl _)
  rw [hu, ← (begun_of_hold h hh).1.regTarget sb]
  rfl

/-- Settles O9: each form moves the stream by one jump from the successor, or leaves it there, after sending its link or its count. -/
theorem branchResults : Obligations.BranchResults := by
  unfold Obligations.BranchResults
  intro s g off sa sb c
  refine ⟨fun h => (nop_goes_on h).imp fun _ b => b.1, fun ha => ⟨fun h => ?bra, fun h => ?brc, fun h => ?loop, fun h => ?call, fun h => ?ret,
    fun h => ?braReg, fun h => ?callReg⟩⟩
  case bra => exact (bra_branches ha h).imp fun _ b => b.1
  case brc =>
    refine (brc_branches ha h).imp fun t b => ?_
    by_cases taken : s.branchHolds c sa sb = true
    · exact (congrFun (if_pos taken) t).mpr ((if_pos taken).mp b).1
    · exact (congrFun (if_neg taken) t).mpr ((if_neg taken).mp b).1
  case loop =>
    have hb := (begun_of_hold h rfl).1
    refine (loop_branches ha h).imp fun t b => ?_
    by_cases taken : s.sr sa.val - 1 ≠ 0
    · have b := (if_pos taken).mp b
      exact ⟨(if_pos taken).mpr b.1, lands_of_emit hb (List.cons_ne_nil _ _) b.2⟩
    · have b := (if_neg taken).mp b
      exact ⟨(if_neg taken).mpr b.1, lands_of_emit hb (List.cons_ne_nil _ _) b.2⟩
  case call =>
    obtain ⟨hb, on⟩ := begun_of_hold h rfl
    refine link_branches rfl h ha rfl ?_
    rw [call_eff, ← on.labelOf hb]
    rfl
  case ret => exact (register_branches rfl h ha rfl rfl).imp fun _ b => b.1
  case braReg => exact (register_branches rfl h ha rfl rfl).imp fun _ b => b.1
  case callReg =>
    refine link_branches rfl h ha rfl ?_
    rw [callReg_eff, ← (begun_of_hold h rfl).1.regTarget]
    rfl

end Sys2Proof.Machine
end

section

/-! The frame of an issue (R62, R71): an instruction that only sends a result, or that its guard keeps from acting, has the effect of
one result sent or none (O8). -/

namespace Sys2Proof.Machine

/-- One result has been sent, or none. -/
def Sent (s t : State) : Prop := ∃ n lam ws, t = s.emit n lam ws

variable (s : State)

theorem sent_emit (n lam : Nat) (ws : List Wr) : Sent s (s.emit n lam ws) := ⟨_, _, _, rfl⟩
theorem sent_one (n lam : Nat) (w : Wr) : Sent s (s.emit n lam [w]) := sent_emit s _ _ _
theorem sent_toS (lam : Nat) (sd : SReg) (v : W64) : Sent s (s.toS lam sd v) := sent_one s _ _ _
theorem sent_toP (pd : PReg) (v : W32) : Sent s (s.toP pd v) := sent_one s _ _ _
theorem sent_vput (n lam : Nat) (g : Guard) (vd : View) (f : Nat → W32) : Sent s (s.vput n lam g vd f) := sent_emit s _ _ _

/-- Every instruction that only sends a result has no hold of its own, and that effect. -/
theorem semOf_sends {i : Instr} (h : sendsResult i = true) (n : Nat) : ((semOf n i).hold s).2 = s ∧ Sent s ((semOf n i).eff s) := by
  cases i with
  | iadd | isub | imul | imulh | imad | ishl | ishr | isar | iand | ior | ixor | imin | imax | isel | movxToScalar
  | bfx | bfi | clz | popc | iaddImm | imulImm | ishlImm | ishrImm | isarImm | iandImm | iorImm | ixorImm | iminImm | imaxImm
  | movi | lea | fmtrd | sys => exact ⟨rfl, sent_toS s _ _ _⟩
  | icmp | icmpImm | pand | por | pnot => exact ⟨rfl, sent_toP s _ _⟩
  | movxToVector | vcmp => exact ⟨rfl, sent_one s _ _ _⟩
  | vadd | vsub | vmul | vfma | vmin | vmax | vabs | vneg | vsel | vmov | vexp2 | vlog2 | vrcp | vrsq | vsin | vcos
  | viadd | visub | vimul | vshl | vshr | vand | vor | vxor | vdot4 | vdot8 | vscl | vqmx | vred | vscan | vballot | vlane =>
    exact ⟨rfl, sent_vput s _ _ _ _ _⟩
  | movs _ o =>
    cases o with
    | ss | sw => exact ⟨rfl, sent_toS s _ _ _⟩
    | ws => exact ⟨rfl, sent_one s _ _ _⟩
  | pmov _ o =>
    cases o with
    | pp | ps => exact ⟨rfl, sent_toP s _ _⟩
    | sp => exact ⟨rfl, sent_toS s _ _ _⟩
  | vcvt _ o => cases o <;> exact ⟨rfl, sent_vput s _ _ _ _ _⟩
  | vshfl _ mode => cases mode <;> exact ⟨rfl, sent_vput s _ _ _ _ _⟩
  | vbcast _ lane => cases lane <;> exact ⟨rfl, sent_vput s _ _ _ _ _⟩
  | _ => cases h

end Sys2Proof.Machine
end

section

/-! The tail's actions bank by bank (R60, R61, R117, R118): what each does to the bank that it names, and that no other action of the
same tail comes back to it (O8). -/

namespace Sys2Proof.Machine

/-! ### Folds that come to each element once -/

section
variable {α β : Type} {f : β → Nat → β} {inv : β → Prop} {v : β → α} {n : Nat} {l : List Nat} {x : β}

theorem foldl_inv (keep : ∀ x i, inv x → inv (f x i)) (hx : inv x) : inv (l.foldl f x) := by
  induction l generalizing x with
  | nil => exact hx
  | cons i r ih => exact ih (keep x i hx)

theorem foldl_without (keep : ∀ x i, inv x → inv (f x i)) (other : ∀ x i, inv x → i ≠ n → v (f x i) = v x) (hn : n ∉ l) (hx : inv x) :
    v (l.foldl f x) = v x := by
  induction l generalizing x with
  | nil => rfl
  | cons i r ih =>
    rw [List.mem_cons, not_or] at hn
    exact (ih hn.2 (keep x i hx)).trans (other x i hx (Ne.symm hn.1))

/-- What n alone changes is, after the fold, as n leaves it where it finds it as before the fold. -/
theorem foldl_once (keep : ∀ x i, inv x → inv (f x i)) (other : ∀ x i, inv x → i ≠ n → v (f x i) = v x) (hn : n ∈ l) (hd : l.Nodup)
    (hx : inv x) : ∃ y, inv y ∧ v y = v x ∧ v (l.foldl f x) = v (f y n) := by
  induction l generalizing x with
  | nil => cases hn
  | cons i r ih =>
    obtain ⟨fresh, hd⟩ := List.nodup_cons.1 hd
    by_cases hi : i = n
    · subst hi
      exact ⟨x, hx, rfl, foldl_without keep other fresh (keep x i hx)⟩
    · obtain ⟨y, hy, same, last⟩ := ih (List.mem_of_ne_of_mem (Ne.symm hi) hn) hd (keep x i hx)
      exact ⟨y, hy, same.trans (other x i hx hi), last⟩

/-- What n brings about and nothing undoes holds after the fold. -/
theorem foldl_brings {P : β → Prop} (keep : ∀ x i, inv x → inv (f x i)) (stay : ∀ x i, P x → P (f x i)) (brings : ∀ x, inv x → P (f x n))
    (hn : n ∈ l) (hx : inv x) : P (l.foldl f x) := by
  induction l generalizing x with
  | nil => cases hn
  | cons i r ih =>
    rcases List.mem_cons.1 hn with rfl | hr
    · exact foldl_inv (inv := P) (x := f x n) stay (brings x hx)
    · exact ih hr (keep x i hx)

end

/-! ### Contents that have gone -/

/-- Nothing is listed in [lo, lo+n). -/
def Clear {α : Type} (lo n : Nat) (m : Sparse α) : Prop := ∀ p ∈ m, ¬(lo ≤ p.1 ∧ p.1 < lo + n)

theorem clear_sdrop {α : Type} (lo n : Nat) (m : Sparse α) : Clear lo n (sdrop lo n m) := by
  intro p hp
  have := (List.mem_filter.1 hp).2
  simp only [Bool.or_eq_true, decide_eq_true_eq] at this
  omega

theorem Clear.sdrop {α : Type} {lo n : Nat} {m : Sparse α} (h : Clear lo n m) (lo' n' : Nat) : Clear lo n (sdrop lo' n' m) :=
  fun p hp => h p (List.mem_of_mem_filter hp)

theorem Clear.sget {α : Type} {lo n k : Nat} {m : Sparse α} (h : Clear lo n m) (hk : k < n) (d : α) : sget d (lo + k) m = d := by
  induction m with
  | nil => rfl
  | cons p r ih =>
    have here : lo + k ≠ p.1 := fun e => h p List.mem_cons_self ⟨by omega, by omega⟩
    unfold Machine.sget
    rw [if_neg here]
    exact ite_eq_left_iff.2 fun _ => ih fun q hq => h q (List.mem_cons_of_mem p hq)

/-! ### One bank -/

theorem actedOn_action (a clk lat : Nat) (b : Bank) : ActedOn a clk lat b (b.action a clk lat) := by
  refine ⟨?_, ?_, ?_⟩ <;> rintro rfl
  · refine ⟨fun h => ?_, fun h => ?_⟩ <;> simp [Bank.action, h]
  · exact ⟨rfl, rfl, rfl⟩
  · refine ⟨fun h => ?_, fun h k => ?_⟩
    · simp [Bank.action, Bank.wake, h]
    · simp [Bank.action, Bank.wake, h, k]

/-- No action. -/
theorem actedOn_zero (clk lat : Nat) (b c : Bank) : ActedOn 0 clk lat b c := ⟨nofun, nofun, nofun⟩

/-! ### Register banks -/

/-- A core that counts the wake of a bank, if it wakes. -/
def Core.noteWake (c : Core) (p : Bool) (n : Nat) : Core := if p then { c with wakes := c.wakes + n } else c

theorem noteWake_eq (c : Core) (p : Bool) (n : Nat) : c.noteWake p n = { c with wakes := (c.noteWake p n).wakes } := by
  unfold Core.noteWake; split <;> rfl

theorem noteWake_groups (c : Core) (p : Bool) (n : Nat) : (c.noteWake p n).groups = c.groups := by rw [noteWake_eq]

theorem noteWake_group (c : Core) (p : Bool) (n g : Nat) : (c.noteWake p n).group g = c.group g := by
  unfold Core.group; rw [noteWake_groups]

/-- The action of tail t on register bank i of a group. -/
def Group.tailBank (t clk : Nat) (g : Group) (i : Nat) : Group :=
  if bitN t i && i < g.budget then
    let h := g.setBank i ((g.bank i).action (fld t 10 2) clk 6)
    if fld t 10 2 == 2 then { h with mat := sdrop (1024 * i) 1024 h.mat } else h
  else g

/-- The same in its core. -/
def Core.tailBank (gid t clk : Nat) (c : Core) (i : Nat) : Core :=
  if bitN t i && i < (c.group gid).budget then
    let d := (c.noteWake (fld t 10 2 == 3 && ((c.group gid).bank i).sleeps) 8).modGroup gid
      (fun g => g.setBank i ((g.bank i).action (fld t 10 2) clk 6))
    if fld t 10 2 == 2 then d.modGroup gid (fun g => { g with mat := sdrop (1024 * i) 1024 g.mat }) else d
  else c

/-- May group gid's tail act on scratch bank i: one of the tile's, or one wholly inside its unit's window (R122)? -/
def Core.ownsBank (c : Core) (gid i : Nat) : Bool :=
  i < 128 || (let u := c.unit (c.group gid).uid; u.shBase ≤ 4 * (i - 128) && 4 * (i - 128) + 4 ≤ u.shBase + u.shUnits)

/-- The action of tail t on scratch bank i. -/
def Core.tailSbank (gid t clk : Nat) (c : Core) (i : Nat) : Core :=
  if c.ownsBank gid i then
    let d := c.noteWake (fld t 12 2 == 3 && (c.sbank i).sleeps) 64
    let d := d.setSbank i ((d.sbank i).action (fld t 12 2) clk 40)
    if fld t 12 2 == 2 then { d with buf := sdrop (65536 * i) 65536 d.buf } else d
  else c

/-- A core whose register banks tail t has acted on. -/
def Core.tailRegs (c : Core) (gid t clk : Nat) : Core := if fld t 10 2 == 0 then c else (List.range 10).foldl (Core.tailBank gid t clk) c

/-- A core that tail t has acted on. -/
def Core.tailed (c : Core) (gid t : Nat) : Core :=
  if fld t 12 2 == 0 then c.tailRegs gid t c.clk else (tailScratch t).foldl (Core.tailSbank gid t c.clk) (c.tailRegs gid t c.clk)

theorem tailActs_eq (s : State) : s.tailActs = s.modC (·.tailed s.cur.gid s.cur.tail) := rfl

variable {t gid clk n : Nat} {c : Core} {g : Group}

theorem tailBank_budget (g : Group) (i : Nat) : (g.tailBank t clk i).budget = g.budget := by
  unfold Group.tailBank
  split
  · split <;> exact List.length_set
  · rfl

theorem tailBank_other (g : Group) {i : Nat} (h : i ≠ n) : (g.tailBank t clk i).bank n = g.bank n := by
  have set (b : Bank) : (g.setBank i b).bank n = g.bank n := by
    simp [Group.setBank, Group.bank, List.getD_eq_getElem?_getD, List.getElem?_set_ne h]
  unfold Group.tailBank
  split
  · split <;> exact set _
  · rfl

theorem tailBank_same (hb : bitN t n = true) (hn : n < g.budget) :
    (g.tailBank t clk n).bank n = (g.bank n).action (fld t 10 2) clk 6 := by
  have set (b : Bank) : (g.setBank n b).bank n = b := by
    unfold Group.budget at hn
    simp [Group.setBank, Group.bank, List.getD_eq_getElem?_getD, hn]
  unfold Group.tailBank
  rw [if_pos (by simp [hb, hn])]
  dsimp only
  split <;> exact set _

theorem tailBank_clear (g : Group) (i : Nat) {lo k : Nat} (h : Clear lo k g.mat) : Clear lo k (g.tailBank t clk i).mat := by
  unfold Group.tailBank
  split
  · split
    · exact h.sdrop _ _
    · exact h
  · exact h

theorem tailBank_dark (h2 : fld t 10 2 = 2) (hb : bitN t n = true) (hn : n < g.budget) :
    Clear (1024 * n) 1024 (g.tailBank t clk n).mat := by
  unfold Group.tailBank
  rw [if_pos (by simp [hb, hn]), h2]
  exact clear_sdrop _ _ _

theorem tailBank_uid (g : Group) (i : Nat) : (g.tailBank t clk i).uid = g.uid := by
  unfold Group.tailBank
  split
  · split <;> rfl
  · rfl

/-- The register banks that the tail names, after its actions on all of them. -/
theorem tailBanks_acted (hn : n < 10) (hb : bitN t n = true) (hg : n < g.budget) :
    let h := (List.range 10).foldl (Group.tailBank t clk) g
    ActedOn (fld t 10 2) clk 6 (g.bank n) (h.bank n) ∧ (fld t 10 2 = 2 → Clear (1024 * n) 1024 h.mat) := by
  have keep (x : Group) (i : Nat) (hx : x.budget = g.budget) : (x.tailBank t clk i).budget = g.budget := (tailBank_budget x i).trans hx
  have mem : n ∈ List.range 10 := List.mem_range.2 hn
  refine ⟨?_, fun h2 => ?_⟩
  · obtain ⟨y, hy, same, last⟩ := foldl_once (v := (·.bank n)) keep (fun x i _ h => tailBank_other x h) mem List.nodup_range rfl
    rw [last, tailBank_same hb (hy ▸ hg), same]
    exact actedOn_action _ _ _ _
  · exact foldl_brings keep (fun x i h => tailBank_clear x i h) (fun x hx => tailBank_dark h2 hb (hx ▸ hg)) mem rfl

theorem tailBank_core (c : Core) (i : Nat) :
    c.tailBank gid t clk i = { c with groups := (c.tailBank gid t clk i).groups, wakes := (c.tailBank gid t clk i).wakes } := by
  unfold Core.tailBank
  split
  · dsimp only
    rw [noteWake_eq]
    split <;> rfl
  · rfl

theorem tailBank_group (hg : (kget gid c.groups).isSome = true) (i : Nat) :
    (kget gid (c.tailBank gid t clk i).groups).isSome = true ∧ (c.tailBank gid t clk i).group gid = (c.group gid).tailBank t clk i := by
  unfold Core.tailBank Group.tailBank
  split
  · dsimp only
    have here : (kget gid (c.noteWake (fld t 10 2 == 3 && ((c.group gid).bank i).sleeps) 8).groups).isSome = true := by
      rw [noteWake_groups]
      exact hg
    split
    · refine ⟨by simpa using here, ?_⟩
      rw [group_modGroup_same _ _ _ (by simpa using here), group_modGroup_same _ _ _ here, noteWake_group]
    · refine ⟨by simpa using here, ?_⟩
      rw [group_modGroup_same _ _ _ here, noteWake_group]
  · exact ⟨hg, rfl⟩

theorem tailBanks_group (hg : (kget gid c.groups).isSome = true) (l : List Nat) :
    (l.foldl (Core.tailBank gid t clk) c).group gid = l.foldl (Group.tailBank t clk) (c.group gid) := by
  induction l generalizing c with
  | nil => rfl
  | cons i r ih =>
    obtain ⟨here, acted⟩ := tailBank_group (t := t) (clk := clk) hg i
    rw [List.foldl_cons, List.foldl_cons, ih here, acted]

theorem tailRegs_core (c : Core) :
    c.tailRegs gid t clk = { c with groups := (c.tailRegs gid t clk).groups, wakes := (c.tailRegs gid t clk).wakes } := by
  unfold Core.tailRegs
  split
  · rfl
  · exact foldl_inv (inv := fun d : Core => d = { c with groups := d.groups, wakes := d.wakes })
      (fun d i h => by rw [tailBank_core d i, h]) rfl

theorem tailRegs_uid (hg : (kget gid c.groups).isSome = true) : ((c.tailRegs gid t clk).group gid).uid = (c.group gid).uid := by
  unfold Core.tailRegs
  split
  · rfl
  · rw [tailBanks_group hg]
    exact foldl_inv (inv := fun h => h.uid = (c.group gid).uid) (fun h i e => (tailBank_uid h i).trans e) rfl

theorem tailRegs_owns (hg : (kget gid c.groups).isSome = true) (n : Nat) : (c.tailRegs gid t clk).ownsBank gid n = c.ownsBank gid n := by
  unfold Core.ownsBank
  rw [tailRegs_uid hg, tailRegs_core]
  rfl

/-! ### Scratch banks -/

theorem tailSbank_groups (c : Core) (i : Nat) : (c.tailSbank gid t clk i).groups = c.groups ∧ (c.tailSbank gid t clk i).units = c.units := by
  unfold Core.tailSbank
  split
  · dsimp only
    rw [noteWake_eq]
    split <;> exact ⟨rfl, rfl⟩
  · exact ⟨rfl, rfl⟩

theorem tailSbank_owns (c : Core) (i n : Nat) : (c.tailSbank gid t clk i).ownsBank gid n = c.ownsBank gid n := by
  obtain ⟨groups, units⟩ := tailSbank_groups (gid := gid) (t := t) (clk := clk) c i
  unfold Core.ownsBank Core.unit Core.group
  rw [groups, units]

theorem tailSbank_scratch (c : Core) (i : Nat) : (c.tailSbank gid t clk i).scratch
    = if c.ownsBank gid i then sset Bank.start i ((c.sbank i).action (fld t 12 2) clk 40) c.scratch else c.scratch := by
  unfold Core.tailSbank
  split
  · dsimp only
    rw [noteWake_eq]
    split <;> rfl
  · rfl

theorem tailSbank_swf (c : Core) (i : Nat) (h : swf Bank.start c.scratch = true) : swf Bank.start (c.tailSbank gid t clk i).scratch = true := by
  rw [tailSbank_scratch]
  split
  · exact swf_sset _ _ _ _ h
  · exact h

theorem tailSbank_other {i : Nat} (h : swf Bank.start c.scratch = true) (hi : i ≠ n) : (c.tailSbank gid t clk i).sbank n = c.sbank n := by
  unfold Core.sbank
  rw [tailSbank_scratch]
  split
  · exact sget_sset_other _ (Ne.symm hi) _ _ h
  · rfl

theorem tailSbank_same (h : swf Bank.start c.scratch = true) (ho : c.ownsBank gid n = true) :
    (c.tailSbank gid t clk n).sbank n = (c.sbank n).action (fld t 12 2) clk 40 := by
  show sget _ _ (c.tailSbank gid t clk n).scratch = _
  rw [tailSbank_scratch, if_pos ho]
  exact sget_sset_same _ _ _ _ h

theorem tailSbank_clear (c : Core) (i : Nat) {lo k : Nat} (h : Clear lo k c.buf) : Clear lo k (c.tailSbank gid t clk i).buf := by
  unfold Core.tailSbank
  split
  · dsimp only
    rw [noteWake_eq]
    split
    · exact h.sdrop _ _
    · exact h
  · exact h

theorem tailSbank_dark (h2 : fld t 12 2 = 2) (ho : c.ownsBank gid n = true) : Clear (65536 * n) 65536 (c.tailSbank gid t clk n).buf := by
  unfold Core.tailSbank
  rw [if_pos ho, h2]
  exact clear_sdrop _ _ _

theorem tailScratch_nodup (t : Nat) : (tailScratch t).Nodup := by
  unfold tailScratch
  split
  · exact List.nodup_nil
  · refine List.Nodup.filterMap (fun a b c ha hb => ?_) (List.nodup_range.map fun a b h => by simpa using h)
    simp only [Option.mem_def, Option.ite_none_right_eq_some, Option.some.injEq] at ha hb
    omega

/-- The scratch banks that the tail names and may act on, after its actions on all of them. -/
theorem tailSbanks_acted (hs : swf Bank.start c.scratch = true) (hn : n ∈ tailScratch t) (ho : c.ownsBank gid n = true) :
    let d := (tailScratch t).foldl (Core.tailSbank gid t clk) c
    ActedOn (fld t 12 2) clk 40 (c.sbank n) (d.sbank n) ∧ (fld t 12 2 = 2 → Clear (65536 * n) 65536 d.buf) := by
  have keep (x : Core) (i : Nat) (hx : swf Bank.start x.scratch = true ∧ x.ownsBank gid n = true) :
      swf Bank.start (x.tailSbank gid t clk i).scratch = true ∧ (x.tailSbank gid t clk i).ownsBank gid n = true :=
    ⟨tailSbank_swf x i hx.1, (tailSbank_owns x i n).trans hx.2⟩
  refine ⟨?_, fun h2 => ?_⟩
  · obtain ⟨y, hy, same, last⟩ := foldl_once (v := (·.sbank n)) keep (fun x i h hi => tailSbank_other h.1 hi) hn (tailScratch_nodup t) ⟨hs, ho⟩
    rw [last, tailSbank_same hy.1 hy.2, same]
    exact actedOn_action _ _ _ _
  · exact foldl_brings keep (fun x i h => tailSbank_clear x i h) (fun x hx => tailSbank_dark h2 hx.2) hn ⟨hs, ho⟩

/-! ### The whole tail -/

theorem tailed_group (c : Core) (gid t : Nat) : (c.tailed gid t).group gid = (c.tailRegs gid t c.clk).group gid := by
  unfold Core.tailed
  split
  · rfl
  · exact foldl_inv (inv := fun d : Core => d.group gid = (c.tailRegs gid t c.clk).group gid)
      (fun d i h => by rw [← h]; unfold Core.group; rw [(tailSbank_groups d i).1]) rfl

theorem tailed_regs (hg : (kget gid c.groups).isSome = true) (hn : n < 10) (hb : bitN t n = true) (hB : n < (c.group gid).budget) :
    ActedOn (fld t 10 2) c.clk 6 ((c.group gid).bank n) (((c.tailed gid t).group gid).bank n)
      ∧ (fld t 10 2 = 2 → ∀ k, k < 1024 → ((c.tailed gid t).group gid).elem (1024 * n + k) = 0) := by
  rw [tailed_group]
  unfold Core.tailRegs
  by_cases h0 : fld t 10 2 = 0
  · rw [h0]
    exact ⟨actedOn_zero .., nofun⟩
  · rw [if_neg (by simpa using h0), tailBanks_group hg]
    obtain ⟨acted, gone⟩ := tailBanks_acted (clk := c.clk) hn hb hB
    exact ⟨acted, fun h2 k hk => (gone h2).sget hk 0⟩

theorem tailed_scratch (hg : (kget gid c.groups).isSome = true) (hs : swf Bank.start c.scratch = true) (hn : n ∈ tailScratch t)
    (ho : c.ownsBank gid n = true) :
    ActedOn (fld t 12 2) c.clk 40 (c.sbank n) ((c.tailed gid t).sbank n)
      ∧ (fld t 12 2 = 2 → ∀ k, k < 65536 → sget 0 (65536 * n + k) (c.tailed gid t).buf = 0) := by
  have h0 : fld t 12 2 ≠ 0 := fun h => by simp [tailScratch, h] at hn
  have scratch : (c.tailRegs gid t c.clk).scratch = c.scratch := by rw [tailRegs_core]
  obtain ⟨acted, gone⟩ := tailSbanks_acted (clk := c.clk) (scratch ▸ hs) hn ((tailRegs_owns hg n).trans ho)
  unfold Core.tailed
  rw [if_neg (by simpa using h0)]
  refine ⟨?_, fun h2 k hk => (gone h2).sget hk 0⟩
  unfold Core.sbank at acted ⊢
  rwa [scratch] at acted

end Sys2Proof.Machine
end

section

/-! The frame of results and of instructions under a guard that lets them act nowhere, with what the tail does (O8). -/

namespace Sys2Proof.Machine

variable {s b u : State} {i : Instr}

/-- What sending results leaves of the core. -/
theorem Sent.curCore (h : Sent b u) (live : b.live = true) : u.curCore = { b.curCore with inflight := u.curCore.inflight } := by
  obtain ⟨n, lam, ws, rfl⟩ := h
  by_cases hw : ws = []
  · subst hw
    rfl
  · rw [emit_core b n lam ws live hw]

theorem Sent.aside (h : Sent b u) : Aside b u := by
  obtain ⟨n, lam, ws, rfl⟩ := h
  exact aside_emit b n lam ws

/-- Where its guard keeps it from acting, or a result is all that it sends, an instruction has no hold that changes the state, and it
sends at most a result. -/
theorem soloSem_sends (h : s.issues i = true) (hi : sendsResult i = true ∨ s.act (opInfo i).guard = 0) :
    ((soloSem i).hold s).2 = s ∧ Sent (s.begun i) ((soloSem i).eff (s.begun i)) := by
  by_cases ha : s.act (opInfo i).guard = 0
  · have off : s.acts i = false := by simp [State.acts, ha]
    have hold : ((soloSem i).hold s).2 = s := by simp [soloSem, Sem.gated, off]
    refine ⟨hold, ?_⟩
    rw [gated_off (begun_issues h hold) ha]
    exact ⟨0, 0, [], (emit_nil _ _ _).symm⟩
  · obtain ⟨hold, sent⟩ := semOf_sends s (hi.resolve_right ha) (soloSlot i)
    have acts : s.acts i = true := by simpa [State.acts] using ha
    have hold : ((soloSem i).hold s).2 = s := by simpa [soloSem, Sem.gated, acts] using hold
    refine ⟨hold, ?_⟩
    rw [gated_eff (begun_issues h hold) ha]
    exact (semOf_sends (s.begun i) (hi.resolve_right ha) (soloSlot i)).2

/-- The core of the stream, once its slots have sent results, as the tail leaves it. -/
theorem coreIn_finish (hb : Begun s b) (aside : Aside b u) (hd : s.dueTrap = none) (hh : b.cur.hand = none) :
    s.coreIn u.finish = u.curCore.tailed s.cur.gid s.cur.tail := by
  have live := aside.live hb.live
  have on := aside.stays.onStream
  obtain ⟨core, gid, -⟩ := hb.only.cur
  have tail : u.cur.tail = s.cur.tail := by rw [on.cur, hb.only]
  rw [finish_eq live (on.dueTrap.trans (hb.dueTrap.trans hd)) (on.cur ▸ hh), tailActs_eq, ← tail, ← gid, ← on.cur]
  show (u.modC _).core s.cur.core = _
  rw [← core, ← on.cur]
  exact curCore_modC u _ (live_parts live).1

/-- The scratch banks that the tail may act on are those of the stream's unit, which an issue leaves its window. -/
theorem ownsBank_sent (hb : Begun s b) (sent : Sent b u) (n : Nat) : u.curCore.ownsBank s.cur.gid n
    = (n < 128 || (s.curUnit.shBase ≤ 4 * (n - 128) && 4 * (n - 128) + 4 ≤ s.curUnit.shBase + s.curUnit.shUnits)) := by
  obtain ⟨queues, unit⟩ := hb.unit
  have same : u.curCore.unit (u.curCore.group s.cur.gid).uid = b.curUnit := by
    rw [sent.curCore hb.live, ← hb.only.cur.2.1]
    rfl
  unfold Core.ownsBank
  rw [same, unit]

/-- After results that were sent the tail acts on the banks that stood as the slots began. -/
theorem tailActed_finish (hb : Begun s b) (on : Onward s b (soloSlots i)) (sent : Sent b u) (hd : s.dueTrap = none)
    (hh : b.cur.hand = none) : TailActed s b u.finish i := by
  have aside := sent.aside
  have live := aside.live hb.live
  have done := done_finish hb aside.stays.onStream hd hh
  have core := coreIn_finish hb aside hd hh
  have grp : s.groupIn u.finish = (u.curCore.tailed s.cur.gid s.cur.tail).group s.cur.gid := congrArg (Core.group · s.cur.gid) core
  have gid : u.cur.gid = s.cur.gid := by rw [aside.cur, hb.only.cur.2.1]
  have before : u.curCore.group s.cur.gid = b.curGrp := by rw [← aside.grp, ← gid]; rfl
  have named : s.groupIn b = b.curGrp := by
    obtain ⟨core, gid, -⟩ := hb.only.cur
    show (b.core s.cur.core).group s.cur.gid = _
    rw [← core, ← gid]
    rfl
  have budget : b.curGrp.budget = s.curGrp.budget := hb.grp.2
  have here : (kget s.cur.gid u.curCore.groups).isSome = true := gid ▸ (live_parts live).2.1
  have moved : u.curCore = { b.curCore with inflight := u.curCore.inflight } := sent.curCore hb.live
  have clk : u.curCore.clk = s.curCore.clk := by rw [moved, hb.core]
  have scratch : u.curCore.scratch = s.curCore.scratch := by rw [moved, hb.core]
  unfold TailActed
  refine ⟨fun n hn bit hB => ?_, fun hs n hn own => ?_, ?_, ?_⟩
  · have acted := tailed_regs (t := s.cur.tail) here hn bit (by rwa [before, budget])
    rwa [clk, before, ← grp, ← named] at acted
  · have acted := tailed_scratch here (scratch ▸ hs) hn (by rw [ownsBank_sent hb sent]; simpa using own)
    unfold Core.sbank at acted ⊢
    rwa [clk, scratch, ← core] at acted
  · rw [done.grp, ← on.2.2, ← aside.grp]
  · rw [done.slot, aside.curSlot_eq, on.1]

/-- Settles O8: such an instruction sends at most a result, so that its answer is the frame of the issue with the tail's actions. -/
theorem resultFrame : Obligations.ResultFrame := by
  unfold Obligations.ResultFrame
  intro s i slot issues sends
  obtain ⟨hold, sent⟩ := soloSem_sends issues sends
  have hb := begun_issues issues hold
  have on : Onward s (s.begun i) (soloSlots i) := by
    unfold State.begun
    rw [hold]
    exact onward_start s _ (issues_parts issues).1
  refine ⟨_, exec_of_issues i s slot issues, ?_, tailActed_finish hb on sent (issues_parts issues).2.1 (begun_hand s i)⟩
  obtain ⟨n, lam, ws, eff⟩ := sent
  rw [eff]
  exact onlyIssued_emit s i n lam ws issues hold

end Sys2Proof.Machine
end

section

/-! The fields of a slot image (R64): an image is its fields one above the other, and what is read at a field's place is the field. -/

namespace Sys2Proof

@[simp] theorem fld_of_zero (lo n : Nat) : fld 0 lo n = 0 := by simp [fld]

theorem fld_whole {v n : Nat} (h : v < 2 ^ n) : fld v 0 n = v := by
  unfold fld
  rw [Nat.pow_zero, Nat.div_one, Nat.mod_eq_of_lt h]

/-- A part of a field. -/
theorem fld_fld (w lo : Nat) {n a b : Nat} (h : a + b ≤ n) : fld (fld w lo n) a b = fld w (lo + a) b := by
  obtain ⟨k, rfl⟩ := Nat.exists_eq_add_of_le (Nat.le_of_add_right_le h)
  unfold fld
  rw [Nat.pow_add, Nat.mod_mul_right_div_self, Nat.div_div_eq_div_mul, ← Nat.pow_add, Nat.mod_mod_of_dvd _ (Nat.pow_dvd_pow 2 (by omega))]

/-- Two fields that adjoin. -/
theorem fld_add (w lo a b : Nat) : fld w lo (a + b) = fld w lo a + 2 ^ a * fld w (lo + a) b := by
  unfold fld
  rw [Nat.pow_add, Nat.mod_mul, Nat.div_div_eq_div_mul, ← Nat.pow_add]

/-- Fields of given widths, the lowest first, as one number. -/
def pack : List (Nat × Nat) → Nat
  | [] => 0
  | (n, v) :: r => v + 2 ^ n * pack r

/-- The fields of given widths that w holds from bit lo on have these values. -/
def Holds (w : Nat) : Nat → List (Nat × Nat) → Prop
  | _, [] => True
  | lo, (n, v) :: r => fld w lo n = v ∧ Holds w (lo + n) r

/-- A number that has a pack of fields above its lowest lo bits holds them there. -/
theorem holds_above {l : List (Nat × Nat)} (hl : ∀ p ∈ l, p.2 < 2 ^ p.1) {w lo : Nat} (hw : w / 2 ^ lo = pack l) : Holds w lo l := by
  induction l generalizing lo with
  | nil => trivial
  | cons p r ih =>
    obtain ⟨n, v⟩ := p
    have hv : v < 2 ^ n := hl _ List.mem_cons_self
    refine ⟨?_, ih (fun q hq => hl q (List.mem_cons_of_mem _ hq)) ?_⟩
    · unfold fld
      rw [hw, pack, Nat.add_mul_mod_self_left, Nat.mod_eq_of_lt hv]
    · rw [Nat.pow_add, ← Nat.div_div_eq_div_mul, hw, pack, Nat.add_mul_div_left _ _ (by positivity), Nat.div_eq_of_lt hv, Nat.zero_add]

theorem holds_pack {l : List (Nat × Nat)} (hl : ∀ p ∈ l, p.2 < 2 ^ p.1) : Holds (pack l) 0 l :=
  holds_above hl (Nat.div_one _)

/-! ### The formats (R64) -/

/-- An image of format C.R. -/
structure CRWord (w op : Nat) (g : Guard) (sd sa sb sc sub : Nat) : Prop where
  op : fld w 0 8 = op
  guard : guardOf w = g
  sd : fld w 12 6 = sd
  sa : fld w 18 6 = sa
  sb : fld w 24 6 = sb
  sc : fld w 30 6 = sc
  sub : fld w 36 4 = sub
  rest : fld w 40 24 = 0

/-- An image of format C.I. -/
structure CIWord (w op : Nat) (g : Guard) (sd sa sub imm : Nat) : Prop where
  op : fld w 0 8 = op
  guard : guardOf w = g
  sd : fld w 12 6 = sd
  sa : fld w 18 6 = sa
  sub : fld w 24 4 = sub
  rest : fld w 28 4 = 0
  imm : fld w 32 32 = imm

/-- An image of format C.B. -/
structure CBWord (w op : Nat) (g : Guard) (cond sa sb off : Nat) : Prop where
  op : fld w 0 8 = op
  guard : guardOf w = g
  cond : fld w 12 4 = cond
  sa : fld w 16 6 = sa
  sb : fld w 22 6 = sb
  rest : fld w 28 4 = 0
  off : fld w 32 32 = off

/-- An image of MOVX (R134), of format C.R with a vector field v over sb and sc. -/
structure MovxWord (w op : Nat) (g : Guard) (sd sa v sub : Nat) : Prop where
  op : fld w 0 8 = op
  guard : guardOf w = g
  sd : fld w 12 6 = sd
  sa : fld w 18 6 = sa
  v : fld w 24 11 = v
  gap : fld w 35 1 = 0
  sub : fld w 36 4 = sub
  rest : fld w 40 24 = 0

/-- An image of format V. -/
structure VWord (w op : Nat) (g : Guard) (vd va vb vc mod : Nat) : Prop where
  op : fld w 0 8 = op
  guard : guardOf w = g
  vd : fld w 12 11 = vd
  va : fld w 23 11 = va
  vb : fld w 34 11 = vb
  vc : fld w 45 11 = vc
  mod : fld w 56 4 = mod
  rest : fld w 60 4 = 0

/-- An image of format M. -/
structure MWord (w op : Nat) (g : Guard) (vd vo an sp size sub disp : Nat) : Prop where
  op : fld w 0 8 = op
  guard : guardOf w = g
  vd : fld w 12 11 = vd
  vo : fld w 23 11 = vo
  an : fld w 34 4 = an
  sp : fld w 38 3 = sp
  size : fld w 41 3 = size
  sub : fld w 44 4 = sub
  disp : fld w 48 16 = disp

/-- An image of format E. -/
structure EWord (w op : Nat) (g : Guard) (sub sx sy sz dx dy dz : Nat) : Prop where
  op : fld w 0 8 = op
  guard : guardOf w = g
  sub : fld w 12 4 = sub
  sx : fld w 16 6 = sx
  sy : fld w 22 6 = sy
  sz : fld w 28 6 = sz
  dx : fld w 34 10 = dx
  dy : fld w 44 10 = dy
  dz : fld w 54 10 = dz

theorem guardOf_eq {w : Nat} {g : Guard} (hp : fld w 8 3 = g.pg.val) (hn : fld w 11 1 = g.neg.toNat) : guardOf w = g := by
  have neg : bitN w 11 = (fld w 11 1 == 1) := rfl
  unfold guardOf
  rw [hp, neg, hn]
  obtain ⟨pg, neg⟩ := g
  congr 1
  · exact Fin.ofNat_val_eq_self pg
  · cases neg <;> rfl

section
variable {i : Instr} {w op sd sa sb sc sub imm cond off v vd va vb vc mod vo an sp size disp sx sy sz dx dy dz : Nat} {g : Guard} {cls : Cls}

/-- The fields of the image of an instruction whose encoding is a pack of fields. -/
theorem holds_of_encode {x : Nat} {l : List (Nat × Nat)} (he : encode i = some (cls, w)) (hi : encode i = some (cls, x)) (hx : x = pack l)
    (hl : ∀ p ∈ l, p.2 < 2 ^ p.1) : Holds w 0 l := by
  obtain rfl : w = x := congrArg Prod.snd (Option.some.inj (he.symm.trans hi))
  exact hx ▸ holds_pack hl

theorem crWord (he : encode i = some (.c, w)) (hi : encode i = some (.c, encCR op g sd sa sb sc sub))
    (hb : op < 256 ∧ sd < 64 ∧ sa < 64 ∧ sb < 64 ∧ sc < 64 ∧ sub < 16) : CRWord w op g sd sa sb sc sub := by
  obtain ⟨op, pg, neg, sd, sa, sb, sc, sub, rest, -⟩ := holds_of_encode he hi
    (l := [(8, op), (3, g.pg.val), (1, g.neg.toNat), (6, sd), (6, sa), (6, sb), (6, sc), (4, sub), (24, 0)])
    (by simp only [encCR, encHead, pack]; ring) (by simp; have := g.pg.isLt; have := g.neg.toNat_lt; omega)
  exact ⟨op, guardOf_eq pg neg, sd, sa, sb, sc, sub, rest⟩

theorem ciWord (he : encode i = some (.c, w)) (hi : encode i = some (.c, encCI op g sd sa sub imm))
    (hb : op < 256 ∧ sd < 64 ∧ sa < 64 ∧ sub < 16 ∧ imm < 2 ^ 32) : CIWord w op g sd sa sub imm := by
  obtain ⟨op, pg, neg, sd, sa, sub, rest, imm, -⟩ := holds_of_encode he hi
    (l := [(8, op), (3, g.pg.val), (1, g.neg.toNat), (6, sd), (6, sa), (4, sub), (4, 0), (32, imm)])
    (by simp only [encCI, encHead, pack]; ring) (by simp; have := g.pg.isLt; have := g.neg.toNat_lt; omega)
  exact ⟨op, guardOf_eq pg neg, sd, sa, sub, rest, imm⟩

theorem cbWord (he : encode i = some (.c, w)) (hi : encode i = some (.c, encCB op g cond sa sb off))
    (hb : op < 256 ∧ cond < 16 ∧ sa < 64 ∧ sb < 64 ∧ off < 2 ^ 32) : CBWord w op g cond sa sb off := by
  obtain ⟨op, pg, neg, cond, sa, sb, rest, off, -⟩ := holds_of_encode he hi
    (l := [(8, op), (3, g.pg.val), (1, g.neg.toNat), (4, cond), (6, sa), (6, sb), (4, 0), (32, off)])
    (by simp only [encCB, encHead, pack]; ring) (by simp; have := g.pg.isLt; have := g.neg.toNat_lt; omega)
  exact ⟨op, guardOf_eq pg neg, cond, sa, sb, rest, off⟩

theorem movxWord (he : encode i = some (.c, w))
    (hi : encode i = some (.c, encHead op g + sd * 2 ^ 12 + sa * 2 ^ 18 + v * 2 ^ 24 + sub * 2 ^ 36))
    (hb : op < 256 ∧ sd < 64 ∧ sa < 64 ∧ v < 2048 ∧ sub < 16) : MovxWord w op g sd sa v sub := by
  obtain ⟨op, pg, neg, sd, sa, v, gap, sub, rest, -⟩ := holds_of_encode he hi
    (l := [(8, op), (3, g.pg.val), (1, g.neg.toNat), (6, sd), (6, sa), (11, v), (1, 0), (4, sub), (24, 0)])
    (by simp only [encHead, pack]; ring) (by simp; have := g.pg.isLt; have := g.neg.toNat_lt; omega)
  exact ⟨op, guardOf_eq pg neg, sd, sa, v, gap, sub, rest⟩

theorem vWord (he : encode i = some (.v, w)) (hi : encode i = some (.v, encV op g vd va vb vc mod))
    (hb : op < 256 ∧ vd < 2048 ∧ va < 2048 ∧ vb < 2048 ∧ vc < 2048 ∧ mod < 16) : VWord w op g vd va vb vc mod := by
  obtain ⟨op, pg, neg, vd, va, vb, vc, mod, rest, -⟩ := holds_of_encode he hi
    (l := [(8, op), (3, g.pg.val), (1, g.neg.toNat), (11, vd), (11, va), (11, vb), (11, vc), (4, mod), (4, 0)])
    (by simp only [encV, encHead, pack]; ring) (by simp; have := g.pg.isLt; have := g.neg.toNat_lt; omega)
  exact ⟨op, guardOf_eq pg neg, vd, va, vb, vc, mod, rest⟩

theorem mWord (he : encode i = some (.m, w)) (hi : encode i = some (.m, encM op g vd vo an sp size sub disp))
    (hb : op < 256 ∧ vd < 2048 ∧ vo < 2048 ∧ an < 16 ∧ sp < 8 ∧ size < 8 ∧ sub < 16 ∧ disp < 2 ^ 16) :
    MWord w op g vd vo an sp size sub disp := by
  obtain ⟨op, pg, neg, vd, vo, an, sp, size, sub, disp, -⟩ := holds_of_encode he hi
    (l := [(8, op), (3, g.pg.val), (1, g.neg.toNat), (11, vd), (11, vo), (4, an), (3, sp), (3, size), (4, sub), (16, disp)])
    (by simp only [encM, encHead, pack]; ring) (by simp; have := g.pg.isLt; have := g.neg.toNat_lt; omega)
  exact ⟨op, guardOf_eq pg neg, vd, vo, an, sp, size, sub, disp⟩

theorem eWord (he : encode i = some (.e, w)) (hi : encode i = some (.e, encE op g sub sx sy sz dx dy dz))
    (hb : op < 256 ∧ sub < 16 ∧ sx < 64 ∧ sy < 64 ∧ sz < 64 ∧ dx < 1024 ∧ dy < 1024 ∧ dz < 1024) :
    EWord w op g sub sx sy sz dx dy dz := by
  obtain ⟨op, pg, neg, sub, sx, sy, sz, dx, dy, dz, -⟩ := holds_of_encode he hi
    (l := [(8, op), (3, g.pg.val), (1, g.neg.toNat), (4, sub), (6, sx), (6, sy), (6, sz), (10, dx), (10, dy), (10, dz)])
    (by simp only [encE, encHead, pack]; ring) (by simp; have := g.pg.isLt; have := g.neg.toNat_lt; omega)
  exact ⟨op, guardOf_eq pg neg, sub, sx, sy, sz, dx, dy, dz⟩

end

end Sys2Proof
end

section

/-! The checks of a slot (R76), and the operands that its fields name (R64, R65): every check of a field reads that field alone. -/

namespace Sys2Proof

/-! ### Lists of checks -/

@[simp] theorem need_eq_none {b : Bool} {k : Nat} : need b k = none ↔ b = true := by simp [need]

@[simp] theorem firstCode_nil : firstCode [] = none := rfl

@[simp] theorem firstCode_cons_eq_none {x : Option Nat} {l : List (Option Nat)} :
    firstCode (x :: l) = none ↔ x = none ∧ firstCode l = none := by cases x <;> simp [firstCode]

@[simp] theorem ckZero_eq_none {w lo n : Nat} : ckZero w lo n = none ↔ fld w lo n = 0 := by simp [ckZero]

/-! ### Numbers as fields -/

@[simp] theorem fin_val {n : Nat} [NeZero n] (x : Fin n) : fin n x.val = x := Fin.ofNat_val_eq_self x

theorem fin_eq_iff {n : Nat} [NeZero n] {a : Nat} {x : Fin n} : fin n a = x ↔ a % n = x.val := by
  rw [Fin.ext_iff]; rfl

@[simp] theorem toNat_beq_one (b : Bool) : (b.toNat == 1) = b := by cases b <;> rfl

/-! ### Registers -/

section
variable {w lo f : Nat}

/-- The check of a register field is that of what it holds. -/
theorem ckRF_at (h : fld w lo 6 = f) (k : RF) : ckRF w lo k = ckRF f 0 k := by
  subst h
  cases k with
  | z => simp only [ckRF, ckZero, fld_fld w lo (n := 6) (Nat.le_refl (0 + 6)), Nat.add_zero]
  | s => rfl
  | p => simp only [ckRF, ckPred, fld_fld w lo (show 0 + 3 + 3 ≤ 6 by decide), Nat.zero_add]
  | w => simp only [ckRF, fld_fld w lo (show 0 + 5 + 1 ≤ 6 by decide), Nat.zero_add]

theorem ckPred_at (h : fld w lo 6 = f) : ckPred w lo = ckPred f 0 := ckRF_at h .p

end

@[simp] theorem ckRF_of_zero (k : RF) : ckRF 0 0 k = none := by cases k <;> simp [ckRF, ckPred]

@[simp] theorem ckRF_scalar (f : Nat) : ckRF f 0 .s = none := rfl

theorem ckPred_of_lt {f : Nat} (h : f < 8) : ckPred f 0 = none := by
  simp [ckPred, fld, Nat.div_eq_of_lt h]

@[simp] theorem ckPred_pred (p : PReg) : ckPred p.val 0 = none := ckPred_of_lt p.isLt

@[simp] theorem ckRF_pred (p : PReg) : ckRF p.val 0 .p = none := ckPred_pred p

@[simp] theorem ckRF_workgroup (x : Fin 32) : ckRF x.val 0 .w = none := by
  have := x.isLt
  simp [ckRF, fld, Nat.div_eq_of_lt this]

/-! ### Views and vector sources (R65) -/

theorem View.code_lt (x : View) : x.code < 2048 := by
  obtain ⟨dir, m, i⟩ := x
  cases dir <;> simp only [View.code, Dir.code] <;> omega

theorem VSrc.code_lt (x : VSrc) : x.code < 2048 := by
  cases x with
  | view v => exact v.code_lt
  | _ => simp only [VSrc.code]; omega

theorem View.fld_index (x : View) : fld x.code 0 5 = x.i.val := by
  unfold fld View.code
  omega

theorem View.fld_matrix (x : View) : fld x.code 5 4 = x.m.val := by
  unfold fld View.code
  omega

theorem View.fld_dir (x : View) : fld x.code 9 2 = x.dir.code := by
  obtain ⟨dir, m, i⟩ := x
  cases dir <;> simp only [fld, View.code, Dir.code] <;> omega

@[simp] theorem viewOf_code (x : View) : viewOf x.code = x := by
  unfold viewOf
  rw [x.fld_index, x.fld_matrix, x.fld_dir, fin_val, fin_val]
  obtain ⟨dir, m, i⟩ := x
  cases dir <;> rfl

/-- The matrix code of a source (R65). -/
def VSrc.kind : VSrc → Nat
  | .view x => x.m.val
  | .bcast _ => 10 | .pool _ => 11 | .const _ => 12 | .lane _ => 13 | .qpop _ => 14

theorem VSrc.fld_index (x : VSrc) : fld x.code 0 5 = x.index := by
  cases x with
  | view v => exact v.fld_index
  | _ => simp only [fld, VSrc.code, VSrc.index]; omega

theorem VSrc.fld_kind (x : VSrc) : fld x.code 5 4 = x.kind := by
  cases x with
  | view v => exact v.fld_matrix
  | _ => simp only [fld, VSrc.code, VSrc.kind]; omega

@[simp] theorem srcOf_code (x : VSrc) : srcOf x.code = x := by
  unfold srcOf
  rw [x.fld_kind, x.fld_index]
  cases x with
  | view v => simp [VSrc.kind, VSrc.code, show v.m.val ≤ 9 by omega]
  | _ => simp [VSrc.kind, VSrc.index]

section
variable {r : Role} {w lo f : Nat}

theorem ckDst_at (h : fld w lo 11 = f) : ckDst w lo = ckDst f 0 := by
  subst h
  simp only [ckDst, fld_fld w lo (show 0 + 5 + 4 ≤ 11 by decide), Nat.zero_add]

theorem ckP11_at (h : fld w lo 11 = f) : ckP11 w lo = ckP11 f 0 := by
  subst h
  simp only [ckP11, fld_fld w lo (show 0 + 3 + 8 ≤ 11 by decide), Nat.zero_add]

theorem ckSrcNoPop_at (h : fld w lo 11 = f) : ckSrcNoPop w lo = ckSrcNoPop f 0 := by
  subst h
  simp only [ckSrcNoPop, fld_fld w lo (show 0 + 5 + 4 ≤ 11 by decide), fld_fld w lo (show 0 + 9 + 2 ≤ 11 by decide),
    fld_fld w lo (show 0 + 5 ≤ 11 by decide), Nat.zero_add, Nat.add_zero]

theorem ckSrc_at (h : fld w lo 11 = f) : ckSrc r w lo = ckSrc r f 0 := by
  unfold ckSrc
  rw [ckSrcNoPop_at h]
  subst h
  simp only [fld_fld w lo (show 0 + 5 + 4 ≤ 11 by decide), fld_fld w lo (show 0 + 9 + 2 ≤ 11 by decide),
    fld_fld w lo (show 0 + 2 + 3 ≤ 11 by decide), Nat.zero_add]

end

@[simp] theorem ckDst_view (x : View) : ckDst x.code 0 = none := by
  have matrix : fld x.code (0 + 5) 4 = x.m.val := x.fld_matrix
  simp only [ckDst, matrix, need_eq_none, decide_eq_true_eq]
  omega

@[simp] theorem ckP11_pred (p : PReg) : ckP11 p.val 0 = none := by
  have := p.isLt
  simp [ckP11, fld, Nat.div_eq_of_lt this]

@[simp] theorem ckSrcNoPop_code {x : VSrc} (h : x.noPop = true) : ckSrcNoPop x.code 0 = none := by
  have kind : fld x.code (0 + 5) 4 = x.kind := x.fld_kind
  simp only [ckSrcNoPop, kind, x.fld_index, need_eq_none, Bool.and_eq_true, Bool.or_eq_true, decide_eq_true_eq, bne_iff_ne]
  cases x with
  | view v => simp only [VSrc.kind]; omega
  | const i => exact ⟨⟨by simp [VSrc.kind], .inr (by simp [VSrc.code, fld]; omega)⟩, .inr (by simp only [VSrc.index]; omega)⟩
  | qpop q => cases h
  | _ => simp [VSrc.kind, VSrc.code, fld]; omega

@[simp] theorem ckSrc_code {r : Role} {x : VSrc} (h : x.popOk r = true) : ckSrc r x.code 0 = none := by
  have kind : fld x.code (0 + 5) 4 = x.kind := x.fld_kind
  simp only [ckSrc, kind]
  cases x with
  | qpop q => simp [VSrc.kind, VSrc.code, fld]; exact ⟨by omega, by simpa [VSrc.popOk] using h⟩
  | view v => have := v.m.isLt; rw [if_neg (by simp [VSrc.kind]; omega)]; exact ckSrcNoPop_code rfl
  | _ => exact ckSrcNoPop_code rfl

end Sys2Proof
end

section

/-! Class C (R126): every image of a well-formed instruction passes the checks and is read back. -/

namespace Sys2Proof

/-! ### What decoding asks for -/

/-- The checks of a class after the opcode. -/
def classCheck (r : Role) (scope w : Nat) : Cls → Option Nat
  | .c => checkC r w
  | .v => checkV r w
  | .m => checkM r w
  | .e => checkE r scope w

section
variable {r : Role} {priv : Bool} {scope w op : Nat} {cls : Cls} {i : Instr} {wh : Where} {pr : Bool}

/-- An image decodes to an instruction that its opcode's map lets the issuer use, whose checks it passes and which it builds. -/
theorem decodes_of_map (ho : fld w 0 8 = op) (hm : opMap cls op = some (wh, pr)) (hw : wh.ok r = true) (hp : (priv || !pr) = true)
    (hc : classCheck r scope w cls = none) (hb : buildSlot cls w = i) : decodeSlot r priv scope cls w = .ok i := by
  have passes : checkSlot r priv scope cls w = none := by
    unfold checkSlot
    rw [ho, hm]
    simp only [firstCode_cons_eq_none, need_eq_none]
    exact ⟨hw, hp, by cases cls <;> exact hc, rfl⟩
  unfold decodeSlot
  rw [passes, hb]

/-- The same where the map says what R74 says of the instruction itself. -/
theorem decodes (ho : fld w 0 8 = op) (hm : opMap cls op = some i.issuer) (ha : i.allowed r priv = true)
    (hc : classCheck r scope w cls = none) (hb : buildSlot cls w = i) : decodeSlot r priv scope cls w = .ok i :=
  have ⟨hw, hp⟩ := Bool.and_eq_true .. ▸ ha
  decodes_of_map ho hm hw hp hc hb

end

variable {r : Role} {priv : Bool} {scope w : Nat} {i : Instr}

/-- Class C, by the format of each form (R64): C.R, C.I, C.B, or that of MOVX. -/
theorem decode_encode_c (ha : i.allowed r priv = true) (ok : i.operandsOk r scope = true) (he : encode i = some (.c, w)) :
    decodeSlot r priv scope .c w = .ok i := by
  cases i with
  | nop =>
    obtain rfl : 0 = w := congrArg Prod.snd (Option.some.inj he)
    exact decodes rfl rfl ha rfl rfl
  | meet | ret | exit | braReg | callReg | iadd | isub | imul | imulh | imad | ishl | ishr | isar | iand | ior | ixor | icmp
  | isel | bfi | clz | popc | fmtrd | pand | por | pnot | eret | yield =>
    have h := crWord he rfl (by omega)
    refine decodes h.op rfl ha ?_ ?_
    · simp [classCheck, checkC, formCR, h.op, h.sub, h.rest, ckRF_at h.sd, ckRF_at h.sa, ckRF_at h.sb, ckRF_at h.sc]
    · simp [buildSlot, buildC, h.op, h.guard, h.sd, h.sa, h.sb, h.sc, h.sub]
  | imin _ u | imax _ u | bfx _ u =>
    have := u.toNat_le
    have h := crWord he rfl (by omega)
    refine decodes h.op rfl ha ?_ ?_
    · simp [classCheck, checkC, formCR, this, h.op, h.sub, h.rest, ckRF_at h.sd, ckRF_at h.sa, ckRF_at h.sb, ckRF_at h.sc]
    · simp [buildSlot, buildC, h.op, h.guard, h.sd, h.sa, h.sb, h.sub]
  | pmov _ o =>
    cases o with
    | pp | ps | sp =>
      have h := crWord he rfl (by omega)
      refine decodes h.op rfl ha ?_ ?_
      · simp [classCheck, checkC, formCR, h.op, h.sub, h.rest, ckRF_at h.sd, ckRF_at h.sa, ckRF_at h.sb, ckRF_at h.sc]
      · simp [buildSlot, buildC, h.op, h.guard, h.sd, h.sa, h.sub]
  | movs _ o =>
    cases o with
    | ss =>
      have h := crWord he rfl (by omega)
      refine decodes h.op rfl ha ?_ ?_
      · simp [classCheck, checkC, formCR, h.op, h.sub, h.rest, ckRF_at h.sd, ckRF_at h.sa, ckRF_at h.sb, ckRF_at h.sc]
      · simp [buildSlot, buildC, h.op, h.guard, h.sd, h.sa, h.sub]
    | ws | sw =>
      have shader : (r == .shader && (priv || !false)) = true := ha
      simp only [Bool.and_eq_true, beq_iff_eq] at shader
      have h := crWord he rfl (by omega)
      refine decodes_of_map h.op rfl rfl (Bool.or_true _) ?_ ?_
      · simp [classCheck, checkC, formCR, shader.1, h.op, h.sub, h.rest, ckRF_at h.sd, ckRF_at h.sa, ckRF_at h.sb, ckRF_at h.sc]
      · simp [buildSlot, buildC, h.op, h.guard, h.sd, h.sa, h.sub]
  | movxToVector _ v =>
    have := v.code_lt
    have h := movxWord he rfl (by omega)
    refine decodes h.op rfl ha ?_ ?_
    · simp [classCheck, checkC, h.op, h.sub, h.gap, h.rest, ckDst_at h.v]
    · simp [buildSlot, buildC, h.op, h.guard, h.sd, h.sa, h.v, h.sub]
  | movxToScalar _ signed _ v =>
    have := signed.toNat_le
    have := v.code_lt
    have h := movxWord he rfl (by omega)
    refine decodes h.op rfl ha ?_ ?_
    · cases signed <;> simp [classCheck, checkC, h.op, h.sub, h.gap, h.rest, ckSrcNoPop_at h.v, ckSrcNoPop_code ok]
    · cases signed <;> simp [buildSlot, buildC, h.op, h.guard, h.sd, h.sa, h.v, h.sub]
  | iaddImm _ _ _ x | imulImm _ _ _ x | ishlImm _ _ _ x | ishrImm _ _ _ x | isarImm _ _ _ x | iandImm _ _ _ x | iorImm _ _ _ x
  | ixorImm _ _ _ x | icmpImm _ _ _ _ x | movi _ _ _ x | lea _ _ _ _ x | waitc _ _ x =>
    have := x.isLt
    have h := ciWord he rfl (by omega)
    refine decodes h.op rfl ha ?_ ?_
    · simp [classCheck, checkC, h.op, h.sub, h.rest, ckRF_at h.sd, ckRF_at h.sa]
    · simp [buildSlot, buildC, h.op, h.guard, h.sd, h.sa, h.sub, h.imm]
  | iminImm _ u _ _ x | imaxImm _ u _ _ x =>
    have := u.toNat_le
    have := x.isLt
    have h := ciWord he rfl (by omega)
    refine decodes h.op rfl ha ?_ ?_
    · simp [classCheck, checkC, h.op, h.sub, h.rest, ckRF_at h.sd, ckRF_at h.sa]; omega
    · simp [buildSlot, buildC, h.op, h.guard, h.sd, h.sa, h.sub, h.imm]
  | fmt _ src =>
    cases src with
    | imm x =>
      have := x.isLt
      have h := ciWord he rfl (by omega)
      refine decodes h.op rfl ha ?_ ?_
      · simp [classCheck, checkC, h.op, h.sub, h.rest, ckRF_at h.sd, ckRF_at h.sa]
      · simp [buildSlot, buildC, h.op, h.guard, h.sub, h.imm]
    | reg sa =>
      have h := ciWord he rfl (by omega)
      refine decodes h.op rfl ha ?_ ?_
      · simp [classCheck, checkC, h.op, h.sub, h.rest, h.imm, ckRF_at h.sd, ckRF_at h.sa]
      · simp [buildSlot, buildC, h.op, h.guard, h.sa, h.sub]
  | sys =>
    have h := ciWord he rfl (by omega)
    refine decodes h.op rfl ha ?_ ?_
    · simp [classCheck, checkC, h.op, h.sub, h.rest, h.imm, ckRF_at h.sd, ckRF_at h.sa]
    · simp [buildSlot, buildC, h.op, h.guard, h.sd, h.sub]
  | trap _ code =>
    have bound := code.isLt
    have h := ciWord he rfl (by omega)
    have low : fld w 32 16 = code.toNat := by
      rw [← Nat.add_zero 32, ← fld_fld w 32 (show 0 + 16 ≤ 32 by decide), h.imm, fld_whole bound]
    have high : fld w 48 16 = 0 := by
      rw [← fld_fld w 32 (show 16 + 16 ≤ 32 by decide), h.imm, fld, Nat.div_eq_of_lt bound, Nat.zero_mod]
    refine decodes h.op rfl ha ?_ ?_
    · simp [classCheck, checkC, h.op, h.sub, h.rest, high, ckRF_at h.sd, ckRF_at h.sa]
    · simp [buildSlot, buildC, h.op, h.guard, low]
  | quota _ _ n =>
    have := n.isLt
    have limits : (1 ≤ n.toNat && n.toNat ≤ 10) = true := ok
    simp only [Bool.and_eq_true, decide_eq_true_eq] at limits
    have h := ciWord he rfl (by omega)
    refine decodes h.op rfl ha ?_ ?_
    · simp [classCheck, checkC, ckLim, limits, h.op, h.sub, h.rest, h.imm, ckRF_at h.sd, ckRF_at h.sa]
    · simp [buildSlot, buildC, h.op, h.guard, h.sub, h.imm]
  | bra _ off | brv _ off | rlbl _ off | call _ _ off | loop _ _ off =>
    have := off.isLt
    have h := cbWord he rfl (by omega)
    refine decodes h.op rfl ha ?_ ?_
    · simp [classCheck, checkC, h.op, h.cond, h.sa, h.sb, h.rest]
    · simp [buildSlot, buildC, h.op, h.guard, h.sa, h.off]
  | brc _ cond sa sb off =>
    have := off.isLt
    have condition : (cond.val < 10 || (sa.val < 8 && sb == 0)) = true := ok
    simp only [Bool.or_eq_true, decide_eq_true_eq, Bool.and_eq_true, beq_iff_eq] at condition
    have h := cbWord he rfl (by omega)
    refine decodes h.op rfl ha ?_ ?_
    · simp [classCheck, checkC, h.op, h.cond, h.sb, h.rest, ckPred_at h.sa]
      exact ⟨by omega, fun high => ckPred_of_lt (by omega), fun high => (condition.resolve_left (by omega)).2⟩
    · simp [buildSlot, buildC, h.op, h.guard, h.cond, h.sa, h.sb, h.off]
  | vcvt _ o => cases o <;> cases he
  | vshfl _ mode => cases mode <;> cases he
  | vbcast _ lane => cases lane <;> cases he
  | _ => cases he

end Sys2Proof
end

section

/-! Class V (R152): every image of a well-formed instruction passes the checks and is read back. -/

namespace Sys2Proof

variable {r : Role} {priv : Bool} {scope w : Nat} {i : Instr}

/-- Class V, by which operands each form reads and which values its modifier has. -/
theorem decode_encode_v (ha : i.allowed r priv = true) (ok : i.operandsOk r scope = true) (he : encode i = some (.v, w)) :
    decodeSlot r priv scope .v w = .ok i := by
  cases i with
  | vadd _ la vd va vb | vsub _ la vd va vb | vmul _ la vd va vb | vmin _ la vd va vb | vmax _ la vd va vb =>
    obtain ⟨pa, pb⟩ : va.popOk r = true ∧ vb.popOk r = true := (Bool.and_eq_true _ _).mp ok
    have h := vWord he rfl ⟨by decide, vd.code_lt, va.code_lt, vb.code_lt, by decide, by omega⟩
    refine decodes h.op rfl ha ?_ ?_
    · simp [classCheck, checkV, modOk, usesVb, usesVc, h.op, h.vc, h.mod, h.rest, ckDst_at h.vd, ckSrc_at h.va, ckSrc_at h.vb, pa, pb]
    · simp [buildSlot, buildV, h.op, h.guard, h.vd, h.va, h.vb, h.mod]
  | viadd _ k vd va vb | visub _ k vd va vb | vimul _ k vd va vb =>
    obtain ⟨pa, pb⟩ : va.popOk r = true ∧ vb.popOk r = true := (Bool.and_eq_true _ _).mp ok
    have h := vWord he rfl ⟨by decide, vd.code_lt, va.code_lt, vb.code_lt, by decide, by omega⟩
    refine decodes h.op rfl ha ?_ ?_
    · simp [classCheck, checkV, modOk, usesVb, usesVc, h.op, h.vc, h.mod, h.rest, ckDst_at h.vd, ckSrc_at h.va, ckSrc_at h.vb, pa, pb,
        Nat.le_of_lt_succ k.isLt]
    · simp [buildSlot, buildV, h.op, h.guard, h.vd, h.va, h.vb, h.mod]
  | vshr _ ar vd va vb | vscl _ ar vd va vb =>
    obtain ⟨pa, pb⟩ : va.popOk r = true ∧ vb.popOk r = true := (Bool.and_eq_true _ _).mp ok
    have := ar.toNat_le
    have h := vWord he rfl ⟨by decide, vd.code_lt, va.code_lt, vb.code_lt, by decide, by omega⟩
    refine decodes h.op rfl ha ?_ ?_
    · simp [classCheck, checkV, modOk, usesVb, usesVc, this, h.op, h.vc, h.mod, h.rest, ckDst_at h.vd, ckSrc_at h.va, ckSrc_at h.vb, pa, pb]
    · simp [buildSlot, buildV, h.op, h.guard, h.vd, h.va, h.vb, h.mod]
  | vshl _ vd va vb | vand _ vd va vb | vor _ vd va vb | vxor _ vd va vb =>
    obtain ⟨pa, pb⟩ : va.popOk r = true ∧ vb.popOk r = true := (Bool.and_eq_true _ _).mp ok
    have h := vWord he rfl ⟨by decide, vd.code_lt, va.code_lt, vb.code_lt, by decide, by decide⟩
    refine decodes h.op rfl ha ?_ ?_
    · simp [classCheck, checkV, modOk, usesVb, usesVc, h.op, h.vc, h.mod, h.rest, ckDst_at h.vd, ckSrc_at h.va, ckSrc_at h.vb, pa, pb]
    · simp [buildSlot, buildV, h.op, h.guard, h.vd, h.va, h.vb]
  | vabs _ la vd va | vneg _ la vd va =>
    have h := vWord he rfl ⟨by decide, vd.code_lt, va.code_lt, by decide, by decide, by omega⟩
    refine decodes h.op rfl ha ?_ ?_
    · simp [classCheck, checkV, modOk, usesVb, usesVc, h.op, h.vb, h.vc, h.mod, h.rest, ckDst_at h.vd, ckSrc_at h.va, ckSrc_code ok]
    · simp [buildSlot, buildV, h.op, h.guard, h.vd, h.va, h.mod]
  | vmov _ vd va | vexp2 _ vd va | vlog2 _ vd va | vrcp _ vd va | vrsq _ vd va | vsin _ vd va | vcos _ vd va | vqmx _ vd va =>
    have h := vWord he rfl ⟨by decide, vd.code_lt, va.code_lt, by decide, by decide, by decide⟩
    refine decodes h.op rfl ha ?_ ?_
    · simp [classCheck, checkV, modOk, usesVb, usesVc, h.op, h.vb, h.vc, h.mod, h.rest, ckDst_at h.vd, ckSrc_at h.va, ckSrc_code ok]
    · simp [buildSlot, buildV, h.op, h.guard, h.vd, h.va]
  | vred _ k vd va | vscan _ k vd va =>
    have h := vWord he rfl ⟨by decide, vd.code_lt, va.code_lt, by decide, by decide, by omega⟩
    refine decodes h.op rfl ha ?_ ?_
    · simp [classCheck, checkV, modOk, usesVb, usesVc, h.op, h.vb, h.vc, h.mod, h.rest, ckDst_at h.vd, ckSrc_at h.va, ckSrc_code ok,
        Nat.le_of_lt_succ k.isLt]
    · simp [buildSlot, buildV, h.op, h.guard, h.vd, h.va, h.mod]
  | vballot _ sign vd va =>
    have := sign.toNat_le
    have h := vWord he rfl ⟨by decide, vd.code_lt, va.code_lt, by decide, by decide, by omega⟩
    refine decodes h.op rfl ha ?_ ?_
    · simp [classCheck, checkV, modOk, usesVb, usesVc, this, h.op, h.vb, h.vc, h.mod, h.rest, ckDst_at h.vd, ckSrc_at h.va, ckSrc_code ok]
    · simp [buildSlot, buildV, h.op, h.guard, h.vd, h.va, h.mod]
  | vlane _ k vd =>
    have h := vWord he rfl ⟨by decide, vd.code_lt, by decide, by decide, by decide, by omega⟩
    refine decodes h.op rfl ha ?_ ?_
    · simp [classCheck, checkV, modOk, usesVb, usesVc, h.op, h.va, h.vb, h.vc, h.mod, h.rest, ckDst_at h.vd, Nat.le_of_lt_succ k.isLt]
    · simp [buildSlot, buildV, h.op, h.guard, h.vd, h.mod]
  | vfma _ la neg vd va vb vc =>
    obtain ⟨pab, pc⟩ : (va.popOk r && vb.popOk r) = true ∧ vc.popOk r = true := (Bool.and_eq_true _ _).mp ok
    obtain ⟨pa, pb⟩ := (Bool.and_eq_true _ _).mp pab
    have h := vWord he rfl ⟨by decide, vd.code_lt, va.code_lt, vb.code_lt, vc.code_lt, by omega⟩
    refine decodes h.op rfl ha ?_ ?_
    · simp [classCheck, checkV, modOk, usesVb, usesVc, h.op, h.rest, ckDst_at h.vd, ckSrc_at h.va, ckSrc_at h.vb, ckSrc_at h.vc, pa, pb, pc]
    · simp [buildSlot, buildV, h.op, h.guard, h.vd, h.va, h.vb, h.vc, h.mod, fin_eq_iff]; omega
  | vdot4 _ vd va vb vc | vdot8 _ vd va vb vc =>
    obtain ⟨pab, pc⟩ : (va.popOk r && vb.popOk r) = true ∧ vc.popOk r = true := (Bool.and_eq_true _ _).mp ok
    obtain ⟨pa, pb⟩ := (Bool.and_eq_true _ _).mp pab
    have h := vWord he rfl ⟨by decide, vd.code_lt, va.code_lt, vb.code_lt, vc.code_lt, by decide⟩
    refine decodes h.op rfl ha ?_ ?_
    · simp [classCheck, checkV, modOk, usesVb, usesVc, h.op, h.mod, h.rest, ckDst_at h.vd, ckSrc_at h.va, ckSrc_at h.vb, ckSrc_at h.vc,
        pa, pb, pc]
    · simp [buildSlot, buildV, h.op, h.guard, h.vd, h.va, h.vb, h.vc]
  | vcmp _ cc pd va vb =>
    obtain ⟨pa, pb⟩ : va.popOk r = true ∧ vb.popOk r = true := (Bool.and_eq_true _ _).mp ok
    have h := vWord he rfl ⟨by decide, by omega, va.code_lt, vb.code_lt, by decide, cc.isLt⟩
    refine decodes h.op rfl ha ?_ ?_
    · simp [classCheck, checkV, modOk, usesVb, usesVc, h.op, h.vc, h.rest, ckP11_at h.vd, ckSrc_at h.va, ckSrc_at h.vb, pa, pb]
    · simp [buildSlot, buildV, h.op, h.guard, h.vd, h.va, h.vb, h.mod]
  | vsel _ vd va vb pc =>
    obtain ⟨pa, pb⟩ : va.popOk r = true ∧ vb.popOk r = true := (Bool.and_eq_true _ _).mp ok
    have h := vWord he rfl ⟨by decide, vd.code_lt, va.code_lt, vb.code_lt, by omega, by decide⟩
    refine decodes h.op rfl ha ?_ ?_
    · simp [classCheck, checkV, modOk, usesVb, h.op, h.mod, h.rest, ckDst_at h.vd, ckSrc_at h.va, ckSrc_at h.vb, ckP11_at h.vc, pa, pb]
    · simp [buildSlot, buildV, h.op, h.guard, h.vd, h.va, h.vb, h.vc]
  | vcvt _ o vd va =>
    cases o with
    | up n =>
      have h := vWord he rfl ⟨by decide, vd.code_lt, va.code_lt, by decide, by decide, by omega⟩
      refine decodes h.op rfl ha ?_ ?_
      · simp [classCheck, checkV, modOk, usesVb, usesVc, h.op, h.vb, h.vc, h.mod, h.rest, ckDst_at h.vd, ckSrc_at h.va, ckSrc_code ok]
      · simp [buildSlot, buildV, h.op, h.guard, h.vd, h.va, h.mod]
    | dn n vc =>
      obtain ⟨pa, pc⟩ : va.popOk r = true ∧ vc.popOk r = true := (Bool.and_eq_true _ _).mp ok
      have h := vWord he rfl ⟨by decide, vd.code_lt, va.code_lt, by decide, vc.code_lt, by omega⟩
      have odd : (n.val * 2 + 1) % 2 = 1 := by omega
      have half : (n.val * 2 + 1) / 2 = n.val := by omega
      refine decodes h.op rfl ha ?_ ?_
      · simp [classCheck, checkV, modOk, usesVb, usesVc, odd, h.op, h.vb, h.mod, h.rest, ckDst_at h.vd, ckSrc_at h.va, ckSrc_at h.vc, pa, pc]
      · simp [buildSlot, buildV, odd, half, h.op, h.guard, h.vd, h.va, h.vc, h.mod]
  | vshfl _ mode vd va vb =>
    cases mode with
    | idx | xor | rot =>
      obtain ⟨pa, pb⟩ : va.popOk r = true ∧ vb.popOk r = true := (Bool.and_eq_true _ _).mp ok
      have h := vWord he rfl ⟨by decide, vd.code_lt, va.code_lt, vb.code_lt, by decide, by decide⟩
      refine decodes h.op rfl ha ?_ ?_
      · simp [classCheck, checkV, modOk, usesVb, usesVc, h.op, h.vc, h.mod, h.rest, ckDst_at h.vd, ckSrc_at h.va, ckSrc_at h.vb, pa, pb]
      · simp [buildSlot, buildV, h.op, h.guard, h.vd, h.va, h.vb, h.mod]
    | up vc | dn vc =>
      obtain ⟨pab, pc⟩ : (va.popOk r && vb.popOk r) = true ∧ vc.popOk r = true := (Bool.and_eq_true _ _).mp ok
      obtain ⟨pa, pb⟩ := (Bool.and_eq_true _ _).mp pab
      have h := vWord he rfl ⟨by decide, vd.code_lt, va.code_lt, vb.code_lt, vc.code_lt, by decide⟩
      refine decodes h.op rfl ha ?_ ?_
      · simp [classCheck, checkV, modOk, usesVb, usesVc, h.op, h.mod, h.rest, ckDst_at h.vd, ckSrc_at h.va, ckSrc_at h.vb, ckSrc_at h.vc,
          pa, pb, pc]
      · simp [buildSlot, buildV, h.op, h.guard, h.vd, h.va, h.vb, h.vc, h.mod]
  | vbcast _ lane vd va =>
    cases lane with
    | none =>
      have h := vWord he rfl ⟨by decide, vd.code_lt, va.code_lt, by decide, by decide, by decide⟩
      refine decodes h.op rfl ha ?_ ?_
      · simp [classCheck, checkV, modOk, usesVb, usesVc, h.op, h.vb, h.vc, h.mod, h.rest, ckDst_at h.vd, ckSrc_at h.va, ckSrc_code ok]
      · simp [buildSlot, buildV, h.op, h.guard, h.vd, h.va, h.mod]
    | some vb =>
      obtain ⟨pa, pb⟩ : va.popOk r = true ∧ vb.popOk r = true := (Bool.and_eq_true _ _).mp ok
      have h := vWord he rfl ⟨by decide, vd.code_lt, va.code_lt, vb.code_lt, by decide, by decide⟩
      refine decodes h.op rfl ha ?_ ?_
      · simp [classCheck, checkV, modOk, usesVb, usesVc, h.op, h.vc, h.mod, h.rest, ckDst_at h.vd, ckSrc_at h.va, ckSrc_at h.vb, pa, pb]
      · simp [buildSlot, buildV, h.op, h.guard, h.vd, h.va, h.vb, h.mod]
  | movs _ o => cases o <;> cases he
  | fmt _ src => cases src <;> cases he
  | pmov _ o => cases o <;> cases he
  | _ => cases he

end Sys2Proof
end

section

/-! Class M (R250, R251): every image of a well-formed instruction passes the checks and is read back. -/

namespace Sys2Proof

/-! ### Spaces and sizes (R67, R250) -/

theorem Space.code_lt (x : Space) : x.code < 8 := by cases x <;> decide

theorem Size.code_lt (x : Size) : x.code < 4 := by cases x <;> decide

@[simp] theorem spaceOf_code (x : Space) : spaceOf x.code = x := by cases x <;> rfl

@[simp] theorem sizeOf_code (x : Size) : sizeOf_ x.code = x := by cases x <;> rfl

@[simp] theorem spaceOk_code (r : Role) (x : Space) : spaceOk r x.code = x.okFor r := by cases r <;> cases x <;> rfl

theorem spaceOk_shared (r : Role) (shared : Bool) : spaceOk r shared.toNat = (r != .matrix && sharedOk r shared) := by
  cases r <;> cases shared <;> rfl

theorem spaceOk_global (r : Role) : spaceOk r 0 = (r != .matrix) := by cases r <;> rfl

theorem spaceOf_shared (shared : Bool) : (spaceOf shared.toNat == .s) = shared := by cases shared <;> rfl

theorem sizeOf_wide (b64 : Bool) : (sizeOf_ (2 + b64.toNat) == .b64) = b64 := by cases b64 <;> rfl

@[simp] theorem Space.code_mem (x : Space) : x.code = 0 ∨ x.code = 1 ∨ x.code = 3 ∨ x.code = 4 := by cases x <;> decide

@[simp] theorem Size.code_eq_three (x : Size) : x.code = 3 ↔ x = .b64 := by cases x <;> decide

@[simp] theorem Size.code_le (x : Size) : x.code ≤ 3 := by cases x <;> decide

/-- Data of eight bytes take two views (R251). -/
theorem pairOk_split {sz : Size} {n : Nat} (h : pairOk sz n = true) : ¬sz = .b64 ∨ ¬n = 31 := by simpa [pairOk] using h

/-- Only bytes and halves are sign-extended (R250). -/
theorem narrow_split {sz : Size} {sx : Bool} (h : (!sx || sz == .b8 || sz == .b16) = true) : sx = false ∨ sx = true ∧ sz.code ≤ 1 := by
  cases sx with
  | false => exact .inl rfl
  | true => cases sz <;> simp_all [Size.code]

/-- The views that an atomic takes, by its size and operation (R250, R263). -/
theorem atomViewsOk_split {b64 : Bool} {op : Fin 10} {vd : View} (h : atomViewsOk b64 op vd = true) :
    (¬2 + b64.toNat = 3 ∨ ¬vd.i.val = 31) ∧ (¬op.val = 9 ∨ if b64 = true then vd.i.val ≤ 28 else vd.i.val ≤ 30) := by
  unfold atomViewsOk at h
  by_cases swap : op.val = 9
  · cases b64 <;> simp [swap] at h ⊢ <;> omega
  · cases b64 <;> simp [swap] at h ⊢
    omega

/-! ### Parts of fields -/

theorem fld_at {w lo n f : Nat} (h : fld w lo n = f) (a b : Nat) (hab : a + b ≤ n) : fld w (lo + a) b = fld f a b := by
  rw [← h, fld_fld w lo hab]

theorem fld_low_of_lt {v a b : Nat} (h : v < 2 ^ a) : fld v a b = 0 := by
  rw [fld, Nat.div_eq_of_lt h, Nat.zero_mod]

variable {r : Role} {priv : Bool} {scope w : Nat} {i : Instr}

/-- Class M, by the operands, spaces and sizes that each form has. -/
theorem decode_encode_m (ha : i.allowed r priv = true) (ok : i.operandsOk r scope = true) (he : encode i = some (.m, w)) :
    decodeSlot r priv scope .m w = .ok i := by
  cases i with
  | ld _ sp sz sx vd _ vo d | ldx _ sp sz sx vd _ vo d =>
    obtain ⟨ok, narrow⟩ := (Bool.and_eq_true _ _).mp ok
    obtain ⟨ok, noPop⟩ : _ ∧ vo.noPop = true := (Bool.and_eq_true _ _).mp ok
    obtain ⟨space, pair⟩ : sp.okFor r = true ∧ pairOk sz vd.i.val = true := (Bool.and_eq_true _ _).mp ok
    have := sz.code_lt
    have := sx.toNat_le
    have h := mWord he rfl ⟨by decide, vd.code_lt, vo.code_lt, by omega, sp.code_lt, by omega, by omega, d.isLt⟩
    have index : fld w 12 5 = vd.i.val := (fld_at h.vd 0 5 (by decide)).trans vd.fld_index
    refine decodes h.op rfl ha ?_ ?_
    · simp [classCheck, checkM, h.op, h.size, h.sub, h.sp, index, ckDst_at h.vd, ckSrcNoPop_at h.vo, noPop, space, pairOk_split pair,
        narrow_split narrow]
    · simp [buildSlot, buildM, h.op, h.guard, h.vd, h.vo, h.an, h.sp, h.size, h.sub, h.disp]
  | st _ sp sz vd _ vo d | stx _ sp sz vd _ vo d =>
    obtain ⟨ok, noPop⟩ : _ ∧ vo.noPop = true := (Bool.and_eq_true _ _).mp ok
    obtain ⟨ok, pair⟩ : _ ∧ pairOk sz vd.index = true := (Bool.and_eq_true _ _).mp ok
    obtain ⟨space, data⟩ : sp.okFor r = true ∧ vd.noPop = true := (Bool.and_eq_true _ _).mp ok
    have := sz.code_lt
    have h := mWord he rfl ⟨by decide, vd.code_lt, vo.code_lt, by omega, sp.code_lt, by omega, by decide, d.isLt⟩
    have index : fld w 12 5 = vd.index := (fld_at h.vd 0 5 (by decide)).trans vd.fld_index
    refine decodes h.op rfl ha ?_ ?_
    · simp [classCheck, checkM, h.op, h.size, h.sub, h.sp, index, ckSrcNoPop_at h.vd, ckSrcNoPop_at h.vo, data, noPop, space, pairOk_split pair]
    · simp [buildSlot, buildM, h.op, h.guard, h.vd, h.vo, h.an, h.sp, h.size, h.disp]
  | atom _ sh b64 op vd _ vo d =>
    obtain ⟨ok, noPop⟩ : _ ∧ vo.noPop = true := (Bool.and_eq_true _ _).mp ok
    obtain ⟨space, views⟩ : sharedOk r sh = true ∧ atomViewsOk b64 op vd = true := (Bool.and_eq_true _ _).mp ok
    have role : (r != .matrix) = true := ((Bool.and_eq_true _ _).mp ha).1
    have := sh.toNat_le
    have := b64.toNat_le
    have h := mWord he rfl ⟨by decide, vd.code_lt, vo.code_lt, by omega, by omega, by omega, by omega, d.isLt⟩
    have index : fld w 12 5 = vd.i.val := (fld_at h.vd 0 5 (by decide)).trans vd.fld_index
    refine decodes h.op rfl ha ?_ ?_
    · simp [classCheck, checkM, h.op, h.size, h.sub, h.sp, index, ckDst_at h.vd, ckSrcNoPop_at h.vo, noPop, spaceOk_shared, role, space,
        atomViewsOk_split views, Nat.le_of_lt_succ op.isLt]
      cases b64 <;> simp
    · simp [buildSlot, buildM, h.op, h.guard, h.vd, h.vo, h.an, h.sp, h.size, h.sub, h.disp, spaceOf_shared, sizeOf_wide]
  | atomfAdd _ sh vd _ vo d =>
    obtain ⟨ok, noPop⟩ : _ ∧ vo.noPop = true := (Bool.and_eq_true _ _).mp ok
    obtain ⟨space, data⟩ : sharedOk r sh = true ∧ vd.noPop = true := (Bool.and_eq_true _ _).mp ok
    have role : (r != .matrix) = true := ((Bool.and_eq_true _ _).mp ha).1
    have := sh.toNat_le
    have h := mWord he rfl ⟨by decide, vd.code_lt, vo.code_lt, by omega, by omega, by decide, by decide, d.isLt⟩
    refine decodes h.op rfl ha ?_ ?_
    · simp [classCheck, checkM, h.op, h.size, h.sub, h.sp, ckSrcNoPop_at h.vd, ckSrcNoPop_at h.vo, data, noPop, spaceOk_shared, role, space]
    · simp [buildSlot, buildM, h.op, h.guard, h.vd, h.vo, h.an, h.sp, h.sub, h.disp, spaceOf_shared]
  | atomfAddX _ vd _ vo d =>
    obtain ⟨data, noPop⟩ : vd.noPop = true ∧ vo.noPop = true := (Bool.and_eq_true _ _).mp ok
    have role : (r != .matrix) = true := ((Bool.and_eq_true _ _).mp ha).1
    have h := mWord he rfl ⟨by decide, vd.code_lt, vo.code_lt, by omega, by decide, by decide, by decide, d.isLt⟩
    refine decodes h.op rfl ha ?_ ?_
    · simp [classCheck, checkM, h.op, h.size, h.sub, h.sp, ckSrcNoPop_at h.vd, ckSrcNoPop_at h.vo, data, noPop, spaceOk_global, role]
    · simp [buildSlot, buildM, h.op, h.guard, h.vd, h.vo, h.an, h.sub, h.disp]
  | settle _ vd _ vo d =>
    have role : (r != .matrix) = true := ((Bool.and_eq_true _ _).mp ha).1
    have h := mWord he rfl ⟨by decide, vd.code_lt, vo.code_lt, by omega, by decide, by decide, by decide, d.isLt⟩
    refine decodes h.op rfl ha ?_ ?_
    · simp [classCheck, checkM, h.op, h.size, h.sub, h.sp, ckDst_at h.vd, ckSrcNoPop_at h.vo, ckSrcNoPop_code ok, spaceOk_global, role]
    · simp [buildSlot, buildM, h.op, h.guard, h.vd, h.vo, h.an, h.disp]
  | fence =>
    have h := mWord he rfl (by decide)
    have operands : fld w 12 22 = 0 := by rw [fld_add w 12 11 11, h.vd, h.vo]; rfl
    refine decodes h.op rfl ha ?_ ?_
    · simp [classCheck, checkM, h.op, h.size, h.sub, h.sp, h.an, h.disp, operands]
    · simp [buildSlot, buildM, h.op, h.guard]
  | xlate _ nf an sa =>
    have := nf.toNat_le
    have h := mWord he rfl (by omega)
    have reg : fld w 23 6 = sa.val := (fld_at h.vo 0 6 (by decide)).trans (fld_whole sa.isLt)
    have above : fld w 29 5 = 0 := (fld_at h.vo 6 5 (by decide)).trans (fld_low_of_lt sa.isLt)
    refine decodes h.op rfl ha ?_ ?_
    · simp [classCheck, checkM, this, h.op, h.size, h.sub, h.sp, h.vd, h.disp, above]
    · simp [buildSlot, buildM, h.op, h.guard, h.an, h.sub, reg]
  | probe _ sz vd _ vo d =>
    obtain ⟨pair, noPop⟩ : pairOk sz vd.i.val = true ∧ vo.noPop = true := (Bool.and_eq_true _ _).mp ok
    have role : (r != .matrix) = true := ((Bool.and_eq_true _ _).mp ha).1
    have := sz.code_lt
    have h := mWord he rfl ⟨by decide, vd.code_lt, vo.code_lt, by omega, by decide, by omega, by decide, d.isLt⟩
    have index : fld w 12 5 = vd.i.val := (fld_at h.vd 0 5 (by decide)).trans vd.fld_index
    refine decodes h.op rfl ha ?_ ?_
    · simp [classCheck, checkM, h.op, h.size, h.sub, h.sp, index, ckDst_at h.vd, ckSrcNoPop_at h.vo, noPop, spaceOk_global, role, pairOk_split pair]
    · simp [buildSlot, buildM, h.op, h.guard, h.vd, h.vo, h.an, h.size, h.disp]
  | pref _ l2 _ vo d =>
    have role : (r != .matrix) = true := ((Bool.and_eq_true _ _).mp ha).1
    have := l2.toNat_le
    have h := mWord he rfl ⟨by decide, by decide, vo.code_lt, by omega, by decide, by decide, by omega, d.isLt⟩
    refine decodes h.op rfl ha ?_ ?_
    · simp [classCheck, checkM, this, h.op, h.size, h.sub, h.sp, h.vd, ckSrcNoPop_at h.vo, ckSrcNoPop_code ok, spaceOk_global, role]
    · simp [buildSlot, buildM, h.op, h.guard, h.vo, h.an, h.sub, h.disp]
  | clean _ sel | inval _ sel =>
    cases sel with
    | all =>
      have h := mWord he rfl (by omega)
      refine decodes h.op rfl ha ?_ ?_
      · simp [classCheck, checkM, h.op, h.size, h.sub, h.sp, h.vd, h.vo, h.an, h.disp]
      · simp [buildSlot, buildM, h.op, h.guard, h.sub]
    | range sa sb =>
      have h := mWord he rfl (by omega)
      have first : fld w 23 6 = sa.val := (fld_at h.vo 0 6 (by decide)).trans (fld_whole sa.isLt)
      have second : fld w 12 6 = sb.val := (fld_at h.vd 0 6 (by decide)).trans (fld_whole sb.isLt)
      have aboveFirst : fld w 29 5 = 0 := (fld_at h.vo 6 5 (by decide)).trans (fld_low_of_lt sa.isLt)
      have aboveSecond : fld w 18 5 = 0 := (fld_at h.vd 6 5 (by decide)).trans (fld_low_of_lt sb.isLt)
      refine decodes h.op rfl ha ?_ ?_
      · simp [classCheck, checkM, h.op, h.size, h.sub, h.sp, h.an, h.disp, aboveFirst, aboveSecond]
      · simp [buildSlot, buildM, h.op, h.guard, h.sub, first, second]
  | movs _ o => cases o <;> cases he
  | fmt _ src => cases src <;> cases he
  | pmov _ o => cases o <;> cases he
  | vcvt _ o => cases o <;> cases he
  | vshfl _ mode => cases mode <;> cases he
  | vbcast _ lane => cases lane <;> cases he
  | _ => cases he

end Sys2Proof
end

section

/-! Class E: every image of a well-formed instruction passes the checks and is read back. -/

namespace Sys2Proof

/-- The parts of dx, dy and dz that class E's checks read. -/
theorem EWord.parts {w op sub sx sy sz dx dy dz : Nat} {g : Guard} (h : EWord w op g sub sx sy sz dx dy dz) :
    (fld w 34 2 = dx % 4 ∧ fld w 34 4 = dx % 16 ∧ fld w 34 6 = dx % 64 ∧ fld w 36 2 = dx / 4 % 4 ∧ fld w 36 8 = dx / 4 % 256
      ∧ fld w 37 7 = dx / 8 % 128 ∧ fld w 38 5 = dx / 16 % 32 ∧ fld w 38 6 = dx / 16 % 64 ∧ fld w 40 4 = dx / 64 % 16
      ∧ bitN w 40 = (dx / 64 % 2 == 1) ∧ fld w 41 3 = dx / 128 % 8 ∧ fld w 42 2 = dx / 256 % 4 ∧ fld w 43 1 = dx / 512 % 2)
    ∧ (fld w 44 4 = dy % 16 ∧ fld w 44 7 = dy % 128 ∧ fld w 48 6 = dy / 16 % 64 ∧ bitN w 51 = (dy / 128 % 2 == 1)
      ∧ fld w 51 3 = dy / 128 % 8 ∧ fld w 52 2 = dy / 256 % 4 ∧ fld w 53 1 = dy / 512 % 2)
    ∧ (fld w 54 4 = dz % 16 ∧ fld w 58 4 = dz / 16 % 16 ∧ fld w 62 2 = dz / 256 % 4) := by
  have x (a b : Nat) (hab : a + b ≤ 10) : fld w (34 + a) b = dx / 2 ^ a % 2 ^ b := fld_at h.dx a b hab
  have y (a b : Nat) (hab : a + b ≤ 10) : fld w (44 + a) b = dy / 2 ^ a % 2 ^ b := fld_at h.dy a b hab
  have z (a b : Nat) (hab : a + b ≤ 10) : fld w (54 + a) b = dz / 2 ^ a % 2 ^ b := fld_at h.dz a b hab
  have low (v : Nat) : v / 2 ^ 0 = v := Nat.div_one v
  refine ⟨⟨?_, ?_, ?_, x 2 2 (by decide), x 2 8 (by decide), x 3 7 (by decide), x 4 5 (by decide), x 4 6 (by decide), x 6 4 (by decide),
    congrArg (· == 1) (x 6 1 (by decide)), x 7 3 (by decide), x 8 2 (by decide), x 9 1 (by decide)⟩,
    ⟨?_, ?_, y 4 6 (by decide), congrArg (· == 1) (y 7 1 (by decide)), y 7 3 (by decide), y 8 2 (by decide), y 9 1 (by decide)⟩,
    ?_, z 4 4 (by decide), z 8 2 (by decide)⟩
  · exact low dx ▸ x 0 2 (by decide)
  · exact low dx ▸ x 0 4 (by decide)
  · exact low dx ▸ x 0 6 (by decide)
  · exact low dy ▸ y 0 4 (by decide)
  · exact low dy ▸ y 0 7 (by decide)
  · exact low dz ▸ z 0 4 (by decide)

/-! ### Flags and packed operands -/

theorem flag_eq {x : Nat} {b : Bool} (h : x = b.toNat) : (x == 1) = b := by rw [h, toNat_beq_one]

/-- The three flags of MMA and ACCRD. -/
theorem flags_read (a b c : Bool) : ((a.toNat + b.toNat * 2 + c.toNat * 4) % 2 == 1) = a
    ∧ ((a.toNat + b.toNat * 2 + c.toNat * 4) / 2 % 2 == 1) = b ∧ ((a.toNat + b.toNat * 2 + c.toNat * 4) / 4 % 2 == 1) = c
    ∧ a.toNat + b.toNat * 2 + c.toNat * 4 < 8 := by
  have := a.toNat_le
  have := b.toNat_le
  have := c.toNat_le
  exact ⟨flag_eq (by omega), flag_eq (by omega), flag_eq (by omega), by omega⟩

/-- A C bank with M - 1 above it. -/
theorem bankRows_read (bank : Fin 8) (m1 : Fin 128) : fin 8 (bank.val + m1.val * 8) = bank ∧ fin 128 ((bank.val + m1.val * 8) / 8) = m1
    ∧ (bank.val + m1.val * 8) / 8 % 128 = m1.val ∧ bank.val + m1.val * 8 < 1024 :=
  ⟨fin_eq_iff.2 (by omega), fin_eq_iff.2 (by omega), by omega, by omega⟩

/-- A code with another above it, of two bits each. -/
theorem codes_read {a b : Nat} (ha : a < 4) (hb : b < 4) : (a + b * 4) % 4 = a ∧ (a + b * 4) / 4 = b ∧ (a + b * 4) / 4 % 4 = b :=
  ⟨by omega, by omega, by omega⟩

/-- A semaphore's number with its raise flag above it. -/
theorem raise_read (sem : Fin 64) (raise : Bool) : fin 64 (sem.val + raise.toNat * 64) = sem
    ∧ ((sem.val + raise.toNat * 64) / 64 % 2 == 1) = raise ∧ sem.val + raise.toNat * 64 < 128 := by
  have := raise.toNat_le
  exact ⟨fin_eq_iff.2 (by omega), flag_eq (by omega), by omega⟩

theorem Space.sortCode_lt (x : Space) : x.sortCode < 4 := by cases x <;> decide

/-- A space of the sort engines as its code stands for it, for an issuer that has them (R295). -/
theorem sortOk_read {r : Role} {x : Space} (hr : (r == .shader || r == .copy) = true) (h : x.sortOk r = true) :
    sSpaceOf x.sortCode = x ∧ x.sortCode ≠ 3 ∧ (x.sortCode = 0 ∨ if r = .shader then x.sortCode = 2 else x.sortCode = 1) := by
  cases r <;> cases x <;> simp_all [Space.sortOk, Space.sortCode, sSpaceOf]

theorem CSpace.srcCode_lt (x : CSpace) : x.srcCode < 4 := by cases x <;> decide

theorem CSpace.dstCode_lt (x : CSpace) : x.dstCode < 4 := by cases x <;> decide

@[simp] theorem cDstOf_dstCode (x : CSpace) : cDstOf x.dstCode = x := by cases x <;> rfl

@[simp] theorem CSpace.dstCode_eq_one (x : CSpace) : x.dstCode = 1 ↔ x = .a := by cases x <;> decide

/-- A pair of COPY spaces as its codes stand for it, for an issuer that has it (R272). -/
theorem copyPairOk_read {r : Role} {x y : CSpace} (h : copyPairOk r x y = true) : cSrcOf x.srcCode = x ∧ x.srcCode ≠ 3
    ∧ (if r = .shader then (x.srcCode = 0 ∨ x.srcCode = 2) ∧ (y.dstCode = 0 ∨ y.dstCode = 1 ∨ y.dstCode = 3)
        else (x.srcCode = 0 ∨ x.srcCode = 1) ∧ y.dstCode ≤ 2) := by
  cases r <;> cases x <;> cases y <;> simp_all [copyPairOk, CSpace.srcCode, CSpace.dstCode, cSrcOf]

variable {r : Role} {priv : Bool} {scope w : Nat}

/-- COPY (R272): its pair of spaces is one of the issuer, and its far flag is for global to a shader's queue only. -/
theorem decode_encode_copy {g : Guard} {o : CopyOp} (ha : (Instr.copy g o).allowed r priv = true)
    (ok : (Instr.copy g o).operandsOk r scope = true) (he : encode (Instr.copy g o) = some (.e, w)) :
    decodeSlot r priv scope .e w = .ok (Instr.copy g o) := by
  obtain ⟨fields, remote⟩ := (Bool.and_eq_true _ _).mp ok
  obtain ⟨fields, ch⟩ := (Bool.and_eq_true _ _).mp fields
  obtain ⟨pair, sz⟩ : copyPairOk r o.src o.dst = true ∧ decide (o.sz.val ≤ 62) = true := (Bool.and_eq_true _ _).mp fields
  simp at ch sz remote
  obtain ⟨src, listed, pair⟩ := copyPairOk_read pair
  obtain ⟨low, high, -⟩ := codes_read o.src.srcCode_lt o.dst.dstCode_lt
  have := o.src.srcCode_lt
  have := o.dst.dstCode_lt
  have := o.raise.toNat_le
  have := o.remote.toNat_le
  have sem : fin 64 (o.sem.val + o.raise.toNat * 64 + o.remote.toNat * 128) = o.sem := fin_eq_iff.2 (by omega)
  have raise : ((o.sem.val + o.raise.toNat * 64 + o.remote.toNat * 128) / 64 % 2 == 1) = o.raise := flag_eq (by omega)
  have far : ((o.sem.val + o.raise.toNat * 64 + o.remote.toNat * 128) / 128 % 2 == 1) = o.remote := flag_eq (by omega)
  have above : (o.sem.val + o.raise.toNat * 64 + o.remote.toNat * 128) / 256 % 4 = 0 := by omega
  have h := eWord he rfl (by omega)
  refine decodes h.op rfl ha ?_ ?_
  · simp [classCheck, checkE, h.op, h.sub, h.sz, h.dx, h.dz, h.parts, low, high, far, above, listed, sz]
    exact ⟨by simpa [or_assoc] using pair, ch, remote⟩
  · simp [buildSlot, buildE, h.op, h.guard, h.sub, h.sx, h.sy, h.sz, h.dx, h.dy, src, low, high, sem, raise, far]

/-- QRREAD into the A buffer takes its place from sx, QRREAD into registers names a matrix; the other field is zero. -/
theorem decode_encode_qrread {g : Guard} {kind : Fin 3} {all : Bool} {sx : SReg} {m : Fin 16}
    (ha : (Instr.qrread g kind all sx m).allowed r priv = true)
    (ok : (Instr.qrread g kind all sx m).operandsOk r scope = true) (he : encode (Instr.qrread g kind all sx m) = some (.e, w)) :
    decodeSlot r priv scope .e w = .ok (Instr.qrread g kind all sx m) := by
  have fields : (if all then m == 0 else sx == 0 && mOk m) = true := ok
  cases all with
  | false | true =>
    simp [mOk] at fields
    have h := eWord he rfl (by simp; omega)
    have single : kind.val ≠ 3 := by omega
    have every : ¬ kind.val + 4 < 3 := by omega
    refine decodes h.op rfl ha ?_ ?_
    · simp [classCheck, checkE, ckMReg, fields, every, h.op, h.sub, h.sx, h.sy, h.sz, h.dx, h.dy, h.dz, h.parts]
      omega
    · simp [buildSlot, buildE, fields, single, h.op, h.guard, h.sub, h.sx, h.dx, fin_eq_iff]
      omega

/-- ACCRD: the limits of its extents depend on where the accumulators go and in which format. -/
theorem decode_encode_accrd {g : Guard} {o : AccrdOp} (ha : (Instr.accrd g o).allowed r priv = true)
    (ok : (Instr.accrd g o).operandsOk r scope = true) (he : encode (Instr.accrd g o) = some (.e, w)) :
    decodeSlot r priv scope .e w = .ok (Instr.accrd g o) := by
  have limits : o.ok = true := ok
  obtain ⟨f0, f1, f2, sub⟩ := flags_read o.i32 o.reg o.mx
  obtain ⟨bank, m1, rows, dx⟩ := bankRows_read o.bank o.m1
  have fmt : fin 16 (o.fmt.val + o.mreg.val * 16) = o.fmt := fin_eq_iff.2 (by omega)
  have mreg : fin 16 ((o.fmt.val + o.mreg.val * 16) / 16) = o.mreg := fin_eq_iff.2 (by omega)
  have fmtField : (o.fmt.val + o.mreg.val * 16) % 16 = o.fmt.val := by omega
  have mregField : (o.fmt.val + o.mreg.val * 16) / 16 % 16 = o.mreg.val := by omega
  have columns : o.n1.val % 128 = o.n1.val := Nat.mod_eq_of_lt o.n1.isLt
  have aboveY : o.n1.val / 128 % 8 = 0 := by omega
  have aboveZ : (o.fmt.val + o.mreg.val * 16) / 256 % 4 = 0 := by omega
  have h := eWord he rfl (by omega)
  refine decodes h.op rfl ha ?_ ?_
  · simp [AccrdOp.ok] at limits
    obtain ⟨limits, file⟩ := limits
    have fileRead : (if o.reg = true then need (decide (o.mreg.val ≤ 9)) 2 else ckZero w 58 4) = none := by
      cases reg : o.reg <;> simp_all [mOk, h.parts]
    simp [classCheck, checkE, h.op, h.sub, h.sy, h.sz, h.parts, f0, f1, f2, sub, rows, fmtField, mregField, columns, aboveY, aboveZ, fileRead]
    grind
  · simp [buildSlot, buildE, h.op, h.guard, h.sub, h.sx, h.sy, h.sz, h.dx, h.dy, h.dz, f0, f1, f2, bank, m1, fmt, mreg]

/-- Class E, every other form as its checks and builder read it. -/
theorem decode_encode_e {i : Instr} (ha : i.allowed r priv = true) (ok : i.operandsOk r scope = true) (he : encode i = some (.e, w)) :
    decodeSlot r priv scope .e w = .ok i := by
  cases i with
  | ordd | fork | join | spawn | taskend | launch | tlbinv | tlbinvRoot | tlbinvAll | tstld | classWr | classMv | classRd | bar | stepend
  | qrzero | qrgainImm | qrgainDef | qrreadSt | cntclrSnap | cntclrRoll | cntclrFree =>
    have h := eWord he rfl (by omega)
    refine decodes h.op rfl ha ?_ ?_
    · simp [classCheck, checkE, h.op, h.sub, h.sx, h.sy, h.sz, h.dx, h.dy, h.dz, h.parts]
    · simp [buildSlot, buildE, h.op, h.guard, h.sub, h.sx, h.sy, h.sz]
  | qpushT | rput | dictld | dictinv | semwaitDec | semwaitGe | wpwait | wpwaitRd | enrd =>
    have h := eWord he rfl (by omega)
    refine decodes h.op rfl ha ?_ ?_
    · simp [classCheck, checkE, h.op, h.sub, h.sx, h.sy, h.sz, h.dy, h.dz, h.parts]
      omega
    · simp [buildSlot, buildE, h.op, h.guard, h.sub, h.sx, h.sy, h.dx, h.dy]
  | rget _ full =>
    have := full.toNat_le
    have h := eWord he rfl (by omega)
    refine decodes h.op rfl ha ?_ ?_
    · simp [classCheck, checkE, h.op, h.sub, h.sz, h.dy, h.dz, h.parts]
      omega
    · simp [buildSlot, buildE, h.op, h.guard, h.sub, h.sx, h.sy, h.dx]
  | ordw _ _ _ m i =>
    have file : m.val ≤ 9 := of_decide_eq_true ok
    have h := eWord he rfl (by omega)
    refine decodes h.op rfl ha ?_ ?_
    · simp [classCheck, checkE, h.op, h.sub, h.sz, h.dy, h.dz, h.parts]
      omega
    · simp [buildSlot, buildE, h.op, h.guard, h.sx, h.sy, h.dx, fin_eq_iff]
      omega
  | qpushRBuffer =>
    have copier : ((r == .copy || r == .vector) && (priv || !false)) = true := ha
    simp at copier
    have h := eWord he rfl (by omega)
    refine decodes_of_map h.op rfl ?_ (Bool.or_true _) ?_ ?_
    · rcases copier with rfl | rfl <;> rfl
    · rcases copier with rfl | rfl <;> simp [classCheck, checkE, h.op, h.sub, h.sy, h.sz, h.dy, h.dz, h.parts] <;> omega
    · simp [buildSlot, buildE, h.op, h.guard, h.sub, h.sx, h.dx]
  | qpushRRegister _ n m i =>
    have file : m.val ≤ 9 := of_decide_eq_true ok
    have vector : ((r == .vector) && (priv || !false)) = true := ha
    simp at vector
    have h := eWord he rfl (by omega)
    refine decodes_of_map h.op rfl ?_ (Bool.or_true _) ?_ ?_
    · rw [vector]; rfl
    · simp [classCheck, checkE, vector, h.op, h.sub, h.sx, h.sy, h.sz, h.dz, h.parts]
      omega
    · simp [buildSlot, buildE, h.op, h.guard, h.sub, h.dx, h.dy, fin_eq_iff]
      omega
  | qcfgRd _ _ sel =>
    have listed : sel.val ≤ 13 := of_decide_eq_true ok
    have issuer : ((if sel.val ≤ 9 then Where.s else Where.c).ok r && (priv || !false)) = true := ha
    simp at issuer
    have h := eWord he rfl (by omega)
    refine decodes_of_map h.op rfl ?_ (Bool.or_true _) ?_ ?_
    · split at issuer <;> simp_all [Where.ok]
    · simp [classCheck, checkE, h.op, h.sub, h.sy, h.sz, h.dy, h.dz, h.parts]
      have whole : sel.val % 16 = sel.val := Nat.mod_eq_of_lt sel.isLt
      rw [whole]
      refine ⟨listed, ?_, by omega⟩
      split at issuer <;> simp_all [Where.ok]
    · simp [buildSlot, buildE, h.op, h.guard, h.sub, h.sx, h.dx]
  | qcfgRq =>
    have copier : ((r == .copy) && (priv || !false)) = true := ha
    simp at copier
    have h := eWord he rfl (by omega)
    refine decodes_of_map h.op rfl ?_ (Bool.or_true _) ?_ ?_
    · rw [copier]; rfl
    · simp [classCheck, checkE, copier, h.op, h.sub, h.sx, h.sz, h.dy, h.dz, h.parts]
      omega
    · simp [buildSlot, buildE, h.op, h.guard, h.sub, h.sy, h.dx]
  | barWeave =>
    have tile : ((r != .shader) && (priv || !false)) = true := ha
    simp at tile
    have h := eWord he rfl (by omega)
    refine decodes_of_map h.op rfl rfl (Bool.or_true _) ?_ ?_
    · simp [classCheck, checkE, tile, h.op, h.sub, h.sx, h.sy, h.sz, h.dx, h.dy, h.dz]
    · simp [buildSlot, buildE, h.op, h.guard, h.sub]
  | barNet =>
    have wide : (scope != 0 && scope != 5 && scope != 6) = true := ok
    simp at wide
    have h := eWord he rfl (by omega)
    refine decodes h.op rfl ha ?_ ?_
    · simp [classCheck, checkE, wide, h.op, h.sub, h.sy, h.sz, h.dy, h.dz, h.parts]
      omega
    · simp [buildSlot, buildE, h.op, h.guard, h.sub, h.sx, h.dx]
  | semaddI _ n k t | semadd _ n _ t =>
    cases t with
    | none | some =>
      have h := eWord he rfl (by simp; omega)
      refine decodes h.op rfl ha ?_ ?_
      · simp [classCheck, checkE, h.op, h.sub, h.sx, h.sy, h.sz, h.dy, h.dz, h.parts]
        omega
      · simp [buildSlot, buildE, h.op, h.guard, h.sub, h.sx, h.sy, h.dx, h.dy, fin_eq_iff]
        omega
  | govrd _ sel =>
    have listed : sel.val ≤ 6 := of_decide_eq_true ok
    have h := eWord he rfl (by omega)
    refine decodes h.op rfl ha ?_ ?_
    · simp [classCheck, checkE, h.op, h.sub, h.sz, h.dy, h.dz, h.parts]
      omega
    · simp [buildSlot, buildE, h.op, h.guard, h.sx, h.sy, h.dx]
  | cntrd _ _ sel =>
    have listed : (sel.val ≤ 4 || (8 ≤ sel.val && sel.val ≤ 22)) = true := ok
    simp at listed
    have h := eWord he rfl (by omega)
    refine decodes h.op rfl ha ?_ ?_
    · simp [classCheck, checkE, h.op, h.sub, h.sy, h.sz, h.dy, h.dz, h.parts]
      omega
    · simp [buildSlot, buildE, h.op, h.guard, h.sx, h.dx]
  | cntclr _ n =>
    have listed : n.val ≤ 8 := of_decide_eq_true ok
    have h := eWord he rfl (by omega)
    refine decodes h.op rfl ha ?_ ?_
    · simp [classCheck, checkE, h.op, h.sub, h.sx, h.sy, h.sz, h.dy, h.dz, h.parts]
      omega
    · simp [buildSlot, buildE, h.op, h.guard, h.sub, h.dx]
  | accz _ bank m1 n1 =>
    have h := eWord he rfl (by omega)
    refine decodes h.op rfl ha ?_ ?_
    · simp [classCheck, checkE, h.op, h.sub, h.sx, h.sy, h.sz, h.dz, h.parts]
      omega
    · simp [buildSlot, buildE, h.op, h.guard, h.dx, h.dy, fin_eq_iff]
      omega
  | rast _ m sv =>
    have file : (m.val ≤ 9 && sv.val ≤ 61) = true := ok
    simp at file
    have h := eWord he rfl (by omega)
    refine decodes h.op rfl ha ?_ ?_
    · simp [classCheck, checkE, ckMReg, file, h.op, h.sub, h.sx, h.dy, h.dz, h.parts]
      omega
    · simp [buildSlot, buildE, h.op, h.guard, h.sx, h.sy, h.sz, h.dx]
  | trace _ mO mI | texs _ mO mI | texg _ ch mO mI =>
    have file : (mO.val ≤ 9 && mI.val ≤ 9) = true := ok
    simp at file
    have h := eWord he rfl (by omega)
    refine decodes h.op rfl ha ?_ ?_
    · simp [classCheck, checkE, ckMReg, h.op, h.sub, h.sy, h.sz, h.dz, h.parts]
      omega
    · simp [buildSlot, buildE, h.op, h.guard, h.sub, h.sx, h.sy, h.sz, h.dx, h.dy]
  | angout _ rad m i | angin _ rad m i =>
    have file : (m.val ≤ 9 && i.val ≤ 30) = true := ok
    simp at file
    have := rad.toNat_le
    have h := eWord he rfl (by omega)
    refine decodes h.op rfl ha ?_ ?_
    · simp [classCheck, checkE, h.op, h.sub, h.sx, h.sy, h.sz, h.dy, h.dz, h.parts]
      omega
    · simp [buildSlot, buildE, h.op, h.guard, h.sub, h.dx, fin_eq_iff]
      omega
  | mma _ o | mmag _ o =>
    obtain ⟨low, high⟩ : (o.sA.val ≤ 62 && (o.wl || o.sW.val ≤ 62)) = true ∧ (o.nb.val != 0) = true := (Bool.and_eq_true _ _).mp ok
    simp at low high
    obtain ⟨f0, f1, f2, sub⟩ := flags_read o.sa o.sw o.wl
    obtain ⟨bank, m1, -, dx⟩ := bankRows_read o.bank o.m1
    have := o.acc.toNat_le
    have acc : ((o.n1.val + o.acc.toNat * 128) / 128 % 2 == 1) = o.acc := flag_eq (by omega)
    have n1 : fin 128 (o.n1.val + o.acc.toNat * 128) = o.n1 := fin_eq_iff.2 (by omega)
    have above : (o.n1.val + o.acc.toNat * 128) / 256 % 4 = 0 := by omega
    have h := eWord he rfl (by omega)
    refine decodes h.op rfl ha ?_ ?_
    · simp [classCheck, checkE, h.op, h.sub, h.sx, h.sy, h.dz, h.parts, f2, sub, low, high, above]
    · simp [buildSlot, buildE, h.op, h.guard, h.sub, h.sx, h.sy, h.sz, h.dx, h.dy, h.dz, f0, f1, f2, bank, m1, n1, acc]
  | mxld _ wide sW sF n1 nb =>
    obtain ⟨low, high⟩ : decide (sW.val ≤ 62) = true ∧ (nb.val != 0) = true := (Bool.and_eq_true _ _).mp ok
    simp at low high
    have := wide.toNat_le
    have h := eWord he rfl (by omega)
    refine decodes h.op rfl ha ?_ ?_
    · simp [classCheck, checkE, h.op, h.sub, h.sx, h.sy, h.dx, h.dz, h.parts, low, high]
      omega
    · simp [buildSlot, buildE, h.op, h.guard, h.sub, h.sy, h.sz, h.dy, h.dz]
  | sort _ o | merge _ o =>
    have issuer : (r == .shader || r == .copy) = true := ((Bool.and_eq_true _ _).mp ha).1
    obtain ⟨fields, dst⟩ : _ ∧ o.dst.sortOk r = true := (Bool.and_eq_true _ _).mp ok
    obtain ⟨fields, src⟩ : _ ∧ o.src.sortOk r = true := (Bool.and_eq_true _ _).mp fields
    simp at fields
    obtain ⟨src, srcListed, srcOk⟩ := sortOk_read issuer src
    obtain ⟨dst, dstListed, dstOk⟩ := sortOk_read issuer dst
    obtain ⟨low, -, high⟩ := codes_read o.src.sortCode_lt o.dst.sortCode_lt
    obtain ⟨sem, raise, dy⟩ := raise_read o.sem o.raise
    have := o.src.sortCode_lt
    have := o.dst.sortCode_lt
    have := o.desc.toNat_le
    have := o.vals.toNat_le
    have key : fin 4 (o.key.val + o.desc.toNat * 4 + o.vals.toNat * 8) = o.key := fin_eq_iff.2 (by omega)
    have desc : ((o.key.val + o.desc.toNat * 4 + o.vals.toNat * 8) / 4 % 2 == 1) = o.desc := flag_eq (by omega)
    have vals : ((o.key.val + o.desc.toNat * 4 + o.vals.toNat * 8) / 8 % 2 == 1) = o.vals := flag_eq (by omega)
    have aboveX : (o.src.sortCode + o.dst.sortCode * 4) / 16 % 64 = 0 := by omega
    have aboveY : (o.sem.val + o.raise.toNat * 64) / 128 % 8 = 0 := by omega
    have h := eWord he rfl (by omega)
    refine decodes h.op rfl ha ?_ ?_
    · simp [classCheck, checkE, h.op, h.sx, h.sy, h.dz, h.parts, fields, low, high, srcListed, srcOk, dstListed, dstOk, aboveX, aboveY]
    · simp [buildSlot, buildE, h.op, h.guard, h.sub, h.sx, h.sy, h.sz, h.dx, h.dy, key, desc, vals, low, high, src, dst, sem, raise]
  | copy => exact decode_encode_copy ha ok he
  | qrfeed _ back log sx sy sz n m =>
    have limits : ((log || sz == 0) && (1 ≤ n.val && n.val ≤ 64) && (1 ≤ m.val && m.val ≤ 1023)) = true := ok
    simp at limits
    have h := eWord he rfl (by cases back <;> cases log <;> simp)
    refine decodes h.op rfl ha ?_ ?_
    · cases back <;> cases log <;> simp_all [classCheck, checkE, ckLim, h.op, h.sub, h.sz, h.dx, h.dy, h.dz]
    · cases back <;> cases log <;> simp [buildSlot, buildE, h.op, h.guard, h.sub, h.sx, h.sy, h.sz, h.dx, h.dy]
  | qrapplySt _ _ _ k n =>
    have limits : ((1 ≤ k.val && k.val ≤ 64) && (1 ≤ n.val && n.val ≤ 64)) = true := ok
    simp at limits
    have h := eWord he rfl (by omega)
    refine decodes h.op rfl ha ?_ ?_
    · simp [classCheck, checkE, ckLim, limits, h.op, h.sub, h.sz, h.dx, h.dy, h.dz]
    · simp [buildSlot, buildE, h.op, h.guard, h.sub, h.sx, h.sy, h.dx, h.dz]
  | qrapplyLog _ _ _ _ k m n =>
    have limits : ((1 ≤ k.val && k.val ≤ 64) && (1 ≤ m.val && m.val ≤ 1023) && (1 ≤ n.val && n.val ≤ 64)) = true := ok
    simp at limits
    have h := eWord he rfl (by omega)
    refine decodes h.op rfl ha ?_ ?_
    · simp [classCheck, checkE, ckLim, limits, h.op, h.sub, h.dx, h.dy, h.dz]
    · simp [buildSlot, buildE, h.op, h.guard, h.sub, h.sx, h.sy, h.sz, h.dx, h.dy, h.dz]
  | qrread => exact decode_encode_qrread ha ok he
  | grot _ e _ _ p m =>
    have limits : ((1 ≤ p.val && p.val ≤ 64) && p.val % 2 ^ e.val == 0 && (1 ≤ m.val && m.val ≤ 1023)) = true := ok
    simp at limits
    have h := eWord he rfl (by omega)
    refine decodes h.op rfl ha ?_ ?_
    · simp [classCheck, checkE, ckLim, limits, h.op, h.sub, h.sz, h.dx, h.dy, h.dz]
    · simp [buildSlot, buildE, h.op, h.guard, h.sub, h.sx, h.sy, h.dx, h.dy]
  | accrd => exact decode_encode_accrd ha ok he
  | movs _ o => cases o <;> cases he
  | fmt _ src => cases src <;> cases he
  | pmov _ o => cases o <;> cases he
  | vcvt _ o => cases o <;> cases he
  | vshfl _ mode => cases mode <;> cases he
  | vbcast _ lane => cases lane <;> cases he
  | _ => cases he

end Sys2Proof
end

section

/-! Decoding an encoded instruction, over all classes. -/

namespace Sys2Proof

/-- Settles O55, class by class: every image has its fields where the checks and the builder of its class read them. -/
theorem decodeEncode : Obligations.DecodeEncode := by
  unfold Obligations.DecodeEncode
  intro r priv scope i cls w _ wf he
  obtain ⟨wf, ok⟩ := (Bool.and_eq_true _ _).mp wf
  obtain ⟨-, ha⟩ := (Bool.and_eq_true _ _).mp wf
  cases cls with
  | c => exact decode_encode_c ha ok he
  | v => exact decode_encode_v ha ok he
  | m => exact decode_encode_m ha ok he
  | e => exact decode_encode_e ha ok he

end Sys2Proof
end

section

/-! SUPPORT. An acting instruction whose effect is to send what it computes from its operands: its result is on its way, computed
from what stood there before the issue (R71, R113). -/

namespace Sys2Proof.Machine

variable {s : State} {i : Instr} {lam : Nat}

theorem results_emit {n : Nat} {ws : List Wr} (hi : i.isSlot = true) (ha : s.act (opInfo i).guard ≠ 0)
    (hh : ((semOf (soloSlot i) i).hold s).2 = s) (he : (semOf (soloSlot i) i).eff (s.begun i) = (s.begun i).emit n lam ws) (hw : ws ≠ [])
    (h : s.issues i = true) : Results i s lam ws :=
  yields_of_done hi h ha hh he (aside_emit _ _ _ _).stays.onStream fun _ d => lands_of_emit (begun_of_hold h hh).1 hw (by rw [d.core])

/-- A scalar result. -/
theorem results_scalar {d : SReg} {f : State → W64} {v : W64} (hi : i.isSlot = true) (ha : s.act (opInfo i).guard ≠ 0)
    (hh : ((semOf (soloSlot i) i).hold s).2 = s) (he : (semOf (soloSlot i) i).eff = fun t => t.toS lam d (f t))
    (hv : ∀ b, Begun s b → f b = v) (h : s.issues i = true) : Results i s lam [.s d.val v] := by
  refine results_emit (n := 0) hi ha hh ?_ (List.cons_ne_nil _ _) h
  rw [he, ← hv _ (begun_of_hold h hh).1]
  rfl

/-- A result for the active lanes of a predicate. -/
theorem results_predicate {p : PReg} {f : State → W32} {v : W32} (hi : i.isSlot = true) (ha : s.act (opInfo i).guard ≠ 0)
    (hh : ((semOf (soloSlot i) i).hold s).2 = s) (he : (semOf (soloSlot i) i).eff = fun t => t.toP p (f t))
    (hv : ∀ b, Begun s b → f b = v) (h : s.issues i = true) : Results i s 1 [.p p.val s.active v] := by
  have hb := (begun_of_hold h hh).1
  refine results_emit (n := 0) hi ha hh ?_ (List.cons_ne_nil _ _) h
  rw [he, ← hv _ hb, ← hb.active]
  rfl

/-! ### The arithmetic in the terms of the spec (R129, R133) -/

theorem shiftCount_sext64 (x : W32) : shiftCount (sext64 x) = x.toNat % 64 := by
  unfold shiftCount sext64
  rw [BitVec.toNat_signExtend]
  split
  · simp
    omega
  · simp

theorem minOf_eq (u : Bool) (a b : W64) : minOf u a b = if (if u then a.toNat ≤ b.toNat else a.toInt ≤ b.toInt) then a else b := by
  cases u <;> simp [minOf, BitVec.ule, BitVec.sle]

theorem maxOf_eq (u : Bool) (a b : W64) : maxOf u a b = if (if u then a.toNat ≤ b.toNat else a.toInt ≤ b.toInt) then b else a := by
  cases u <;> simp [maxOf, BitVec.ule, BitVec.sle]

theorem toInt_signExtend (x : W32) : (x.signExtend 64).toInt = x.toInt := BitVec.toInt_signExtend_of_le (by decide)

theorem mulHigh_eq (k : Fin 3) (a b : W64) : mulHigh k.val a b = BitVec.ofInt 64
    ((if k = 1 then (a.toNat : Int) else a.toInt) * (if k = 0 then b.toInt else (b.toNat : Int)) / 2 ^ 64) := by
  fin_cases k <;> rfl

theorem moviOf_eq (k : Fin 3) (old : W64) (x : W32) :
    moviOf k.val old x = if k = 0 then x.signExtend 64 else if k = 1 then x.setWidth 64 else x ++ old.setWidth 32 := by
  fin_cases k <;> rfl

end Sys2Proof.Machine
end

section

/-! The scalar instructions (R126, R129, R132, R133), each by the value that it sends (O1). -/

namespace Sys2Proof.Machine

/-- Settles O1: each instruction sends one scalar, computed from its operands as they stood before the issue. -/
theorem scalarResults : Obligations.ScalarResults := by
  unfold Obligations.ScalarResults
  refine ⟨fun s g u d a b x ha => ⟨?iadd, ?isub, ?iand, ?ior, ?ixor, ?ishl, ?ishr, ?isar, ?imin, ?imax, ?iaddImm, ?iandImm, ?iorImm,
      ?ixorImm, ?ishlImm, ?ishrImm, ?isarImm, ?iminImm, ?imaxImm⟩,
    fun s g k n signed d a b c x ha => ⟨?imul, ?imulImm, ?imad, ?imulh, ?bfx, ?bfi, ?clz, ?popc, ?lea, ?movi⟩⟩
  case iadd | isub | iand | ior | ixor | ishl | ishr | isar | imul | imad | bfx | bfi | clz | popc =>
    exact results_scalar rfl ha rfl rfl fun b hb => by simp only [hb.sr, shiftCount]
  case iaddImm | iandImm | iorImm | ixorImm | imulImm | lea => exact results_scalar rfl ha rfl rfl fun b hb => by simp only [hb.sr, sext64]
  case ishlImm | ishrImm | isarImm => exact results_scalar rfl ha rfl rfl fun b hb => by simp only [hb.sr, shiftCount_sext64]
  case imin | imax => exact results_scalar rfl ha rfl rfl fun b hb => by simp only [hb.sr, minOf_eq, maxOf_eq]
  case iminImm | imaxImm =>
    exact results_scalar rfl ha rfl rfl fun b hb => by simp only [hb.sr, minOf_eq, maxOf_eq, sext64, toInt_signExtend]
  case imulh => exact results_scalar rfl ha rfl rfl fun b hb => by simp only [hb.sr, mulHigh_eq]
  case movi => exact results_scalar rfl ha rfl rfl fun b hb => by simp only [hb.sr, moviOf_eq]

/-! ### Comparisons, selection and predicate moves (R130, R131, R135) -/

/-- Settles O2: each instruction sends a predicate in the active lanes, or a scalar, from operands as they stood before the issue. -/
theorem predicateResults : Obligations.PredicateResults := by
  unfold Obligations.PredicateResults
  refine fun s g cc p q r d a b x ha => ⟨?icmp, ?icmpImm, ?isel, ?moveP, ?fromS, ?toS, ?pand, ?por, ?pnot⟩
  case icmp | icmpImm => exact results_predicate rfl ha rfl rfl fun b hb => by simp only [hb.sr, allOf, sext64]
  case isel => exact results_scalar rfl ha rfl rfl fun b hb => by simp only [hb.sr, hb.pr, hb.active, bne_iff_ne]
  case moveP | fromS | pand | por | pnot => exact results_predicate rfl ha rfl rfl fun b hb => by simp only [hb.sr, hb.pr, low32]
  case toS => exact results_scalar rfl ha rfl rfl fun b hb => by simp only [hb.pr, zext64]

/-! ### Moves, formats and SYS (R134, R136, R145) -/

section
variable {s b : State}

theorem Begun.budget (h : Begun s b) : b.curGrp.budget = s.curGrp.budget := h.grp.2

theorem Begun.wregs (h : Begun s b) : b.curUnit.wregs = s.curUnit.wregs := by
  obtain ⟨_, unit⟩ := h.unit
  rw [unit]

/-- SYS reads what stood there before the issue. -/
theorem Begun.sysValue (h : Begun s b) (sel : Nat) : b.sysValue sel = s.sysValue sel := by
  obtain ⟨_, unit⟩ := h.unit
  have gix : b.curGrp.gix = s.curGrp.gix := by rw [h.curGrp_eq]
  have index : b.curUnit.index = s.curUnit.index := by rw [unit]
  have pkg : b.board.pkg = s.board.pkg := by rw [h.only]
  have ns : b.ns = s.ns := by rw [h.only]; rfl
  have cls (c : Nat) : b.clsOf c = s.clsOf c := by rw [h.only]; rfl
  unfold State.sysValue
  rw [gix, index, pkg, ns, cls, h.coreKey, h.slotKey, h.onShader, h.lpb, h.clk, h.active, h.budget]

end

/-- The values that SYS selects, in their order (R145). -/
theorem sysValue_eq (s : State) (sel : Fin 14) : s.sysValue sel.val =
    [s.curGrp.gix, s.curUnit.index, coreIx s.cur.core, coreQuad s.cur.core, coreDie s.cur.core, s.board.pkg, s.lpb.ident,
      s.curCore.clk, s.ns, s.clsOf s.cur.core, s.lpb.prio, if s.onShader then s.cur.slot else 0, s.active.toNat,
      s.curGrp.budget].getD sel.val 0 := by
  fin_cases sel <;> rfl

section
variable {s : State} {g : Guard}

/-- The format that FMT names. -/
def State.fmtNamed (s : State) : FmtSrc → W32
  | .imm x => x
  | .reg a => low32 (s.sr a.val)

theorem Begun.fmtNamed {b : State} (h : Begun s b) (src : FmtSrc) : b.fmtNamed src = s.fmtNamed src := by
  cases src with
  | imm => rfl
  | reg a => exact congrArg low32 (h.sr a.val)

theorem effFmt_eq (src : FmtSrc) (b : State) : effFmt src b = b.modS (fun p => { p with fmt := b.fmtNamed src &&& 0x7FF }) := by
  cases src <;> rfl

theorem fmt_writes {src : FmtSrc} (ha : s.act g ≠ 0) (h : s.issues (.fmt g src) = true) :
    Yields (.fmt g src) s (fun t => (s.slotIn t).fmt = s.fmtNamed src &&& 0x7FF) := by
  have slot : (Instr.fmt g src).isSlot = true := by cases src <;> rfl
  have guard : (opInfo (.fmt g src)).guard = g := by cases src <;> rfl
  have hb := (begun_of_hold h rfl).1
  refine yields_of_done slot h (by rwa [guard]) rfl (effFmt_eq src _) (onStream_modS hb.live _) fun t d => ?_
  rw [d.slot, curSlot_modS _ _ hb.live, ← hb.fmtNamed]

variable {a d : SReg} {v : View} {x : VSrc} {signed : Bool}

theorem wide_writes {w : Fin 32} (ha : s.act g ≠ 0) (h : s.issues (.movs g (.ws w a)) = true) :
    Results (.movs g (.ws w a)) s 2 [.w w.val (s.sr a.val)] := by
  refine results_emit (n := 0) rfl ha rfl ?_ (List.cons_ne_nil _ _) h
  rw [← (begun_of_hold h rfl).1.sr]
  rfl

/-- MOVX toward a view writes the one element that its scalar names. -/
theorem element_writes (ha : s.act g ≠ 0) (h : s.issues (.movxToVector g v d a) = true) :
    Results (.movxToVector g v d a) s 2 [.m (vkey v ((s.sr a.val).toNat % 32)) ((s.sr d.val).setWidth 32)] := by
  have hb := (begun_of_hold h rfl).1
  refine results_emit (n := 0) rfl ha rfl ?_ (List.cons_ne_nil _ _) h
  rw [← hb.sr, ← hb.sr]
  rfl

/-- MOVX toward a scalar reads the one element that its scalar names, a popped row's among them. -/
theorem element_reads (ha : s.act g ≠ 0) (h : s.issues (.movxToScalar g signed d x a) = true) :
    let i := Instr.movxToScalar g signed d x a
    Results i s 3 [.s d.val (if signed then (s.seen i x ((s.sr a.val).toNat % 32)).signExtend 64
                             else (s.seen i x ((s.sr a.val).toNat % 32)).setWidth 64)] := by
  refine results_emit (n := 0) rfl ha rfl ?_ (List.cons_ne_nil _ _) h
  rw [← (begun_of_hold h rfl).1.sr]
  rfl

end

/-- Settles O3: each move sends what it reads, SYS the value that it selects, and FMT writes its slot. The values in an inline child
and the clk count are the model's own choices (logs 82 and 34). -/
theorem moveResults : Obligations.MoveResults := by
  unfold Obligations.MoveResults
  refine fun s g d a w v x signed imm sel ha => ⟨?ss, wide_writes ha, ?sw, element_reads ha, element_writes ha, ?fmtrd, ?sys, fmt_writes ha, fmt_writes ha⟩
  case ss => exact results_scalar rfl ha rfl rfl fun b hb => by simp only [hb.sr]
  case sw => exact results_scalar rfl ha rfl rfl fun b hb => by simp only [hb.wregs]
  case fmtrd => exact results_scalar rfl ha rfl rfl fun b hb => by simp only [hb.fmt, zext64]
  case sys => exact results_scalar rfl ha rfl rfl fun b hb => by rw [hb.sysValue, sysValue_eq]

end Sys2Proof.Machine
end

section

/-! SUPPORT. Around an issue: what the gate of a guard lets through, the end of an issue whose tail has acted and whose QUOTA has
handed over, and a bundle that its own slot holds back. -/

namespace Sys2Proof.Machine

/-! ### What the gate of a guard lets through (R62) -/

theorem Chk.orElse_eq_ok {a b : Chk} : a.orElse b = .ok ↔ a = .ok ∧ b = .ok := by
  cases a <;> simp [Chk.orElse]

theorem Chk.when_eq_ok {p : Bool} {t : TrapInfo} : Chk.when p t = .ok ↔ p = false := by
  cases p <;> simp [Chk.when]

section
variable {s : State} {i : Instr}

/-- Where the guard lets a slot act, its hold is that of its meaning. -/
theorem gated_hold (ha : s.act (opInfo i).guard ≠ 0) : (soloSem i).hold s = (semOf (soloSlot i) i).hold s := by
  have acts : s.acts i = true := by simpa [State.acts] using ha
  simp [soloSem, Sem.gated, acts]

/-- Where the guard lets a slot act, its own checks are among those that it passes. -/
theorem passes_chk (hc : (soloSem i).chk s = .ok) (ha : s.act (opInfo i).guard ≠ 0) : (semOf (soloSlot i) i).chk s = .ok := by
  have acts : s.acts i = true := by simpa [State.acts] using ha
  have gated : ((s.popChecks (soloSlots i) (soloSlot i, i)).orElse
    (if s.acts i then (s.bankError (soloSlot i, i)).orElse ((semOf (soloSlot i) i).chk s) else .ok)) = .ok := hc
  rw [acts, if_pos rfl, Chk.orElse_eq_ok, Chk.orElse_eq_ok] at gated
  exact gated.2.2

end

/-! ### A bundle that is held (R54, R72) -/

/-- The stream stands where it stood, with the same results on their way, and no byte of memory has changed. -/
structure Idle (s t : State) : Prop where
  cur : t.cur = s.cur
  mem : t.mem = s.mem
  slot : t.curSlot = s.curSlot
  inflight : t.curCore.inflight = s.curCore.inflight

namespace Idle

variable {s t u : State}

theorem refl (s : State) : Idle s s := ⟨rfl, rfl, rfl, rfl⟩
theorem trans (a : Idle s t) (b : Idle t u) : Idle s u :=
  ⟨b.cur.trans a.cur, b.mem.trans a.mem, b.slot.trans a.slot, b.inflight.trans a.inflight⟩

theorem bump (s : State) (c e n : Nat) : Idle s (s.bump c e n) := by
  obtain ⟨slot, inflight, -⟩ := still_bump s c e n
  have counted := memoryOnly_bump s c e n
  refine ⟨counted.cur, ?_, slot, inflight⟩
  rw [onlyCores_bump s c e n]

theorem bumpClk (s : State) (c e : Nat) : Idle s (s.bumpClk c e) := by
  unfold State.bumpClk
  split
  · exact refl s
  · exact bump s c e 1

theorem noteTail (s : State) : Idle s s.noteTail := by
  unfold State.noteTail
  split
  · exact bumpClk s _ _
  · exact refl s

theorem wakeBanks (h : s.live = true) (l : List SlotI) : Idle s (s.wakeBanks l) := by
  obtain ⟨slot, inflight, -⟩ := still_wakeBanks s l h
  exact ⟨rfl, rfl, slot, inflight⟩

end Idle

theorem wakeScratch_keeps (c : Core) (i : Nat) : (c.wakeScratch i).groups = c.groups ∧ (c.wakeScratch i).inflight = c.inflight := by
  unfold Core.wakeScratch
  split <;> exact ⟨rfl, rfl⟩

theorem wakeScratches_keep (l : List Nat) (c : Core) :
    (l.foldl Core.wakeScratch c).groups = c.groups ∧ (l.foldl Core.wakeScratch c).inflight = c.inflight := by
  induction l generalizing c with
  | nil => exact ⟨rfl, rfl⟩
  | cons i r ih =>
    obtain ⟨groups, inflight⟩ := wakeScratch_keeps c i
    exact ⟨(ih _).1.trans groups, (ih _).2.trans inflight⟩

theorem idle_wakeScratchL {s : State} (h : s.live = true) (l : List Nat) : Idle s (s.wakeScratchL l) := by
  obtain ⟨groups, inflight⟩ := wakeScratches_keep l s.curCore
  have core : (s.wakeScratchL l).curCore = l.foldl Core.wakeScratch s.curCore := curCore_modC s _ (live_parts h).1
  exact ⟨rfl, rfl, curSlot_of_groups rfl ((congrArg Core.groups core).trans groups), (congrArg Core.inflight core).trans inflight⟩

/-- A lone instruction that passes its checks and holds itself back does not issue. -/
theorem held_idle {s : State} {i : Instr} (hi : i.isSlot = true) (hl : s.live = true) (hp : s.passes i = true)
    (hh : (soloSem i).hold s = (true, s)) : Yields i s (Idle s) := by
  simp only [State.passes, Bool.and_eq_true, beq_iff_eq, Option.isNone_iff_eq_none] at hp
  obtain ⟨⟨due, pre⟩, chk⟩ := hp
  refine ⟨_, exec_slot i s hi, ?_⟩
  have woken (bs : List Nat) (p : Bool) : Idle s (if p then s else (s.wakeBanks (soloSlots i)).wakeScratchL bs) := by
    split
    · exact .refl s
    · have banks := Idle.wakeBanks hl (soloSlots i)
      exact banks.trans (idle_wakeScratchL (begun_wakeBanks s _ hl).live bs)
  have counted {w : State} (h : Idle s w) (p : Bool) : Idle s (if p then w.bumpClk s.cur.core 10 else w).noteTail := by
    split
    · exact (h.trans (.bumpClk w _ _)).trans (.noteTail _)
    · exact h.trans (.noteTail w)
  unfold State.issueWith
  simp only [due, pre, chk, hh, Bool.true_or, if_true]
  split
  · exact .noteTail s
  · exact counted (woken _ _) _

/-! ### The end of an issue -/

/-- An issue whose tail has acted and whose banks have been handed over, before a software trap is taken. -/
def State.closed (u : State) : State :=
  { u.tailActs.handOver with cur := { u.tailActs.handOver.cur with pops := [], hand := none, imgs := [], views := [] } }

theorem finish_untrapped {u : State} (h : u.closed.dueTrap = none) : u.finish = u.closed := by
  show (if u.closed.onShader then (match u.closed.dueTrap with | some t => if t.pc.isSome then u.closed.serveDeferred t else u.closed | none => u.closed)
    else u.closed) = u.closed
  rw [h]
  exact ite_self _

/-- On a tile a software trap waits for the successor (R146). -/
theorem finish_tile {u : State} (h : u.closed.onShader = false) : u.finish = u.closed := by
  refine if_neg ?_
  rw [Bool.not_eq_true]
  exact h

/-- On a shader core it is taken at once. -/
theorem finish_trapped {u : State} {t : TrapInfo} (h : u.closed.onShader = true) (ht : u.closed.dueTrap = some t) (hp : t.pc.isSome = true) :
    u.finish = u.closed.serveDeferred t := by
  show (if u.closed.onShader then (match u.closed.dueTrap with | some t => if t.pc.isSome then u.closed.serveDeferred t else u.closed | none => u.closed)
    else u.closed) = _
  rw [h, ht]
  exact if_pos hp

/-- Without a hand-over the tail's actions are all. -/
theorem closed_eq {u : State} (hl : u.live = true) (hh : u.cur.hand = none) :
    u.closed = { u.tailActs with cur := { u.cur with pops := [], hand := none, imgs := [], views := [] } } := by
  have acted := onStream_tailActs hl
  have kept : u.tailActs.handOver = u.tailActs := by
    unfold State.handOver
    rw [acted.cur, hh]
  unfold State.closed
  rw [kept, acted.cur]

/-- Nothing but the tail's actions has come on top of what the slots left. -/
theorem done_closed {s b u : State} (hb : Begun s b) (hc : u.cur = b.cur) (hl : u.live = true) (hh : b.cur.hand = none) : Done s u u.closed := by
  have core : u.cur.core = s.cur.core := by rw [hc, hb.coreKey]
  have gid : u.cur.gid = s.cur.gid := by rw [hc, hb.groupKey]
  have slot : u.cur.slot = s.cur.slot := by rw [hc, hb.slotKey]
  have tail : u.cur.tail = s.cur.tail := by rw [hc, hb.only]
  have acted := onStream_tailActs hl
  have coreIn : s.coreIn u.closed = u.tailActs.curCore := by
    rw [closed_eq hl (hc ▸ hh)]
    show u.tailActs.core s.cur.core = u.tailActs.core u.tailActs.cur.core
    rw [acted.cur, core]
  have grp : s.groupIn u.closed = u.tailActs.curGrp := by
    show (s.coreIn u.closed).group s.cur.gid = u.tailActs.curCore.group u.tailActs.cur.gid
    rw [coreIn, acted.cur, gid]
  obtain ⟨same, mat⟩ := curGrp_tailActs hl
  refine ⟨?_, ?_, ?_, ?_, fun h => ?_, ?_⟩
  · obtain ⟨f, acts, -⟩ := tailActs_core u
    rw [closed_eq hl (hc ▸ hh), acts]
    rfl
  · rw [coreIn]
    exact curCore_tailActs hl
  · rw [grp]
    exact same
  · rw [grp]
    exact budget_tailActs u
  · rw [grp]
    exact mat (tail ▸ h)
  · show (s.groupIn u.closed).slot s.cur.slot = u.curGrp.slot u.cur.slot
    rw [grp, same, slot]
    rfl

end Sys2Proof.Machine
end

section

/-! RLBL, YIELD, WAITC and QUOTA (R123, R148 to R151) (O10). -/

namespace Sys2Proof.Machine

/-! ### The groups of a core as an issue begins -/

/-- The core of the stream lists the same groups. -/
def GroupsHere (s t : State) : Prop := t.cur.core = s.cur.core ∧ ∀ g, (kget g t.curCore.groups).isSome = (kget g s.curCore.groups).isSome

namespace GroupsHere

theorem trans {s t u : State} (a : GroupsHere s t) (b : GroupsHere t u) : GroupsHere s u :=
  ⟨b.1.trans a.1, fun g => (b.2 g).trans (a.2 g)⟩

theorem modCore (s : State) (c : Nat) (f : Core → Core) (hf : ∀ k g, (kget g (f k).groups).isSome = (kget g k.groups).isSome) :
    GroupsHere s (s.modCore c f) := by
  refine ⟨rfl, fun g => ?_⟩
  show (kget g ((s.modCore c f).core s.cur.core).groups).isSome = (kget g (s.core s.cur.core).groups).isSome
  rcases core_modCore_or s c s.cur.core f with ⟨_, h⟩ | h <;> rw [h]
  exact hf _ g

theorem bump (s : State) (c e n : Nat) : GroupsHere s (s.bump c e n) := by
  unfold State.bump
  dsimp only
  split
  · exact ⟨rfl, fun _ => rfl⟩
  · exact modCore _ _ _ fun _ _ => rfl

theorem pops (l : List (Nat × Nat)) (s : State) : GroupsHere s (l.foldl State.pop1 s) := by
  induction l generalizing s with
  | nil => exact ⟨rfl, fun _ => rfl⟩
  | cons p r ih =>
    have popped : GroupsHere s (s.pop1 p) := modCore s s.cur.core _ fun _ _ => rfl
    exact popped.trans (ih _)

theorem bundle (s : State) (p : List (Nat × List W32)) (q : Option (Nat × Nat)) (v : List (Nat × Nat)) :
    GroupsHere s { s with cur := { s.cur with pops := p, hand := q, views := v } } := ⟨rfl, fun _ => rfl⟩

/-- Waking register banks of a group lists no other groups. -/
theorem wakeRegs (l : List Nat) (c : Core) (g d : Nat) :
    (kget d (l.foldl (fun c i => c.wakeReg g i) c).groups).isSome = (kget d c.groups).isSome := by
  induction l generalizing c with
  | nil => rfl
  | cons i r ih =>
    refine (ih _).trans ?_
    show (kget d (c.wakeReg g i).groups).isSome = _
    unfold Core.wakeReg
    split
    · exact groups_modGroup_isSome ..
    · rfl

theorem moveOn (s : State) (l : List SlotI) : GroupsHere s (s.moveOn l) := by
  have woken : GroupsHere s (s.wakeBanks l) := modCore s _ _ fun k g => wakeRegs _ k _ g
  unfold State.moveOn
  refine GroupsHere.trans ?_ (modCore _ _ _ fun _ _ => groups_modGroup_isSome ..)
  exact woken.trans (modCore _ _ _ fun _ _ => rfl)

/-- The start of an issue leaves the groups where they are. -/
theorem start (s : State) (l : List SlotI) : GroupsHere s (s.start l) := by
  have counted := (((moveOn s l).trans (bump _ s.cur.core 2 1)).trans
    (bump _ s.cur.core 3 (l.filter (fun p => (p.1 == 1 || p.1 == 2) && s.acts p.2)).length)).trans
    (bump _ s.cur.core 4 (l.filter (fun p => p.1 == 3 && s.acts p.2)).length)
  have viewed := counted.trans (bundle _ [] none (viewsOf l))
  exact viewed.trans (pops (popsOf l) _)

end GroupsHere

variable {s : State} {g : Guard}

/-! ### RLBL and YIELD (R148, R150) -/

theorem rlbl_marks {off : W32} (ha : s.act g ≠ 0) (h : s.issues (.rlbl g off) = true) :
    Yields (.rlbl g off) s (fun t => (s.groupIn t).rlbl = s.curSlot.pc + 2 * off) := by
  obtain ⟨hb, on⟩ := begun_of_hold h rfl
  have eff : effRlbl off (s.begun (.rlbl g off))
      = (s.begun (.rlbl g off)).modG (fun r => { r with rlbl := (s.begun (.rlbl g off)).labelOf off }) := rfl
  refine yields_of_done rfl h ha rfl eff (onStream_modG hb.live _ fun _ => ⟨rfl, rfl, rfl⟩) fun t d => ?_
  rw [d.grp, curGrp_modG _ _ hb.live]
  exact on.labelOf hb off

/-- On a shader core the stream lets the others go first. -/
theorem yield_skips (ha : s.act g ≠ 0) (h : s.issues (.yield g) = true) (sh : s.onShader = true) :
    Yields (.yield g) s (fun t => (s.slotIn t).skip = true ∧ (s.slotIn t).next = s.succClk) := by
  obtain ⟨hb, on⟩ := begun_of_hold h rfl
  have eff : effYield (s.begun (.yield g)) = (s.begun (.yield g)).modS (fun p => { p with skip := true }) := if_pos (hb.onShader.trans sh)
  refine yields_of_done rfl h ha rfl eff (onStream_modS hb.live _) fun t d => ?_
  rw [d.slot, curSlot_modS _ _ hb.live]
  exact ⟨rfl, on.next⟩

/-- On a tile it issues in the second clk from now at the earliest. -/
theorem yield_waits (ha : s.act g ≠ 0) (h : s.issues (.yield g) = true) (tile : s.onShader = false) :
    Yields (.yield g) s (fun t => (s.slotIn t).next = max s.succClk (s.curCore.pclk + 2)) := by
  obtain ⟨hb, on⟩ := begun_of_hold h rfl
  have eff : effYield (s.begun (.yield g)) = (s.begun (.yield g)).modS (fun p => { p with next := max p.next ((s.begun (.yield g)).curCore.pclk + 2) }) :=
    if_neg (by rw [hb.onShader, tile]; exact Bool.false_ne_true)
  refine yields_of_done rfl h ha rfl eff (onStream_modS hb.live _) fun t d => ?_
  rw [d.slot, curSlot_modS _ _ hb.live, ← on.next, ← hb.pclk]

/-! ### WAITC (R151) -/

variable {c : Fin 8} {n : W32}

theorem waitSel_eq {k : Nat} : waitSel c.val k = true ↔ c.val = 7 ∨ c.val = k := by simp [waitSel]

/-- WAITC holds the stream while a counter that it selects stands above its number. -/
theorem holdWaitc_eq_false : (holdWaitc c n s).1 = false ↔ ∀ k, k < 7 → (c.val = 7 ∨ c.val = k) → s.curGrp.ctrs.getD k 0 ≤ n.toNat := by
  unfold holdWaitc
  simp only [List.any_eq_false, List.mem_range, Bool.and_eq_true, decide_eq_true_eq, waitSel_eq, not_and, not_lt]

theorem waitc_goes_on (ha : s.act g ≠ 0) (h : s.issues (.waitc g c n) = true) :
    (∀ k, k < 7 → (c.val = 7 ∨ c.val = k) → s.curGrp.ctrs.getD k 0 ≤ n.toNat)
      ∧ Yields (.waitc g c n) s (fun t => (s.slotIn t).pc = s.succPc ∧ (s.slotIn t).next = s.succClk) := by
  have on := (begun_of_hold h rfl).2
  obtain ⟨-, -, -, -, free, -⟩ := issues_parts h
  rw [gated_hold ha] at free
  refine ⟨holdWaitc_eq_false.1 free, yields_of_done rfl h ha rfl rfl (.refl _) fun t d => ?_⟩
  rw [d.slot]
  exact ⟨on.pc, on.next⟩

theorem waitc_waits {k : Nat} (hl : s.live = true) (hp : s.passes (.waitc g c n) = true) (ha : s.act g ≠ 0) (hk : k < 7)
    (hs : c.val = 7 ∨ c.val = k) (above : n.toNat < s.curGrp.ctrs.getD k 0) :
    Yields (.waitc g c n) s (fun t => s.slotIn t = s.curSlot ∧ t.mem = s.mem ∧ (s.coreIn t).inflight = s.curCore.inflight) := by
  have held : (holdWaitc c n s).1 = true := by
    rw [← Bool.not_eq_false, holdWaitc_eq_false]
    exact fun low => absurd (low k hk hs) (Nat.not_le.2 above)
  refine (held_idle rfl hl hp ((gated_hold ha).trans (Prod.ext held rfl))).imp fun t idle => ⟨?_, idle.mem, ?_⟩
  · rw [← idle.slot]
    unfold State.slotIn State.curSlot State.curGrp
    rw [idle.cur]
  · rw [← idle.inflight]
    unfold State.coreIn State.curCore
    rw [idle.cur]

/-! ### QUOTA (R123, R149) -/

variable {q : Fin 6}

/-- What QUOTA checks: banks to give, and another group that is there to take them. -/
theorem chkQuota_ok (h : chkQuota q n s = .ok) :
    n.toNat ≤ s.curGrp.budget ∧ q.val ≠ s.cur.gid ∧ (kget q.val s.curCore.groups).isSome = true := by
  unfold chkQuota at h
  simp only [Chk.when_eq_ok, Bool.or_eq_false_iff, beq_eq_false_iff_ne, decide_eq_false_iff_not, Bool.not_eq_false'] at h
  obtain ⟨⟨⟨⟨-, other⟩, there⟩, budget⟩, -⟩ := h
  exact ⟨by omega, other, there⟩

/-- A giver of b banks without its last k, and without what they held. -/
def Group.gives (g : Group) (b k : Nat) : Group :=
  { g with banks := g.banks.take (b - k), mat := sdrop (1024 * (b - k)) (1024 * k) g.mat }

/-- A receiver of k banks, DARK. -/
def Group.receives (g : Group) (k : Nat) : Group := { g with banks := g.banks ++ List.replicate k Bank.start }

theorem gives_budget (g : Group) (k : Nat) : (g.gives g.budget k).budget = g.budget - k := by simp [Group.gives, Group.budget]

theorem gives_loses (g : Group) {b k e : Nat} (hk : k ≤ b) (low : 1024 * (b - k) ≤ e) (high : e < 1024 * b) : (g.gives b k).elem e = 0 := by
  obtain ⟨j, rfl⟩ := Nat.exists_eq_add_of_le low
  exact (clear_sdrop (1024 * (b - k)) (1024 * k) g.mat).sget (by omega) 0

/-- A core whose group gid has given its group r k of its b banks. -/
def Core.handsOver (c : Core) (gid b r k : Nat) : Core := (c.modGroup gid (·.gives b k)).modGroup r (·.receives k)

theorem handsOver_giver {c : Core} {gid r : Nat} (hg : (kget gid c.groups).isSome = true) (hr : r ≠ gid) (b k : Nat) :
    (c.handsOver gid b r k).group gid = (c.group gid).gives b k :=
  (group_modGroup_other _ _ hr.symm).trans (group_modGroup_same c gid _ hg)

theorem handsOver_receiver {c : Core} {gid r : Nat} (hg : (kget r c.groups).isSome = true) (hr : r ≠ gid) (b k : Nat) :
    (c.handsOver gid b r k).group r = (c.group r).receives k := by
  refine (group_modGroup_same _ r _ ((groups_modGroup_isSome ..).trans hg)).trans ?_
  rw [group_modGroup_other _ _ hr]

/-- The core of a QUOTA after the tail's actions and the hand-over. -/
theorem core_closed {u : State} {r k : Nat} (hl : u.live = true) (hh : u.cur.hand = some (r, k)) :
    u.closed.core u.cur.core = u.tailActs.curCore.handsOver u.cur.gid u.tailActs.curGrp.budget r k
      ∧ u.closed.cur = { u.cur with pops := [], hand := none, imgs := [], views := [] } := by
  have acted := onStream_tailActs hl
  have here : (kget u.cur.core u.tailActs.cores).isSome = true := acted.cur ▸ (live_parts (acted.live hl)).1
  have cur := acted.cur
  unfold State.closed State.handOver
  generalize u.tailActs = v at cur here
  rw [cur, hh]
  refine ⟨?_, by rw [← cur]; rfl⟩
  rw [← cur] at here ⊢
  refine (core_modCore_same _ v.cur.core _ ((cores_modCore_isSome ..).trans here)).trans ?_
  exact congrArg (Core.modGroup · r (·.receives k)) (core_modCore_same _ v.cur.core _ here)

section
variable {u : State} {r k : Nat} (hl : u.live = true) (hh : u.cur.hand = some (r, k)) (hr : r ≠ u.cur.gid)
include hl hh hr

/-- The giver after a QUOTA. -/
theorem curGrp_closed : u.closed.curGrp = u.tailActs.curGrp.gives u.curGrp.budget k := by
  obtain ⟨core, cur⟩ := core_closed hl hh
  have acted := onStream_tailActs hl
  have here : (kget u.cur.gid u.tailActs.curCore.groups).isSome = true := acted.cur ▸ (live_parts (acted.live hl)).2.1
  have budget : u.tailActs.curGrp.budget = u.curGrp.budget := budget_tailActs u
  show (u.closed.core u.closed.cur.core).group u.closed.cur.gid = _
  rw [cur]
  show (u.closed.core u.cur.core).group u.cur.gid = _
  rw [core, handsOver_giver here hr, budget, ← acted.cur]
  rfl

/-- The receiver after a QUOTA. -/
theorem group_closed (there : (kget r u.curCore.groups).isSome = true) : (u.closed.core u.cur.core).group r = (u.curCore.group r).receives k := by
  obtain ⟨f, acts, moved⟩ := tailActs_core u
  obtain ⟨-, others, -, listed, -⟩ := moved u.curCore
  have acted : u.tailActs.curCore = f u.curCore := by
    rw [acts]
    exact curCore_modC u f (live_parts hl).1
  rw [(core_closed hl hh).1, acted, handsOver_receiver ((listed r).trans there) hr, others r hr]

theorem dueTrap_closed : u.closed.dueTrap = u.dueTrap := by
  have slot : u.closed.cur.slot = u.cur.slot := by rw [(core_closed hl hh).2]
  unfold State.dueTrap Group.isDue
  rw [curGrp_closed hl hh hr, slot, (curGrp_tailActs hl).1]
  rfl

end

theorem begun_eq_start {i : Instr} (ha : s.act (opInfo i).guard ≠ 0) (hh : ((semOf (soloSlot i) i).hold s).2 = s) :
    s.begun i = s.start (soloSlots i) := by
  unfold State.begun
  rw [gated_hold ha, hh]

theorem quota_hands_over (ha : s.act g ≠ 0) (h : s.issues (.quota g q n) = true) :
    Yields (.quota g q n) s (fun t => (s.groupIn t).budget = s.curGrp.budget - n.toNat
      ∧ (t.group s.cur.core q.val).banks = (s.curCore.group q.val).banks ++ List.replicate n.toNat Bank.start
      ∧ ∀ k, 1024 * (s.curGrp.budget - n.toNat) ≤ k → k < 1024 * s.curGrp.budget → (s.groupIn t).elem k = 0) := by
  have hb := (begun_of_hold h rfl).1
  obtain ⟨-, due, -, chk, -⟩ := issues_parts h
  obtain ⟨enough, other, there⟩ := chkQuota_ok (passes_chk chk ha)
  have here : (kget q.val (s.begun (.quota g q n)).curCore.groups).isSome = true := by
    rw [begun_eq_start ha rfl, (GroupsHere.start s _).2]
    exact there
  have eff : (soloSem (.quota g q n)).eff (s.begun (.quota g q n)) = effQuota q n (s.begun (.quota g q n)) := gated_eff hb ha
  refine ⟨_, exec_of_issues _ s rfl h, ?_⟩
  rw [eff]
  generalize s.begun (.quota g q n) = b at hb here
  have live : (effQuota q n b).live = true := hb.live
  have apart : q.val ≠ (effQuota q n b).cur.gid := fun e => other (e.trans hb.groupKey)
  have calm : (effQuota q n b).closed.dueTrap = none := (dueTrap_closed live rfl apart).trans (hb.dueTrap.trans due)
  have giver : s.groupIn (effQuota q n b).closed = (effQuota q n b).closed.curGrp := by
    show (State.core _ s.cur.core).group s.cur.gid = (State.core _ (State.cur _).core).group (State.cur _).gid
    rw [(core_closed live rfl).2, ← hb.coreKey, ← hb.groupKey]
    rfl
  have budget : (effQuota q n b).curGrp.budget = s.curGrp.budget := hb.grp.2
  have acted : (effQuota q n b).tailActs.curGrp.budget = s.curGrp.budget := (budget_tailActs _).trans budget
  rw [finish_untrapped calm, giver, curGrp_closed live rfl apart, budget]
  refine ⟨?_, ?_, fun e low high => gives_loses _ enough low high⟩
  · rw [← acted, gives_budget]
  · show ((State.core _ s.cur.core).group q.val).banks = _
    rw [← hb.coreKey]
    refine (congrArg Group.banks (group_closed live rfl apart here)).trans ?_
    exact congrArg (fun r : Group => r.banks ++ List.replicate n.toNat Bank.start) (hb.groups q.val other)

/-- Settles O10: RLBL, YIELD and WAITC by their effects on the stream, QUOTA by its hand-over, and a WAITC that its own hold stops. -/
theorem streamControlResults : Obligations.StreamControlResults := by
  unfold Obligations.StreamControlResults
  refine ⟨fun s g off n c q ha => ⟨rlbl_marks ha, fun h => ?yields, waitc_goes_on ha, quota_hands_over ha⟩,
    fun s g c n k hl hp ha hk hs above => waitc_waits hl hp ha hk hs above⟩
  case yields =>
    cases sh : s.onShader with
    | true => exact yield_skips ha h sh
    | false => exact yield_waits ha h sh

end Sys2Proof.Machine
end

section

/-! SUPPORT. Work on the records of the reconvergence stack (R140, R207, R216): the stream's group is as it was but for its stack top and
its marks of far accesses. -/

namespace Sys2Proof.Machine

/-- The issuing group is as it was but for its stack top and its marks of far accesses, and its core's pipelines stand at the same clk. -/
structure Recorded (s t : State) : Prop where
  cur : t.cur = s.cur
  live : s.live = true → t.live = true
  grp : t.curGrp = { s.curGrp with stackTop := t.curGrp.stackTop, far := t.curGrp.far }
  pclk : t.curCore.pclk = s.curCore.pclk

namespace Recorded

variable {s t u : State}

theorem refl (s : State) : Recorded s s := ⟨rfl, id, rfl, rfl⟩
theorem trans (a : Recorded s t) (b : Recorded t u) : Recorded s u :=
  ⟨b.cur.trans a.cur, fun h => b.live (a.live h), by rw [b.grp, a.grp], b.pclk.trans a.pclk⟩

theorem of_memory (h : MemoryOnly s t) : Recorded s t :=
  ⟨h.cur, h.stays.live, by rw [h.curGrp], by rw [memoryOnly_curCore h]⟩

theorem modG (h : s.live = true) (f : Group → Group) (hf : ∀ g, f g = { g with stackTop := (f g).stackTop, far := (f g).far }) :
    Recorded s (s.modG f) := by
  refine ⟨rfl, live_modG s f, ?_, by rw [curCore_modG s f h]; rfl⟩
  rw [curGrp_modG s f h]
  exact hf _

theorem slot (h : Recorded s t) (i : Nat) : t.curGrp.slot i = s.curGrp.slot i := by
  rw [h.grp]
  rfl

theorem curSlot (h : Recorded s t) : t.curSlot = s.curSlot := by
  unfold State.curSlot
  rw [h.slot, h.cur]

theorem onStream (h : Recorded s t) : OnStream s t := ⟨h.cur, h.live, by rw [h.grp]; exact ⟨rfl, rfl, rfl⟩⟩

theorem settleRec (s : State) (k : Nat) : Recorded s (s.settleRec k) := of_memory (memoryOnly_settleV s _ _ _ _)

theorem markFar (h : s.live = true) (pa : Nat) : Recorded s (s.markFar pa) := by
  unfold State.markFar
  split
  · exact modG h _ fun _ => rfl
  · exact refl s

theorem storeOwn {c launch root : Nat} {priv : Bool} (l : List Byte) {va : Nat} (h : s.live = true)
    (stored : s.storeOwn c launch root priv va l = some t) : Recorded s t := by
  induction l generalizing s va with
  | nil => exact Option.some.inj stored ▸ refl s
  | cons v r ih =>
    have walked := of_memory (memoryOnly_settleWalk s (coreDie c) root (va % 2 ^ 56))
    unfold State.storeOwn at stored
    dsimp only at stored
    split at stored
    next leaf size _ =>
      split at stored
      · have byte := walked.trans (of_memory (memoryOnly_storeG _ c launch (leafPa leaf size (va % 2 ^ 56)) [v] 0 (leafType leaf)))
        have marked := byte.trans (markFar (byte.live h) (leafPa leaf size (va % 2 ^ 56)))
        exact marked.trans (ih (marked.live h) stored)
      · cases stored
    next => cases stored

theorem putRec (h : s.live = true) (k : Nat) (r : Rec) : Recorded s (s.putRec k r) := by
  unfold State.putRec
  cases stored : s.storeOwn s.cur.core s.curGrp.launch s.root s.priv (s.recVa k) r with
  | none => exact refl s
  | some t => exact storeOwn r h stored

theorem settleTop (h : s.live = true) (k : Nat) : Recorded s (s.settleTop k) := by
  induction k generalizing s with
  | zero => exact modG h _ fun _ => rfl
  | succ k ih =>
    have settled := settleRec s (k + 1)
    unfold State.settleTop
    dsimp only
    split
    · exact settled.trans (modG (settled.live h) _ fun _ => rfl)
    · exact settled.trans (ih (settled.live h))

theorem popRec (h : s.live = true) (k : Nat) : Recorded s (s.popRec k) := by
  have settled := settleRec s k
  have put := settled.trans (putRec (settled.live h) k
    (recPut ((s.settleRec k).getRec k) 16 4 (putFld (recWord ((s.settleRec k).getRec k)) 24 1 0)))
  exact put.trans (settleTop (put.live h) _)

end Recorded

end Sys2Proof.Machine
end

section

/-! BRV (R139): the lanes part, or branch together, or go on (O11). -/

namespace Sys2Proof.Machine

variable {s b : State} {g : Guard} {off : W32}

/-- A group whose slot i has pushed record k: the slot goes on from me with lanes rest, and path takes the other slot, if it can. -/
def Group.parts (r : Group) (i k : Nat) (me : PcSlot) (rest : W32) (path : Option PcSlot) : Group :=
  let r := { r with stackTop := k }.setSlot i { me with mask := rest, depth := k }
  match path with
  | some p => r.setSlot (1 - i) { p with kept := (r.slot (1 - i)).kept }
  | none => r

theorem parts_own (r : Group) {i : Nat} (hi : i < 2) (k : Nat) (me : PcSlot) (rest : W32) (path : Option PcSlot) :
    (r.parts i k me rest path).slot i = { me with mask := rest, depth := k } := by
  have back : 1 - (1 - i) = i := by omega
  cases path with
  | none => exact setSlot_slot _ _ _
  | some p =>
    refine (congrArg _ back.symm).trans ((setSlot_other _ _ _ (by omega)).trans ?_)
    rw [back]
    exact setSlot_slot _ _ _

theorem parts_rest (r : Group) (i k : Nat) (me : PcSlot) (rest : W32) (path : Option PcSlot) :
    r.parts i k me rest path = { r with stackTop := k, slot0 := (r.parts i k me rest path).slot0, slot1 := (r.parts i k me rest path).slot1 } := by
  unfold Group.parts Group.setSlot
  cases path <;> dsimp only <;> repeat' split
  all_goals rfl

theorem parts_other (r : Group) {i : Nat} (hi : i < 2) (k : Nat) (me : PcSlot) (rest : W32) (path : Option PcSlot) :
    (r.parts i k me rest path).slot (1 - i) = path.elim (r.slot (1 - i)) (fun p => { p with kept := (r.slot (1 - i)).kept }) := by
  cases path with
  | none => exact setSlot_other _ _ _ hi
  | some p =>
    refine (setSlot_slot _ _ _).trans ?_
    rw [setSlot_other _ _ _ hi]
    rfl

/-- The path that a BRV starts in the other slot, if that is free. -/
def State.brvPath (b : State) (k : Nat) (taken label : W32) (clk : Nat) : Option PcSlot :=
  if (b.curGrp.slot (1 - b.cur.slot)).mask == 0 then
    some { PcSlot.empty with pc := label, mask := taken, depth := k, fmt := b.curSlot.fmt, bases := b.curSlot.bases, next := clk }
  else none

/-- What the record of a BRV keeps of the taken lanes, where they do not start. -/
def State.brvSpill (b : State) (taken label : W32) : Option (W32 × W32 × List Nat) :=
  if (b.curGrp.slot (1 - b.cur.slot)).mask == 0 then none else some (taken, label, b.curSlot.bases)

/-- BRV with the record that it pushes written. -/
def State.brvPut (b : State) (taken label : W32) : State :=
  b.putRec (b.curGrp.stackTop + 1) (recNew (b.curGrp.stackTop + 1) b.active b.curSlot.fmt b.curSlot.depth (b.brvSpill taken label))

theorem effBrv_parts (hl : b.live = true) (h0 : b.act g ≠ 0) (ha : b.act g ≠ b.active) : effBrv g off b =
    (b.brvPut (b.act g) (b.labelOf off)).modG (fun r => r.parts b.cur.slot (b.curGrp.stackTop + 1) b.curSlot (b.active &&& ~~~(b.act g))
      (b.brvPath (b.curGrp.stackTop + 1) (b.act g) (b.labelOf off) ((b.brvPut (b.act g) (b.labelOf off)).curCore.pclk + 2))) := by
  have cur (k : Nat) (r : Rec) : (b.putRec k r).cur = b.cur := (Recorded.putRec hl k r).cur
  unfold effBrv State.taken State.brvPut State.brvSpill State.brvPath Group.parts
  dsimp only
  rw [if_neg (by simpa using h0), if_neg (by simpa using ha)]
  by_cases free : ((b.curGrp.slot (1 - b.cur.slot)).mask == 0) = true
  · simp only [free, if_true, cur]
  · simp only [free, Bool.false_eq_true, if_false, cur]

/-- A BRV that parts the lanes: its record is written, the others go on, and the taken ones start if they can. -/
theorem brv_parts {b u : State} (hu : b.brvPut (s.act g) (s.curSlot.pc + 2 * off) = u) (hs : s.begun (.brv g off) = b)
    (h : s.issues (.brv g off) = true) (h0 : s.act g ≠ 0) (hp : s.act g ≠ s.active) :
    Yields (.brv g off) s (fun t => s.slotIn t = { b.curSlot with mask := s.active &&& ~~~(s.act g), depth := s.curGrp.stackTop + 1 }
      ∧ (s.groupIn t).stackTop = s.curGrp.stackTop + 1
      ∧ (s.groupIn t).slot (1 - s.cur.slot) = (b.brvPath (s.curGrp.stackTop + 1) (s.act g) (s.curSlot.pc + 2 * off) (s.curCore.pclk + 2)).elim
          (s.curGrp.slot (1 - s.cur.slot)) (fun p => { p with kept := (s.curGrp.slot (1 - s.cur.slot)).kept })
      ∧ t.mem = u.mem ∧ (s.coreIn t).lines = u.curCore.lines) := by
  obtain ⟨hb, on⟩ := begun_of_hold h rfl
  rw [hs] at hb on
  have put : Recorded b u := hu ▸ .putRec hb.live _ _
  have top : b.curGrp.stackTop = s.curGrp.stackTop := by rw [hb.curGrp_eq]
  have eff := effBrv_parts (off := off) hb.live (g := g) (by rwa [hb.act]) (by rwa [hb.act, hb.active])
  rw [hb.act, hb.active, on.labelOf hb, top, hu, put.pclk, hb.pclk, hb.slotKey] at eff
  generalize b.brvPath _ _ _ _ = path at eff ⊢
  have live := put.live hb.live
  have grp := curGrp_modG u (fun r => r.parts s.cur.slot (s.curGrp.stackTop + 1) b.curSlot (s.active &&& ~~~(s.act g)) path) live
  have core := curCore_modG u (fun r => r.parts s.cur.slot (s.curGrp.stackTop + 1) b.curSlot (s.active &&& ~~~(s.act g)) path) live
  have steered := onStream_modG live (fun r => r.parts s.cur.slot (s.curGrp.stackTop + 1) b.curSlot (s.active &&& ~~~(s.act g)) path)
    fun r => by rw [parts_rest]; exact ⟨rfl, rfl, rfl⟩
  have lt : s.cur.slot < 2 := hb.slotKey ▸ hb.slot_lt
  have slot : u.cur.slot = s.cur.slot := by rw [put.cur, hb.slotKey]
  have mem : (u.modG (fun r => r.parts s.cur.slot (s.curGrp.stackTop + 1) b.curSlot (s.active &&& ~~~(s.act g)) path)).mem = u.mem := rfl
  generalize u.modG _ = v at eff grp core steered mem
  refine yields_of_done (u := v) rfl h h0 rfl (hs ▸ eff) (hs ▸ put.onStream.trans steered) fun t d => ⟨?_, ?_, ?_, d.mem.trans mem, ?_⟩
  · rw [d.slot, State.curSlot, steered.cur, slot, grp]
    exact parts_own _ lt _ _ _ _
  · rw [d.grp, grp, parts_rest]
  · rw [d.grp]
    refine (congrArg (Group.slot · (1 - s.cur.slot)) grp).trans ((parts_other _ lt _ _ _ _).trans ?_)
    rw [put.slot, hb.other]
  · rw [d.lines, core]
    rfl

section
variable {taken label : W32} {k clk : Nat} (hb : Begun s b)
include hb

/-- The record that a BRV pushes, in the terms of the state before the issue. -/
theorem Begun.brvPut_eq : b.brvPut taken label = b.putRec (s.curGrp.stackTop + 1) (recNew (s.curGrp.stackTop + 1) s.active s.curSlot.fmt
    s.curSlot.depth (if (s.curGrp.slot (1 - s.cur.slot)).mask = 0 then none else some (taken, label, b.curSlot.bases))) := by
  have top : b.curGrp.stackTop = s.curGrp.stackTop := by rw [hb.curGrp_eq]
  unfold State.brvPut State.brvSpill
  simp only [top, hb.active, hb.fmt, hb.depth, hb.slotKey, hb.other, beq_iff_eq]

theorem Begun.brvPath_free (free : (s.curGrp.slot (1 - s.cur.slot)).mask = 0) : b.brvPath k taken label clk =
    some { PcSlot.empty with pc := label, mask := taken, depth := k, fmt := s.curSlot.fmt, bases := b.curSlot.bases, next := clk } := by
  unfold State.brvPath
  rw [hb.slotKey, hb.other, if_pos (beq_iff_eq.2 free), hb.fmt]

theorem Begun.brvPath_taken (busy : (s.curGrp.slot (1 - s.cur.slot)).mask ≠ 0) : b.brvPath k taken label clk = none := by
  unfold State.brvPath
  rw [hb.slotKey, hb.other, if_neg (beq_iff_eq.not.2 busy)]

end

/-- A BRV that takes every active lane is a branch. -/
theorem brv_branches (h : s.issues (.brv g off) = true) (h0 : s.act g ≠ 0) (ha : s.act g = s.active) :
    Yields (.brv g off) s (Branched s (s.begun (.brv g off)) (s.curSlot.pc + 2 * off) 1) := by
  obtain ⟨hb, on⟩ := begun_of_hold h rfl
  refine yields_jump rfl h h0 rfl ?_ (.refl _)
  show effBrv g off _ = _
  unfold effBrv State.taken
  dsimp only
  rw [hb.act, hb.active, if_neg (by simpa using h0), if_pos (by simpa using ha), on.labelOf hb]

/-- A BRV that takes no lane does nothing. -/
theorem brv_goes_on (h : s.issues (.brv g off) = true) (h0 : s.act g = 0) :
    Yields (.brv g off) s (fun t => (s.slotIn t).pc = s.succPc ∧ (s.slotIn t).mask = s.curSlot.mask) := by
  obtain ⟨hb, on⟩ := begun_of_hold h rfl
  have idle : (soloSem (.brv g off)).eff (s.begun (.brv g off)) = s.begun (.brv g off) := gated_off hb h0
  refine ⟨_, exec_of_issues _ s rfl h, ?_⟩
  rw [idle]
  have d := done_finish hb (.refl _) (issues_parts h).2.1 (begun_hand s (.brv g off))
  exact ⟨(congrArg PcSlot.pc d.slot).trans on.pc, (congrArg PcSlot.mask d.slot).trans hb.mask⟩

end Sys2Proof.Machine
end

section

/-! MEET (R141, R142): the lanes reunite, or the slot takes a spilled path, or stays empty (O11). -/

namespace Sys2Proof.Machine

variable {s b m : State} {g : Guard} {i : Instr}

theorem Recorded.active (h : Recorded b m) : m.active = b.active := by
  unfold State.active
  rw [h.curSlot, h.grp]

theorem recorded_free (p : State) (n : Nat) : Recorded p { p with free := n } := ⟨rfl, id, rfl, rfl⟩

/-- A record in which lanes have arrived that go on at pc. -/
def recMet (r : Rec) (lanes pc : W32) : Rec := recPut (recPut r 4 4 (recA r ||| lanes).toNat) 12 4 pc.toNat

/-- A stream whose lanes have arrived in record d, and which waits for that record's read. -/
def State.met (m : State) (d : Nat) (lanes pc : W32) : State :=
  { m.putRec d (recMet (m.getRec d) lanes pc) with free := (m.putRec d (recMet (m.getRec d) lanes pc)).free + 1 }

theorem recorded_met (h : m.live = true) (d : Nat) (lanes pc : W32) : Recorded m (m.met d lanes pc) :=
  (Recorded.putRec h _ _).trans (recorded_free _ _)

/-- The slot with all the lanes of record r, lat clk later. -/
def PcSlot.reunited (q : PcSlot) (r : Rec) (lat : Nat) : PcSlot :=
  { q with mask := recU r, depth := recParent r, fmt := recF r, next := q.next + lat }

theorem effMeet_flat (h : b.curSlot.depth = 0) : effMeet b = b := if_pos h

theorem effMeet_deep {d : Nat} (hd : b.curSlot.depth = d) (h0 : d ≠ 0) (hm : b.settleRec d = m) : effMeet b =
    if recA (m.getRec d) ||| m.active == recU (m.getRec d) then
      ((m.met d m.active m.curSlot.pc).modS (·.reunited (m.getRec d)
        (Config.latency (m.putRec d (recMet (m.getRec d) m.active m.curSlot.pc)).free))).popRec d
    else (((m.met d m.active m.curSlot.pc).modS (fun p => { p with mask := 0 })).refill).unitCheck
      (m.met d m.active m.curSlot.pc).cur.core (m.met d m.active m.curSlot.pc).cur.gid := by
  subst hm
  subst hd
  exact if_neg h0

/-- A refill that finds no path leaves the slot empty. -/
theorem refill_empties {w : State}
    (h : (w.seenBy.foldl State.settleRec w).findSpill (w.seenBy.foldl State.settleRec w).curGrp.stackTop = none) :
    w.refill = (w.seenBy.foldl State.settleRec w).emptied := by
  unfold State.refill
  dsimp only
  generalize w.seenBy.foldl State.settleRec w = u at h
  rw [h]
  rfl

theorem emptied_facts {u : State} (h : u.live = true) : OnStream u u.emptied ∧ u.emptied.curSlot.mask = 0
    ∧ u.emptied.curCore.lines = u.curCore.lines ∧ u.emptied.curGrp.stackTop = u.curGrp.stackTop := by
  have core := curCore_modS u (fun p => { PcSlot.empty with fmt := p.fmt, kept := p.kept }) h
  refine ⟨onStream_modS h _, congrArg PcSlot.mask (curSlot_modS u _ h), ?_, (modS_keeps h _).2.2.1⟩
  unfold State.emptied
  rw [core]
  rfl

/-- An effect that ends with the check of its unit's arrivals leaves the stream and memory as it found them. -/
theorem yields_checked (hi : i.isSlot = true) (h : s.issues i = true) (ha : s.act (opInfo i).guard ≠ 0)
    (hh : ((semOf (soloSlot i) i).hold s).2 = s) (on : OnStream (s.begun i) m)
    (eff : (semOf (soloSlot i) i).eff (s.begun i) = m.unitCheck m.cur.core m.cur.gid) :
    Yields i s (fun t => s.slotIn t = { m.curSlot with wait := (s.slotIn t).wait }
      ∧ t.mem = m.mem ∧ (s.coreIn t).lines = m.curCore.lines ∧ (s.groupIn t).stackTop = m.curGrp.stackTop) := by
  have checked := waited_unitCheck m m.cur.core m.cur.gid
  generalize m.unitCheck m.cur.core m.cur.gid = r at eff checked
  refine yields_of_done hi h ha hh eff (on.trans checked.stays.onStream) fun t d => ⟨?_, ?_, ?_, ?_⟩
  · rw [d.slot]
    exact checked.curSlot
  · rw [d.mem, checked.mem]
  · rw [d.lines]
    show (r.core r.cur.core).lines = _
    rw [checked.cur]
    exact checked.lines _
  · rw [d.grp, checked.curGrp]

theorem meet_eff : (semOf (soloSlot (.meet g)) (.meet g)).eff = effMeet := rfl

section
variable {d : Nat} (ha : s.act g ≠ 0) (h : s.issues (.meet g) = true) (hd : s.curSlot.depth = d)
  (hm : (s.begun (.meet g)).settleRec d = m)
include h hm

/-- A MEET reads its record where the stream stands at the successor. -/
theorem meet_begins : Recorded (s.begun (.meet g)) m ∧ m.live = true ∧ m.active = s.active ∧ m.curSlot.pc = s.succPc := by
  obtain ⟨hb, on⟩ := begun_of_hold h rfl
  have read : Recorded (s.begun (.meet g)) m := hm ▸ .settleRec _ d
  exact ⟨read, read.live hb.live, read.active.trans hb.active, by rw [read.curSlot, on.pc]⟩

include hd

theorem meet_deep (h0 : d ≠ 0) : (semOf (soloSlot (.meet g)) (.meet g)).eff (s.begun (.meet g)) =
    if recA (m.getRec d) ||| s.active == recU (m.getRec d) then
      ((m.met d s.active s.succPc).modS (·.reunited (m.getRec d)
        (Config.latency (m.putRec d (recMet (m.getRec d) s.active s.succPc)).free))).popRec d
    else (((m.met d s.active s.succPc).modS (fun p => { p with mask := 0 })).refill).unitCheck
      (m.met d s.active s.succPc).cur.core (m.met d s.active s.succPc).cur.gid := by
  obtain ⟨-, -, active, pc⟩ := meet_begins h hm
  have eff := effMeet_deep ((begun_of_hold h rfl).1.depth.trans hd) h0 hm
  rw [active, pc] at eff
  exact (congrFun meet_eff _).trans eff

include ha

/-- All the lanes are there: the record is popped and the slot goes on with them. -/
theorem meet_reunites {u : State} (h0 : d ≠ 0) (all : recA (m.getRec d) ||| s.active = recU (m.getRec d))
    (hu : ((m.met d s.active s.succPc).modS (·.reunited (m.getRec d)
      (Config.latency (m.putRec d (recMet (m.getRec d) s.active s.succPc)).free))).popRec d = u) :
    Yields (.meet g) s (fun t => (s.slotIn t).pc = s.succPc ∧ (s.slotIn t).mask = recU (m.getRec d)
      ∧ (s.slotIn t).depth = recParent (m.getRec d) ∧ (s.slotIn t).fmt = recF (m.getRec d)
      ∧ t.mem = u.mem ∧ (s.coreIn t).lines = u.curCore.lines ∧ (s.groupIn t).stackTop = u.curGrp.stackTop) := by
  obtain ⟨read, live, -, pc⟩ := meet_begins h hm
  have eff := (meet_deep h hd hm h0).trans (if_pos (beq_iff_eq.2 all))
  have put := recorded_met live d s.active s.succPc
  have steered := onStream_modS (put.live live) (·.reunited (m.getRec d) (Config.latency (m.putRec d (recMet (m.getRec d) s.active s.succPc)).free))
  have slot := curSlot_modS _ (·.reunited (m.getRec d) (Config.latency (m.putRec d (recMet (m.getRec d) s.active s.succPc)).free)) (put.live live)
  generalize State.modS _ _ = v at hu eff steered slot
  have popped : Recorded v u := hu ▸ .popRec (steered.live (put.live live)) d
  rw [hu] at eff
  refine yields_of_done rfl h ha rfl eff ((read.onStream.trans put.onStream).trans (steered.trans popped.onStream)) fun t done => ?_
  rw [done.slot, popped.curSlot, slot, put.curSlot, ← pc, done.grp]
  exact ⟨rfl, rfl, rfl, rfl, done.mem, done.lines, rfl⟩

omit ha hd

variable {w u : State} (hw : (m.met d s.active s.succPc).modS (fun p => { p with mask := 0 }) = w)
  (hu : w.seenBy.foldl State.settleRec w = u)
include hw hu

theorem meet_settled : u.live = true := by
  obtain ⟨-, live, -, -⟩ := meet_begins h hm
  have put := (recorded_met live d s.active s.succPc).live live
  have left : w.live = true := hw ▸ live_modS _ _ put
  exact hu ▸ (onStream_settleRecs w.seenBy w).live left

include ha hd

/-- Lanes are still missing: the slot, left by its own, is filled again if it can be. -/
theorem meet_refills {x : State} (h0 : d ≠ 0) (missing : recA (m.getRec d) ||| s.active ≠ recU (m.getRec d)) (fills : w.refill = x)
    (on : OnStream u x) :
    Yields (.meet g) s (fun t => s.slotIn t = { x.curSlot with wait := (s.slotIn t).wait }
      ∧ t.mem = x.mem ∧ (s.coreIn t).lines = x.curCore.lines ∧ (s.groupIn t).stackTop = x.curGrp.stackTop) := by
  obtain ⟨read, live, -, -⟩ := meet_begins h hm
  have eff := (meet_deep h hd hm h0).trans (if_neg (beq_iff_eq.not.2 missing))
  have put := recorded_met live d s.active s.succPc
  have left := (put.onStream.trans (hw ▸ onStream_modS (put.live live) _)).trans ((hu ▸ onStream_settleRecs w.seenBy w : OnStream w u).trans on)
  rw [hw, fills, put.cur, ← left.cur] at eff
  exact yields_checked rfl h ha rfl (read.onStream.trans left) eff

/-- No record holds a path: the slot stays empty. -/
theorem meet_empties (h0 : d ≠ 0) (missing : recA (m.getRec d) ||| s.active ≠ recU (m.getRec d)) (bare : u.findSpill u.curGrp.stackTop = none) :
    Yields (.meet g) s (fun t => (s.slotIn t).mask = 0
      ∧ t.mem = u.mem ∧ (s.coreIn t).lines = u.curCore.lines ∧ (s.groupIn t).stackTop = u.curGrp.stackTop) := by
  have live := meet_settled h hm hw hu
  have fills : w.refill = u.emptied := (refill_empties (by rw [hu]; exact bare)).trans (congrArg State.emptied hu)
  obtain ⟨on, empty, lines', top'⟩ := emptied_facts live
  obtain ⟨t, ht, slot, mem, lines, top⟩ := meet_refills ha h hd hm hw hu h0 missing fills on
  exact ⟨t, ht, by rw [slot]; exact empty, mem, lines.trans lines', top.trans top'⟩

/-- The highest record that holds a path gives it. -/
theorem meet_takes {k : Nat} (h0 : d ≠ 0) (missing : recA (m.getRec d) ||| s.active ≠ recU (m.getRec d))
    (found : u.findSpill u.curGrp.stackTop = some k) :
    Yields (.meet g) s (fun t => Refilled (u.getRec k) k (s.slotIn t)
      ∧ t.mem = (u.unspilled k).mem ∧ (s.coreIn t).lines = (u.unspilled k).curCore.lines
      ∧ (s.groupIn t).stackTop = (u.unspilled k).curGrp.stackTop) := by
  obtain ⟨on, own, mem, lines, top⟩ := takePath_facts (meet_settled h hm hw hu) k
  have fills : w.refill = u.takePath k := (refill_takes (by rw [hu]; exact found)).trans (congrArg (State.takePath · k) hu)
  obtain ⟨t, ht, slot, mem', lines', top'⟩ := meet_refills ha h hd hm hw hu h0 missing fills on
  refine ⟨t, ht, ?_, mem'.trans mem, lines'.trans lines, top'.trans top⟩
  rw [slot, own]
  exact ⟨rfl, rfl, rfl, rfl, rfl⟩

end

/-- A MEET at depth 0 does nothing. -/
theorem meet_goes_on (ha : s.act g ≠ 0) (h : s.issues (.meet g) = true) (h0 : s.curSlot.depth = 0) :
    Yields (.meet g) s (fun t => (s.slotIn t).pc = s.succPc ∧ (s.slotIn t).mask = s.curSlot.mask ∧ (s.slotIn t).depth = 0) := by
  obtain ⟨hb, on⟩ := begun_of_hold h rfl
  have eff := (congrFun (meet_eff (g := g)) _).trans (effMeet_flat (hb.depth.trans h0))
  refine yields_of_done rfl h ha rfl eff (.refl _) fun t d => ?_
  rw [d.slot]
  exact ⟨on.pc, hb.mask, hb.depth.trans h0⟩

end Sys2Proof.Machine
end

section

/-! BRV and MEET (R139, R141, R142): the obligation (O11). -/

namespace Sys2Proof.Machine

/-- Settles O11: BRV by which lanes it takes and whether the other slot is free, MEET by which lanes have arrived and whether a record holds
a path. -/
theorem divergenceResults : Obligations.DivergenceResults := by
  unfold Obligations.DivergenceResults
  refine ⟨fun s g off h => ⟨brv_goes_on h, fun h0 ha => ?branches, fun h0 hp => ?parts⟩,
    fun s g h ha => ⟨meet_goes_on ha h, fun h0 all => ?reunites, fun h0 missing => ⟨fun bare => ?empties, fun k found => ?takes⟩⟩⟩
  case branches => exact (brv_branches h h0 ha).imp fun t b => b.1
  case parts =>
    obtain ⟨hb, on⟩ := begun_of_hold h rfl
    obtain ⟨t, ht, own, top, other, mem, lines⟩ := brv_parts rfl rfl h h0 hp
    refine ⟨t, ht, by rw [own]; exact on.pc, by rw [own], by rw [own], top, ?_⟩
    rw [hb.brvPut_eq] at mem lines
    by_cases free : (s.curGrp.slot (1 - s.cur.slot)).mask = 0
    · rw [if_pos free] at mem lines ⊢
      rw [hb.brvPath_free free] at other
      rw [other]
      exact ⟨rfl, rfl, rfl, rfl, rfl, mem, lines⟩
    · rw [if_neg free] at mem lines ⊢
      rw [hb.brvPath_taken free] at other
      exact ⟨other, mem, lines⟩
  case reunites => exact meet_reunites ha h rfl rfl h0 all rfl
  case empties => exact meet_empties ha h rfl rfl rfl rfl h0 missing bare
  case takes => exact meet_takes ha h rfl rfl rfl rfl h0 missing found

end Sys2Proof.Machine
end

section

/-! SUPPORT. Stores through a core's path leave its TLB alone (R226), so that a trap area whose pages the core holds can be written whole
(R375). -/

namespace Sys2Proof.Machine

/-- No core's TLB has changed. -/
def TlbKept (s t : State) : Prop := ∀ c, (t.core c).tlb = (s.core c).tlb

namespace TlbKept

variable {s t u : State}

theorem refl (s : State) : TlbKept s s := fun _ => rfl
theorem trans (a : TlbKept s t) (b : TlbKept t u) : TlbKept s u := fun c => (b c).trans (a c)

/-- What is no change of a core. -/
theorem of_cores (h : t.cores = s.cores) : TlbKept s t := fun c => by
  unfold State.core
  rw [h]

theorem foldl {α : Type} {f : State → α → State} (hf : ∀ s x, TlbKept s (f s x)) (l : List α) (s : State) : TlbKept s (l.foldl f s) := by
  induction l generalizing s with
  | nil => exact refl s
  | cons x r ih => exact (hf s x).trans (ih _)

theorem modCore (s : State) (c : Nat) (f : Core → Core) (hf : ∀ k, (f k).tlb = k.tlb) : TlbKept s (s.modCore c f) := by
  intro d
  rcases core_modCore_or s c d f with ⟨_, h⟩ | h <;> rw [h]
  exact hf _

theorem bump (s : State) (c e n : Nat) : TlbKept s (s.bump c e n) := by
  unfold State.bump
  dsimp only
  split
  · exact refl s
  · exact modCore _ _ _ fun _ => rfl

theorem putBytes (s : State) (pa : Nat) (l : List Byte) : TlbKept s (s.putBytes pa l) := by
  induction l generalizing s pa with
  | nil => exact refl s
  | cons v r ih => exact (of_cores rfl).trans (ih _ _)

theorem settle1 (s : State) (w : Nat) : TlbKept s (s.settle1 w) := by
  unfold State.settle1
  split
  · exact refl s
  · exact (putBytes s _ _).trans (of_cores rfl)

theorem settleRange (s : State) (pa n : Nat) : TlbKept s (s.settleRange pa n) := foldl settle1 _ s

theorem settleWalk (s : State) (die root va : Nat) : TlbKept s (s.settleWalk die root va) := by
  have settled {u : State} (h : TlbKept s u) (p : Nat) : TlbKept s (u.settleRange p 8) := h.trans (settleRange u p 8)
  unfold State.settleWalk
  dsimp only
  repeat' split
  all_goals repeat' apply settled
  all_goals exact refl s

theorem homeWrite (s : State) (pa : Nat) (l : List Byte) : TlbKept s (s.homeWrite pa l) := (settleRange s _ _).trans (putBytes _ _ _)

theorem homeRead (s : State) (pa n ty : Nat) : TlbKept s (s.homeRead pa n ty).2 := by
  have settled := settleRange s pa n
  unfold State.homeRead
  dsimp only
  repeat' split
  · exact settled
  · exact settled.trans (of_cores rfl)
  · exact settled

theorem dropLine (s : State) (c k : Nat) : TlbKept s (s.dropLine c k) := by
  refine TlbKept.trans ?_ (modCore _ _ _ fun _ => rfl)
  unfold State.cleanLine
  split
  · exact refl s
  · refine (foldl (fun u i => ?_) _ s).trans (modCore _ _ _ fun _ => rfl)
    split
    · exact homeWrite u _ _
    · exact refl u

theorem addLine (s : State) (c k : Nat) (l : Line) : TlbKept s (s.addLine c k l) := by
  have added : TlbKept s (s.modCore c (fun d => { d with lines := kset k l d.lines })) := modCore _ _ _ fun _ => rfl
  unfold State.addLine
  dsimp only
  repeat' split
  · exact added
  · exact added
  · exact added.trans (dropLine _ _ _)

theorem noteBad (s : State) (c k : Nat) : TlbKept s (s.noteBad c k) := modCore s _ _ fun _ => rfl

theorem storeG (s : State) (c launch pa : Nat) (v : List Byte) (scope ty : Nat) : TlbKept s (s.storeG c launch pa v scope ty) := by
  unfold State.storeG
  dsimp only
  split
  · refine TlbKept.trans ?_ (addLine _ _ _ _)
    repeat' split
    · exact bump _ _ _ _
    · exact refl s
    · exact ((bump s _ _ _).trans (noteBad _ _ _)).trans (homeRead _ _ _ _)
    · exact refl s
  · exact (homeWrite s _ _).trans (modCore _ _ _ fun _ => rfl)

theorem markFar (s : State) (pa : Nat) : TlbKept s (s.markFar pa) := by
  unfold State.markFar
  split
  · exact modCore s _ _ fun _ => rfl
  · exact refl s

end TlbKept

/-- A byte that the TLB of core c maps, with write permission. -/
def State.heldForWrite (s : State) (c root : Nat) (priv : Bool) (va : Nat) : Bool :=
  match tlbFind (s.core c).tlb root (va % 2 ^ 56) with
  | some (leaf, _) => permits (leafPerm leaf) .w priv
  | none => false

theorem TlbKept.heldForWrite {s t : State} (h : TlbKept s t) (c root : Nat) (priv : Bool) (va : Nat) :
    t.heldForWrite c root priv va = s.heldForWrite c root priv va := by
  unfold State.heldForWrite
  rw [h c]

/-- Bytes all of which the TLB maps for writing can be stored. -/
theorem storeOwn_isSome {c launch root : Nat} {priv : Bool} (l : List Byte) {s : State} {va : Nat}
    (held : ∀ i, i < l.length → s.heldForWrite c root priv (va + i) = true) : (s.storeOwn c launch root priv va l).isSome = true := by
  induction l generalizing s va with
  | nil => rfl
  | cons v r ih =>
    have walked := TlbKept.settleWalk s (coreDie c) root (va % 2 ^ 56)
    have first := held 0 (Nat.zero_lt_succ _)
    rw [Nat.add_zero, ← walked.heldForWrite] at first
    unfold State.heldForWrite at first
    unfold State.storeOwn State.xlatNow
    dsimp only
    generalize s.settleWalk (coreDie c) root (va % 2 ^ 56) = w at walked first
    split at first
    next leaf size found =>
      rw [found]
      dsimp only
      rw [if_pos first]
      refine ih fun i hi => ?_
      have stored := (walked.trans (TlbKept.storeG w c launch (leafPa leaf size (va % 2 ^ 56)) [v] 0 (leafType leaf))).trans (TlbKept.markFar _ (leafPa leaf size (va % 2 ^ 56)))
      rw [stored.heldForWrite, Nat.add_assoc, Nat.add_comm 1 i]
      exact held (i + 1) (Nat.succ_lt_succ hi)
    next => cases first

end Sys2Proof.Machine
end

section

/-! Taking a trap into a handler whose trap area can be written (R371, R374, R375), TRAP, and deferred faults (O14). -/

namespace Sys2Proof.Machine

/-! ### The trap record (R374) -/

theorem pcRecord_length (p : PcSlot) : (pcRecord p).length = 16 := by simp [pcRecord, leBytes_length]

theorem basesBytes_length (p : PcSlot) : (basesBytes p).length = 40 := by simp [basesBytes, List.length_flatMap, leBytes_length]

theorem laneBytes_length (r : Option LaneRec) : (laneBytes r).length = 16 := by
  cases r with
  | none => exact List.length_replicate
  | some l => simp [laneBytes, leBytes_length]

theorem laneImage_length (g : Group) : g.laneImage.length = 512 := by simp [Group.laneImage, List.length_flatMap, laneBytes_length]

theorem trapRecord_length (s : State) (t : TrapInfo) : (s.trapRecord t).length = 768 := by
  simp [State.trapRecord, leBytes_length, pcRecord_length, basesBytes_length, laneImage_length]

/-! ### Entering a handler (R375) -/

variable {s e : State}

theorem trapWritable_held (h : s.trapWritable = true) {i : Nat} (hi : i < 768) :
    s.heldForWrite s.cur.core s.root s.priv (s.trapArea + i) = true := List.all_eq_true.1 h i (List.mem_range.2 hi)

/-- On a shader core a trap that a handler may take is taken: only its record is written before the group enters. -/
theorem takeTrap_enters {v : TrapVec} (hl : s.live = true) (hv : s.handler = some v) (hw : s.trapWritable = true) (sh : s.onShader = true)
    (t : TrapInfo) : ∃ w next, Recorded s w ∧ s.takeTrap t = w.modG (·.enterHandler v next) := by
  obtain ⟨w, stored⟩ := Option.isSome_iff_exists.1 (storeOwn_isSome (launch := s.curGrp.launch) (s.trapRecord t)
    fun i hi => trapWritable_held hw (trapRecord_length s t ▸ hi))
  refine ⟨w, max (s.curCore.pclk + 1) (s.curCore.lastDue s.cur.gid), .storeOwn _ hl stored, ?_⟩
  unfold State.takeTrap
  rw [hv]
  dsimp only
  rw [stored, sh]
  rfl

/-- What says whether a handler may be entered, and where, is the same. -/
structure SameEntry (s e : State) : Prop where
  core : e.cur.core = s.cur.core
  tables : e.vectors = s.vectors ∧ e.dicts = s.dicts ∧ e.launches = s.launches
  tlb : e.curCore.tlb = s.curCore.tlb
  grp : e.curGrp.role = s.curGrp.role ∧ e.curGrp.inHandler = s.curGrp.inHandler ∧ e.curGrp.inline = s.curGrp.inline
    ∧ e.curGrp.launch = s.curGrp.launch ∧ e.curGrp.dict = s.curGrp.dict ∧ e.curGrp.privBase = s.curGrp.privBase

namespace SameEntry

theorem onShader (h : SameEntry s e) : e.onShader = s.onShader := by
  unfold State.onShader
  rw [h.core]

theorem homeLpb (h : SameEntry s e) : e.homeLpb = s.homeLpb := by
  obtain ⟨-, -, launches⟩ := h.tables
  obtain ⟨-, -, inline, launch, -⟩ := h.grp
  unfold State.homeLpb State.lpbOf Group.homeLaunch
  rw [launches, inline, launch]

theorem handler (h : SameEntry s e) : e.handler = s.handler := by
  obtain ⟨vectors, dicts, -⟩ := h.tables
  obtain ⟨role, inHandler, -⟩ := h.grp
  unfold State.handler State.vector
  dsimp only
  rw [h.homeLpb, vectors, dicts, role, inHandler]

theorem trapWritable (h : SameEntry s e) : e.trapWritable = s.trapWritable := by
  obtain ⟨-, dicts, launches⟩ := h.tables
  obtain ⟨-, -, -, launch, dict, privBase⟩ := h.grp
  unfold State.trapWritable State.trapArea State.priv State.curDict State.root State.lpb State.lpbOf
  rw [h.homeLpb, dicts, launches, launch, dict, privBase, h.tlb]

theorem trans {u : State} (a : SameEntry s e) (b : SameEntry e u) : SameEntry s u := by
  obtain ⟨v, d, l⟩ := a.tables
  obtain ⟨v', d', l'⟩ := b.tables
  obtain ⟨role, handler, inline, launch, dict, priv⟩ := a.grp
  obtain ⟨role', handler', inline', launch', dict', priv'⟩ := b.grp
  exact ⟨b.core.trans a.core, ⟨v'.trans v, d'.trans d, l'.trans l⟩, b.tlb.trans a.tlb, role'.trans role, handler'.trans handler,
    inline'.trans inline, launch'.trans launch, dict'.trans dict, priv'.trans priv⟩

/-- That a trap leaves the list of those that wait. -/
theorem erased (h : s.live = true) (t : TrapInfo) : SameEntry s (s.modG fun g => { g with deferred := g.deferred.erase t }) := by
  refine ⟨rfl, ⟨rfl, rfl, rfl⟩, ?_, ?_⟩
  · rw [curCore_modG s _ h]
    rfl
  · rw [curGrp_modG s _ h]
    exact ⟨rfl, rfl, rfl, rfl, rfl, rfl⟩

end SameEntry

/-! ### TRAP (R146) -/

section
variable {g : Guard} {code : BitVec 16} {b : State}

/-- The software trap of the bundle at pc of PC slot n. -/
def softTrap (code : BitVec 16) (pc : W32) (n : Nat) : TrapInfo :=
  { cause := 7, slot := 0, field := 0, d0 := code.toNat, d1 := 0, d2 := 0, pc := some pc, strm := n }

/-- A stream at whose next bundle trap t waits first. -/
def State.trapped (b : State) (t : TrapInfo) : State := b.modG (fun r => { r with deferred := t :: r.deferred })

theorem curSlot_trapped {t : TrapInfo} (h : b.live = true) : (b.trapped t).curSlot = b.curSlot := by
  show (b.trapped t).curGrp.slot b.cur.slot = _
  rw [State.trapped, curGrp_modG b _ h]
  rfl

theorem effTrap_eq {l : List SlotI} (hb : Begun s b) (on : Onward s b l) : effTrap code b = b.trapped (softTrap code s.curSlot.pc s.cur.slot) := by
  have pc : b.bundlePc = s.curSlot.pc := by
    have len : b.cur.len = s.cur.len := by rw [hb.only]
    unfold State.bundlePc
    rw [on.pc, len, State.succPc, BitVec.add_sub_cancel]
  show b.trapped (softTrap code b.bundlePc b.cur.slot) = _
  rw [pc, hb.slotKey]

/-- In c trap t waits first at the stream of s, in whose group and core nothing else has changed that an entry reads. -/
structure TrapWaits (s : State) (t : TrapInfo) (c : State) : Prop where
  live : c.live = true
  entry : SameEntry s c
  gid : c.cur.gid = s.cur.gid
  slot : c.cur.slot = s.cur.slot
  deferred : c.curGrp.deferred = t :: s.curGrp.deferred

/-- The stream of a bundle that has left trap t, once its tail has acted. -/
theorem trapWaits_closed {t : TrapInfo} {u c : State} (hb : Begun s b) (hh : b.cur.hand = none) (hu : b.trapped t = u) (hc : u.closed = c) :
    Done s u c ∧ TrapWaits s t c := by
  have cur : u.cur = b.cur := by rw [← hu]; rfl
  have live : u.live = true := hu ▸ live_modG b _ hb.live
  have grp : u.curGrp = { b.curGrp with deferred := t :: b.curGrp.deferred } := hu ▸ curGrp_modG b _ hb.live
  have tlb : u.curCore.tlb = b.curCore.tlb := by
    rw [← hu, State.trapped, curCore_modG b _ hb.live]
    rfl
  have done : Done s u c := hc ▸ done_closed hb cur live hh
  have closed : c = _ := hc ▸ closed_eq live (cur ▸ hh)
  have acted := onStream_tailActs live
  have key : c.cur = { b.cur with pops := [], hand := none, imgs := [], views := [] } := by rw [closed, cur]
  have coreKey : c.cur.core = s.cur.core := by rw [key, hb.coreKey]
  have groupKey : c.cur.gid = s.cur.gid := by rw [key, hb.groupKey]
  have core : c.curCore = s.coreIn c := by
    unfold State.curCore
    rw [coreKey]
    rfl
  have same : c.curGrp = _ := Eq.trans (b := s.groupIn c) (by unfold State.curGrp; rw [coreKey, groupKey]; rfl) done.grp
  refine ⟨done, ?_, ⟨coreKey, ?_, ?_, ?_⟩, groupKey, by rw [key, hb.slotKey], by rw [same, grp, hb.deferred]⟩
  · rw [closed]
    exact acted.cur ▸ acted.live live
  · rw [done.rest, ← hu, hb.only]
    exact ⟨rfl, rfl, rfl⟩
  · rw [core, done.core, tlb, hb.core]
  · rw [same, grp, hb.curGrp_eq]
    exact ⟨rfl, rfl, rfl, rfl, rfl, rfl⟩

theorem TrapWaits.groupIn {t : TrapInfo} {c : State} (h : TrapWaits s t c) : s.groupIn c = c.curGrp := by
  show c.group s.cur.core s.cur.gid = c.group c.cur.core c.cur.gid
  rw [h.entry.core, h.gid]

/-- A software trap is due at its stream at once. -/
theorem TrapWaits.due {pc : W32} {c : State} (h : TrapWaits s (softTrap code pc s.cur.slot) c) :
    c.dueTrap = some (softTrap code pc s.cur.slot) := by
  unfold State.dueTrap
  rw [h.deferred, h.slot]
  exact List.find?_cons_of_pos (by simp [Group.isDue, softTrap])

/-- What TRAP leaves: the stream with the software trap of its bundle waiting first. -/
theorem trap_ends (h : s.issues (.trap g code) = true) (ha : s.act g ≠ 0) :
    ∃ u, exec (.trap g code) s = .next u.finish ∧ Done s u u.closed ∧ TrapWaits s (softTrap code s.curSlot.pc s.cur.slot) u.closed
      ∧ u.curSlot.pc = s.succPc := by
  obtain ⟨hb, on⟩ := begun_of_hold h rfl
  have eff : (soloSem (.trap g code)).eff (s.begun (.trap g code)) = effTrap code (s.begun (.trap g code)) := gated_eff (i := .trap g code) hb ha
  obtain ⟨done, waits⟩ := trapWaits_closed hb (begun_hand s (.trap g code)) rfl rfl
  refine ⟨_, ?_, done, waits, ?_⟩
  · rw [exec_of_issues (.trap g code) s rfl h, eff, effTrap_eq hb on]
  · rw [curSlot_trapped hb.live, on.pc]

/-- On a tile the trap waits first, and the stream goes on at its successor. -/
theorem trap_waits (h : s.issues (.trap g code) = true) (ha : s.act g ≠ 0) (tile : s.onShader = false) :
    Yields (.trap g code) s (fun t => (s.groupIn t).deferred = softTrap code s.curSlot.pc s.cur.slot :: s.curGrp.deferred
      ∧ (s.slotIn t).pc = s.succPc) := by
  obtain ⟨u, ends, done, waits, pc⟩ := trap_ends h ha
  rw [finish_tile (waits.entry.onShader.trans tile)] at ends
  refine ⟨_, ends, ?_, ?_⟩
  · rw [waits.groupIn]
    exact waits.deferred
  · rw [done.slot]
    exact pc

/-- The handler of vector v runs in group r: one path of all lanes, at the handler's entry, under its dictionary. -/
structure RunsHandler (r : Group) (v : TrapVec) : Prop where
  inHandler : r.inHandler = true
  dict : r.dict = v.dict
  pc : r.slot0.pc = BitVec.ofNat 32 v.entry
  lanes : r.slot0.mask = allLanes
  single : r.slot1.mask = 0

/-- A waiting trap that a shader core's handler may take starts that handler. -/
theorem TrapWaits.serve {t : TrapInfo} {c : State} {v : TrapVec} (waits : TrapWaits s t c) (sh : s.onShader = true)
    (hv : s.handler = some v) (hw : s.trapWritable = true) : RunsHandler (s.groupIn (c.serveDeferred t)) v := by
  have entry : SameEntry s (c.modG fun g => { g with deferred := g.deferred.erase t }) := waits.entry.trans (.erased waits.live t)
  have live := live_modG c (fun g => { g with deferred := g.deferred.erase t }) waits.live
  obtain ⟨w, next, recorded, taken⟩ :=
    takeTrap_enters live (entry.handler.trans hv) (entry.trapWritable.trans hw) (entry.onShader.trans sh) t
  have wlive := recorded.live live
  have core : w.cur.core = s.cur.core := by rw [recorded.cur]; exact waits.entry.core
  have gid : w.cur.gid = s.cur.gid := by rw [recorded.cur]; exact waits.gid
  have served : s.groupIn (c.serveDeferred t) = (c.serveDeferred t).curGrp := by
    unfold State.serveDeferred
    rw [taken, State.groupIn, ← core, ← gid]
    rfl
  rw [served, State.serveDeferred, taken, curGrp_modG _ _ (live_modG w _ wlive), curGrp_modG w _ wlive]
  exact ⟨rfl, rfl, rfl, rfl, rfl⟩

/-- On a shader core the handler starts in place of the successor. -/
theorem trap_enters {v : TrapVec} (h : s.issues (.trap g code) = true) (ha : s.act g ≠ 0) (sh : s.onShader = true)
    (hv : s.handler = some v) (hw : s.trapWritable = true) : Yields (.trap g code) s (fun t => RunsHandler (s.groupIn t) v) := by
  obtain ⟨u, ends, -, waits, -⟩ := trap_ends h ha
  rw [finish_trapped (waits.entry.onShader.trans sh) waits.due rfl] at ends
  exact ⟨_, ends, waits.serve sh hv hw⟩

end

/-- A trap that is due is served in place of the next bundle (R371). -/
theorem exec_of_due {i : Instr} {t : TrapInfo} (hi : i.isSlot = true) (due : s.dueTrap = some t) : exec i s = .next (s.serveDeferred t) := by
  rw [exec_slot i s hi]
  unfold State.issueWith
  rw [due]

/-- Settles O14: TRAP by the waiting trap that it leaves, which a shader core serves at once, and a due trap by the issue's first branch. -/
theorem trapOrder : Obligations.TrapOrder := by
  unfold Obligations.TrapOrder
  refine ⟨fun s g code h ha => ⟨fun v sh hv hw => (trap_enters h ha sh hv hw).imp fun t runs => ?runs, trap_waits h ha⟩,
    fun s i t hi _ due => exec_of_due hi due⟩
  case runs =>
    obtain ⟨inHandler, dict, pc, lanes, single⟩ := runs
    exact ⟨inHandler, dict, pc, lanes, single⟩

end Sys2Proof.Machine
end

section

/-! SUPPORT. A row of lanes on its way to a view, and lane arithmetic in the terms of the spec (R155, R163). -/

namespace Sys2Proof.Machine

/-! ### Rows that an issue sends -/

theorem exists_bitOn {m : W32} (h : m ≠ 0) : ∃ j < 32, bitOn m j = true := by
  by_contra hm
  refine h (BitVec.eq_of_getLsbD_eq fun j hj => ?_)
  have off : ¬ bitOn m j = true := fun on => hm ⟨j, hj, on⟩
  simpa [bitOn] using off

theorem viewWrites_ne_nil (d : View) {m : W32} (h : m ≠ 0) (f : Nat → W32) : viewWrites d m f ≠ [] := by
  obtain ⟨j, hj, on⟩ := exists_bitOn h
  have acting : j ∈ (List.range 32).filter (bitOn m) := List.mem_filter.2 ⟨List.mem_range.2 hj, on⟩
  simpa [viewWrites] using List.ne_nil_of_mem acting

/-- A row for a view, in the lanes where the slot acts. -/
theorem results_row {s : State} {i : Instr} {n lam : Nat} {d : View} {row : State → Nat → W32} {v : Nat → W32} (hi : i.isSlot = true)
    (ha : s.act (opInfo i).guard ≠ 0) (hh : ((semOf (soloSlot i) i).hold s).2 = s)
    (he : (semOf (soloSlot i) i).eff = fun t => t.vput n lam (opInfo i).guard d (row t))
    (hv : Begun s (s.begun i) → ∀ j, row (s.begun i) j = v j) (h : s.issues i = true) :
    Results i s lam (viewWrites d (s.act (opInfo i).guard) v) := by
  have hb := (begun_of_hold h hh).1
  refine results_emit (n := n) hi ha hh ?_ (viewWrites_ne_nil d ha v) h
  rw [he, ← funext (hv hb), ← hb.act]
  rfl

/-! ### Integer lanes (R163) -/

/-- Sums of unsigned lanes are clamped from above alone. -/
theorem clampU_add (x y : W32) : clampU ((x.toNat : Int) + y.toNat) = BitVec.ofNat 32 (min 4294967295 (x.toNat + y.toNat)) := by
  unfold clampU
  rw [← BitVec.ofInt_natCast]
  congr 1
  omega

/-- Differences of unsigned lanes are clamped from below alone. -/
theorem clampU_sub (x y : W32) : clampU ((x.toNat : Int) - y.toNat) = BitVec.ofNat 32 (x.toNat - y.toNat) := by
  unfold clampU
  rw [← BitVec.ofInt_natCast]
  congr 1
  have := x.isLt
  omega

theorem laneAdd_eq (k : Fin 3) (x y : W32) : laneAdd k.val x y =
    if k = 0 then x + y
    else if k = 1 then BitVec.ofInt 32 (max (-2147483648) (min 2147483647 (x.toInt + y.toInt)))
    else BitVec.ofNat 32 (min 4294967295 (x.toNat + y.toNat)) := by
  fin_cases k
  · rfl
  · rfl
  · exact clampU_add x y

theorem laneSub_eq (k : Fin 3) (x y : W32) : laneSub k.val x y =
    if k = 0 then x - y
    else if k = 1 then BitVec.ofInt 32 (max (-2147483648) (min 2147483647 (x.toInt - y.toInt)))
    else BitVec.ofNat 32 (x.toNat - y.toNat) := by
  fin_cases k
  · rfl
  · rfl
  · exact clampU_sub x y

theorem laneMul_eq (k : Fin 3) (x y : W32) : laneMul k.val x y =
    if k = 0 then x * y
    else if k = 1 then BitVec.ofInt 32 (x.toInt * y.toInt / 2 ^ 32)
    else BitVec.ofNat 32 (x.toNat * y.toNat / 2 ^ 32) := by
  fin_cases k <;> rfl

end Sys2Proof.Machine
end

section

/-! The vector instructions (R159 to R170), each by the row that it sends (O4 to O7). -/

namespace Sys2Proof.Machine

/-! ### Floating lanes (R159 to R162) -/

/-- VCMP sends a predicate, in the lanes where the slot acts (R161). -/
theorem vcmp_results {s : State} {g : Guard} {cc : Fin 16} {p : PReg} {a b : VSrc} (ha : s.act g ≠ 0)
    (h : s.issues (.vcmp g cc p a b) = true) : let i := Instr.vcmp g cc p a b
    Results i s 2 [.p p.val (s.act g) (maskOf (fun j => vcmpHolds cc.val (fmtLane s.curSlot.fmt) (s.seen i a j) (s.seen i b j)))] := by
  have hb := (begun_of_hold h rfl).1
  refine results_emit (n := 1) rfl ha rfl ?_ (List.cons_ne_nil _ _) h
  rw [← hb.act, ← hb.fmt]
  rfl

/-- Settles O4: each instruction sends one row, or VCMP a predicate, of the model's lane function under the format that stood before
the issue. The enclosures of exp2, log2, sine and cosine are the model's choice (log 9). -/
theorem vectorFloatResults : Obligations.VectorFloatResults := by
  unfold Obligations.VectorFloatResults
  refine ⟨fun s g la n cc d p a b c ha => ⟨?vadd, ?vsub, ?vmul, ?vfma, ?vmin, ?vmax, ?vabs, ?vneg, vcmp_results ha, ?vsel, ?vmov⟩,
    fun s g d a ha => ⟨?vexp2, ?vlog2, ?vrcp, ?vrsq, ?vsin, ?vcos⟩⟩
  case vadd | vsub | vmul | vfma =>
    exact results_row rfl ha rfl rfl fun hb j => by rw [hb.laneFmt, hb.rnd, hb.sat]; rfl
  case vmin | vmax | vabs | vneg => exact results_row rfl ha rfl rfl fun hb j => by rw [hb.laneFmt]; rfl
  case vsel => exact results_row rfl ha rfl rfl fun hb j => by rw [hb.pr]; rfl
  case vmov => exact results_row rfl ha rfl rfl fun _ _ => rfl
  case vexp2 | vlog2 | vrcp | vrsq | vsin | vcos =>
    exact results_row rfl ha rfl rfl fun hb j => by rw [hb.rnd, hb.sat]; rfl

/-! ### Integer lanes (R163) -/

/-- Settles O5: each instruction sends one row, computed lane by lane from its operands. -/
theorem vectorIntegerResults : Obligations.VectorIntegerResults := by
  unfold Obligations.VectorIntegerResults
  refine fun s g k ar d a b ha => ⟨?viadd, ?visub, ?vimul, ?vshl, ?vshr, ?vand, ?vor, ?vxor⟩
  case viadd => exact results_row rfl ha rfl rfl fun _ j => laneAdd_eq k ..
  case visub => exact results_row rfl ha rfl rfl fun _ j => laneSub_eq k ..
  case vimul => exact results_row rfl ha rfl rfl fun _ j => laneMul_eq k ..
  case vshl | vshr | vand | vor | vxor => exact results_row rfl ha rfl rfl fun _ _ => rfl

/-! ### Conversion, scaling, quantising and packed dots (R164 to R167) -/

/-- Settles O6: each instruction sends one row of the model's lane function, under the format that stood before the issue. -/
theorem vectorFormatResults : Obligations.VectorFormatResults := by
  unfold Obligations.VectorFormatResults
  refine fun s g n dv d a b c ha => ⟨?up, ?dn, ?vscl, ?vqmx, ?vdot4, ?vdot8⟩
  case up => exact results_row rfl ha rfl rfl fun hb j => by rw [hb.elt, hb.rnd]; rfl
  case dn | vdot4 | vdot8 => exact results_row rfl ha rfl rfl fun hb j => by rw [hb.elt, hb.rnd, hb.sat]; rfl
  case vscl => exact results_row rfl ha rfl rfl fun hb j => by rw [hb.elt, hb.fmt, hb.rnd, hb.sat]; rfl
  case vqmx => exact results_row rfl ha rfl rfl fun hb j => by rw [hb.elt, hb.fmt, hb.rnd, hb.act]; rfl

/-! ### Across lanes (R168 to R170) -/

/-- Settles O7: each instruction sends one row, computed from the rows of its operands and the lanes where the slot acts. -/
theorem vectorLaneResults : Obligations.VectorLaneResults := by
  unfold Obligations.VectorLaneResults
  refine fun s g op k sign d a b c ha => ⟨?vred, ?vscan, ?idx, ?up, ?dn, ?xor, ?rot, ?lowest, ?named, ?vballot, ?vlane⟩
  case vred | vscan => exact results_row rfl ha rfl rfl fun hb j => by rw [hb.rnd, hb.sat, hb.act]; rfl
  case idx | up | dn | xor | rot => exact results_row rfl ha rfl rfl fun _ _ => rfl
  case lowest | named | vballot => exact results_row rfl ha rfl rfl fun hb j => by rw [hb.act]; rfl
  case vlane => exact results_row rfl ha rfl rfl fun hb j => by rw [hb.act]; fin_cases k <;> rfl

end Sys2Proof.Machine
end

section

/-! SUPPORT. A command enters an engine's queue (R151, R192, R206, R210): the issuing core takes it, an outstanding counter of the group rises,
and the stream goes on with its registers. -/

namespace Sys2Proof.Machine

/-- An engine of the issuing core has taken a command by f: counter n of the group has risen, and the command has its identifier. -/
def State.takes (s : State) (n : Nat) (f : Core → Core) : State := { ((s.modC f).ctrUp n 1) with fresh := s.fresh + 1 }

theorem takes_mem (s : State) (n : Nat) (f : Core → Core) : (s.takes n f).mem = s.mem := rfl
theorem takes_fresh (s : State) (n : Nat) (f : Core → Core) : (s.takes n f).fresh = s.fresh + 1 := rfl
theorem takes_stats (s : State) (n : Nat) (f : Core → Core) : (s.takes n f).stats = s.stats := rfl

section
variable {s : State} {n : Nat} {f : Core → Core}

theorem stays_takes (hl : s.live = true) (hf : ∀ k, (f k).groups = k.groups) : Stays s (s.takes n f) := by
  have queued := Stays.modC s f hf
  have counted : Stays (s.modC f) ((s.modC f).ctrUp n 1) := .modG _ _ (queued.live hl) (fun _ => rfl) fun _ => rfl
  exact (queued.trans counted).trans (.of_cores rfl rfl)

theorem curCore_takes (hl : s.live = true) (hf : ∀ k, (f k).groups = k.groups) :
    (s.takes n f).curCore = (f s.curCore).modGroup s.cur.gid (·.modCtr n (· + 1)) := by
  have queued := Stays.modC s f hf
  refine (curCore_modG (s.modC f) _ (queued.live hl)).trans ?_
  rw [curCore_modC s f (live_parts hl).1]
  rfl

theorem curGrp_takes (hl : s.live = true) (hf : ∀ k, (f k).groups = k.groups) : (s.takes n f).curGrp = s.curGrp.modCtr n (· + 1) := by
  have queued := Stays.modC s f hf
  have same : (s.modC f).curGrp = s.curGrp := (Aside.modC s f hf).grp
  exact (curGrp_modG (s.modC f) _ (queued.live hl)).trans (by rw [same])

end

namespace Begun

variable {s b : State}

theorem root (h : Begun s b) : b.root = s.root := congrArg Lpb.root h.lpb
theorem shBase (h : Begun s b) : b.curUnit.shBase = s.curUnit.shBase := by
  obtain ⟨_, same⟩ := h.unit
  rw [same]
theorem priv (h : Begun s b) : b.priv = s.priv := by
  have dict : b.curDict = s.curDict := by
    unfold State.curDict
    rw [h.curGrp_eq, h.only]
  unfold State.priv
  rw [dict]

/-- A command captures what stood there before the issue. -/
theorem cmdOf (h : Begun s b) (op : Instr) (args : List Nat) (act : W32) (data : List W32) (start due : Nat) :
    b.cmdOf op args act data start due = s.cmdOf op args act data start due := by
  have launch : b.curGrp.launch = s.curGrp.launch := by rw [h.curGrp_eq]
  unfold State.cmdOf
  rw [h.fresh, h.coreKey, h.groupKey, h.slotKey, h.scope, launch, h.root, h.priv, h.lpb, h.shBase]

end Begun

/-- A lone instruction that acts somewhere and is not held back leaves the state to the start of its issue, where its hold says so. -/
theorem hold_keeps {s : State} {i : Instr} (h : s.issues i = true) (ha : s.act (opInfo i).guard ≠ 0)
    (free : ((semOf (soloSlot i) i).hold s).1 = false → ((semOf (soloSlot i) i).hold s).2 = s) : ((semOf (soloSlot i) i).hold s).2 = s := by
  obtain ⟨-, -, -, -, unheld, -⟩ := issues_parts h
  rw [gated_hold ha] at unheld
  exact free unheld

section
variable {s a t u : State} {n : Nat} {f : Core → Core}

theorem Done.fresh (hd : Done s u t) : t.fresh = u.fresh := by rw [hd.rest]
theorem Done.stats (hd : Done s u t) : t.stats = u.stats := by rw [hd.rest]

/-- The counter that stands once a command has been taken by a state whose group has the counters of the issue. -/
theorem Done.counts (hd : Done s (a.takes n f) t) (hl : a.live = true) (hf : ∀ k, (f k).groups = k.groups)
    (same : a.curGrp.ctrs = s.curGrp.ctrs) : Counts s t n := by
  unfold Counts
  rw [hd.grp, curGrp_takes hl hf]
  show a.curGrp.ctrs.set n (a.curGrp.ctrs.getD n 0 + 1) = _
  rw [same]

/-- The issuing core once it has taken a command: f has acted on it, beside groups and banks. -/
theorem Done.taken (hd : Done s (a.takes n f) t) (hl : a.live = true) (hf : ∀ k, (f k).groups = k.groups) :
    s.coreIn t = { f a.curCore with groups := (s.coreIn t).groups, scratch := (s.coreIn t).scratch, buf := (s.coreIn t).buf,
                                    wakes := (s.coreIn t).wakes } := by
  have core := hd.core
  rw [curCore_takes hl hf] at core
  exact core

end

end Sys2Proof.Machine
end

section

/-! A rotator command enters the queue of its tile (R173, R192, R193): what it captures, and when it begins. -/

namespace Sys2Proof.Machine

/-- The lanes that a rotator command captures: ANGIN alone reads registers (R189). -/
def State.rotData (s : State) (i : Instr) : List W32 := match i with | .angin _ _ m n => s.angRows m.val n.val | _ => []

/-- Every rotator command has the hold and the effect of the queue (R192). -/
theorem semOf_rot {i : Instr} (h : rotatorCommand i = true) (n : Nat) :
    i.isSlot = true ∧ (semOf n i).hold = holdRot i ∧ (semOf n i).eff = fun s => effRot i (s.rotData i) s := by
  cases i with
  | qrfeed | qrapplySt | qrapplyLog | qrread | qrreadSt | qrzero | qrgainImm | qrgainDef | angout | angin | grot => exact ⟨rfl, rfl, rfl⟩
  | _ => cases h

/-- A rotator command that the reservation table does not hold back counts nothing. -/
theorem holdRot_keeps {i : Instr} {s : State} (h : (holdRot i s).1 = false) : (holdRot i s).2 = s := by
  simp only [holdRot, Bool.or_eq_false_iff] at h
  obtain ⟨⟨apart, -⟩, -⟩ := h
  unfold holdRot
  dsimp only
  rw [apart]
  exact if_neg Bool.false_ne_true

namespace Begun

variable {s b : State}

theorem rotArgs (h : Begun s b) (i : Instr) : b.rotArgs i = s.rotArgs i := by
  unfold State.rotArgs
  simp only [h.sr]
theorem rotData (h : Begun s b) (i : Instr) : b.rotData i = s.rotData i := by
  unfold State.rotData State.angRows Group.elem
  rw [h.curGrp_eq]

end Begun

/-- A tile's rotator takes a command: its banks are reserved, and it begins at once where the queue is empty. -/
def Core.takesRot (k : Core) (id : Nat) (l : List (Nat × Nat)) (q : Cmd) : Core :=
  let r := { (k.reserve id l) with rotQ := k.rotQ ++ [q] }
  if k.rotQ.isEmpty then r.rotBegin else r

theorem effRot_takes (op : Instr) (data : List W32) (s : State) : effRot op data s =
    s.takes 3 (·.takesRot s.fresh (rotSet op (s.rotArgs op)) (s.cmdOf op (s.rotArgs op) allLanes data 0 0)) := rfl

/-- The command at the head of the queue alone changes as it begins. -/
theorem rotBegin_eq (k : Core) : k.rotBegin = { k with rotQ := k.rotBegin.rotQ } := by
  unfold Core.rotBegin
  split <;> rfl

theorem rotBegin_ids (k : Core) : k.rotBegin.rotQ.map Cmd.id = k.rotQ.map Cmd.id := by
  unfold Core.rotBegin
  split
  · rfl
  · rename_i h
    rw [h]
    rfl

section
variable (k : Core) (id : Nat) (l : List (Nat × Nat)) (q : Cmd)

/-- Only the queue and the reservation table change. -/
theorem takesRot_eq : k.takesRot id l q = { k with rotQ := (k.takesRot id l q).rotQ, resv := (k.reserve id l).resv } := by
  unfold Core.takesRot
  dsimp only
  split
  · exact rotBegin_eq _
  · rfl

/-- The command stands at the end of the queue; in an empty one it begins at once. -/
theorem takesRot_rotQ : ∃ start due, (k.takesRot id l q).rotQ = k.rotQ ++ [{ q with start := start, due := due }]
    ∧ (k.rotQ = [] → start = k.eclk ∧ start ≤ due) := by
  unfold Core.takesRot
  cases h : k.rotQ with
  | nil => exact ⟨k.eclk, _, rfl, fun _ => ⟨rfl, Nat.le_add_right _ _⟩⟩
  | cons x r => exact ⟨q.start, q.due, rfl, fun e => nomatch e⟩

end

/-- What the acceptance of a rotator command leaves (R173, R192). -/
theorem rot_accepted {s : State} {i : Instr} (hr : rotatorCommand i = true) (h : s.issues i = true) (ha : s.act (opInfo i).guard ≠ 0) :
    Yields i s (fun t => Accepted s t 3 (rotSet i (s.rotArgs i))
      ∧ ∃ start due, (s.coreIn t).rotQ = s.curCore.rotQ ++ [s.cmdOf i (s.rotArgs i) allLanes (s.rotData i) start due]
          ∧ (s.curCore.rotQ = [] → start = s.curCore.eclk ∧ start ≤ due)) := by
  obtain ⟨slot, hold, eff⟩ := semOf_rot hr (soloSlot i)
  have kept := hold_keeps h ha (by rw [hold]; exact holdRot_keeps)
  have hb := (begun_of_hold h kept).1
  have groups (k : Core) : (k.takesRot s.fresh (rotSet i (s.rotArgs i)) (s.cmdOf i (s.rotArgs i) allLanes (s.rotData i) 0 0)).groups = k.groups := by
    rw [takesRot_eq]
  have taken : (semOf (soloSlot i) i).eff (s.begun i) = (s.begun i).takes 3
      (·.takesRot s.fresh (rotSet i (s.rotArgs i)) (s.cmdOf i (s.rotArgs i) allLanes (s.rotData i) 0 0)) := by
    rw [eff]
    dsimp only
    rw [effRot_takes, hb.rotArgs, hb.rotData, hb.fresh, hb.cmdOf]
  refine yields_of_stays slot h ha kept taken (stays_takes hb.live groups) fun t d keep => ?_
  have core := d.taken hb.live groups
  have resv : (s.begun i).curCore.resv = s.curCore.resv := by rw [hb.core]
  have queue : (s.begun i).curCore.rotQ = s.curCore.rotQ := by rw [hb.core]
  refine ⟨⟨keep, by rw [d.mem, takes_mem, hb.mem], d.counts hb.live groups (by rw [hb.curGrp_eq]), ?_, ?_⟩, ?_⟩
  · rw [core, takesRot_eq]
    show (s.begun i).curCore.resv ++ _ = s.curCore.resv ++ _
    rw [resv]
  · rw [d.fresh, takes_fresh, hb.fresh]
  · obtain ⟨start, due, stands, begins⟩ := takesRot_rotQ (s.begun i).curCore s.fresh (rotSet i (s.rotArgs i))
      (s.cmdOf i (s.rotArgs i) allLanes (s.rotData i) 0 0)
    rw [queue, hb.eclk] at begins
    refine ⟨start, due, ?_, begins⟩
    rw [core]
    exact stands.trans (by rw [queue]; rfl)

end Sys2Proof.Machine
end

section

/-! SUPPORT. Results of an engine reach the registers of a group (R119, R151): what landing writes, and what it leaves. -/

namespace Sys2Proof.Machine

/-- A write to a scalar register or to an element of a matrix register. -/
def Wr.register : Wr → Bool
  | .s .. | .m .. => true
  | _ => false

/-- Register results have landed in group g of a core: its scalars, elements and banks alone may be others, and the core's charge for
wakes. -/
structure Landed (g : Nat) (c d : Core) : Prop where
  rest : d = { c with groups := d.groups, wakes := d.wakes }
  here : (kget g d.groups).isSome = true
  grp : d.group g = { c.group g with sregs := (d.group g).sregs, mat := (d.group g).mat, banks := (d.group g).banks }
  budget : (d.group g).banks.length = (c.group g).banks.length
  mat : swf (0 : W32) (c.group g).mat = true → swf (0 : W32) (d.group g).mat = true
  sregs : swf (0 : W64) (c.group g).sregs = true → swf (0 : W64) (d.group g).sregs = true

namespace Landed

variable {g : Nat} {c d e : Core}

theorem refl (h : (kget g c.groups).isSome = true) : Landed g c c := ⟨rfl, h, rfl, rfl, id, id⟩
theorem trans (a : Landed g c d) (b : Landed g d e) : Landed g c e where
  rest := by rw [b.rest, a.rest]
  here := b.here
  grp := by rw [b.grp, a.grp]
  budget := b.budget.trans a.budget
  mat h := b.mat (a.mat h)
  sregs h := b.sregs (a.sregs h)

end Landed

section
variable {c : Core} {g : Nat}

theorem land1_scalar (h : (kget g c.groups).isSome = true) (r : Nat) (v : W64) :
    (c.land1 g (.s r v)).group g = { c.group g with sregs := sset 0 r v (c.group g).sregs } := group_modGroup_same c g _ h

theorem landed_scalar (h : (kget g c.groups).isSome = true) (r : Nat) (v : W64) : Landed g c (c.land1 g (.s r v)) := by
  have grp := land1_scalar h r v
  refine ⟨rfl, (groups_modGroup_isSome ..).trans h, ?_, ?_, ?_, ?_⟩ <;> rw [grp]
  · exact id
  · exact swf_sset _ _ _ _

/-- The wake of a bank changes groups and the core's charge alone. -/
theorem wakeReg_eq (c : Core) (g i : Nat) : c.wakeReg g i = { c with groups := (c.wakeReg g i).groups, wakes := (c.wakeReg g i).wakes } := by
  unfold Core.wakeReg
  split <;> rfl

/-- An element within the budget is written, and its bank may wake. -/
theorem land1_element (h : (kget g c.groups).isSome = true) {key : Nat} (hk : key / 1024 < (c.group g).budget) (v : W32) :
    ∃ bk, bk.length = (c.group g).banks.length
      ∧ (c.land1 g (.m key v)).group g = { c.group g with mat := sset 0 key v (c.group g).mat, banks := bk } := by
  obtain ⟨listed, -, -, -, woken⟩ := wakeReg_group c g (key / 1024)
  obtain ⟨bk, len, grp⟩ := woken h
  refine ⟨bk.set (key / 1024) { bk.getD (key / 1024) Bank.start with dirty := true }, by rw [List.length_set, len], ?_⟩
  unfold Core.land1
  dsimp only
  rw [if_pos hk, group_modGroup_same _ g _ (listed.trans h), grp]
  rfl

/-- One beyond it is lost. -/
theorem land1_beyond {key : Nat} (hk : ¬key / 1024 < (c.group g).budget) (v : W32) : c.land1 g (.m key v) = c := if_neg hk

theorem landed_element (h : (kget g c.groups).isSome = true) (key : Nat) (v : W32) : Landed g c (c.land1 g (.m key v)) := by
  by_cases hk : key / 1024 < (c.group g).budget
  · obtain ⟨bk, len, grp⟩ := land1_element h hk v
    obtain ⟨listed, -⟩ := wakeReg_group c g (key / 1024)
    refine ⟨?_, ?_, ?_, ?_, ?_, ?_⟩
    · unfold Core.land1
      dsimp only
      rw [if_pos hk]
      exact (congrArg (Core.modGroup · g _) (wakeReg_eq c g (key / 1024))).trans rfl
    · unfold Core.land1
      dsimp only
      rw [if_pos hk, groups_modGroup_isSome, listed]
      exact h
    all_goals rw [grp]
    · exact len
    · exact swf_sset _ _ _ _
    · exact id
  · rw [land1_beyond hk]
    exact .refl h

theorem landed_land (h : (kget g c.groups).isSome = true) {ws : List Wr} (hw : ∀ w ∈ ws, w.register = true) : Landed g c (c.land g ws) := by
  induction ws generalizing c with
  | nil => exact .refl h
  | cons w r ih =>
    obtain ⟨first, rest⟩ := List.forall_mem_cons.1 hw
    have one : Landed g c (c.land1 g w) := by
      cases w with
      | s n v => exact landed_scalar h n v
      | m key v => exact landed_element h key v
      | _ => cases first
    exact one.trans (ih one.here rest)

/-- A write that goes to no register k leaves that element alone. -/
theorem elem_land1_other (h : (kget g c.groups).isSome = true) {w : Wr} (hw : w.register = true) {k : Nat} (hk : ∀ v, w ≠ .m k v)
    (hm : swf (0 : W32) (c.group g).mat = true) : ((c.land1 g w).group g).elem k = (c.group g).elem k := by
  cases w with
  | s n v => rw [land1_scalar h]; rfl
  | m key v =>
    by_cases hb : key / 1024 < (c.group g).budget
    · obtain ⟨bk, -, grp⟩ := land1_element h hb v
      rw [grp]
      exact sget_sset_other 0 (fun e => hk v (by rw [e])) v _ hm
    · rw [land1_beyond hb]
  | _ => cases hw

theorem elem_land_other {ws : List Wr} (h : (kget g c.groups).isSome = true) (hw : ∀ w ∈ ws, w.register = true) {k : Nat}
    (hk : ∀ v, Wr.m k v ∉ ws) (hm : swf (0 : W32) (c.group g).mat = true) : ((c.land g ws).group g).elem k = (c.group g).elem k := by
  induction ws generalizing c with
  | nil => rfl
  | cons w r ih =>
    obtain ⟨first, rest⟩ := List.forall_mem_cons.1 hw
    have one : Landed g c (c.land1 g w) := landed_land (ws := [w]) h (List.forall_mem_singleton.2 first)
    have later := ih one.here rest (fun v hv => hk v (List.mem_cons_of_mem _ hv)) (one.mat hm)
    exact later.trans (elem_land1_other h first (fun v e => hk v (e ▸ List.mem_cons_self)) hm)

/-- An element within the budget holds what the one write to it has brought. -/
theorem elem_land {ws : List Wr} (h : (kget g c.groups).isSome = true) (hw : ∀ w ∈ ws, w.register = true) {k : Nat} {v : W32}
    (hv : Wr.m k v ∈ ws) (one : ∀ x, Wr.m k x ∈ ws → x = v) (hk : k / 1024 < (c.group g).budget)
    (hm : swf (0 : W32) (c.group g).mat = true) : ((c.land g ws).group g).elem k = v := by
  induction ws generalizing c with
  | nil => cases hv
  | cons w r ih =>
    obtain ⟨first, rest⟩ := List.forall_mem_cons.1 hw
    have step : Landed g c (c.land1 g w) := landed_land (ws := [w]) h (List.forall_mem_singleton.2 first)
    by_cases later : Wr.m k v ∈ r
    · exact ih step.here rest later (fun x hx => one x (List.mem_cons_of_mem _ hx)) (by unfold Group.budget; rw [step.budget]; exact hk) (step.mat hm)
    · obtain rfl : Wr.m k v = w := (List.mem_cons.1 hv).resolve_right later
      have alone (x : W32) : Wr.m k x ∉ r := fun hx => later (one x (List.mem_cons_of_mem _ hx) ▸ hx)
      refine (elem_land_other step.here rest alone (step.mat hm)).trans ?_
      obtain ⟨bk, -, grp⟩ := land1_element h hk v
      rw [grp]
      exact sget_sset_same 0 k v _ hm

/-- A scalar that is written last holds what was written. -/
theorem sreg_land {ws : List Wr} (h : (kget g c.groups).isSome = true) (hw : ∀ w ∈ ws, w.register = true) (r : Nat) (v : W64)
    (hs : swf (0 : W64) (c.group g).sregs = true) : ((c.land g (ws ++ [.s r v])).group g).sreg r = v := by
  have before := landed_land h hw
  have last : c.land g (ws ++ [.s r v]) = (c.land g ws).land1 g (.s r v) := List.foldl_append ..
  rw [last, land1_scalar before.here]
  exact sget_sset_same 0 r v _ (before.sregs hs)

end

/-! ### The banks that results reach (R119) -/

theorem wakeReg_congr {c d : Core} (hg : c.groups = d.groups) (hc : c.clk = d.clk) (g i : Nat) :
    (c.wakeReg g i).groups = (d.wakeReg g i).groups ∧ (c.wakeReg g i).clk = (d.wakeReg g i).clk := by
  have same : c.group g = d.group g := by unfold Core.group; rw [hg]
  unfold Core.wakeReg
  rw [same, hc]
  split
  · exact ⟨congrArg (kmod g _) hg, hc⟩
  · exact ⟨hg, hc⟩

/-- How long results wait for their banks depends on the groups of the core and its clk alone. -/
theorem wakeRegs_congr {c d : Core} (hg : c.groups = d.groups) (hc : c.clk = d.clk) (g : Nat) (ms : List Nat) :
    (c.wakeRegs g ms).2 = (d.wakeRegs g ms).2 := by
  have woken (l : List Nat) : (l.foldl (fun c m => c.wakeReg g m) c).groups = (l.foldl (fun c m => c.wakeReg g m) d).groups
      ∧ (l.foldl (fun c m => c.wakeReg g m) c).clk = (l.foldl (fun c m => c.wakeReg g m) d).clk := by
    induction l generalizing c d with
    | nil => exact ⟨hg, hc⟩
    | cons m r ih => exact ih (wakeReg_congr hg hc g m).1 (wakeReg_congr hg hc g m).2
  obtain ⟨groups, clk⟩ := woken ms
  have bank (m : Nat) : ((ms.foldl (fun c m => c.wakeReg g m) c).group g).bank m = ((ms.foldl (fun c m => c.wakeReg g m) d).group g).bank m := by
    unfold Core.group
    rw [groups]
  unfold Core.wakeRegs
  rw [hg]
  dsimp only
  split
  · rfl
  · simp only [bank, clk]

/-! ### The end of a command -/

theorem hasGroup_parts {s : State} {c g : Nat} (h : s.hasGroup c g = true) :
    g < ghostBase ∧ (kget c s.cores).isSome = true ∧ (kget g (s.core c).groups).isSome = true := by
  simp only [State.hasGroup, Bool.and_eq_true, decide_eq_true_eq] at h
  exact ⟨h.1.1, h.1.2, h.2⟩

/-- A group's results have landed in t, at once, from core k: counter n has fallen. -/
structure Reached (s : State) (k : Core) (c g n : Nat) (ws : List Wr) (t : State) : Prop where
  rest : t = { s with cores := t.cores }
  here : (kget c t.cores).isSome = true
  core : t.core c = (k.land g ws).modGroup g (·.modCtr n (· - 1))

/-- Where every bank is awake, results land at once and their counter falls (R119). -/
theorem landReg_awake {s : State} {c g n : Nat} {ms : List Nat} {ws : List Wr} {k : Core} (hg : g < ghostBase)
    (hc : (kget c s.cores).isSome = true) (awake : (k.wakeRegs g ms).2 = 0) :
    Reached s k c g n ws ((s.modCore c (fun _ => k)).landReg c g n ms ws) := by
  have here : (kget c (s.modCore c (fun _ => k)).cores).isSome = true := (cores_modCore_isSome ..).trans hc
  have core : (s.modCore c (fun _ => k)).core c = k := core_modCore_same s c _ hc
  have landed : ((s.modCore c (fun _ => k)).modCore c (·.land g ws)).core c = k.land g ws := by
    rw [core_modCore_same _ c _ here, core]
  have eq : (s.modCore c (fun _ => k)).landReg c g n ms ws
      = ((s.modCore c (fun _ => k)).modCore c (·.land g ws)).modGroup c g (·.modCtr n (· - 1)) := by
    unfold State.landReg
    dsimp only
    rw [core, if_pos awake]
    exact if_pos hg
  have there : (kget c ((s.modCore c (fun _ => k)).modCore c (·.land g ws)).cores).isSome = true := (cores_modCore_isSome ..).trans here
  rw [eq]
  refine ⟨rfl, (cores_modCore_isSome ..).trans there, ?_⟩
  exact (core_modCore_same _ c _ there).trans (by rw [landed])

namespace Reached

variable {s t : State} {k : Core} {c g n : Nat} {ws : List Wr}

theorem mem (h : Reached s k c g n ws t) : t.mem = s.mem := by rw [h.rest]

section
variable (h : Reached s k c g n ws t) (hk : (kget g k.groups).isSome = true) (hw : ∀ w ∈ ws, w.register = true)
include h hk hw

theorem group : t.group c g = ((k.land g ws).group g).modCtr n (· - 1) := by
  show (t.core c).group g = _
  rw [h.core]
  exact group_modGroup_same _ g _ (landed_land hk hw).here

/-- Nothing of the core but groups and its charge for wakes depends on the landing. -/
theorem core_eq : t.core c = { k with groups := (t.core c).groups, wakes := (t.core c).wakes } := by
  rw [h.core]
  exact (congrArg (Core.modGroup · g (·.modCtr n (· - 1))) (landed_land hk hw).rest).trans rfl

theorem falls (same : (k.group g).ctrs = (s.group c g).ctrs) : Falls s t c g n := by
  unfold Falls
  rw [h.group hk hw, (landed_land hk hw).grp]
  show (k.group g).ctrs.set n ((k.group g).ctrs.getD n 0 - 1) = _
  rw [same]

/-- An element that one write reaches. -/
theorem elem {key : Nat} {v : W32} (hv : Wr.m key v ∈ ws) (one : ∀ x, Wr.m key x ∈ ws → x = v) (hb : key / 1024 < (k.group g).budget)
    (hm : swf (0 : W32) (k.group g).mat = true) : (t.group c g).elem key = v := by
  rw [h.group hk hw]
  exact elem_land hk hw hv one hb hm

end

/-- A scalar that is written last. -/
theorem sreg {r : Nat} {v : W64} (h : Reached s k c g n (ws ++ [.s r v]) t) (hk : (kget g k.groups).isSome = true)
    (hw : ∀ w ∈ ws, w.register = true) (hs : swf (0 : W64) (k.group g).sregs = true) : (t.group c g).sreg r = v := by
  have all : ∀ w ∈ ws ++ [.s r v], w.register = true := List.forall_mem_append.2 ⟨hw, List.forall_mem_singleton.2 rfl⟩
  rw [h.group hk all]
  exact sreg_land hk hw r v hs

end Reached

end Sys2Proof.Machine
end

section

/-! A rotator command completes (R184 to R193): what it leaves of its tile, and what reaches registers. -/

namespace Sys2Proof.Machine

/-! ### What a command acts on (R184) -/

/-- A core's rotator, its buffers and their banks may have changed, and its charge for wakes. -/
def RotRan (c d : Core) : Prop := d = { c with rot := d.rot, buf := d.buf, scratch := d.scratch, wakes := d.wakes }

namespace RotRan

variable {c d e : Core}

theorem refl (c : Core) : RotRan c c := rfl
theorem trans (a : RotRan c d) (b : RotRan d e) : RotRan c e := by
  unfold RotRan at *
  rw [b, a]
theorem groups (h : RotRan c d) : d.groups = c.groups := by rw [h]
theorem clk (h : RotRan c d) : d.clk = c.clk := by rw [h]

/-- Steps that carry results along with the core. -/
theorem foldl {α β : Type} {core : β → Core} {f : β → α → β} (hf : ∀ x i, RotRan (core x) (core (f x i))) (l : List α) (x : β) :
    RotRan (core x) (core (l.foldl f x)) :=
  List.foldlRecOn (motive := fun y => RotRan (core x) (core y)) l f (.refl _) fun y hy i _ => hy.trans (hf y i)

end RotRan

theorem rotRan_wakeScratch (c : Core) (i : Nat) : RotRan c (c.wakeScratch i) := by
  unfold Core.wakeScratch
  split <;> rfl

theorem rotRan_wakeFor (c : Core) (bs : List Nat) : RotRan c (c.wakeFor bs).1 := .foldl (core := id) rotRan_wakeScratch bs c

theorem rotRan_bufWrite (b : Nat) (l : List Byte) (off : Nat) (c : Core) : RotRan c (c.bufWrite b off l) := by
  induction l generalizing c off with
  | nil => exact .refl c
  | cons v r ih =>
    have woken := rotRan_wakeScratch c (bufBase b + off / 65536)
    have put : RotRan (c.wakeScratch (bufBase b + off / 65536)) (c.bufPut b off v) := rfl
    exact (woken.trans put).trans (ih _ _)

theorem rotRan_putF32s (c : Core) (off : Nat) (l : List Nat) : RotRan c (c.putF32s off l) := rotRan_bufWrite ..
theorem rotRan_rotSticky (c : Core) : RotRan c c.rotSticky := rfl

theorem rotRan_feedRow (c : Core) (bf lg : Bool) (a : List Nat) (n i : Nat) : RotRan c (c.feedRow bf lg a n i).1 := by
  have logged (t : Rotator) (off : Nat) (l : List Nat) : RotRan c (if lg then Core.putF32s { c with rot := t } off l else { c with rot := t }) := by
    have turned : RotRan c { c with rot := t } := rfl
    split
    · exact turned.trans (rotRan_putF32s ..)
    · exact turned
  unfold Core.feedRow
  exact iteInduction (motive := fun p : Core × Nat × Nat => RotRan c p.1) (fun _ => logged ..) fun _ => logged ..

theorem rotRan_runFeed (c : Core) (bf lg : Bool) (a : List Nat) (n h : Nat) : RotRan c (c.runFeed bf lg a n h).1 := by
  unfold Core.runFeed
  refine .foldl (core := Prod.fst) (fun x i => ?_) _ ((c, 0, 0) : Core × Nat × Nat)
  exact rotRan_feedRow x.1 bf lg a n i

theorem rotRan_applyRow (c : Core) (a : List Nat) (k n i : Nat) (ws : List Nat) : RotRan c (c.applyRow a k n i ws) := by
  have marked : RotRan c (if (ws.take n).any angBad then c.rotSticky else c) := by
    split
    · exact rotRan_rotSticky c
    · exact .refl c
  unfold Core.applyRow
  dsimp only
  generalize (if (ws.take n).any angBad then c.rotSticky else c) = m at marked
  split
  · exact (marked.trans (rotRan_putF32s ..)).trans (rotRan_rotSticky _)
  · refine (marked.trans ?_).trans (rotRan_putF32s ..)
    exact .foldl (core := Prod.fst) (fun p r => rotRan_putF32s p.1 _ _) _ (m, _)

theorem rotRan_runApply (c : Core) (lg : Bool) (a : List Nat) (k h n : Nat) : RotRan c (c.runApply lg a k h n) :=
  .foldl (core := id) (fun c i => rotRan_applyRow c a k n i _) _ c

theorem rotRan_runGrot (c : Core) (e : Nat) (a : List Nat) (p h : Nat) : RotRan c (c.runGrot e a p h) := by
  refine .foldl (core := id) (fun c i => ?_) _ c
  dsimp only [id]
  split
  · exact (rotRan_putF32s ..).trans (rotRan_rotSticky _)
  · exact rotRan_putF32s ..

theorem rotRan_runRot (c : Core) (q : Cmd) : RotRan c (c.runRot q) := by
  unfold Core.runRot
  split
  · exact rotRan_runFeed ..
  · exact rotRan_runApply ..
  · exact rotRan_runApply ..
  · exact rotRan_putF32s ..
  · exact .refl _
  · exact .refl _
  · exact .refl _
  · exact .refl _
  · exact rotRan_runGrot ..
  · exact .refl c

/-! ### The rotator's state after a command (R184, R188, R189) -/

theorem row_zero (t : Rotator) (n : Nat) : (t.zero.row n).m = List.replicate 64 0 := rfl
theorem ang_zero (t : Rotator) (k : Nat) : t.zero.ang k = angId := rfl

theorem gainDef_defers (t : Rotator) : t.gainDef.deferred = true ∧ t.gainDef.rows = t.rows := by
  unfold Rotator.gainDef
  split
  · exact ⟨‹_›, rfl⟩
  · exact ⟨rfl, rfl⟩

theorem gainImm_folds (t : Rotator) : t.gainImm.deferred = false := by
  unfold Rotator.gainImm
  split
  next h => simpa using h
  next => rfl

/-- A pair of a list and its places. -/
theorem mem_range_zip {α : Type} {l : List α} {n i : Nat} {v : α} : (i, v) ∈ (List.range n).zip l ↔ i < n ∧ l[i]? = some v := by
  constructor
  · intro h
    obtain ⟨j, hj, e⟩ := List.getElem_of_mem h
    rw [List.getElem_zip, List.getElem_range, Prod.mk.injEq] at e
    obtain ⟨rfl, rfl⟩ := e
    rw [List.length_zip, List.length_range] at hj
    exact ⟨by omega, List.getElem?_eq_getElem _⟩
  · rintro ⟨hn, hv⟩
    obtain ⟨hi, rfl⟩ := List.getElem?_eq_some_iff.1 hv
    have here : i < ((List.range n).zip l).length := by
      rw [List.length_zip, List.length_range]
      omega
    have place : ((List.range n).zip l)[i] = (i, l[i]) := by rw [List.getElem_zip, List.getElem_range]
    exact place ▸ List.getElem_mem here

/-- The angle store holds the words that were loaded. -/
theorem ang_setAngs (t : Rotator) {l : List Nat} {k v : Nat} (hk : k < 64) (hv : l[k]? = some v) (word : v < 2 ^ 32) :
    (t.setAngs l).ang k = v := by
  have place : (k, v) ∈ (List.range 64).zip l := mem_range_zip.2 ⟨hk, hv⟩
  have loaded : sget (BitVec.ofNat 32 angId) k (t.setAngs l).angles = BitVec.ofNat 32 v :=
    sget_foldl_sset_mem (key := Prod.fst) (val := fun p : Nat × Nat => BitVec.ofNat 32 p.2) place
      (fun x hx e => by
        obtain ⟨j, w⟩ := x
        obtain rfl : k = j := e
        rw [Prod.mk.injEq, ← Option.some.injEq v w, ← hv, (mem_range_zip.1 hx).2]
        exact ⟨rfl, rfl⟩) rfl
  unfold Rotator.ang
  rw [loaded, BitVec.toNat_ofNat, Nat.mod_eq_of_lt word]

/-- ANGIN of words loads them, the identity word in place of a malformed one. -/
theorem ang_angIns (t : Rotator) {l : List W32} {k : Nat} (hk : k < 64) (hl : k < l.length) :
    (t.angIns false (l.map BitVec.toNat)).ang k = if angBad (l.getD k 0).toNat then angId else (l.getD k 0).toNat := by
  have word : ((l.map BitVec.toNat).map (angIn false)).map Prod.fst = l.map fun x => if angBad x.toNat then angId else x.toNat := by
    rw [List.map_map, List.map_map]
    refine List.map_congr_left fun x _ => ?_
    show (if angBad x.toNat then (angId, true) else (x.toNat, false)).1 = _
    split <;> rfl
  have at_ : l[k]? = some (l.getD k 0) := by simp [List.getD_eq_getElem?_getD, hl]
  refine ang_setAngs t hk ?_ ?_
  · rw [word, List.getElem?_map, at_]
    rfl
  · split
    · decide
    · exact (l.getD k 0).isLt

/-! ### What reaches registers (R187, R189) -/

theorem rotWrites_register (c : Core) (q : Cmd) : ∀ w ∈ c.rotWrites q, w.register = true := by
  intro w hw
  unfold Core.rotWrites at hw
  split at hw
  · obtain ⟨i, -, hi⟩ := List.mem_flatMap.1 hw
    obtain ⟨j, -, rfl⟩ := List.mem_map.1 hi
    rfl
  · rw [List.mem_singleton.1 hw]
    rfl
  · obtain ⟨k, -, rfl⟩ := List.mem_map.1 hw
    rfl
  · cases hw

/-- The key of an element names its register, row and column. -/
theorem elemKey_inj {m r c r' c' : Nat} (hc : c < 32) (hc' : c' < 32) (h : elemKey m r c = elemKey m r' c') : r = r' ∧ c = c' := by
  unfold elemKey at h
  omega
theorem elemKey_bank {m r c : Nat} (hr : r < 32) (hc : c < 32) : elemKey m r c / 1024 = m := by
  unfold elemKey
  omega

/-- QRREAD writes each entry of its block once. -/
theorem block_write {f : Nat → Nat → W32} {m i j : Nat} (hi : i < 32) (hj : j < 32) :
    let ws := (List.range 32).flatMap (fun i => (List.range 32).map (fun j => Wr.m (elemKey m i j) (f i j)))
    Wr.m (elemKey m i j) (f i j) ∈ ws ∧ ∀ x, Wr.m (elemKey m i j) x ∈ ws → x = f i j := by
  refine ⟨List.mem_flatMap.2 ⟨i, List.mem_range.2 hi, List.mem_map.2 ⟨j, List.mem_range.2 hj, rfl⟩⟩, fun x hx => ?_⟩
  obtain ⟨i', -, hx⟩ := List.mem_flatMap.1 hx
  obtain ⟨j', hj', e⟩ := List.mem_map.1 hx
  rw [Wr.m.injEq] at e
  obtain ⟨rfl, rfl⟩ := elemKey_inj (List.mem_range.1 hj') hj e.1
  exact e.2.symm

/-- ANGOUT writes each word of its two rows once. -/
theorem rows_write {f : Nat → W32} {m r k : Nat} (hk : k < 64) :
    let ws := (List.range 64).map (fun k => Wr.m (elemKey m (r + k / 32) (k % 32)) (f k))
    Wr.m (elemKey m (r + k / 32) (k % 32)) (f k) ∈ ws ∧ ∀ x, Wr.m (elemKey m (r + k / 32) (k % 32)) x ∈ ws → x = f k := by
  refine ⟨List.mem_map.2 ⟨k, List.mem_range.2 hk, rfl⟩, fun x hx => ?_⟩
  obtain ⟨k', -, e⟩ := List.mem_map.1 hx
  rw [Wr.m.injEq] at e
  obtain ⟨row, col⟩ := elemKey_inj (Nat.mod_lt _ (by decide)) (Nat.mod_lt _ (by decide)) e.1
  obtain rfl : k' = k := by omega
  exact e.2.symm

/-! ### The completion (R192, R193) -/

/-- A core whose rotator's head command has acted: its reservations are gone, and the next command begins. -/
def Core.rotDone (c : Core) (q : Cmd) (r : List Cmd) : Core := { ((c.runRot q).release q.id) with rotQ := r }.rotBegin

theorem rotDone_eq (c : Core) (q : Cmd) (r : List Cmd) : c.rotDone q r = { c with
    rot := (c.runRot q).rot, buf := (c.runRot q).buf, scratch := (c.runRot q).scratch, wakes := (c.runRot q).wakes,
    resv := c.resv.filter (fun y => y.cmd != q.id), rotQ := (c.rotDone q r).rotQ } := by
  have ran := rotRan_runRot c q
  unfold Core.rotDone
  rw [rotBegin_eq]
  unfold Core.release
  rw [ran]

theorem rotDone_ids (c : Core) (q : Cmd) (r : List Cmd) : (c.rotDone q r).rotQ.map Cmd.id = r.map Cmd.id := rotBegin_ids _

theorem rotDone_groups (c : Core) (q : Cmd) (r : List Cmd) : (c.rotDone q r).groups = c.groups := by rw [rotDone_eq]
theorem rotDone_group (c : Core) (q : Cmd) (r : List Cmd) (g : Nat) : (c.rotDone q r).group g = c.group g := by
  unfold Core.group
  rw [rotDone_groups]

/-- The head command that is due acts as a whole once its banks are awake. -/
theorem rot_completes {s : State} {core : Nat} {q : Cmd} {r : List Cmd} (hq : (s.core core).rotQ = q :: r) (due : q.due ≤ (s.core core).eclk)
    (hg : s.hasGroup core q.gid = true)
    (banks : ((s.core core).wakeFor ((rotSpans q.op q.args).2.flatMap Span.banks)).2 = 0)
    (regs : (((s.core core).wakeFor ((rotSpans q.op q.args).2.flatMap Span.banks)).1.wakeRegs q.gid (rotRegs q.op)).2 = 0) :
    ∃ t, exec (.rotatorCommandComplete core q.id) s = .next t
      ∧ Reached s ((s.core core).rotDone q r) core q.gid 3 ((s.core core).rotWrites q) t := by
  obtain ⟨resident, listed, -⟩ := hasGroup_parts hg
  have woken := rotRan_wakeFor (s.core core) ((rotSpans q.op q.args).2.flatMap Span.banks)
  have awake : (((s.core core).rotDone q r).wakeRegs q.gid (rotRegs q.op)).2 = 0 := by
    refine (wakeRegs_congr ?_ ?_ _ _).trans regs
    · rw [rotDone_groups, woken.groups]
    · rw [woken.clk, rotDone_eq]
  refine ⟨_, ?_, landReg_awake resident listed awake⟩
  show execRotatorCommandComplete core q.id s = _
  have head : (q.id != q.id || decide ((s.core core).eclk < q.due)) = false := by
    rw [bne_self_eq_false, Bool.false_or, decide_eq_false_iff_not]
    exact Nat.not_lt.2 due
  unfold execRotatorCommandComplete
  dsimp only
  rw [hq]
  dsimp only
  rw [head, if_neg Bool.false_ne_true, banks]
  rfl

/-- Settles O40: a command is taken with what it captures, and the head command that is due acts as `runRot` says, each of the clauses
being one case of that function or of its register results. -/
theorem rotatorResults : Obligations.RotatorResults := by
  unfold Obligations.RotatorResults
  refine ⟨fun s i hr h ha => ?accepted, ?completes⟩
  case accepted =>
    refine (rot_accepted hr h ha).imp fun t ⟨taken, start, due, stands, begins⟩ => ⟨taken, _, stands, rfl, rfl, rfl, rfl, begins, ?_⟩
    rintro g rad m n rfl
    rfl
  case completes =>
    intro s core id q r hq hid due hg c w banks regs
    subst hid
    obtain ⟨t, step, reached⟩ := rot_completes hq due hg banks regs
    obtain ⟨-, -, listed⟩ := hasGroup_parts hg
    have here : (kget q.gid (c.rotDone q r).groups).isSome = true := by rw [rotDone_groups]; exact listed
    have writes := rotWrites_register c q
    have same := rotDone_group c q r q.gid
    have core_eq := reached.core_eq here writes
    have rot : (t.core core).rot = (c.runRot q).rot := by rw [core_eq, rotDone_eq]
    have budget (m : Nat) : m < (c.group q.gid).budget → m < ((c.rotDone q r).group q.gid).budget := by rw [same]; exact id
    refine ⟨t, step, reached.mem, ?_, reached.falls here writes (by rw [same]; rfl), ?_, rot, ?_, ?qrzero, ?qrgainDef, ?qrgainImm, ?angin,
      ?qrreadSt, ?qrread, ?angout⟩
    · rw [core_eq]
      exact rotDone_ids c q r
    · rw [core_eq, rotDone_eq]
    · rw [core_eq, rotDone_eq]
    case qrzero =>
      intro g op
      have ran : (c.runRot q).rot = c.rot.zero := by unfold Core.runRot; rw [op]
      rw [rot, ran]
      exact ⟨rfl, rfl, row_zero _, ang_zero _⟩
    case qrgainDef =>
      intro g op
      have ran : (c.runRot q).rot = c.rot.gainDef := by unfold Core.runRot; rw [op]
      rw [rot, ran]
      exact gainDef_defers _
    case qrgainImm =>
      intro g op
      have ran : (c.runRot q).rot = c.rot.gainImm := by unfold Core.runRot; rw [op]
      rw [rot, ran]
      exact gainImm_folds _
    case angin =>
      intro g rad m i op k hk hl v words
      subst words
      have ran : (c.runRot q).rot = c.rot.angIns false (q.data.map BitVec.toNat) := by unfold Core.runRot; rw [op]
      rw [rot, ran]
      exact ang_angIns _ hk hl
    case qrreadSt =>
      intro g sx op canonical
      have ws : c.rotWrites q = [] ++ [.s sx.val (BitVec.ofNat 64 c.rot.status)] := by unfold Core.rotWrites; rw [op]; rfl
      exact Reached.sreg (ws := []) (ws ▸ reached) here (fun _ h => nomatch h) (by rw [same]; exact canonical)
    case qrread =>
      intro g b sx m op canonical within i j hi hj
      have ws : c.rotWrites q = (List.range 32).flatMap (fun i => (List.range 32).map (fun j =>
          Wr.m (elemKey m.val i j) (BitVec.ofNat 32 (c.rot.blk b.val i j)))) := by unfold Core.rotWrites; rw [op]
      obtain ⟨written, one⟩ := block_write (f := fun i j => BitVec.ofNat 32 (c.rot.blk b.val i j)) (m := m.val) hi hj
      refine reached.elem here writes (ws ▸ written) (ws ▸ one) ?_ (by rw [same]; exact canonical)
      rw [elemKey_bank hi hj]
      exact budget _ within
    case angout =>
      intro g m i op canonical within low k hk
      have ws : c.rotWrites q = (List.range 64).map (fun k =>
          Wr.m (elemKey m.val (i.val + k / 32) (k % 32)) (BitVec.ofNat 32 (c.rot.ang k))) := by unfold Core.rotWrites; rw [op]; rfl
      obtain ⟨written, one⟩ := rows_write (f := fun k => BitVec.ofNat 32 (c.rot.ang k)) (m := m.val) (r := i.val) hk
      refine reached.elem here writes (ws ▸ written) (ws ▸ one) ?_ (by rw [same]; exact canonical)
      rw [elemKey_bank (by omega) (Nat.mod_lt _ (by decide))]
      exact budget _ within

end Sys2Proof.Machine
end

section

/-! SUPPORT. Reads through a core's path that draw free values (R198 to R204, R244): what a texture command and a traversal leave as it was. -/

namespace Sys2Proof.Machine

/-- A core that has been read through: the lines of its path, their errors, its TLB and its event counters may be others. -/
def PathRead (c d : Core) : Prop := d = { c with lines := d.lines, badL1 := d.badL1, tlb := d.tlb, perf := d.perf, perfClk := d.perfClk }

/-- What reads through a core's path may change: memory as it settles and its copies, the paths of cores, and the count of free values. -/
structure Loads (s t : State) : Prop where
  rest : t = { s with mem := t.mem, hostL2 := t.hostL2, exact := t.exact, free := t.free, cores := t.cores }
  here : ∀ d, (kget d t.cores).isSome = (kget d s.cores).isSome
  core : ∀ d, PathRead (s.core d) (t.core d)

namespace Loads

variable {s t u : State}

theorem refl (s : State) : Loads s s := ⟨rfl, fun _ => rfl, fun _ => rfl⟩
theorem trans (a : Loads s t) (b : Loads t u) : Loads s u where
  rest := by rw [b.rest, a.rest]
  here d := (b.here d).trans (a.here d)
  core d := by
    have first := a.core d
    have second := b.core d
    unfold PathRead at *
    rw [second, first]
theorem of_memory (h : MemoryOnly s t) : Loads s t := ⟨by rw [h.rest], h.here, h.core⟩
theorem draw (s : State) (n : Nat) : Loads s { s with free := n } := ⟨rfl, fun _ => rfl, fun _ => rfl⟩

theorem foldl {α β : Type} {at_ : β → State} {f : β → α → β} (hf : ∀ x i, Loads (at_ x) (at_ (f x i))) (l : List α) (x : β) :
    Loads (at_ x) (at_ (l.foldl f x)) :=
  List.foldlRecOn (motive := fun y => Loads (at_ x) (at_ y)) l f (.refl _) fun y hy i _ => hy.trans (hf y i)

theorem cur (h : Loads s t) : t.cur = s.cur := by rw [h.rest]
theorem fresh (h : Loads s t) : t.fresh = s.fresh := by rw [h.rest]
theorem groups (h : Loads s t) (d : Nat) : (t.core d).groups = (s.core d).groups := by rw [h.core d]
theorem group (h : Loads s t) (d g : Nat) : t.group d g = s.group d g := by
  unfold State.group Core.group
  rw [h.groups]
theorem curGrp (h : Loads s t) : t.curGrp = s.curGrp := by
  unfold State.curGrp
  rw [h.cur, h.group]
theorem curCore (h : Loads s t) : PathRead s.curCore t.curCore := by
  unfold State.curCore
  rw [h.cur]
  exact h.core _
theorem live (h : Loads s t) : t.live = s.live := live_of_here h.cur (h.here _) (by rw [h.groups])

end Loads

/-! ### Reads of global memory (R207, R232, R244) -/

theorem memoryOnly_readHome (s : State) (c pa n ty : Nat) : MemoryOnly s (s.readHome c pa n ty).2 := by
  unfold State.readHome
  split
  · exact memoryOnly_homeRead ..
  · split
    · exact (memoryOnly_dropLine ..).trans (memoryOnly_homeRead ..)
    · exact memoryOnly_homeRead ..

theorem memoryOnly_loadG (s : State) (c launch pa n scope ty : Nat) : MemoryOnly s (s.loadG c launch pa n scope ty).2 := by
  unfold State.loadG
  dsimp only
  split
  · split
    · exact memoryOnly_bump ..
    · exact (((memoryOnly_bump s c 6 1).trans (memoryOnly_homeRead ..)).trans (memoryOnly_noteBad ..)).trans (memoryOnly_addLine ..)
  · exact memoryOnly_readHome ..

theorem loads_loadSpan (s : State) (c launch pa n scope ty : Nat) : Loads s (s.loadSpan c launch pa n scope ty).2 := by
  unfold State.loadSpan
  refine .foldl (at_ := Prod.snd) (fun x i => ?_) _ (([], s) : List Byte × State)
  exact .of_memory (memoryOnly_loadG x.2 ..)

theorem memoryOnly_texBytes (s : State) (va n : Nat) : MemoryOnly s (s.texBytes va n).2 := by
  have walked := memoryOnly_settleWalk s (coreDie s.cur.core) s.root (va % 2 ^ 56)
  unfold State.texBytes
  dsimp only
  split
  · exact walked.trans (memoryOnly_loadG ..)
  · exact walked

theorem memoryOnly_texRead (t : Tex) (l : Nat) (cs : List (Nat × Nat)) (s : State) : MemoryOnly s (s.texRead t l cs).2 := by
  induction cs generalizing s with
  | nil => exact .refl s
  | cons c r ih => exact (memoryOnly_texBytes s _ _).trans (ih _)

/-! ### The traversal (R198 to R200) -/

namespace TraceEnv

variable (e : TraceEnv)

theorem loads_read {s : State} {va n : Nat} {b : List Byte × State} (h : e.read s va n = .ok b) : Loads s b.2 := by
  have walked := (Loads.of_memory (memoryOnly_settleWalk s (coreDie e.core) e.root (va % 2 ^ 56))).trans
    (.of_memory (memoryOnly_settleWalk _ (coreDie e.core) e.root ((va + n - 1) % 2 ^ 56)))
  unfold TraceEnv.read at h
  dsimp only at h
  split at h
  · cases h
  · cases h
  · rw [← Except.ok.inj h]
    exact (walked.trans (loads_loadSpan ..)).trans (loads_loadSpan ..)

theorem loads_texels (x : Tex) (cs : List (Nat × Nat)) {s : State} {b : List (List Nat) × State} (h : e.texels x s cs = .ok b) : Loads s b.2 := by
  induction cs generalizing s b with
  | nil => rw [← Except.ok.inj h]; exact .refl s
  | cons c r ih =>
    unfold TraceEnv.texels at h
    split at h
    · cases h
    · rename_i read
      split at h
      · cases h
      · rename_i rest
        have tail := ih rest
        rw [← Except.ok.inj h]
        exact (e.loads_read read).trans tail

theorem loads_alpha {s : State} {leaf : List Byte} {u v : Nat} {b : Nat × State} (h : e.alpha s leaf u v = .ok b) : Loads s b.2 := by
  unfold TraceEnv.alpha at h
  dsimp only at h
  split at h
  · cases h
  split at h
  · cases h
  rename_i read
  have descriptor := e.loads_read read
  split at h
  · cases h
  split at h
  · rw [← Except.ok.inj h]
    exact descriptor
  split at h
  · cases h
  · rename_i texels
    rw [← Except.ok.inj h]
    exact (descriptor.trans (e.loads_texels _ _ texels)).trans (.draw _ _)

theorem loads_triLeaf (t : Trav) (r : Ray) (inst va : Nat) : Loads t.s (e.triLeaf t r inst va).s := by
  unfold TraceEnv.triLeaf
  split
  · exact .refl _
  rename_i read
  have leaf := e.loads_read read
  dsimp only
  split
  · exact leaf
  split
  · exact leaf
  split
  · exact leaf
  · rename_i alpha
    split <;> exact leaf.trans (e.loads_alpha alpha)

theorem loads_procLeaf (t : Trav) (r : Ray) (inst va entry : Nat) : Loads t.s (e.procLeaf t r inst va entry).s := by
  unfold TraceEnv.procLeaf
  split
  · exact .refl _
  rename_i read
  have leaf := e.loads_read read
  dsimp only
  split
  · exact leaf
  · split <;> exact leaf

section
variable {rec : Trav → Ray → Bool → Nat → Nat → Trav} (hr : ∀ t r top inst va, Loads t.s (rec t r top inst va).s)
include hr

theorem loads_child (f : TraceFrame) (t : Trav) (c : Nat) : Loads t.s (e.child rec f t c).s := by
  unfold TraceEnv.child
  dsimp only
  split
  · exact .refl _
  split
  · exact .refl _
  split
  · exact .refl _
  split
  · exact hr ..
  split
  · exact e.loads_triLeaf ..
  split
  · exact e.loads_procLeaf ..
  split
  · exact .refl _
  split
  · exact .refl _
  · rename_i read
    have instance_ := e.loads_read read
    split
    · exact instance_
    · exact instance_.trans (hr { t with s := _ } ..)

theorem loads_children (f : TraceFrame) (t : Trav) : Loads t.s (e.children rec f t).s := by
  refine .foldl (at_ := Trav.s) (fun t c => ?_) _ t
  split
  · exact .refl _
  dsimp only
  split
  · exact e.loads_child hr ..
  · exact e.loads_child hr ..

end

theorem loads_visit (n : Nat) (t : Trav) (r : Ray) (top : Bool) (inst va : Nat) : Loads t.s (e.visit n t r top inst va).s := by
  induction n generalizing t r top inst va with
  | zero => exact .refl _
  | succ n ih =>
    unfold TraceEnv.visit
    split
    · exact .refl _
    split
    · exact .refl _
    · rename_i read
      exact (e.loads_read read).trans (e.loads_children ih _ { t with s := _ })

theorem loads_resume (l : List TraceFrame) (t : Trav) : Loads t.s (e.resume l t).s := by
  refine .foldl (at_ := Trav.s) (fun t f => ?_) _ t
  split
  · exact .refl _
  · exact e.loads_children (e.loads_visit _) ..

theorem loads_lane (s : State) (root : Nat) (w : List W32) (reports : List (List W32)) (l : TraceLane) :
    Loads s (e.lane s root w reports l).1 := by
  unfold TraceEnv.lane
  dsimp only
  split
  · exact .draw _ _
  have goes (t : Trav) : Loads t.s (if l.frames.isEmpty then e.visit 64 t (rayOf w) true (Config.noInstance % 2 ^ 32) root
      else e.resume l.frames t).s := by
    split
    · exact e.loads_visit ..
    · exact e.loads_resume ..
  have ran := goes { s := s, best := l.best, reports := reports, stop := none, path := [] }
  split
  · exact ran.trans (.draw _ _)
  · exact ran
  · exact ran
  · split
    · exact ran
    · exact ran.trans (.draw _ _)

theorem loads_lanes (l : List Nat) (s : State) (p : Parked) : Loads s (e.lanes s p l).1 := by
  induction l generalizing s p with
  | nil => exact .refl s
  | cons j r ih =>
    unfold TraceEnv.lanes
    dsimp only
    split
    · exact ih ..
    split
    · exact e.loads_lane ..
    · exact (e.loads_lane ..).trans (ih ..)

end TraceEnv

end Sys2Proof.Machine
end

section

/-! RAST, TRACE, TEXS and TEXG join the queue of the shader engines (R195 to R206, R366): what each captures. -/

namespace Sys2Proof.Machine

/-! ### The queue of the shader engines (R206) -/

/-- A command at the end of a core's queue of shader-engine commands. -/
def Core.takesGfx (k : Core) (q : Cmd) : Core := { k with gfxQ := k.gfxQ ++ [q] }

theorem gfxSend_takes (s : State) (op : Instr) (act : W32) (args : List Nat) (data : List W32) (n wall : Nat) : s.gfxSend op act args data n wall =
    s.takes 5 (·.takesGfx { (s.cmdOf op args act data s.curCore.eclk (s.curCore.eclk + n)) with wall := wall }) := rfl

/-- Counter 5 holds a command back and changes nothing. -/
theorem holdGfx_keeps (s : State) : (holdGfx s).2 = s := rfl

/-- The queue once a command has been taken by a state whose core has the queue of the issue. -/
theorem Done.gfxQ {s a t : State} {q : Cmd} (hd : Done s (a.takes 5 (·.takesGfx q)) t) (hl : a.live = true)
    (same : a.curCore.gfxQ = s.curCore.gfxQ) : (s.coreIn t).gfxQ = s.curCore.gfxQ ++ [q] := by
  rw [hd.taken hl fun _ => rfl]
  show a.curCore.gfxQ ++ [q] = _
  rw [same]

theorem Done.parked {s a t : State} {n : Nat} {f : Core → Core} (hd : Done s (a.takes n f) t) (hl : a.live = true)
    (hf : ∀ k, (f k).groups = k.groups) : (s.groupIn t).parked = a.curGrp.parked := by
  rw [hd.grp, curGrp_takes hl hf]
  rfl

theorem Begun.gfxQ {s b : State} (h : Begun s b) : b.curCore.gfxQ = s.curCore.gfxQ := by rw [h.core]

/-! ### RAST (R195, R197, R366) -/

section
variable {s : State} {g : Guard} {m : Fin 16} {sv sc st : SReg}

theorem Begun.rastArgs {b : State} (h : Begun s b) (sv sc st : SReg) : b.rastArgs sv sc st = s.rastArgs sv sc st := by
  unfold State.rastArgs
  simp only [h.sr]

/-- Statistics alone count a submission. -/
theorem rastStat_eq (s : State) (x : Tri) (tok : Nat) :
    s.rastStat x tok = { s with stats := (s.rastStat x tok).stats, lostEv := (s.rastStat x tok).lostEv } := by
  unfold State.rastStat State.stat
  dsimp only
  split
  · rfl
  split
  · rfl
  split <;> rfl

/-- The first submission of a triangle whose first vertex lies within the scissor counts as a primitive (R366). -/
theorem rastStat_counts {x : Tri} {tok : Nat} {k : Stats} (listed : kget s.lpb.ident s.stats = some k) (open_ : bitN tok 63 = false)
    (first : fld tok 0 32 = 0) (area : x.degenerate = false)
    (within : let p := (max 0 (min 65534 (x.v0.1 / 256))).toNat
      let q := (max 0 (min 65534 (x.v0.2 / 256))).toNat
      x.x0 ≤ p ∧ p < x.x1 ∧ x.y0 ≤ q ∧ q < x.y1) :
    kget s.lpb.ident (s.rastStat x tok).stats = some { k with prims := (k.prims + 1) % 2 ^ 64 } := by
  obtain ⟨left, right, top, bottom⟩ := within
  have counts : (bitN tok 63 || fld tok 0 32 != 0 || !(decide (x.x0 ≤ (max 0 (min 65534 (pixel x.v0.1))).toNat)
      && decide ((max 0 (min 65534 (pixel x.v0.1))).toNat < x.x1) && decide (x.y0 ≤ (max 0 (min 65534 (pixel x.v0.2))).toNat)
      && decide ((max 0 (min 65534 (pixel x.v0.2))).toNat < x.y1))) = false := by
    unfold pixel
    simp only [open_, first, left, right, top, bottom, decide_true, Bool.and_self, Bool.not_true, bne_self_eq_false, Bool.or_self]
  unfold State.rastStat
  dsimp only
  rw [counts, if_neg Bool.false_ne_true]
  unfold State.stat
  rw [listed, area]
  exact kget_kset_same ..

section
variable (b : State) (x : Tri) (tok : Nat)

theorem rastStat_cores : (b.rastStat x tok).cores = b.cores := by rw [rastStat_eq]
theorem rastStat_cur : (b.rastStat x tok).cur = b.cur := by rw [rastStat_eq]
theorem rastStat_mem : (b.rastStat x tok).mem = b.mem := by rw [rastStat_eq]
theorem rastStat_curCore : (b.rastStat x tok).curCore = b.curCore := by
  unfold State.curCore State.core
  rw [rastStat_cores, rastStat_cur]
theorem rastStat_cmdOf (op : Instr) (args : List Nat) (act : W32) (data : List W32) (start due : Nat) :
    (b.rastStat x tok).cmdOf op args act data start due = b.cmdOf op args act data start due := by
  rw [rastStat_eq]
  rfl

end

/-- The effect of RAST: the submission counts, and a command with its samples and its next token goes to the rasteriser, which takes a clk
for every 16 candidates (R197). -/
theorem effRast_takes {b : State} (hb : Begun s b) (op : Instr) :
    let x := s.rastArgs sv sc st
    let r := rastRun x.1 x.2
    effRast op sv sc st b = (b.rastStat x.1 x.2).takes 5
      (·.takesGfx (s.cmdOf op [r.2.1] allLanes r.1 s.curCore.eclk (s.curCore.eclk + (20 + ceilDiv r.2.2 16)))) := by
  dsimp only
  unfold effRast
  rw [hb.rastArgs, gfxSend_takes, rastStat_cmdOf, rastStat_curCore, hb.eclk, hb.cmdOf]
  rfl

/-- RAST captures its samples and its next token, and the first submission of a triangle counts. -/
theorem rast_accepted (ha : s.act g ≠ 0) (h : s.issues (.rast g m sv sc st) = true) :
    let i : Instr := .rast g m sv sc st
    let x := s.rastArgs sv sc st
    let r := rastRun x.1 x.2
    Yields i s (fun t => Kept s t ∧ t.mem = s.mem ∧ Counts s t 5
      ∧ (s.coreIn t).gfxQ = s.curCore.gfxQ ++ [s.cmdOf i [r.2.1] allLanes r.1 s.curCore.eclk (s.curCore.eclk + (20 + ceilDiv r.2.2 16))]
      ∧ ∃ b, Begun s b ∧ t.stats = (b.rastStat x.1 x.2).stats) := by
  intro i x r
  have hb := (begun_of_hold h rfl).1
  have taken : (semOf (soloSlot i) i).eff (s.begun i) = _ := effRast_takes hb i
  have stays := Stays.of_cores (rastStat_cur (s.begun i) x.1 x.2) (rastStat_cores (s.begun i) x.1 x.2)
  have aside := Aside.of_cores (rastStat_cur (s.begun i) x.1 x.2) (rastStat_cores (s.begun i) x.1 x.2)
  have live := stays.live hb.live
  refine yields_of_stays rfl h ha rfl taken (stays.trans (stays_takes live fun _ => rfl)) fun t d keep => ?_
  refine ⟨keep, by rw [d.mem, takes_mem, rastStat_mem, hb.mem], d.counts live (fun _ => rfl) ?_, d.gfxQ live ?_, s.begun i, hb, ?_⟩
  · rw [aside.grp, hb.curGrp_eq]
  · rw [rastStat_curCore, hb.gfxQ]
  · rw [d.stats, takes_stats]

end

/-! ### TRACE (R200, R201) -/

section
variable {s : State} {g : Guard} {mO mI : Fin 16} {sr sf st : SReg}

theorem Begun.continues {b : State} (h : Begun s b) (st : SReg) : b.continues st = s.continues st := by
  have parked : b.curGrp.parked = s.curGrp.parked := by rw [h.curGrp_eq]
  unfold State.continues State.parkedOf
  rw [h.sr, h.gfxQ, h.groupKey, parked]

/-- The rays of a first TRACE, parked under the next token (R201). -/
def State.firstParked (s : State) (act : W32) (mI : Nat) (root flags : Nat) : Parked :=
  { token := s.fresh, root := root, flags := flags, rays := (lanesOf act).map (fun j => (j, s.curGrp.laneRows mI (List.range 8) j)),
    pending := act, reports := [], prog := [] }

/-- The state of a first TRACE with its rays parked and its token and its free time drawn. -/
def State.parks (s : State) (p : Parked) : State :=
  { (s.modG (fun x => { x with parked := x.parked ++ [p] })) with free := s.free + 1, fresh := s.fresh + 1 }

theorem curGrp_parks {b : State} (hl : b.live = true) (p : Parked) :
    (b.parks p).curGrp = { b.curGrp with parked := b.curGrp.parked ++ [p] } := curGrp_modG b _ hl
theorem curCore_parks {b : State} (hl : b.live = true) (p : Parked) :
    (b.parks p).curCore = b.curCore.modGroup b.cur.gid (fun x => { x with parked := x.parked ++ [p] }) := curCore_modG b _ hl
theorem onStream_parks {b : State} (hl : b.live = true) (p : Parked) : OnStream b (b.parks p) :=
  (onStream_modG hl (fun x => { x with parked := x.parked ++ [p] }) fun _ => ⟨rfl, rfl, rfl⟩).trans
    (Stays.onStream (Stays.of_cores rfl rfl))
theorem gfxQ_parks {b : State} (hl : b.live = true) (p : Parked) : (b.parks p).curCore.gfxQ = b.curCore.gfxQ := by
  rw [curCore_parks hl]
  rfl
theorem eclk_parks {b : State} (hl : b.live = true) (p : Parked) : (b.parks p).curCore.eclk = b.curCore.eclk := by
  rw [curCore_parks hl]
  rfl
theorem parks_mem (b : State) (p : Parked) : (b.parks p).mem = b.mem := rfl

/-- The effect of a first TRACE: the rays stay parked, and a command under their token goes to the traversal unit. -/
theorem effTrace_takes {b : State} (hb : Begun s b) (op : Instr) (first : s.continues st = none) :
    ∃ q : Cmd, q.op = op ∧ q.act = s.act g ∧ q.args.getD 0 0 = s.fresh ∧ s.curCore.eclk + 1 ≤ q.due
      ∧ effTrace op g mO mI sr sf st b
        = (b.parks (s.firstParked (s.act g) mI.val (s.sr sr.val).toNat (s.sr sf.val).toNat)).takes 5 (·.takesGfx q) := by
  have parked : b.firstParked (b.act g) mI.val (b.sr sr.val).toNat (b.sr sf.val).toNat
      = s.firstParked (s.act g) mI.val (s.sr sr.val).toNat (s.sr sf.val).toNat := by
    unfold State.firstParked Group.laneRows Group.elem
    rw [hb.fresh, hb.act, hb.sr, hb.sr, hb.curGrp_eq]
  rw [← parked]
  generalize hp : b.firstParked (b.act g) mI.val (b.sr sr.val).toNat (b.sr sf.val).toNat = p
  have eclk : (b.parks p).curCore.eclk = s.curCore.eclk := (eclk_parks hb.live p).trans hb.eclk
  refine ⟨{ ((b.parks p).cmdOf op [p.token, if b.priv then 1 else 0] (b.act g) [] (b.parks p).curCore.eclk
    ((b.parks p).curCore.eclk + (1 + Config.latency b.free))) with wall := (b.parks p).vasWall [fld p.root 0 56] },
    rfl, hb.act g, ?_, ?_, ?_⟩
  · rw [← hp]
    exact hb.fresh
  · show _ ≤ (b.parks p).curCore.eclk + (1 + Config.latency b.free)
    omega
  · subst hp
    unfold effTrace
    rw [hb.continues, first]
    rfl

/-- A first TRACE parks its rays and goes to the traversal unit under their token. -/
theorem trace_accepted (ha : s.act g ≠ 0) (h : s.issues (.trace g mO mI sr sf st) = true) (first : s.continues st = none) :
    Yields (.trace g mO mI sr sf st) s (fun t => t.mem = s.mem ∧ Counts s t 5
      ∧ (s.groupIn t).parked = s.curGrp.parked ++ [s.firstParked (s.act g) mI.val (s.sr sr.val).toNat (s.sr sf.val).toNat]
      ∧ ∃ q, (s.coreIn t).gfxQ = s.curCore.gfxQ ++ [q] ∧ q.op = .trace g mO mI sr sf st ∧ q.act = s.act g ∧ q.args.getD 0 0 = s.fresh
          ∧ s.curCore.eclk + 1 ≤ q.due) := by
  have hold : (semOf (soloSlot (.trace g mO mI sr sf st)) (.trace g mO mI sr sf st)).hold = holdTrace mO st := rfl
  have sem : (semOf (soloSlot (.trace g mO mI sr sf st)) (.trace g mO mI sr sf st)).eff = effTrace (.trace g mO mI sr sf st) g mO mI sr sf st := rfl
  have free : ((semOf (soloSlot (.trace g mO mI sr sf st)) (.trace g mO mI sr sf st)).hold s).2 = s := by
    rw [hold]
    unfold holdTrace
    rw [first]
    rfl
  have hb := (begun_of_hold h free).1
  obtain ⟨q, op, act, token, due, eff⟩ := effTrace_takes (g := g) (mO := mO) (mI := mI) (sr := sr) (sf := sf) hb (.trace g mO mI sr sf st) first
  have taken := (congrFun sem _).trans eff
  generalize hp : s.firstParked (s.act g) mI.val (s.sr sr.val).toNat (s.sr sf.val).toNat = p at taken
  have parks := onStream_parks hb.live p
  have live := parks.live hb.live
  have stays := stays_takes (n := 5) (f := (·.takesGfx q)) live fun _ => rfl
  refine yields_of_done rfl h ha free taken (parks.trans stays.onStream) fun t d => ?_
  refine ⟨by rw [d.mem, takes_mem, parks_mem, hb.mem], d.counts live (fun _ => rfl) ?_, ?_, q, d.gfxQ live ?_, op, act, token, due⟩
  · rw [curGrp_parks hb.live, hb.curGrp_eq]
  · rw [d.parked live fun _ => rfl, curGrp_parks hb.live, hb.curGrp_eq]
  · rw [gfxQ_parks hb.live, hb.gfxQ]

end

/-! ### TEXS and TEXG (R204, R205) -/

/-- A texture command has read its descriptor and texels: its lanes with faults are marked, and the queue is as it was. -/
structure Sampled (s t : State) : Prop where
  cur : t.cur = s.cur
  live : t.live = true
  grp : t.curGrp = { s.curGrp with faultMask := t.curGrp.faultMask, laneRecs := t.curGrp.laneRecs }
  core : t.curCore.gfxQ = s.curCore.gfxQ ∧ t.curCore.eclk = s.curCore.eclk

namespace Sampled

variable {s t u : State}

theorem trans (a : Sampled s t) (b : Sampled t u) : Sampled s u :=
  ⟨b.cur.trans a.cur, b.live, by rw [b.grp, a.grp], b.core.1.trans a.core.1, b.core.2.trans a.core.2⟩
theorem of_loads (hl : s.live = true) (h : Loads s t) : Sampled s t :=
  ⟨h.cur, h.live.trans hl, by rw [h.curGrp], by rw [h.curCore]; exact ⟨rfl, rfl⟩⟩

/-- Lanes that are marked leave their records with the group alone (R256). -/
theorem recordMarks (hl : s.live = true) (m : List Mark) : Sampled s (s.recordMarks m) := by
  refine ⟨rfl, live_modG s _ hl, ?_, ?_⟩
  · unfold State.recordMarks
    rw [curGrp_modG s _ hl]
    refine List.foldlRecOn (motive := fun x : Group => x = { s.curGrp with faultMask := x.faultMask, laneRecs := x.laneRecs }) m _ rfl
      fun x hx k _ => ?_
    dsimp only
    rw [hx]
  · unfold State.recordMarks
    rw [curCore_modG s _ hl]
    exact ⟨rfl, rfl⟩

theorem curSlot (h : Sampled s t) : t.curSlot = s.curSlot := by
  unfold State.curSlot
  rw [h.cur, h.grp]
  rfl
theorem onStream (h : Sampled s t) : OnStream s t := ⟨h.cur, fun _ => h.live, by rw [h.grp]; exact ⟨rfl, rfl, rfl⟩⟩

end Sampled

/-- One lane of a texture command: its four words, zero where it has no texels, and four free values. -/
def State.texStep (t : Tex) (o : TexOp) (l : Nat) (a : List (Nat × List Nat) × State) (p : Nat × Option (List (Nat × Nat) × Nat × Nat)) :
    List (Nat × List Nat) × State :=
  match p.2 with
  | none => (a.1 ++ [(p.1, [0, 0, 0, 0])], a.2)
  | some q =>
    let x := a.2.texRead t l q.1
    let v := match o.gather with
      | some ch => (List.range 4).map (fun k => (x.1.getD k []).getD ch 0)
      | none => t.texs x.2.free x.1 q.2.1 q.2.2
    (a.1 ++ [(p.1, v)], { x.2 with free := x.2.free + 4 })

/-- The 128 words of a texture command from those of its lanes. -/
def texData (rows : List (Nat × List Nat)) : List W32 := (List.range 128).map (fun k =>
  BitVec.ofNat 32 (((rows.find? (fun p => p.1 == k % 32)).map (fun p => p.2.getD (k / 32) 0)).getD 0))

theorem loads_texStep (t : Tex) (o : TexOp) (l : Nat) (a : List (Nat × List Nat) × State) (p : Nat × Option (List (Nat × Nat) × Nat × Nat)) :
    Loads a.2 (State.texStep t o l a p).2 := by
  unfold State.texStep
  split
  · exact .refl _
  · exact (Loads.of_memory (memoryOnly_texRead ..)).trans (.draw _ _)

/-- Lane j brings zeros where the taps of every lane of that number are none. -/
theorem texStep_zero (t : Tex) (o : TexOp) (l : Nat) {j : Nat} {ps : List (Nat × Option (List (Nat × Nat) × Nat × Nat))}
    (none_ : ∀ p ∈ ps, p.1 = j → p.2 = none) (s : State) : ∀ x ∈ (ps.foldl (State.texStep t o l) ([], s)).1, x.1 = j → x.2 = [0, 0, 0, 0] := by
  refine List.foldlRecOn (motive := fun a : List (Nat × List Nat) × State => ∀ x ∈ a.1, x.1 = j → x.2 = [0, 0, 0, 0]) ps _
    (fun x hx => nomatch hx) fun a ih p hp x hx hj => ?_
  unfold State.texStep at hx
  split at hx
  · rcases List.mem_append.1 hx with old | new
    · exact ih x old hj
    · rw [List.mem_singleton.1 new]
  · rename_i taps
    rcases List.mem_append.1 hx with old | new
    · exact ih x old hj
    · rw [List.mem_singleton.1 new] at hj
      rw [none_ p hp hj] at taps
      cases taps

/-- A lane whose coordinates are not both finite has no texels (R203). -/
theorem taps_none {t : Tex} {near : Bool} {l u v : Nat} (h : finOf u = none ∨ finOf v = none) : t.taps near l u v = none := by
  unfold Tex.taps
  split
  · rename_i hu hv
    rw [hu, hv] at h
    rcases h with h | h <;> cases h
  · rfl

theorem texData_length (rows : List (Nat × List Nat)) : (texData rows).length = 128 := by simp [texData]

theorem texData_zero {rows : List (Nat × List Nat)} {j k : Nat} (hj : j < 32) (hk : k < 4)
    (zero : ∀ x ∈ rows, x.1 = j → x.2 = [0, 0, 0, 0]) : (texData rows).getD (32 * k + j) 0 = 0 := by
  have lane : (32 * k + j) % 32 = j := by omega
  have place : 32 * k + j < 128 := by omega
  have word : ((rows.find? (fun p => p.1 == j)).map (fun p => p.2.getD ((32 * k + j) / 32) 0)).getD 0 = 0 := by
    cases found : rows.find? (fun p => p.1 == j) with
    | none => rfl
    | some x =>
      have row := zero x (List.mem_of_find?_eq_some found) (by simpa using List.find?_some found)
      show x.2.getD _ 0 = 0
      have col : (32 * k + j) / 32 = k := by omega
      rw [row, col]
      interval_cases k <;> rfl
  unfold texData
  rw [List.getD_eq_getElem?_getD, List.getElem?_map, List.getElem?_range place]
  show BitVec.ofNat 32 _ = 0
  rw [lane, word]
  rfl

/-- The lanes in which a texture command samples: those that act and that no permission fault marks (R219). -/
def State.texMask (s : State) (o : TexOp) (act : W32) : W32 :=
  act &&& ~~~(BitVec.ofNat 32 ((s.texMarks o act (s.texDesc o)).foldl (fun a m => a ||| 2 ^ m.j) 0))

/-- The addresses that a texture command reads. -/
def State.texReads (s : State) (o : TexOp) (act : W32) : List Nat := s.texVa o % 2 ^ 56 :: s.texVas o act (s.texDesc o)

/-- The state in which a texture command has read its descriptor and marked its faults. -/
def State.texDescribed (s : State) (o : TexOp) (act : W32) : State :=
  let m := s.noteMisses s.cur.core s.root (s.texReads o act)
  ((m.recordMarks (s.texMarks o act (s.texDesc o))).texBytes (m.texVa o) 64).2

/-- The words of its lanes, and the state in which it has read them. -/
def State.texSampled (s : State) (o : TexOp) (act : W32) : List (Nat × List Nat) × State :=
  (s.texLanes o (s.texMask o act) (s.texDesc o)).foldl (State.texStep (s.texDesc o) o (s.texLev o (s.texDesc o))) ([], s.texDescribed o act)

theorem effTex_eq (op : Instr) (o : TexOp) (act : State → W32) (s : State) : effTex op o act s =
    State.gfxSend { (s.texSampled o (act s)).2 with free := (s.texSampled o (act s)).2.free + 1 } op (s.texMask o (act s)) []
      (texData (s.texSampled o (act s)).1) (40 + Config.latency (s.texSampled o (act s)).2.free) (s.vasWall (s.texReads o (act s))) := rfl

theorem sampled_texDescribed {b : State} (hl : b.live = true) (o : TexOp) (act : W32) : Sampled b (b.texDescribed o act) := by
  have missed := Sampled.of_loads hl (.of_memory (memoryOnly_noteMisses b b.cur.core b.root (b.texReads o act)))
  have marked := missed.trans (Sampled.recordMarks missed.live (b.texMarks o act (b.texDesc o)))
  exact marked.trans (.of_loads marked.live (.of_memory (memoryOnly_texBytes ..)))

theorem sampled_texSampled {b : State} (hl : b.live = true) (o : TexOp) (act : W32) : Sampled b (b.texSampled o act).2 := by
  have described := sampled_texDescribed hl o act
  refine described.trans (.of_loads described.live ?_)
  exact .foldl (at_ := Prod.snd) (fun a p => loads_texStep _ o _ a p) _ (([], b.texDescribed o act) : List (Nat × List Nat) × State)

/-- A texture command captures 128 words, zero for a lane whose coordinates are not both finite, and takes 40 clk at least. -/
theorem effTex_takes {b : State} (hl : b.live = true) (op : Instr) (o : TexOp) (act : State → W32) :
    ∃ (u : State) (q : Cmd), Sampled b u ∧ q.op = op ∧ q.data.length = 128 ∧ b.curCore.eclk + 40 ≤ q.due
      ∧ (∀ j, j < 32 → (finOf (b.curGrp.elem (elemKey o.mI 0 j)).toNat = none ∨ finOf (b.curGrp.elem (elemKey o.mI 1 j)).toNat = none) →
          ∀ k, k < 4 → q.data.getD (32 * k + j) 0 = 0)
      ∧ effTex op o act b = u.takes 5 (·.takesGfx q) := by
  have read := sampled_texSampled hl o (act b)
  have rows {j : Nat} (none_ : ∀ p ∈ b.texLanes o (b.texMask o (act b)) (b.texDesc o), p.1 = j → p.2 = none) :
      ∀ x ∈ (b.texSampled o (act b)).1, x.1 = j → x.2 = [0, 0, 0, 0] := texStep_zero _ o _ none_ _
  have eff := effTex_eq op o act b
  generalize b.texSampled o (act b) = r at read rows eff
  have sampled := read.trans (.of_loads read.live (.draw r.2 (r.2.free + 1)))
  have eclk : r.2.curCore.eclk = b.curCore.eclk := read.core.2
  refine ⟨_, _, sampled, ?_, ?_, ?_, fun j hj infinite k hk => ?_, eff.trans (gfxSend_takes ..)⟩
  · rfl
  · exact texData_length r.1
  · show _ ≤ r.2.curCore.eclk + (40 + Config.latency r.2.free)
    omega
  · refine texData_zero hj hk (rows fun p hp e => ?_)
    obtain ⟨i, -, rfl⟩ := List.mem_map.1 hp
    obtain rfl : i = j := e
    exact taps_none infinite

section
variable {s : State} {i : Instr} {o : TexOp}

/-- A texture command goes to the texture unit with what it has read. -/
theorem tex_accepted (hi : i.isSlot = true) (h : s.issues i = true) (ha : s.act (opInfo i).guard ≠ 0)
    (sem : semOf (soloSlot i) i = texSem i (opInfo i).guard o) :
    Yields i s (fun t => Counts s t 5 ∧ (s.slotIn t).pc = s.succPc
      ∧ ∃ q, (s.coreIn t).gfxQ = s.curCore.gfxQ ++ [q] ∧ q.op = i ∧ q.data.length = 128 ∧ s.curCore.eclk + 40 ≤ q.due
          ∧ ∀ j, j < 32 → (finOf (s.curGrp.elem (elemKey o.mI 0 j)).toNat = none ∨ finOf (s.curGrp.elem (elemKey o.mI 1 j)).toNat = none) →
              ∀ k, k < 4 → q.data.getD (32 * k + j) 0 = 0) := by
  have hold : ((semOf (soloSlot i) i).hold s).2 = s := by rw [sem]; rfl
  obtain ⟨hb, on⟩ := begun_of_hold h hold
  obtain ⟨u, q, sampled, op, len, due, zero, taken⟩ := effTex_takes hb.live i o (fun s => s.act (opInfo i).guard)
  have eff : (semOf (soloSlot i) i).eff (s.begun i) = u.takes 5 (·.takesGfx q) := by
    rw [sem]
    exact taken
  have stays := stays_takes (n := 5) (f := (·.takesGfx q)) sampled.live fun _ => rfl
  have elem (k : Nat) : (s.begun i).curGrp.elem k = s.curGrp.elem k := by
    unfold Group.elem
    rw [hb.curGrp_eq]
  refine yields_of_done hi h ha hold eff (sampled.onStream.trans stays.onStream) fun t d => ?_
  refine ⟨d.counts sampled.live (fun _ => rfl) ?_, ?_, q, d.gfxQ sampled.live ?_, op, len, by rw [← hb.eclk]; exact due, ?_⟩
  · rw [sampled.grp, hb.curGrp_eq]
  · rw [d.slot, stays.slot, sampled.curSlot]
    exact on.pc
  · rw [sampled.core.1, hb.gfxQ]
  · simpa only [elem] using zero

end

end Sys2Proof.Machine
end

section

/-! RAST, TRACE, TEXS and TEXG complete (R195 to R206): what a shader-engine command that is due leaves. -/

namespace Sys2Proof.Machine

/-! ### The banks of a group whose other fields have changed (R117) -/

/-- Group g of a core as the wake of its banks sees it. -/
structure SameBanks (g : Nat) (c d : Core) : Prop where
  here : (kget g d.groups).isSome = (kget g c.groups).isSome
  clk : d.clk = c.clk
  banks : (d.group g).banks = (c.group g).banks

namespace SameBanks

variable {g : Nat} {c d : Core}

theorem bank (h : SameBanks g c d) (i : Nat) : (d.group g).bank i = (c.group g).bank i := congrArg (·.getD i Bank.start) h.banks

theorem wakeReg (h : SameBanks g c d) (listed : (kget g c.groups).isSome = true) (i : Nat) : SameBanks g (c.wakeReg g i) (d.wakeReg g i) := by
  have same : (((d.group g).bank i).sleeps && decide (i < (d.group g).budget)) = (((c.group g).bank i).sleeps && decide (i < (c.group g).budget)) := by
    unfold Group.budget
    rw [h.bank, h.banks]
  refine ⟨?_, ?_, ?_⟩
  · rw [(wakeReg_group d g i).1, (wakeReg_group c g i).1, h.here]
  · rw [(wakeReg_group d g i).2.1, (wakeReg_group c g i).2.1]
    exact h.clk
  · unfold Core.wakeReg
    rw [same]
    split
    · show ((d.modGroup g _).group g).banks = ((c.modGroup g _).group g).banks
      rw [group_modGroup_same d g _ (h.here.trans listed), group_modGroup_same c g _ listed]
      show (d.group g).banks.set i _ = (c.group g).banks.set i _
      rw [h.banks, h.bank, h.clk]
    · exact h.banks

theorem wakeRegs (h : SameBanks g c d) (ms : List Nat) : (d.wakeRegs g ms).2 = (c.wakeRegs g ms).2 := by
  have unlisted : (kget g d.groups).isNone = (kget g c.groups).isNone := by rw [← Option.not_isSome, h.here, Option.not_isSome]
  have woken (l : List Nat) (listed : (kget g c.groups).isSome = true) :
      SameBanks g (l.foldl (fun c m => c.wakeReg g m) c) (l.foldl (fun c m => c.wakeReg g m) d) := by
    induction l generalizing c d with
    | nil => exact h
    | cons m r ih =>
      have step := h.wakeReg listed m
      exact ih step (by rw [← Option.not_isSome, step.here, Option.not_isSome]) ((wakeReg_group c g m).1.trans listed)
  unfold Core.wakeRegs
  rw [unlisted]
  split
  · rfl
  · rename_i here
    have same := woken ms (by simpa [Option.isSome_iff_ne_none] using here)
    dsimp only
    simp only [same.bank, same.clk]

end SameBanks

/-! ### What a traversal leaves of its core (R200) -/

/-- In group g of core c what is parked may be other, and the core may have been read through. -/
structure Reparked (c g : Nat) (s t : State) : Prop where
  here : (kget c t.cores).isSome = (kget c s.cores).isSome
  listed : (kget g (t.core c).groups).isSome = (kget g (s.core c).groups).isSome
  clk : (t.core c).clk = (s.core c).clk
  gfxQ : (t.core c).gfxQ = (s.core c).gfxQ
  grp : t.group c g = { s.group c g with parked := (t.group c g).parked }

namespace Reparked

variable {s t u : State} {c g : Nat}

theorem trans (a : Reparked c g s t) (b : Reparked c g t u) : Reparked c g s u where
  here := b.here.trans a.here
  listed := b.listed.trans a.listed
  clk := b.clk.trans a.clk
  gfxQ := b.gfxQ.trans a.gfxQ
  grp := by rw [b.grp, a.grp]

theorem of_loads (h : Loads s t) : Reparked c g s t where
  here := h.here c
  listed := by rw [h.groups]
  clk := by rw [h.core c]
  gfxQ := by rw [h.core c]
  grp := by rw [h.group]

theorem parked (hc : (kget c s.cores).isSome = true) (hg : (kget g (s.core c).groups).isSome = true) (f : List Parked → List Parked) :
    Reparked c g s (s.modGroup c g (fun x => { x with parked := f x.parked })) := by
  have core : (s.modGroup c g (fun x => { x with parked := f x.parked })).core c
      = (s.core c).modGroup g (fun x => { x with parked := f x.parked }) := core_modCore_same s c _ hc
  refine ⟨cores_modCore_isSome .., ?_, ?_, ?_, ?_⟩
  · rw [core, groups_modGroup_isSome]
  · rw [core]
    rfl
  · rw [core]
    rfl
  · unfold State.group
    rw [core, group_modGroup_same _ g _ hg]

theorem banks (h : Reparked c g s t) : SameBanks g (s.core c) (t.core c) :=
  ⟨h.listed, h.clk, by
    show (t.group c g).banks = _
    rw [h.grp]
    rfl⟩

end Reparked

/-- A run of a traversal parks how far it has come, and its lanes are those of the command. -/
theorem traceRun_reparked {s u : State} {q : Cmd} {r : Except Nat (List (Nat × List Nat × Bool))} (h : s.traceRun q = (u, r))
    (hc : (kget q.core s.cores).isSome = true) (hg : (kget q.gid (s.core q.core).groups).isSome = true) :
    Reparked q.core q.gid s u := by
  obtain ⟨rfl, -⟩ := Prod.mk.inj h
  have ran (e : TraceEnv) := e.loads_lanes (lanesOf q.act) s (s.traceRec q)
  exact (Reparked.of_loads (ran _)).trans (.parked (((ran _).here _).trans hc) (by rw [(ran _).groups]; exact hg) fun l => l.map _)

theorem traceRun_lanes {s u : State} {q : Cmd} {l : List (Nat × List Nat × Bool)} (h : s.traceRun q = (u, .ok l)) :
    l.map Prod.fst = lanesOf q.act := by
  obtain ⟨-, h⟩ := Prod.mk.inj h
  split at h
  · cases h
  · rw [← Except.ok.inj h, List.map_map]
    exact List.map_id _

/-! ### The rows of a command (R195, R200, R204) -/

theorem rowWrites_register (m : Nat) (act : W32) (data : List W32) : ∀ w ∈ rowWrites m act data, w.register = true := by
  intro w hw
  obtain ⟨p, -, e⟩ := List.mem_filterMap.1 hw
  split at e
  · rw [← Option.some.inj e]
    rfl
  · cases e

/-- Word 32k + j of a command goes to row k of its register in lane j, where that lane acts, and no other does. -/
theorem rowWrites_place {m k j : Nat} {act : W32} {data : List W32} (hj : j < 32) (within : 32 * k + j < data.length) (on : bitOn act j = true) :
    Wr.m (elemKey m k j) (data.getD (32 * k + j) 0) ∈ rowWrites m act data
      ∧ ∀ x, Wr.m (elemKey m k j) x ∈ rowWrites m act data → x = data.getD (32 * k + j) 0 := by
  have row : (32 * k + j) / 32 = k := by omega
  have lane : (32 * k + j) % 32 = j := by omega
  constructor
  · refine List.mem_filterMap.2 ⟨(32 * k + j, data.getD (32 * k + j) 0), mem_range_zip.2 ⟨within, ?_⟩, ?_⟩
    · rw [List.getD_eq_getElem?_getD, List.getElem?_eq_getElem within]
      rfl
    · dsimp only
      rw [row, lane, if_pos on]
  · intro x hx
    obtain ⟨⟨i, v⟩, listed, e⟩ := List.mem_filterMap.1 hx
    dsimp only at e
    split at e
    · obtain ⟨key, rfl⟩ := Wr.m.inj (Option.some.inj e)
      obtain ⟨hi, word⟩ := elemKey_inj (Nat.mod_lt _ (by decide)) hj key
      obtain rfl : i = 32 * k + j := by omega
      rw [List.getD_eq_getElem?_getD, (mem_range_zip.1 listed).2]
      rfl
    · cases e

/-- A scalar that is written last brings no element. -/
theorem mem_of_scalar_last {ws : List Wr} {key r : Nat} {v : W32} {x : W64} (h : Wr.m key v ∈ ws ++ [.s r x]) : Wr.m key v ∈ ws :=
  (List.mem_append.1 h).resolve_right fun e => nomatch List.mem_singleton.1 e

/-- The writes of a traversal's lanes: up to six words each (R200). -/
def traceWrites (m : Nat) (l : List (Nat × List Nat × Bool)) : List Wr :=
  l.flatMap (fun x => ((List.range 6).zip x.2.1).map (fun y => Wr.m (elemKey m y.1 x.1) (BitVec.ofNat 32 y.2)))

theorem traceWrites_register (m : Nat) (l : List (Nat × List Nat × Bool)) : ∀ w ∈ traceWrites m l, w.register = true := by
  intro w hw
  obtain ⟨x, -, lane⟩ := List.mem_flatMap.1 hw
  obtain ⟨y, -, rfl⟩ := List.mem_map.1 lane
  rfl

/-- Word k of a lane goes to row k of the register in that lane, and no other does. -/
theorem traceWrites_place {m k : Nat} {l : List (Nat × List Nat × Bool)} {act : W32} (lanes : l.map Prod.fst = lanesOf act)
    {y : Nat × List Nat × Bool} (hy : y ∈ l) (hk : k < 6) (within : k < y.2.1.length) :
    Wr.m (elemKey m k y.1) (BitVec.ofNat 32 (y.2.1.getD k 0)) ∈ traceWrites m l
      ∧ ∀ x, Wr.m (elemKey m k y.1) x ∈ traceWrites m l → x = BitVec.ofNat 32 (y.2.1.getD k 0) := by
  have lane {z : Nat × List Nat × Bool} (hz : z ∈ l) : z.1 < 32 :=
    List.mem_range.1 (List.mem_filter.1 (lanes ▸ List.mem_map_of_mem hz : z.1 ∈ lanesOf act)).1
  have distinct : (l.map Prod.fst).Nodup := lanes ▸ List.nodup_range.filter _
  constructor
  · refine List.mem_flatMap.2 ⟨y, hy, List.mem_map.2 ⟨(k, y.2.1.getD k 0), mem_range_zip.2 ⟨hk, ?_⟩, rfl⟩⟩
    rw [List.getD_eq_getElem?_getD, List.getElem?_eq_getElem within]
    rfl
  · intro x hx
    obtain ⟨z, hz, listed⟩ := List.mem_flatMap.1 hx
    obtain ⟨⟨i, v⟩, word, e⟩ := List.mem_map.1 listed
    obtain ⟨key, rfl⟩ := Wr.m.inj e
    obtain ⟨rfl, same⟩ := elemKey_inj (lane hz) (lane hy) key
    obtain rfl := List.inj_on_of_nodup_map distinct hz hy same
    rw [List.getD_eq_getElem?_getD, (mem_range_zip.1 word).2]
    rfl

/-! ### The token of a traversal (R201) -/

/-- The lanes of a run that are still pending, as a mask. -/
def pendingMask (l : List (Nat × List Nat × Bool)) : W32 := BitVec.ofNat 32 ((l.filter (fun x => x.2.2)).foldl (fun a x => a + 2 ^ x.1) 0)

theorem pendingMask_none {l : List (Nat × List Nat × Bool)} (h : ∀ y ∈ l, y.2.2 = false) : pendingMask l = 0 := by
  have none_ : l.filter (fun x => x.2.2) = [] := List.filter_eq_nil_iff.2 fun y hy => by simp [h y hy]
  unfold pendingMask
  rw [none_]
  rfl

/-- A lane that is left pending shows in the mask, as the lanes of a command are distinct. -/
theorem pendingMask_some {l : List (Nat × List Nat × Bool)} {act : W32} (lanes : l.map Prod.fst = lanesOf act) (h : ∃ y ∈ l, y.2.2 = true) :
    pendingMask l ≠ 0 := by
  obtain ⟨y, hy, left⟩ := h
  have part : ((l.filter (fun x => x.2.2)).map Prod.fst).Sublist (lanesOf act) := lanes ▸ List.filter_sublist.map _
  have sum : (l.filter (fun x => x.2.2)).foldl (fun a x => a + 2 ^ x.1) 0 = (((l.filter (fun x => x.2.2)).map Prod.fst).map (2 ^ ·)).sum := by
    rw [List.sum_eq_foldl, List.foldl_map, List.foldl_map]
  have below : (((l.filter (fun x => x.2.2)).map Prod.fst).map (2 ^ ·)).sum < 2 ^ 32 := by
    rw [← List.sum_toFinset _ (part.nodup (List.nodup_range.filter _))]
    exact Nat.geomSum_lt (le_refl 2) fun k hk => List.mem_range.1 (List.mem_filter.1 (part.subset (List.mem_toFinset.1 hk))).1
  have above : 2 ^ y.1 ≤ (((l.filter (fun x => x.2.2)).map Prod.fst).map (2 ^ ·)).sum :=
    List.le_sum_of_mem (List.mem_map_of_mem (List.mem_map_of_mem (List.mem_filter.2 ⟨hy, left⟩)))
  have positive : 0 < 2 ^ y.1 := Nat.two_pow_pos _
  intro zero
  have value := congrArg BitVec.toNat zero
  unfold pendingMask at value
  rw [sum, BitVec.toNat_ofNat, Nat.mod_eq_of_lt below] at value
  rw [value] at above
  exact absurd (positive.trans_le above) (lt_irrefl 0)

/-! ### The end of a command (R206) -/

/-- A core whose queue of shader-engine commands a command has left. -/
def Core.leavesGfx (k : Core) (id : Nat) : Core := { k with gfxQ := k.gfxQ.filter (fun x => x.id != id) }

theorem modCore_const {s : State} {c : Nat} (hc : (kget c s.cores).isSome = true) (f : Core → Core) :
    s.modCore c f = s.modCore c (fun _ => f (s.core c)) := by
  obtain ⟨k, here⟩ := Option.isSome_iff_exists.1 hc
  unfold State.modCore State.core kmod
  rw [here]
  rfl

/-- Where every bank is awake, a command that no debugger has written over lands and leaves its queue. -/
theorem gfxDone_reached {s : State} {q : Cmd} (resident : q.gid < ghostBase) (hc : (kget q.core s.cores).isSome = true) (drop : q.drop = [])
    (awake : ((s.core q.core).wakeRegs q.gid ((opInfo q.op).mwr.map Prod.snd)).2 = 0) (ws : List Wr) :
    Reached s ((s.core q.core).leavesGfx q.id) q.core q.gid 5 ws (s.gfxDone q ws) := by
  have kept : ws.filter (fun w => q.drop.all (fun d => !(wrSame w d))) = ws := List.filter_eq_self.2 fun w _ => by rw [drop]; rfl
  unfold State.gfxDone
  rw [kept, modCore_const hc]
  refine landReg_awake resident hc ?_
  rw [← awake]
  exact wakeRegs_congr (c := (s.core q.core).leavesGfx q.id) (d := s.core q.core) rfl rfl _ _

/-- A command that may end: the oldest of its group on its unit, due, and with no page to wait for. -/
structure GfxReady (s : State) (c : Nat) (q : Cmd) : Prop where
  find : (s.core c).gfxQ.find? (fun x => x.id == q.id) = some q
  first : (s.core c).gfxFirst q = true
  due : q.due ≤ (s.core c).eclk
  tick : q.tick ≤ s.now
  page : q.page = none

namespace GfxReady

variable {s : State} {c : Nat} {q : Cmd} (h : GfxReady s c q)
include h

theorem open_ : (!(s.core c).gfxFirst q || decide ((s.core c).eclk < q.due) || decide (s.now < q.tick) || q.page.isSome) = false := by
  rw [h.first, h.page, decide_eq_false (Nat.not_lt.2 h.due), decide_eq_false (Nat.not_lt.2 h.tick)]
  rfl

/-- Data that cross dies have their crossings to come (R13). -/
theorem exec_crosses (wall : q.wall ≠ 0) : exec (.shaderEngineComplete c q.id) s = .next (s.modCore c (fun k =>
    { k with gfxQ := k.gfxQ.map (fun x => if x.id == q.id then { x with wall := 0, tick := s.now + q.wall } else x) })) := by
  show execShaderEngineComplete c q.id s = _
  unfold execShaderEngineComplete
  dsimp only
  rw [h.find]
  dsimp only
  rw [h.open_, if_neg Bool.false_ne_true, if_pos (by simpa using wall)]

/-- A command without them ends as its form says. -/
theorem exec_ends (wall : q.wall = 0) :
    (∀ g m a b x, q.op = .rast g m a b x → exec (.shaderEngineComplete c q.id) s = .next (s.gfxDone q (rastWrites q m.val x.val)))
    ∧ (∀ g m n a b, q.op = .texs g m n a b → exec (.shaderEngineComplete c q.id) s = .next (s.gfxDone q (rowWrites m.val q.act q.data)))
    ∧ (∀ g ch m n a, q.op = .texg g ch m n a → exec (.shaderEngineComplete c q.id) s = .next (s.gfxDone q (rowWrites m.val q.act q.data)))
    ∧ ∀ g m n a b x u l, q.op = .trace g m n a b x → s.traceRun q = (u, .ok l) →
        exec (.shaderEngineComplete c q.id) s = .next (u.traceEnd q m.val x.val l) := by
  have run : exec (.shaderEngineComplete c q.id) s = execShaderEngineComplete c q.id s := rfl
  rw [run]
  unfold execShaderEngineComplete
  dsimp only
  rw [h.find]
  dsimp only
  rw [h.open_, if_neg Bool.false_ne_true, wall, if_neg (by decide)]
  refine ⟨?_, ?_, ?_, ?_⟩
  · intro g m a b x op
    rw [op]
  · intro g m n a b op
    rw [op]
  · intro g ch m n a op
    rw [op]
  · intro g m n a b x u l op ran
    rw [op]
    dsimp only
    rw [ran]

/-- A traversal that stands at an absent page waits for it (R200). -/
theorem exec_fault {g : Guard} {m n : Fin 16} {a b x : SReg} {u : State} {va : Nat} (op : q.op = .trace g m n a b x)
    (ran : s.traceRun q = (u, .error va)) : exec (.traceTranslationFault c q.id) s = .next (u.modCore c (fun k =>
      { k with gfxQ := (s.core c).gfxQ.map (fun y => if y.id == q.id then { y with page := some va } else y) })) := by
  show execTraceTranslationFault c q.id s = _
  unfold execTraceTranslationFault
  rw [h.find]
  dsimp only
  rw [op]
  dsimp only
  rw [ran]

end GfxReady

/-! ### What a command that ends leaves -/

/-- The rows of a command stand in its register, in the lanes that act. -/
theorem Reached.rows {s t : State} {k : Core} {c g n m : Nat} {ws : List Wr} {act : W32} {data : List W32} (h : Reached s k c g n ws t)
    (listed : (kget g k.groups).isSome = true) (hw : ∀ w ∈ ws, w.register = true)
    (only : ∀ key v, Wr.m key v ∈ ws ↔ Wr.m key v ∈ rowWrites m act data) (hm : swf (0 : W32) (k.group g).mat = true)
    (within : m < (k.group g).budget) :
    ∀ i j, j < 32 → 32 * i + j < data.length → data.length ≤ 1024 → bitOn act j = true →
      (t.group c g).elem (elemKey m i j) = data.getD (32 * i + j) 0 := by
  intro i j hj place rows on
  obtain ⟨written, one⟩ := rowWrites_place (m := m) hj place on
  refine h.elem listed hw ((only ..).2 written) (fun x hx => one x ((only ..).1 hx)) ?_ hm
  rw [elemKey_bank (by omega) hj]
  exact within

theorem Reached.gfxQ {s t : State} {k : Core} {c g n id : Nat} {ws : List Wr} (h : Reached s (k.leavesGfx id) c g n ws t)
    (listed : (kget g k.groups).isSome = true) (hw : ∀ w ∈ ws, w.register = true) : (t.core c).gfxQ = k.gfxQ.filter (fun x => x.id != id) := by
  rw [h.core_eq listed hw]
  rfl

namespace Reparked

variable {s t : State} {c g : Nat} (h : Reparked c g s t)
include h

theorem elem (k : Nat) : (t.group c g).elem k = (s.group c g).elem k := by
  rw [h.grp]
  rfl
theorem sreg (r : Nat) : (t.group c g).sreg r = (s.group c g).sreg r := by
  rw [h.grp]
  rfl
theorem ctrs : (t.group c g).ctrs = (s.group c g).ctrs := by rw [h.grp]
theorem mat : (t.group c g).mat = (s.group c g).mat := by rw [h.grp]
theorem sregs : (t.group c g).sregs = (s.group c g).sregs := by rw [h.grp]
theorem budget : (t.group c g).budget = (s.group c g).budget := congrArg List.length h.banks.banks

end Reparked

/-- The token that a run of a traversal leaves: 0 where no lane is left pending (R201). -/
def State.traceToken (s : State) (q : Cmd) (l : List (Nat × List Nat × Bool)) : Nat :=
  if ((s.traceRec q).pending &&& ~~~q.act) ||| pendingMask l = 0 then 0 else (s.traceRec q).token

theorem traceToken_done {s : State} {q : Cmd} {l : List (Nat × List Nat × Bool)} (others : (s.traceRec q).pending &&& ~~~q.act = 0)
    (done : ∀ y ∈ l, y.2.2 = false) : s.traceToken q l = 0 := by
  unfold State.traceToken
  rw [others, pendingMask_none done]
  rfl

theorem traceToken_left {s : State} {q : Cmd} {l : List (Nat × List Nat × Bool)}
    (left : (s.traceRec q).pending &&& ~~~q.act ≠ 0 ∨ pendingMask l ≠ 0) : s.traceToken q l = (s.traceRec q).token := by
  refine if_neg fun none_ => ?_
  obtain ⟨others, run⟩ := BitVec.or_eq_zero_iff.1 none_
  exact left.elim (absurd others) (absurd run)

/-- The rows of a run and the token that it leaves, as a traversal lands them. -/
def State.traceResults (s : State) (q : Cmd) (m x : Nat) (l : List (Nat × List Nat × Bool)) : List Wr :=
  traceWrites m l ++ [.s x (BitVec.ofNat 64 (s.traceToken q l))]

theorem traceResults_register (s : State) (q : Cmd) (m x : Nat) (l : List (Nat × List Nat × Bool)) :
    ∀ w ∈ s.traceResults q m x l, w.register = true :=
  List.forall_mem_append.2 ⟨traceWrites_register m l, List.forall_mem_singleton.2 rfl⟩

theorem rastWrites_register (q : Cmd) (m x : Nat) : ∀ w ∈ rastWrites q m x, w.register = true :=
  List.forall_mem_append.2 ⟨rowWrites_register m allLanes q.data, List.forall_mem_singleton.2 rfl⟩

section
variable {u : State} {q : Cmd} {l : List (Nat × List Nat × Bool)} {m x : Nat}

/-- A traversal that has run ends as a command with its lanes' rows and its token, and its parked record follows. -/
theorem traceEnd_reached (resident : q.gid < ghostBase) (hc : (kget q.core u.cores).isSome = true)
    (listed : (kget q.gid (u.core q.core).groups).isSome = true) (drop : q.drop = [])
    (awake : ((u.core q.core).wakeRegs q.gid ((opInfo q.op).mwr.map Prod.snd)).2 = 0) :
    ∃ v, Reached u ((u.core q.core).leavesGfx q.id) q.core q.gid 5 (u.traceResults q m x l) v
      ∧ Reparked q.core q.gid v (u.traceEnd q m x l) ∧ (u.traceEnd q m x l).mem = u.mem := by
  have reached := gfxDone_reached resident hc drop awake (u.traceResults q m x l)
  have here : (kget q.gid ((u.gfxDone q (u.traceResults q m x l)).core q.core).groups).isSome = true := by
    rw [reached.core, groups_modGroup_isSome]
    exact (landed_land (c := (u.core q.core).leavesGfx q.id) listed (traceResults_register u q m x l)).here
  refine ⟨_, reached, ?_, reached.mem⟩
  unfold State.traceEnd
  extract_lets p run pend ws tok stays keep
  exact .parked reached.here here keep

end

/-- Settles O41: a command joins the queue of the shader engines with what it captures; one that is due reaches its registers through
`Reached`, and a traversal leaves its group as it was but for what is parked (`Reparked`). -/
theorem shaderResults : Obligations.ShaderResults := by
  unfold Obligations.ShaderResults
  refine ⟨fun s g m mI a b c ch ha => ⟨fun h => ?rast, fun h continues => ?trace, fun i form h => ?tex⟩, ?completes⟩
  case rast =>
    refine (rast_accepted ha h).imp fun t ⟨keep, mem, counts, queue, b', begun, stats⟩ => ⟨keep, mem, counts, queue, ?_⟩
    intro k listed open_ first area within
    rw [stats, ← begun.lpb]
    exact rastStat_counts (by rw [begun.lpb, begun.only]; exact listed) open_ first area within
  case trace =>
    exact (trace_accepted ha h continues).imp fun t ⟨mem, counts, parked, taken⟩ =>
      ⟨mem, counts, ⟨_, parked, rfl, rfl, rfl, rfl, rfl, rfl⟩, taken⟩
  case tex =>
    rcases form with rfl | rfl
    · exact tex_accepted (o := texsOp mI a b) rfl h ha rfl
    · exact tex_accepted (o := texgOp ch mI a) rfl h ha rfl
  case completes =>
    intro s core id q find hcore hid first due tick page hg c
    subst hid hcore
    have ready : GfxReady s q.core q := ⟨find, first, due, tick, page⟩
    obtain ⟨resident, hc, listed⟩ := hasGroup_parts hg
    refine ⟨fun wall => ?crosses, fun wall drop => ?_⟩
    case crosses =>
      have core := core_modCore_same s q.core (fun k =>
        { k with gfxQ := k.gfxQ.map (fun x => if x.id == q.id then { x with wall := 0, tick := s.now + q.wall } else x) }) hc
      refine ⟨_, ready.exec_crosses wall, rfl, ?_, ?_⟩
      · unfold State.group
        rw [core]
        rfl
      · rw [core]
    intro awake gone rows
    obtain ⟨rast, texs, texg, trace⟩ := ready.exec_ends wall
    have ends (ws : List Wr) (hw : ∀ w ∈ ws, w.register = true) (h : awake) :
        Reached s (c.leavesGfx q.id) q.core q.gid 5 ws (s.gfxDone q ws) ∧ gone (s.gfxDone q ws) :=
      have reached := gfxDone_reached resident hc drop h ws
      ⟨reached, reached.falls listed hw rfl, reached.gfxQ listed hw⟩
    have sampled (m : Fin 16) (h : awake) : (s.gfxDone q (rowWrites m.val q.act q.data)).mem = s.mem
        ∧ gone (s.gfxDone q (rowWrites m.val q.act q.data)) ∧ rows (s.gfxDone q (rowWrites m.val q.act q.data)) m q.act := by
      have writes := rowWrites_register m.val q.act q.data
      obtain ⟨reached, left⟩ := ends _ writes h
      exact ⟨reached.mem, left, reached.rows listed writes fun _ _ => Iff.rfl⟩
    refine ⟨?rast, fun g m n a b op h => ⟨_, texs g m n a b op, sampled m h⟩, fun g ch m n a op h => ⟨_, texg g ch m n a op, sampled m h⟩,
      fun g m n a b x op => ⟨?fault, ?ended⟩⟩
    case rast =>
      intro g m a b x op h
      have writes := rastWrites_register q m.val x.val
      obtain ⟨reached, left⟩ := ends _ writes h
      exact ⟨_, rast g m a b x op, reached.mem, left, reached.rows listed writes fun _ _ => ⟨mem_of_scalar_last, List.mem_append_left _⟩,
        reached.sreg listed (rowWrites_register _ _ _)⟩
    case fault =>
      intro u va ran
      have here := (traceRun_reparked ran hc listed).here.trans hc
      refine ⟨_, ready.exec_fault op ran, rfl, ?_⟩
      rw [core_modCore_same u q.core _ here]
    case ended =>
      intro u l ran h canonical scalars within p others
      have lanes := traceRun_lanes ran
      have runs := traceRun_reparked ran hc listed
      have there := runs.listed.trans listed
      obtain ⟨v, reached, parks, mem⟩ := traceEnd_reached (m := m.val) (x := x.val) (l := l) resident (runs.here.trans hc) there drop
        ((runs.banks.wakeRegs _).trans h)
      have writes := traceResults_register u q m.val x.val l
      have token : ((u.traceEnd q m.val x.val l).group q.core q.gid).sreg x.val = BitVec.ofNat 64 (u.traceToken q l) :=
        (parks.sreg _).trans (reached.sreg there (traceWrites_register _ _) (runs.sregs ▸ scalars))
      refine ⟨_, trace g m n a b x u l op ran, mem, ⟨?_, ?_⟩, fun y hy k hk place => ?_, fun none_ done => ?_, fun left => ?_, fun left => ?_⟩
      · unfold Falls
        rw [parks.ctrs, reached.falls there writes rfl, runs.ctrs]
      · rw [parks.gfxQ, reached.gfxQ there writes, runs.gfxQ]
      · obtain ⟨written, one⟩ := traceWrites_place (m := m.val) lanes hy hk place
        rw [parks.elem]
        refine reached.elem there writes (List.mem_append_left _ written) (fun _ hx => one _ (mem_of_scalar_last hx)) ?_ (runs.mat ▸ canonical)
        rw [elemKey_bank (by omega) (List.mem_range.1 (List.mem_filter.1 (lanes ▸ List.mem_map_of_mem hy : y.1 ∈ lanesOf q.act)).1)]
        exact within.trans_eq runs.budget.symm
      · rw [token, traceToken_done none_ done]
        rfl
      · rw [token, traceToken_left (.inl left)]
      · rw [token, traceToken_left (.inr (pendingMask_some lanes left))]

end Sys2Proof.Machine
end

section

/-! XLATE and PROBE (R222, R226, R268, R269): a lookup reads what stood there before the issue, and the stream goes on four clk later (O25). -/

namespace Sys2Proof.Machine

variable {s a b u v t : State}

/-! ### Lookups (R226) -/

namespace Begun

theorem me (h : Begun s b) : b.me = s.me := by
  unfold State.me
  rw [h.groupKey, h.slotKey]

/-- The issuing stream looks pages up under the tag of its launch. -/
theorem tagOf (h : Begun s b) : b.tagOf s.me b.cur.core = s.tagOf s.me s.cur.core := by
  have slot := h.slot_lt
  have gid : s.me / 2 = s.cur.gid := by
    rw [h.slotKey] at slot
    unfold State.me
    omega
  have launch : (b.group b.cur.core s.cur.gid).launch = s.curGrp.launch := by
    rw [← h.groupKey]
    show b.curGrp.launch = _
    rw [h.curGrp_eq]
  have chans : (b.core b.cur.core).chans = s.curCore.chans := by
    show b.curCore.chans = _
    rw [h.core]
  unfold State.tagOf
  rw [gid, launch, chans]
  rfl

/-- A page is found as it was before the issue: in the TLBs, or among the answers of walks. -/
theorem lookup (h : Begun s b) (root va : Nat) : b.lookup b.cur.core root va = s.lookup s.cur.core root va := by
  have pages : (b.core b.cur.core).tlb = s.curCore.tlb ∧ (b.core b.cur.core).walkF = s.curCore.walkF := by
    show b.curCore.tlb = _ ∧ b.curCore.walkF = _
    rw [h.core]
    exact ⟨rfl, rfl⟩
  have dieTlb : b.dieTlb = s.dieTlb := by rw [h.only]
  unfold State.lookup State.lookupBy
  rw [h.me, h.tagOf, pages.1, pages.2, dieTlb, h.coreKey]
  rfl

theorem areg (h : Begun s b) (r : Nat) : b.curGrp.areg r = s.curGrp.areg r := by
  unfold Group.areg
  rw [h.curGrp_eq]

end Begun

/-! ### What a lookup leaves (R226) -/

/-- Translations have been used: the issuing group is as it was, and its core's pipelines stand at the same clk. -/
structure LookedUp (s t : State) : Prop extends Aside s t where
  pclk : t.curCore.pclk = s.curCore.pclk

namespace LookedUp

theorem refl (s : State) : LookedUp s s := ⟨.refl s, rfl⟩
theorem trans (h : LookedUp s t) (k : LookedUp t u) : LookedUp s u := ⟨h.toAside.trans k.toAside, k.pclk.trans h.pclk⟩
theorem of_memory (h : MemoryOnly s t) : LookedUp s t := ⟨.of_memory h, by rw [memoryOnly_curCore h]⟩

/-- The answer of a walk is read once. -/
theorem takeWalkF (hl : s.live = true) (root va : Nat) : LookedUp s (s.takeWalkF s.cur.core root va) := by
  refine ⟨(takeWalkF_aside rfl hl root va).1, ?_⟩
  have core : (s.takeWalkF s.cur.core root va).curCore = _ := curCore_modC s _ (live_parts hl).1
  rw [core]

theorem takeWalks (hl : s.live = true) (root : State → Nat) {α : Type} (va : α → Nat) (l : List α) :
    LookedUp s (l.foldl (fun x p => x.takeWalkF x.cur.core (root x) (va p)) s) :=
  List.foldlRecOn (motive := LookedUp s) l _ (.refl s) fun x hx p _ => hx.trans (takeWalkF (hx.live hl) (root x) (va p))

end LookedUp

/-! ### The clk of the next bundle -/

theorem onStream_notBefore (hl : u.live = true) (n : Nat) : OnStream u (u.notBefore n) := onStream_modS hl _

theorem curSlot_notBefore (hl : u.live = true) (n : Nat) :
    (u.notBefore n).curSlot = { u.curSlot with next := max u.curSlot.next (u.curCore.pclk + n) } := curSlot_modS u _ hl

theorem aregs_notBefore (hl : u.live = true) (n : Nat) : (u.notBefore n).curGrp.aregs = u.curGrp.aregs := by
  unfold State.notBefore
  rw [curGrp_modS u _ hl, modSlot_eq]

theorem inflight_notBefore (hl : u.live = true) (n : Nat) : (u.notBefore n).curCore.inflight = u.curCore.inflight := by
  unfold State.notBefore
  rw [curCore_modS u _ hl]
  rfl

theorem Done.next_notBefore {n : Nat} (hd : Done s (u.notBefore n) t) (hl : u.live = true) (hp : u.curCore.pclk = s.curCore.pclk) :
    s.curCore.pclk + n ≤ (s.slotIn t).next := by
  rw [hd.slot, curSlot_notBefore hl, hp]
  exact Nat.le_max_right ..

/-! ### XLATE (R222, R268) -/

variable {g : Guard} {nf : Bool} {an : AReg} {sa : SReg}

/-- Register r of the group holds the translation w. -/
def Group.translated (r : Nat) (w : BitVec 192) (g : Group) : Group := { g with aregs := sset 0 r w g.aregs }

/-- What XLATE writes for an address (R222): its translation, or the address alone where the lookup finds no page. -/
def State.translation (s : State) (va : Nat) : BitVec 192 :=
  match s.lookup s.cur.core s.root va with
  | some (.ok (leaf, size)) => xlateWord va leaf size
  | _ => BitVec.ofNat 192 va

theorem Begun.translation (h : Begun s b) (va : Nat) : b.translation va = s.translation va := by
  unfold State.translation
  rw [h.root, h.lookup]

/-- XLATE uses a translation of its address and writes what the lookup gives. -/
theorem effXlate_translates (hb : Begun s b) : ∃ v, LookedUp b v
    ∧ effXlate an sa b = (v.modG (·.translated an.val (s.translation ((s.sr sa.val).toNat % 2 ^ 56)))).notBefore 4 := by
  have missed := LookedUp.of_memory (memoryOnly_noteMisses b b.cur.core b.root [(b.sr sa.val).toNat % 2 ^ 56])
  have taken := missed.trans (.takeWalkF (missed.live hb.live) b.root ((b.sr sa.val).toNat % 2 ^ 56))
  rw [missed.cur] at taken
  refine ⟨_, taken, ?_⟩
  rw [← hb.translation, ← hb.sr]
  rfl

theorem xlate_writes (ha : s.act g ≠ 0) (h : s.issues (.xlate g nf an sa) = true) (canonical : swf (0 : BitVec 192) s.curGrp.aregs = true) :
    Yields (.xlate g nf an sa) s (fun t => (s.groupIn t).areg an.val = s.translation ((s.sr sa.val).toNat % 2 ^ 56)
      ∧ s.curCore.pclk + 4 ≤ (s.slotIn t).next) := by
  obtain ⟨hb, -⟩ := begun_of_hold h rfl
  obtain ⟨v, looked, eff⟩ := effXlate_translates (an := an) (sa := sa) hb
  generalize s.translation ((s.sr sa.val).toNat % 2 ^ 56) = w at eff ⊢
  have lv := looked.live hb.live
  have lw := live_modG v (·.translated an.val w) lv
  have on := (onStream_modG lv (·.translated an.val w) fun _ => ⟨rfl, rfl, rfl⟩).trans (onStream_notBefore lw 4)
  refine yields_of_done rfl h ha rfl eff (looked.stays.onStream.trans on) fun t d => ⟨?_, d.next_notBefore lw ?_⟩
  · have aregs : (s.groupIn t).aregs = sset 0 an.val w s.curGrp.aregs := by
      rw [d.grp]
      show ((v.modG (·.translated an.val w)).notBefore 4).curGrp.aregs = _
      rw [aregs_notBefore lw, curGrp_modG v _ lv, looked.grp, hb.curGrp_eq]
      rfl
    unfold Group.areg
    rw [aregs, sget_sset_same 0 _ _ _ canonical]
  · rw [curCore_modG v _ lv, ← hb.pclk, ← looked.pclk]
    rfl

/-! ### PROBE (R269) -/

variable {sz : Size} {vd : View} {vo : VSrc} {disp : BitVec 16}

/-- What PROBE sends: the status of each acting lane's address. -/
def State.probes (b : State) (a : BitVec 192) (x : AccOp) (vd : View) (act : W32) : List Wr :=
  viewWrites vd act fun j => BitVec.ofNat 32 (b.probeWord a x.n (b.laneOff x j))

/-- PROBE uses translations of its lanes' addresses and sends what it has found. -/
theorem effProbe_sends (hb : Begun s b) (x : AccOp) :
    ∃ v, LookedUp b v ∧ effProbe x vd b = (v.emit 3 4 (b.probes (s.curGrp.areg x.an.val) x vd (s.act x.g))).notBefore 4 := by
  have missed := LookedUp.of_memory (memoryOnly_noteMisses b b.cur.core b.root (b.slowVas x))
  have taken := missed.trans (.takeWalks (missed.live hb.live) State.root
    (fun p : Nat × Nat => (aVb (b.curGrp.areg x.an.val) + p.2) % 2 ^ 56) (b.laneOffs x))
  refine ⟨_, taken, ?_⟩
  have sent : (b.laneOffs x).map (fun p => Wr.m (vkey vd p.1) (BitVec.ofNat 32 (b.probeWord (b.curGrp.areg x.an.val) x.n p.2)))
      = b.probes (s.curGrp.areg x.an.val) x vd (s.act x.g) := by
    unfold State.laneOffs
    rw [List.map_map, hb.areg, hb.act]
    rfl
  unfold effProbe
  rw [← sent]
  rfl

theorem probe_lands (ha : s.act g ≠ 0) (h : s.issues (.probe g sz vd an vo disp) = true) :
    let i : Instr := .probe g sz vd an vo disp
    let x := probeOp g sz.bytes an vo disp
    Yields i s (fun t => s.curCore.pclk + 4 ≤ (s.slotIn t).next
      ∧ Lands s t 4 ((s.begun i).probes (s.curGrp.areg an.val) x vd (s.act g))) := by
  intro i x
  obtain ⟨hb, -⟩ := begun_of_hold h rfl
  obtain ⟨v, looked, eff⟩ := effProbe_sends (vd := vd) hb x
  generalize hw : (s.begun i).probes (s.curGrp.areg an.val) x vd (s.act g) = ws
  have nonempty : ws ≠ [] := hw ▸ viewWrites_ne_nil vd ha _
  have eff : (semOf (soloSlot i) i).eff (s.begun i) = (v.emit 3 4 ws).notBefore 4 := hw ▸ eff
  have lv := looked.live hb.live
  have sent := aside_emit v 3 4 ws
  have lw := sent.live lv
  have core := emit_core v 3 4 ws lv nonempty
  have pclk : v.curCore.pclk = s.curCore.pclk := looked.pclk.trans hb.pclk
  refine yields_of_done rfl h ha rfl eff ((looked.toAside.trans sent).stays.onStream.trans (onStream_notBefore lw 4))
    fun t d => ⟨d.next_notBefore lw (by rw [core]; exact pclk), v.resultAt 3 4 ws v.curCore.pclk, ?_, ?_, congrArg Nat.cast pclk,
      congrArg (· + 4) pclk, rfl⟩
  · show _ ∈ (s.coreIn t).inflight
    rw [d.core]
    show _ ∈ ((v.emit 3 4 ws).notBefore 4).curCore.inflight
    rw [inflight_notBefore lw, core]
    exact List.mem_append_right _ (List.mem_singleton_self _)
  · show v.cur.gid = s.cur.gid
    rw [looked.cur, hb.groupKey]

/-- Settles O25: XLATE writes what the lookup of its address gives, PROBE sends what the lookups of its lanes' addresses give, and the
stream goes on four clk later. -/
theorem translationResults : Obligations.TranslationResults := by
  unfold Obligations.TranslationResults
  exact fun s g nf an sa sz vd vo disp ha => ⟨fun h canonical => xlate_writes ha h canonical, probe_lands ha⟩

end Sys2Proof.Machine
end

section

/-! SUPPORT. The answer of a table instruction (R333): the stream keeps its registers and waits for results that come later. -/

namespace Sys2Proof.Machine

variable {s a b u t : State} {n : Nat} {ws : List Wr} {i : Instr}

/-! ### Other cores at the end of an issue -/

/-- The end of an issue acts on the issuing core alone. -/
theorem finish_elsewhere (hl : u.live = true) (hd : u.dueTrap = none) (hh : u.cur.hand = none) {d : Nat} (ne : d ≠ u.cur.core) :
    u.finish.core d = u.core d := by
  obtain ⟨f, acted, -⟩ := tailActs_core u
  rw [finish_eq hl hd hh, acted]
  exact core_modC_other u f ne

/-! ### The stream that waits -/

/-- When the stream goes on that waits for an answer (R333, log 5). -/
def State.replyClk (a : State) (n : Nat) : Nat := a.curCore.clk + n + Config.latency a.free
/-- The answer that it waits for. -/
def State.reply (a : State) (n : Nat) (ws : List Wr) : Sector :=
  { id := a.fresh, due := a.replyClk n, gid := a.cur.gid, writes := ws, pc := 0, pa := 0, bad := false, ctr := none, slots := 0,
    arr := a.replyClk n, fixed := false, wall := 0, tick := 0 }
/-- The answer is on its way. -/
def State.replying (a : State) (n : Nat) (ws : List Wr) : State :=
  { a.modC (·.expect fun _ => a.reply n ws) with fresh := a.fresh + 1, free := a.free + 1 }

theorem answer_eq (a : State) (n : Nat) (ws : List Wr) :
    a.answer n ws = (a.replying n ws).modS (fun p => { p with wait := .untilClk (a.replyClk n) }) := rfl

theorem aside_replying (a : State) (n : Nat) (ws : List Wr) : Aside a (a.replying n ws) :=
  (Aside.modC a (·.expect fun _ => a.reply n ws) fun _ => rfl).trans (.of_cores rfl rfl)

theorem stays_answer (hl : a.live = true) (n : Nat) (ws : List Wr) : Stays a (a.answer n ws) :=
  have sent := aside_replying a n ws
  sent.stays.trans (stays_wait _ _ (sent.live hl))

theorem curCore_answer (hl : a.live = true) (n : Nat) (ws : List Wr) : (a.answer n ws).curCore =
    (a.curCore.expect fun _ => a.reply n ws).modGroup a.cur.gid (·.modSlot a.cur.slot fun p => { p with wait := .untilClk (a.replyClk n) }) := by
  have core : (a.replying n ws).curCore = a.curCore.expect fun _ => a.reply n ws := curCore_modC a _ (live_parts hl).1
  rw [answer_eq, curCore_modS _ _ ((aside_replying a n ws).live hl), core]
  rfl

theorem core_answer_other (n : Nat) (ws : List Wr) {d : Nat} (ne : d ≠ a.cur.core) : (a.answer n ws).core d = a.core d :=
  (core_modC_other (a.replying n ws) _ ne).trans (core_modC_other a _ ne)

/-- t is what an issue from s answers that has come to a and then waits for the results ws: of the cores, groups, scratch banks and
answers to come alone are others. -/
structure Answered (s a : State) (n : Nat) (ws : List Wr) (t : State) : Prop where
  kept : Kept s t
  answers : Answers s t n ws
  rest : t = { a with cores := t.cores, cur := t.cur, fresh := t.fresh, free := t.free }
  core : ∀ d, t.core d = { a.core d with groups := (t.core d).groups, scratch := (t.core d).scratch, buf := (t.core d).buf,
                                         wakes := (t.core d).wakes, sectors := (t.core d).sectors }

namespace Answered

theorem mem (h : Answered s a n ws t) : t.mem = a.mem := by rw [h.rest]
theorem unit (h : Answered s a n ws t) (key : a.cur.core = s.cur.core) : s.unitIn t = a.curCore.unit s.curGrp.uid := by
  have core := h.core s.cur.core
  rw [← key] at core
  unfold State.unitIn State.coreIn
  rw [← key, core]
  rfl

end Answered

/-- The results that the stream waits for land as its wait ends. -/
theorem answers_of_done (hl : a.live = true) (gid : a.cur.gid = s.cur.gid) (clk : a.curCore.clk = s.curCore.clk)
    (hd : Done s (a.answer n ws) t) : Answers s t n ws := by
  refine ⟨a.reply n ws, ?_, gid, rfl, rfl, ?_, ?_⟩
  · rw [hd.sectors, curCore_answer hl]
    exact List.mem_append_right _ (List.mem_singleton_self _)
  · rw [← clk]
    exact Nat.le_add_right _ _
  · rw [hd.slot, answer_eq, curSlot_modS _ _ ((aside_replying a n ws).live hl)]
    rfl

/-- An instruction under which the stream stays and then waits for an answer. -/
theorem yields_answer (hi : i.isSlot = true) (h : s.issues i = true) (ha : s.act (opInfo i).guard ≠ 0)
    (hh : ((semOf (soloSlot i) i).hold s).2 = s) (he : (semOf (soloSlot i) i).eff (s.begun i) = a.answer n ws)
    (hs : Stays (s.begun i) a) (clk : a.curCore.clk = s.curCore.clk) : Yields i s (Answered s a n ws) := by
  obtain ⟨hb, on⟩ := begun_of_hold h hh
  have la := hs.live hb.live
  have stays := hs.trans (stays_answer la n ws)
  have key : (a.answer n ws).cur.core = s.cur.core := by rw [stays.cur, hb.coreKey]
  have calm : (a.answer n ws).dueTrap = none := stays.onStream.dueTrap.trans (hb.dueTrap.trans (issues_parts h).2.1)
  have d := done_finish hb stays.onStream (issues_parts h).2.1 (begun_hand s i)
  refine ⟨_, exec_of_issues i s hi h, ?_⟩
  rw [gated_eff hb ha, he]
  refine ⟨kept_of_stays hb on stays d, answers_of_done la (by rw [hs.cur, hb.groupKey]) clk d, by rw [d.rest]; rfl, fun c => ?_⟩
  by_cases here : c = s.cur.core
  · subst here
    have core := d.core
    rw [curCore_answer la] at core
    have own : a.curCore = a.core s.cur.core := by
      unfold State.curCore
      rw [← key]
      rfl
    rw [own] at core
    unfold State.coreIn at core
    rw [core]
    rfl
  · have hand : (a.answer n ws).cur.hand = none := by rw [stays.cur, begun_hand]
    rw [finish_elsewhere (stays.live hb.live) calm hand (key ▸ here), core_answer_other n ws (key ▸ here)]

end Sys2Proof.Machine
end

section

/-! TLBINV (R226, R347): what it drops from the TLBs of cores and dies, and the walks that it overtakes (O36). -/

namespace Sys2Proof.Machine

variable {s b t : State} {f : TlbEntry → Bool} {n : Nat} {ws : List Wr} {i : Instr}

/-- A core without the translations that f names. -/
def Core.dropTlb (f : TlbEntry → Bool) (k : Core) : Core := { k with tlb := k.tlb.filter (fun e => !f e) }

theorem tlbDrop_core (b : State) (f : TlbEntry → Bool) (d : Nat) : (b.tlbDrop f).core d = (b.core d).dropTlb f := by
  show (kget d (b.cores.map (fun p => (p.1, p.2.dropTlb f)))).getD (Core.start 0) = ((kget d b.cores).getD (Core.start 0)).dropTlb f
  rw [kget_map (Core.dropTlb f)]
  cases kget d b.cores with
  | none => rfl
  | some k => rfl

theorem tlbDrop_aside (b : State) (f : TlbEntry → Bool) : Aside b (b.tlbDrop f) := by
  have groups : ((b.tlbDrop f).core b.cur.core).groups = b.curCore.groups := by rw [tlbDrop_core]; rfl
  have here : (kget b.cur.core (b.tlbDrop f).cores).isSome = (kget b.cur.core b.cores).isSome := by
    show (kget _ (b.cores.map (fun p => (p.1, p.2.dropTlb f)))).isSome = _
    rw [kget_map (Core.dropTlb f), Option.isSome_map]
  have live : (b.tlbDrop f).live = b.live := live_of_here rfl here (by rw [groups]; rfl)
  exact ⟨rfl, live.trans, curGrp_of_groups rfl groups⟩

/-- What f names has gone from the TLBs of every core and every die, and no walk under way installs what it has read (R347). -/
def Dropped (s : State) (f : TlbEntry → Bool) (t : State) : Prop :=
  (∀ c, (t.core c).tlb = (s.core c).tlb.filter (fun e => !f e))
    ∧ (∀ d, (kget d t.dieTlb).getD [] = ((kget d s.dieTlb).getD []).filter (fun e => !f e))
    ∧ (∀ d, (kget d t.dieTab).getD [] = ((kget d s.dieTab).getD []).filter (fun e => !f e))
    ∧ ∀ d, ∀ w ∈ (kget d t.walks).getD [], w.stale = true

theorem getD_kget_filter (p : TlbEntry → Bool) (m : Sparse (List TlbEntry)) (d : Nat) :
    (kget d (m.map (fun q => (q.1, q.2.filter p)))).getD [] = ((kget d m).getD []).filter p := by
  rw [kget_map (List.filter p)]
  cases kget d m with
  | none => rfl
  | some l => rfl

/-- A walk that a TLBINV has overtaken: it installs nothing. -/
def Walk.overtaken (w : Walk) : Walk := { w with stale := true }

theorem tlbDrop_walks_stale (b : State) (f : TlbEntry → Bool) (d : Nat) : ∀ w ∈ (kget d (b.tlbDrop f).walks).getD [], w.stale = true := by
  intro w hw
  rw [show (b.tlbDrop f).walks = b.walks.map (fun p => (p.1, p.2.map Walk.overtaken)) from rfl, kget_map (List.map Walk.overtaken)] at hw
  cases listed : kget d b.walks with
  | none => simp [listed] at hw
  | some l =>
    rw [listed] at hw
    obtain ⟨_, -, rfl⟩ := List.mem_map.1 hw
    rfl

theorem Begun.tlb (h : Begun s b) (c : Nat) : (b.core c).tlb = (s.core c).tlb := by
  by_cases here : c = s.cur.core
  · rw [here, ← h.coreKey]
    exact (congrArg Core.tlb h.core).trans (by rw [h.coreKey]; rfl)
  · rw [h.cores c here]

theorem Answered.dropped (hb : Begun s b) (h : Answered s (b.tlbDrop f) n ws t) : Dropped s f t := by
  have dies : t.dieTlb = (b.tlbDrop f).dieTlb ∧ t.dieTab = (b.tlbDrop f).dieTab ∧ t.walks = (b.tlbDrop f).walks := by
    rw [h.rest]
    exact ⟨rfl, rfl, rfl⟩
  obtain ⟨dieTlb, dieTab, walks⟩ := dies
  refine ⟨fun c => ?_, fun d => ?_, fun d => ?_, fun d => ?_⟩
  · rw [h.core, tlbDrop_core, ← hb.tlb]
    rfl
  · rw [dieTlb, show s.dieTlb = b.dieTlb by rw [hb.only]]
    exact getD_kget_filter ..
  · rw [dieTab, show s.dieTab = b.dieTab by rw [hb.only]]
    exact getD_kget_filter ..
  · rw [walks]
    exact tlbDrop_walks_stale b f d

/-- An instruction that drops translations and answers a thousand clk on. -/
theorem tlbinv_drops (hi : i.isSlot = true) (h : s.issues i = true) (ha : s.act (opInfo i).guard ≠ 0)
    (hh : ((semOf (soloSlot i) i).hold s).2 = s)
    (he : ∀ b, Begun s b → (semOf (soloSlot i) i).eff b = (b.tlbDrop f).answer 1000 []) :
    Yields i s (fun t => Kept s t ∧ t.mem = s.mem ∧ Answers s t 1000 [] ∧ Dropped s f t) := by
  obtain ⟨hb, -⟩ := begun_of_hold h hh
  have aside := tlbDrop_aside (s.begun i) f
  have clk : ((s.begun i).tlbDrop f).curCore.clk = s.curCore.clk := by
    rw [← hb.clk]
    show (((s.begun i).tlbDrop f).core (s.begun i).cur.core).clk = _
    rw [tlbDrop_core]
    rfl
  exact (yields_answer hi h ha hh (he _ hb) aside.stays clk).imp fun t a => ⟨a.kept, a.mem.trans hb.mem, a.answers, a.dropped hb⟩

end Sys2Proof.Machine
end

section

/-! TSTLD and CLASS (R339 to R341, R344, R345): the images that a gang loads, the rows of the class table, and quads that move (O36). -/

namespace Sys2Proof.Machine

variable {s b r t : State} {g : Guard} {sV sB sR sD : SReg}

/-! ### TSTLD (R339 to R341) -/

theorem memoryOnly_settleTst (s : State) (va : Nat) : MemoryOnly s (s.settleTst va) := by
  have header := memoryOnly_settleV s s.cur.core s.root va 64
  unfold State.settleTst
  dsimp only
  repeat' split
  · exact .refl s
  · exact header
  · exact header
  · exact header.trans (memoryOnly_settleV ..)

theorem memoryOnly_units (h : MemoryOnly b r) : r.curCore.units = b.curCore.units := by rw [memoryOnly_curCore h]

/-- The unit of the stream as an instruction reads it that has acted in memory. -/
theorem Begun.unit_read (hb : Begun s b) (read : MemoryOnly b r) : r.curCore.unit s.curGrp.uid = b.curUnit := by
  unfold State.curUnit Core.unit
  rw [memoryOnly_units read, hb.uid]

theorem Begun.curWeave (hb : Begun s b) (read : MemoryOnly b r) : r.curWeave = s.curWeave := by
  obtain ⟨_, unit⟩ := hb.unit
  have same : r.curUnit = b.curUnit := by
    unfold State.curUnit Core.unit
    rw [memoryOnly_units read, read.curGrp]
  have weaves : r.weaves = s.weaves := by rw [read.rest, hb.only]
  unfold State.curWeave
  rw [same, unit, weaves]

/-- A gang with the store that an image gives. -/
def WUnit.withTst (x : TstStore) (u : WUnit) : WUnit := { u with tst := x }

theorem stays_modU (s : State) (f : WUnit → WUnit) : Stays s (s.modU f) := .modC s _ fun _ => rfl

/-- What TSTLD does once its image is read, in state r. -/
theorem effTstld_read (hb : Begun s b) (hr : (b.flush s.cur.core).settleTst (s.sr sV.val).toNat = r) :
    MemoryOnly b r
      ∧ (∀ x, r.tstRead (s.sr sV.val).toNat s.curWeave = .ok x →
          effTstld sD sV b = (r.modU (·.withTst x)).answer (40 + x.entries.length) [.s sD.val 0])
      ∧ ∀ c n, r.tstRead (s.sr sV.val).toNat s.curWeave = .error (c, n) →
          effTstld sD sV b = r.answer 40 [.s sD.val (BitVec.ofNat 64 (c + n * 2 ^ 16))] := by
  have read : MemoryOnly b r := hr ▸ (memoryOnly_flush b _).trans (memoryOnly_settleTst ..)
  have weave := hb.curWeave read
  have operand : r.sr sV.val = s.sr sV.val := by
    rw [← hb.sr]
    unfold State.sr
    rw [read.curGrp]
  rw [← hb.coreKey, ← hb.sr] at hr
  unfold effTstld
  dsimp only
  rw [hr, operand, weave]
  refine ⟨read, fun x hx => ?_, fun c n hx => ?_⟩
  · rw [hx]
    rfl
  · rw [hx]

theorem tstld_eff : (semOf (soloSlot (.tstld g sD sV)) (.tstld g sD sV)).eff = effTstld sD sV := rfl

theorem tstld_answers (ha : s.act g ≠ 0) (h : s.issues (.tstld g sD sV) = true) (housed : s.housed = true)
    (hr : ((s.begun (.tstld g sD sV)).flush s.cur.core).settleTst (s.sr sV.val).toNat = r) :
    (∀ x, r.tstRead (s.sr sV.val).toNat s.curWeave = .ok x → Yields (.tstld g sD sV) s (fun t => Kept s t ∧ (s.unitIn t).tst = x
        ∧ Answers s t (40 + x.entries.length) [.s sD.val 0]))
      ∧ ∀ c n, r.tstRead (s.sr sV.val).toNat s.curWeave = .error (c, n) → Yields (.tstld g sD sV) s (fun t => Kept s t
        ∧ (s.unitIn t).tst = s.curUnit.tst ∧ Answers s t 40 [.s sD.val (BitVec.ofNat 64 (c + n * 2 ^ 16))]) := by
  obtain ⟨hb, -⟩ := begun_of_hold h rfl
  obtain ⟨read, installs, rejects⟩ := effTstld_read (sD := sD) hb hr
  have unit := hb.unit_read read
  have key : r.cur.core = s.cur.core := by rw [read.cur, hb.coreKey]
  have clk : r.curCore.clk = s.curCore.clk := by rw [memoryOnly_curCore read, ← hb.clk]
  refine ⟨fun x hx => ?_, fun c n hx => ?_⟩
  · have core : (r.modU (·.withTst x)).curCore = r.curCore.modUnit s.curGrp.uid (·.withTst x) := by
      unfold State.modU
      rw [read.curGrp, hb.uid]
      exact curCore_modC r _ (live_parts (read.live.trans hb.live)).1
    have there : (kget s.curGrp.uid r.curCore.units).isSome = true := by
      rw [memoryOnly_units read]
      exact housed_begun rfl housed
    refine (yields_answer rfl h ha rfl (tstld_eff ▸ installs x hx) (read.stays.trans (stays_modU r _))
      (by rw [core]; exact clk)).imp fun t a => ⟨a.kept, ?_, a.answers⟩
    rw [a.unit key, core, unit_modUnit_same _ _ _ there]
    rfl
  · refine (yields_answer rfl h ha rfl (tstld_eff ▸ rejects c n hx) read.stays clk).imp fun t a => ⟨a.kept, ?_, a.answers⟩
    obtain ⟨_, same⟩ := hb.unit
    rw [a.unit key, unit, same]

/-! ### CLASS (R344, R345) -/

/-- An effect outside the cores, before a wait. -/
theorem yields_answer_aside {i : Instr} {a : State} {n : Nat} {ws : List Wr} (hi : i.isSlot = true) (h : s.issues i = true)
    (ha : s.act (opInfo i).guard ≠ 0) (hh : ((semOf (soloSlot i) i).hold s).2 = s)
    (he : (semOf (soloSlot i) i).eff (s.begun i) = a.answer n ws) (cur : a.cur = (s.begun i).cur) (cores : a.cores = (s.begun i).cores) :
    Yields i s (Answered s a n ws) := by
  refine yields_answer hi h ha hh he (.of_cores cur cores) ?_
  rw [← (begun_of_hold h hh).1.clk]
  unfold State.curCore State.core
  rw [cur, cores]

/-- Units that wait again are those of pending dispatches and of their launches. -/
theorem unpend_rest (s : State) (f : Pend → Bool) :
    s.unpend f = { s with pending := (s.unpend f).pending, launches := (s.unpend f).launches } := by
  unfold State.unpend
  dsimp only
  refine List.foldlRecOn (motive := fun y : State => y = { s with pending := y.pending, launches := y.launches }) _ _ rfl fun y hy p _ => ?_
  unfold State.modLaunch
  rw [hy]

/-- `class.wr` puts a word of a row, and the units of a class that is not granted wait again. -/
theorem effClassWr_puts (hb : Begun s b) : ∃ a : State, effClassWr sB sV b = a.answer 100 []
    ∧ a.cur = b.cur ∧ a.cores = b.cores ∧ a.mem = b.mem ∧ a.classes = s.classes.set (fld (s.sr sB.val).toNat 0 2)
        ((s.classRow (fld (s.sr sB.val).toNat 0 2)).put (fld (s.sr sB.val).toNat 2 2) (s.sr sV.val).toNat) := by
  have classes : b.classes = s.classes := by rw [hb.only]
  have row (c : Nat) : b.classRow c = s.classRow c := by
    unfold State.classRow
    rw [classes]
  refine ⟨_, rfl, ?_⟩
  rw [hb.sr, hb.sr, row, classes]
  split
  · exact ⟨rfl, rfl, rfl, rfl⟩
  · rw [unpend_rest]
    exact ⟨rfl, rfl, rfl, rfl⟩

theorem classWr_puts (ha : s.act g ≠ 0) (h : s.issues (.classWr g sB sV) = true) :
    let x := (s.sr sB.val).toNat
    Yields (.classWr g sB sV) s (fun t => Kept s t ∧ t.mem = s.mem ∧ Answers s t 100 []
      ∧ t.classes = s.classes.set (fld x 0 2) ((s.classRow (fld x 0 2)).put (fld x 2 2) (s.sr sV.val).toNat)) := by
  obtain ⟨hb, -⟩ := begun_of_hold h rfl
  obtain ⟨a, eff, cur, cores, mem, classes⟩ := effClassWr_puts hb
  refine (yields_answer_aside rfl h ha rfl eff cur cores).imp fun t d => ⟨d.kept, d.mem.trans (mem.trans hb.mem), d.answers, ?_⟩
  rw [← classes, d.rest]

/-- `class.rd` reads a word of a row. -/
theorem classRd_reads (ha : s.act g ≠ 0) (h : s.issues (.classRd g sD sB) = true) :
    let x := (s.sr sB.val).toNat
    Yields (.classRd g sD sB) s (fun t => Kept s t ∧ t.mem = s.mem ∧ t.classes = s.classes
      ∧ Answers s t 100 [.s sD.val (BitVec.ofNat 64 (s.classWord (fld x 0 2) (fld x 2 2)))]) := by
  intro x
  obtain ⟨hb, -⟩ := begun_of_hold h rfl
  have classes : (s.begun (.classRd g sD sB)).classes = s.classes := by rw [hb.only]
  have word (c w : Nat) : (s.begun (.classRd g sD sB)).classWord c w = s.classWord c w := by
    unfold State.classWord State.classRow
    rw [hb.only]
  have eff : effClassRd sD sB (s.begun (.classRd g sD sB))
      = (s.begun (.classRd g sD sB)).answer 100 [.s sD.val (BitVec.ofNat 64 (s.classWord (fld x 0 2) (fld x 2 2)))] := by
    unfold effClassRd
    dsimp only
    rw [hb.sr, word]
  exact (yields_answer_aside rfl h ha rfl eff rfl rfl).imp fun t d => ⟨d.kept, d.mem.trans hb.mem, by rw [← classes, d.rest], d.answers⟩

/-- A quad that is closed for a move stays so, whether or not its operating point changes already. -/
theorem quadMove_moving {q c : Nat} {y : Quad} (listed : kget q s.quads = some y) (closed : y.moving = some (c, none)) :
    ∃ z u, kget q (s.quadMove q).quads = some z ∧ z.moving = some (c, u) := by
  unfold State.quadMove
  rw [listed, Option.bind_some, closed]
  dsimp only
  split
  · exact ⟨y, none, listed, closed⟩
  · refine ⟨{ y with moving := some (c, some (s.now + (1 + Config.latency s.free % 49999) * tickNs)) }, _, ?_, rfl⟩
    rw [kget_kmod_same, listed]
    rfl

theorem quadMove_rest (s : State) (q : Nat) : s.quadMove q = { s with quads := (s.quadMove q).quads, free := (s.quadMove q).free } := by
  unfold State.quadMove
  repeat' split
  all_goals rfl

/-- `class.mv` closes its quad and asks for its wake. -/
theorem effClassMv_closes (hb : Begun s b)
    (listed : (kget (fld (s.sr sB.val).toNat 0 4 * 64 + fld (s.sr sB.val).toNat 8 6) s.quads).isSome = true) :
    let x := (s.sr sB.val).toNat
    ∃ a : State, effClassMv sB sR b = a.answer 100 [] ∧ a.cur = b.cur ∧ a.cores = b.cores ∧ a.mem = b.mem
      ∧ a.agenda = s.agenda ++ [.quadWakeRequest (fld x 0 4) (fld x 8 6)]
      ∧ ∃ (y : Quad) (u : Option Nat), kget (fld x 0 4 * 64 + fld x 8 6) a.quads = some y
          ∧ y.moving = some (fld (s.sr sR.val).toNat 0 2, u) := by
  intro x
  obtain ⟨y, hy⟩ := Option.isSome_iff_exists.1 listed
  have quads : b.quads = s.quads := by rw [hb.only]
  have agenda : b.agenda = s.agenda := by rw [hb.only]
  refine ⟨_, rfl, ?_⟩
  rw [hb.sr, hb.sr, quadMove_rest, unpend_rest]
  refine ⟨rfl, rfl, rfl, by rw [← agenda], ?_⟩
  refine quadMove_moving (y := { y with moving := some (fld (s.sr sR.val).toNat 0 2, none) }) ?_ rfl
  show kget _ (kmod _ _ b.quads) = _
  rw [kget_kmod_same, quads, hy]
  rfl

theorem classMv_closes (ha : s.act g ≠ 0) (h : s.issues (.classMv g sB sR) = true) :
    let x := (s.sr sB.val).toNat
    Yields (.classMv g sB sR) s (fun t => Kept s t ∧ t.mem = s.mem ∧ Answers s t 100 []
      ∧ t.agenda = s.agenda ++ [.quadWakeRequest (fld x 0 4) (fld x 8 6)]
      ∧ ∃ y u, kget (fld x 0 4 * 64 + fld x 8 6) t.quads = some y ∧ y.moving = some (fld (s.sr sR.val).toNat 0 2, u)) := by
  intro x
  obtain ⟨hb, -⟩ := begun_of_hold h rfl
  have listed : (kget (fld x 0 4 * 64 + fld x 8 6) s.quads).isSome = true := by
    obtain ⟨-, -, -, checks, -⟩ := issues_parts h
    have chk : chkClassMv sB s = .ok := passes_chk checks ha
    have there := Chk.when_eq_ok.1 chk
    simp only [Bool.or_eq_false_iff, Option.isNone_eq_false_iff] at there
    exact there.2
  obtain ⟨a, eff, cur, cores, mem, agenda, closed⟩ := effClassMv_closes (sR := sR) hb listed
  refine (yields_answer_aside rfl h ha rfl eff cur cores).imp fun t d => ⟨d.kept, d.mem.trans (mem.trans hb.mem), d.answers, ?_⟩
  rw [d.rest]
  exact ⟨agenda, closed⟩

/-- Settles O36: each instruction acts as it issues, on TLBs, on its unit's store or on the class table, and its stream waits for the
answer. -/
theorem tableResults : Obligations.TableResults := by
  unfold Obligations.TableResults
  intro s g sV sB sR sD ha drops
  refine ⟨fun h => ?range, fun h => ?root, fun h => ?all, fun h housed => tstld_answers ha h housed rfl, classWr_puts ha, classRd_reads ha,
    classMv_closes ha⟩
  case range => exact tlbinv_drops rfl h ha rfl fun b hb => by rw [← hb.sr, ← hb.sr, ← hb.sr]; rfl
  case root => exact tlbinv_drops rfl h ha rfl fun b hb => by rw [← hb.sr]; rfl
  case all => exact tlbinv_drops rfl h ha rfl fun b hb => rfl

end Sys2Proof.Machine
end

section

/-! SUPPORT. Lines of a core's path that are cleaned one after the other (R248, R271): each stays in its place without a dirty byte, and what
it held dirty stands at home. -/

namespace Sys2Proof.Machine

variable {s : State} {c j k : Nat} {ks : List Nat}

/-! ### One line -/

/-- A line whose dirty bytes have gone home. -/
def Line.cleaned (l : Line) : Line := { l with dirty := List.replicate 128 false, since := none, writers := [] }

theorem cleanLine_of_some {l : Line} (h : kget k (s.core c).lines = some l) :
    s.cleanLine c k = (s.writeDirty k l (List.range 128)).modCore c (·.keepClean k l) := by
  unfold State.cleanLine
  rw [h]
  rfl

theorem cleanLine_of_none (h : kget k (s.core c).lines = none) : s.cleanLine c k = s := by
  unfold State.cleanLine
  rw [h]

/-- A core that is not there holds no line. -/
theorem listed_of_line {l : Line} (h : kget k (s.core c).lines = some l) : (kget c s.cores).isSome = true := by
  cases hc : kget c s.cores with
  | some d => rfl
  | none =>
    unfold State.core at h
    rw [hc] at h
    cases h

theorem cleanLine_lines (s : State) (c k : Nat) : ((s.cleanLine c k).core c).lines = kmod k Line.cleaned (s.core c).lines := by
  unfold kmod
  cases h : kget k (s.core c).lines with
  | none => rw [cleanLine_of_none h]
  | some l =>
    have cores := writeDirty_cores s k l (List.range 128)
    have core : (s.writeDirty k l (List.range 128)).core c = s.core c := by unfold State.core; rw [cores]
    rw [cleanLine_of_some h, core_modCore_same _ c _ (by rw [cores]; exact listed_of_line h), core]
    rfl

theorem mem_kset {α : Type} {v : α} {m : Sparse α} {p : Nat × α} (h : p ∈ kset k v m) : p = (k, v) ∨ p ∈ m := by
  induction m with
  | nil => exact .inl (List.mem_singleton.1 h)
  | cons q r ih =>
    obtain ⟨k', v'⟩ := q
    unfold kset at h
    split at h
    · exact List.mem_cons.1 h
    · split at h
      · exact (List.mem_cons.1 h).imp_right (List.mem_cons_of_mem _)
      · rcases List.mem_cons.1 h with rfl | h
        · exact .inr List.mem_cons_self
        · exact (ih h).imp_right (List.mem_cons_of_mem _)

theorem srising_kset {α : Type} (k : Nat) (v : α) {m : Sparse α} (h : srising m = true) : srising (kset k v m) = true := by
  induction m with
  | nil => rfl
  | cons q r ih =>
    obtain ⟨k', v'⟩ := q
    obtain ⟨below, rises⟩ := (srising_cons ..).1 h
    unfold kset
    split
    case isTrue lt =>
      refine (srising_cons ..).2 ⟨List.forall_mem_cons.2 ⟨lt, fun p hp => lt.trans (below p hp)⟩, h⟩
    case isFalse ge =>
      split
      case isTrue e => exact (srising_cons ..).2 ⟨e ▸ below, rises⟩
      case isFalse ne =>
        refine (srising_cons ..).2 ⟨fun p hp => ?_, ih rises⟩
        rcases mem_kset hp with rfl | hp
        · dsimp only
          omega
        · exact below p hp

/-- What the dirty bytes of a line leave is what its drop leaves, but for its place in the path. -/
theorem stands_cleanLine {a : Nat} {x : Byte} (h : Stands (s.dropLine c k) a x) : Stands (s.cleanLine c k) a x := ⟨h.byte, h.free⟩

theorem linesOk_cleanLine (h : LinesOk s c) (k : Nat) : LinesOk (s.cleanLine c k) c := by
  have dropped := (dropLine_stands h k).1.exact_
  have exact_ : ExactOk (s.cleanLine c k) := ⟨dropped.rises, dropped.word, dropped.mem⟩
  cases hk : kget k (s.core c).lines with
  | none => rwa [cleanLine_of_none hk]
  | some l =>
    have lines : ((s.cleanLine c k).core c).lines = kset k l.cleaned (s.core c).lines := by
      rw [cleanLine_lines]
      unfold kmod
      rw [hk]
    refine ⟨lines ▸ srising_kset k _ h.rises, fun p hp => ?_, exact_⟩
    rw [canon_of_memory (memoryOnly_cleanLine s c k)]
    rcases mem_kset (lines ▸ hp) with rfl | hp
    · exact h.canon (k, l) (mem_of_kget hk)
    · exact h.canon p hp

/-! ### Several lines -/

/-- Lines ks of a core are written back, one after the other. -/
def State.cleanLines (s : State) (c : Nat) (ks : List Nat) : State := ks.foldl (fun s k => s.cleanLine c k) s

theorem memoryOnly_cleanLines (s : State) (c : Nat) (ks : List Nat) : MemoryOnly s (s.cleanLines c ks) :=
  .foldl (fun u k => memoryOnly_cleanLine u c k) ks s

/-- Core c holds no dirty byte in line k. -/
def State.cleanAt (s : State) (c k : Nat) : Prop := ∀ l, kget k (s.core c).lines = some l → l.dirty = List.replicate 128 false

theorem cleanAt_cleanLine (s : State) (c k : Nat) : (s.cleanLine c k).cleanAt c k := by
  intro l hl
  rw [cleanLine_lines, kget_kmod_same] at hl
  obtain ⟨_, -, rfl⟩ := Option.map_eq_some_iff.1 hl
  rfl

theorem State.cleanAt.cleanLine (h : s.cleanAt c j) (k : Nat) : (s.cleanLine c k).cleanAt c j := by
  by_cases ne : j = k
  · exact ne ▸ cleanAt_cleanLine s c j
  · intro l hl
    rw [cleanLine_lines, kget_kmod_other ne] at hl
    exact h l hl

theorem State.cleanAt.cleanLines (h : s.cleanAt c k) (ks : List Nat) : (s.cleanLines c ks).cleanAt c k :=
  List.foldlRecOn (motive := fun u : State => u.cleanAt c k) ks _ h fun _ hu j _ => hu.cleanLine j

theorem cleanAt_cleanLines (hk : k ∈ ks) (s : State) : (s.cleanLines c ks).cleanAt c k := by
  obtain ⟨before, after, rfl⟩ := List.append_of_mem hk
  unfold State.cleanLines
  rw [List.foldl_append]
  exact (cleanAt_cleanLine _ c k).cleanLines after

/-- A line stands in its place, and what stands at its home stands, while other lines go home. -/
theorem cleanLines_others (h : LinesOk s c) (hk : s.canon (k * 128) = k * 128) (ne : k ∉ ks) : LinesOk (s.cleanLines c ks) c
    ∧ kget k ((s.cleanLines c ks).core c).lines = kget k (s.core c).lines
    ∧ ∀ n x, n < 128 → Stands s (k * 128 + n) x → Stands (s.cleanLines c ks) (k * 128 + n) x := by
  induction ks generalizing s with
  | nil => exact ⟨h, rfl, fun _ _ _ hs => hs⟩
  | cons j r ih =>
    obtain ⟨nj, nr⟩ := not_or.1 (List.mem_cons.not.1 ne)
    obtain ⟨ok, place, stands⟩ := ih (linesOk_cleanLine h j) ((canon_of_memory (memoryOnly_cleanLine s c j) _).trans hk) nr
    refine ⟨ok, place.trans ?_, fun n x hn hs => stands n x hn (stands_cleanLine ((dropLine_stands h j).2.2 _ x (fun m hm => ?_) hs))⟩
    · rw [cleanLine_lines, kget_kmod_other nj]
    · rw [canon_line hk hn]
      omega

/-- What the lines held dirty stands at home once they have been cleaned. -/
theorem cleanLines_stand (h : LinesOk s c) (hd : ks.Nodup) (hk : k ∈ ks) {l : Line} (hl : kget k (s.core c).lines = some l) {n : Nat}
    (hn : n < 128) (hb : l.dirty.getD n false = true) : Stands (s.cleanLines c ks) (k * 128 + n) (l.data.getD n 0) := by
  obtain ⟨before, after, rfl⟩ := List.append_of_mem hk
  have alone := (List.nodup_middle.1 hd).notMem
  obtain ⟨nb, na⟩ := not_or.1 (List.mem_append.not.1 alone)
  have canon := h.canon _ (mem_of_kget hl)
  obtain ⟨ok, place, -⟩ := cleanLines_others h canon nb
  have own := (dropLine_stands ok k).2.1 l (place.trans hl) n hn hb
  have canon' := (canon_of_memory ((memoryOnly_cleanLines s c before).trans (memoryOnly_cleanLine _ c k)) _).trans canon
  have kept := (cleanLines_others (linesOk_cleanLine ok k) canon' na).2.2 n _ hn (stands_cleanLine own)
  unfold State.cleanLines at kept ⊢
  rw [List.foldl_append]
  exact kept

end Sys2Proof.Machine
end

section

/-! SUPPORT. Reads through a core's path that write no byte of memory (R216, R244, R248): where no exact-sum line is open and no line of the
path holds a dirty byte, none settles and none goes home as a line makes room. -/

namespace Sys2Proof.Machine

variable {s t u : State} {c : Nat}

/-- No line of core c holds a dirty byte. -/
def State.pathClean (s : State) (c : Nat) : Prop := ∀ p ∈ (s.core c).lines, ∀ k, p.2.dirty.getD k false = false

/-- Where nothing waits to go home from core c or to settle, no byte of memory has changed, and still nothing waits. -/
structure WritesNone (c : Nat) (s t : State) : Prop where
  still : s.exact = [] → s.pathClean c → t.mem = s.mem ∧ t.exact = [] ∧ t.pathClean c

/-- A core that waits for sector f. -/
def Core.sends (k : Core) (f : Sector) : Core := { k with sectors := k.sectors ++ [f] }

/-- What holds a request slot of core d for a sector of group g until it is served (R277). -/
def State.requestAt (s : State) (d g : Nat) (p : Nat × Nat) : Sector :=
  let due := (s.core d).clk + 1 + Config.latency s.free
  { id := s.fresh, due := due, gid := g, writes := [], pc := 0, pa := p.1 * 32, bad := false, ctr := none, slots := 1, arr := due,
    fixed := false, wall := p.2, tick := 0 }

/-- One request slot is held. -/
def State.holdSlot (s : State) (d g : Nat) (p : Nat × Nat) : State :=
  { s.modCore d (·.sends (s.requestAt d g p)) with fresh := s.fresh + 1, free := s.free + 1 }

theorem holdSlots_cons (s : State) (d g : Nat) (p : Nat × Nat) (r : List (Nat × Nat)) :
    s.holdSlots d g (p :: r) = (s.holdSlot d g p).holdSlots d g r := rfl

namespace WritesNone

theorem refl (c : Nat) (s : State) : WritesNone c s s := ⟨fun sums clean => ⟨rfl, sums, clean⟩⟩

theorem trans (a : WritesNone c s t) (b : WritesNone c t u) : WritesNone c s u where
  still sums clean :=
    have ⟨mem, sums', clean'⟩ := a.still sums clean
    have ⟨mem', rest⟩ := b.still sums' clean'
    ⟨mem'.trans mem, rest⟩

theorem foldl {α : Type} {f : State → α → State} (hf : ∀ u x, WritesNone c u (f u x)) (l : List α) (s : State) : WritesNone c s (l.foldl f s) :=
  List.foldlRecOn (motive := WritesNone c s) l f (.refl c s) fun u hu x _ => hu.trans (hf u x)

/-- A change of a core whose lines are none that hold a dirty byte but those that it had. -/
theorem modCore (s : State) (d : Nat) (f : Core → Core)
    (hf : ∀ k, ∀ p ∈ (f k).lines, p ∈ k.lines ∨ ∀ n, p.2.dirty.getD n false = false) : WritesNone c s (s.modCore d f) := by
  refine ⟨fun sums clean => ⟨rfl, sums, fun p hp => ?_⟩⟩
  rcases core_modCore_or s d c f with ⟨-, e⟩ | e <;> rw [e] at hp
  · exact (hf _ p hp).elim (clean p) id
  · exact clean p hp

theorem sameLines (s : State) (d : Nat) (f : Core → Core) (hf : ∀ k, (f k).lines = k.lines) : WritesNone c s (s.modCore d f) :=
  modCore s d f fun k _ hp => .inl (hf k ▸ hp)

theorem bump (s : State) (d e n : Nat) : WritesNone c s (s.bump d e n) := by
  unfold State.bump
  dsimp only
  split
  · exact refl c s
  · exact sameLines _ _ _ fun _ => rfl

theorem noteMisses (s : State) (d root : Nat) (vas : List Nat) : WritesNone c s (s.noteMisses d root vas) := by
  refine foldl (fun u p => ?_) _ s
  dsimp only
  repeat' split
  · exact refl c u
  · exact (bump u _ _ _).trans (sameLines _ _ _ fun _ => rfl)
  · exact bump u _ _ _

/-- Without an open sum a read at the home settles nothing. -/
theorem homeRead (s : State) (pa n ty : Nat) : WritesNone c s (s.homeRead pa n ty).2 := by
  refine ⟨fun sums clean => ?_⟩
  have settled : s.settleRange pa n = s := by
    unfold State.settleRange State.openWords
    rw [sums]
    rfl
  unfold State.homeRead
  rw [settled]
  dsimp only
  repeat' split
  all_goals exact ⟨rfl, sums, clean⟩

/-- A line without a dirty byte goes and writes nothing. -/
theorem dropLine (s : State) (k : Nat) : WritesNone c s (s.dropLine c k) := by
  refine ⟨fun sums clean => ?_⟩
  have kept (p : Nat × Line) (hp : p ∈ ((s.dropLine c k).core c).lines) : p ∈ (s.core c).lines := by
    rw [dropLine_lines] at hp
    exact (mem_kdel.1 hp).1
  have same : (s.dropLine c k).mem = s.mem ∧ (s.dropLine c k).exact = [] := by
    cases hk : kget k (s.core c).lines with
    | none =>
      rw [dropLine_of_none hk]
      exact ⟨rfl, sums⟩
    | some l =>
      rw [dropLine_of_some hk, writeDirty_of_clean (clean _ (mem_of_kget hk))]
      exact ⟨rfl, sums⟩
  exact ⟨same.1, same.2, fun p hp => clean p (kept p hp)⟩

theorem addLine (s : State) (k : Nat) {l : Line} (hl : ∀ n, l.dirty.getD n false = false) : WritesNone c s (s.addLine c k l) := by
  have added : WritesNone c s (s.modCore c (fun d => { d with lines := kset k l d.lines })) :=
    modCore _ _ _ fun d p hp => (mem_kset hp).symm.imp_right (by rintro rfl; exact hl)
  unfold State.addLine
  dsimp only
  repeat' split
  · exact added
  · exact added
  · exact added.trans (dropLine _ _)

theorem noteBad (s : State) (d k : Nat) : WritesNone c s (s.noteBad d k) := sameLines _ _ _ fun _ => rfl

theorem readHome (s : State) (pa n ty : Nat) : WritesNone c s (s.readHome c pa n ty).2 := by
  unfold State.readHome
  split
  · exact homeRead ..
  · split
    · exact (dropLine s _).trans (homeRead ..)
    · exact homeRead ..

theorem loadG (s : State) (launch pa n scope ty : Nat) : WritesNone c s (s.loadG c launch pa n scope ty).2 := by
  unfold State.loadG
  dsimp only
  split
  · split
    · exact bump ..
    · refine WritesNone.trans ?_ (addLine _ _ fun n => List.getElem?_getD_replicate_default_eq false 128 n)
      exact ((bump s c 6 1).trans (homeRead ..)).trans (noteBad ..)
  · exact readHome ..

theorem holdSlots (s : State) (d g : Nat) (l : List (Nat × Nat)) : WritesNone c s (s.holdSlots d g l) := by
  induction l generalizing s with
  | nil => exact refl c s
  | cons p r ih =>
    have held : WritesNone c s (s.holdSlot d g p) := ⟨(sameLines s d (·.sends (s.requestAt d g p)) fun _ => rfl).still⟩
    rw [holdSlots_cons]
    exact held.trans (ih _)

end WritesNone

/-- Request slots are held beside the issuing group. -/
theorem aside_holdSlots {d : Nat} (hd : d = s.cur.core) (g : Nat) (l : List (Nat × Nat)) : Aside s (s.holdSlots d g l) := by
  induction l generalizing s with
  | nil => exact .refl s
  | cons p r ih =>
    have sent : Aside s (s.modC (·.sends (s.requestAt d g p))) := .modC s _ fun _ => rfl
    have held : Aside s (s.holdSlot d g p) := by
      subst hd
      exact sent.trans (.of_cores rfl rfl)
    rw [holdSlots_cons]
    exact held.trans (ih (hd.trans (congrArg Cur.core held.cur.symm)))

end Sys2Proof.Machine
end

section

/-! FENCE, CLEAN, INVAL and PREF (R238, R267, R270, R271): what they leave of the core's path and of memory, and when the stream goes on (O24). -/

namespace Sys2Proof.Machine

variable {s b u v t : State} {g : Guard} {r : RangeSel} {n : Nat}

/-! ### The stream is delayed (R267, R271) -/

/-- The next bundle waits for n clk more, and neither the core's path nor memory has changed. -/
structure Delays (v u : State) (n : Nat) : Prop where
  on : OnStream v u
  next : u.curSlot.next = max v.curSlot.next (v.curCore.pclk + n)
  lines : u.curCore.lines = v.curCore.lines
  home : u.mem = v.mem ∧ u.board = v.board

namespace Delays

theorem notBefore (hl : v.live = true) (n : Nat) : Delays v (v.notBefore n) n := by
  refine ⟨onStream_notBefore hl n, congrArg PcSlot.next (curSlot_notBefore hl n), ?_, rfl, rfl⟩
  unfold State.notBefore
  rw [curCore_modS v _ hl]
  rfl

/-- The free time of a delay is drawn (log 5). -/
theorem draw (h : Delays v u n) (m : Nat) : Delays v { u with free := m } n := ⟨⟨h.on.cur, h.on.live, h.on.trap⟩, h.next, h.lines, h.home⟩

end Delays

/-- The stream's mark of accesses that left the package is gone (R267). -/
def Group.nearAgain (i : Nat) (g : Group) : Group := { g with far := g.far.set i false }

theorem delays_nearAgain (hl : v.live = true) (n : Nat) : Delays v ((v.modG (·.nearAgain v.cur.slot)).notBefore n) n := by
  have near := onStream_modG hl (·.nearAgain v.cur.slot) fun _ => ⟨rfl, rfl, rfl⟩
  have later := Delays.notBefore (near.live hl) n
  have core := curCore_modG v (·.nearAgain v.cur.slot) hl
  have slot : (v.modG (·.nearAgain v.cur.slot)).curSlot = v.curSlot := by
    show (v.modG (·.nearAgain v.cur.slot)).curGrp.slot v.cur.slot = _
    rw [curGrp_modG v _ hl]
    rfl
  refine ⟨near.trans later.on, ?_, ?_, later.home⟩
  · rw [later.next, slot, core]
    rfl
  · rw [later.lines, core]
    rfl

/-- An instruction that acts in the core's path and in memory, to v, and then delays its stream. -/
theorem yields_of_delays {i : Instr} {P : State → Prop} (hi : i.isSlot = true) (h : s.issues i = true) (ha : s.act (opInfo i).guard ≠ 0)
    (hh : ((semOf (soloSlot i) i).hold s).2 = s) (path : MemoryOnly (s.begun i) v) (late : Delays v ((semOf (soloSlot i) i).eff (s.begun i)) n)
    (hP : ∀ t, t.mem = v.mem → t.board = v.board → (s.coreIn t).lines = (v.core s.cur.core).lines
      → (s.slotIn t).next = max s.succClk (s.curCore.pclk + n) → P t) : Yields i s P := by
  obtain ⟨hb, hw⟩ := begun_of_hold h hh
  have aside := Aside.of_memory path
  have core : v.curCore = v.core s.cur.core := by
    unfold State.curCore
    rw [aside.cur, hb.coreKey]
  have pclk : v.curCore.pclk = s.curCore.pclk := by
    rw [memoryOnly_curCore path]
    exact hb.pclk
  refine yields_of_done hi h ha hh rfl (aside.stays.onStream.trans late.on) fun t d => hP t ?_ ?_ ?_ ?_
  · rw [d.mem, late.home.1]
  · rw [d.rest]
    exact late.home.2
  · rw [d.lines, late.lines, core]
  · rw [d.slot, late.next, aside.curSlot_eq, hw.next, pclk]

/-! ### The path and memory as an issue begins -/

theorem Begun.lines (h : Begun s b) : (b.core s.cur.core).lines = s.curCore.lines := by
  rw [← h.coreKey]
  show b.curCore.lines = _
  rw [h.core]

theorem Begun.linesOk (h : Begun s b) : b.linesOk s.cur.core = s.linesOk s.cur.core :=
  linesOk_congr h.lines (by rw [h.only]) (by rw [h.only]) h.mem

/-- What stands at home once a path has been written back from the start of an issue is what the path held dirty before. -/
theorem Begun.homeBytes {k : Nat} (h : Begun s b) (mem : t.mem = v.mem) (board : t.board = v.board)
    (stands : ∀ l, kget k (b.core s.cur.core).lines = some l → ∀ n, n < 128 → l.dirty.getD n false = true → Stands v (k * 128 + n) (l.data.getD n 0)) :
    HomeBytes s t s.cur.core k := by
  intro l hl n hn hd
  rw [← (stands l (h.lines ▸ hl) n hn hd).byte]
  unfold State.byte State.canon
  rw [mem, board]

/-! ### FENCE (R238, R267) -/

/-- The guide of a scope (R267). -/
def fenceGuide (scope : Nat) : Nat := if scope = 0 ∨ scope = 6 then 2 else if scope ≤ 2 then 40 else 200

/-- FENCE delays its stream by the guide of its scope, and at pod and system scope by the way out of the package that accesses have taken. -/
theorem effFence_delays (hl : b.live = true) : ∃ n, Delays (b.fenceAt b.cur.core b.scope) (effFence b) n ∧ fenceGuide b.scope ≤ n
    ∧ (b.scope ≤ 3 ∨ b.scope = 6 ∨ b.curGrp.far.getD b.cur.slot false = false → n = fenceGuide b.scope) := by
  have path := memoryOnly_fenceAt b b.cur.core b.scope
  have lv := path.live.trans hl
  have far : (b.fenceAt b.cur.core b.scope).curGrp.far.getD (b.fenceAt b.cur.core b.scope).cur.slot false = b.curGrp.far.getD b.cur.slot false := by
    rw [path.curGrp, path.cur]
  unfold effFence fenceGuide
  simp only [far]
  generalize b.fenceAt b.cur.core b.scope = v at lv ⊢
  generalize b.curGrp.far.getD b.cur.slot false = out
  by_cases core : b.scope = 0 ∨ b.scope = 6
  · simp only [core, if_true, Bool.or_eq_true, beq_iff_eq]
    exact ⟨2, .notBefore lv 2, le_rfl, fun _ => rfl⟩
  by_cases package : b.scope ≤ 2
  · simp only [core, package, if_true, if_false, Bool.or_eq_true, beq_iff_eq]
    exact ⟨40, .notBefore lv 40, le_rfl, fun _ => rfl⟩
  by_cases board : b.scope = 3
  · simp only [board]
    exact ⟨200, .notBefore lv 200, le_rfl, fun _ => rfl⟩
  simp only [core, package, board, if_false, Bool.or_eq_true, beq_iff_eq]
  cases out with
  | false => exact ⟨200, .notBefore lv 200, le_rfl, fun _ => rfl⟩
  | true =>
    refine ⟨_, (delays_nearAgain lv _).draw _, Nat.le_add_right _ _, fun near => ?_⟩
    simp only [Bool.true_eq_false, or_false] at near
    omega

theorem fence_orders (ha : s.act g ≠ 0) (h : s.issues (.fence g) = true) : Yields (.fence g) s (fun t =>
    s.curCore.pclk + fenceGuide s.scope ≤ (s.slotIn t).next
      ∧ (s.scope ≤ 3 ∨ s.scope = 6 ∨ s.curGrp.far.getD s.cur.slot false = false
          → (s.slotIn t).next = max s.succClk (s.curCore.pclk + fenceGuide s.scope))
      ∧ (1 ≤ s.scope → s.scope ≤ 5 → (s.coreIn t).lines = [] ∧ (s.linesOk s.cur.core → ∀ k, HomeBytes s t s.cur.core k))) := by
  obtain ⟨hb, -⟩ := begun_of_hold h rfl
  obtain ⟨n, late, least, exactly⟩ := effFence_delays hb.live
  have far : (s.begun (.fence g)).curGrp.far = s.curGrp.far := by rw [hb.curGrp_eq]
  have path := memoryOnly_fenceAt (s.begun (.fence g)) s.cur.core s.scope
  rw [hb.scope, hb.coreKey] at late
  rw [hb.scope] at least
  rw [hb.scope, far, hb.slotKey] at exactly
  refine yields_of_delays rfl h ha rfl path late fun t mem board lines next => ⟨?_, fun near => ?_, fun above below => ?_⟩
  · rw [next]
    omega
  · rw [next, exactly near]
  · have flushed : (s.begun (.fence g)).fenceAt s.cur.core s.scope = (s.begun (.fence g)).flush s.cur.core := by
      unfold State.fenceAt
      simp [above, below]
    rw [flushed] at mem board lines
    exact ⟨lines.trans (flush_lines _ _), fun ok k => homeBytes_flush hb.lines (by rw [hb.only]) (by rw [hb.only]) hb.mem mem board ok k⟩

/-! ### CLEAN and INVAL (R271) -/

/-- The lines that a range names are among those of the core's path. -/
theorem linesIn_sublist (s : State) (r : RangeSel) : (s.linesIn r).1.Sublist (s.curCore.lines.map Prod.fst) := by
  unfold State.linesIn
  split
  · exact .refl _
  · exact List.filter_sublist

theorem LinesOk.linesIn (ok : LinesOk b b.cur.core) (r : RangeSel) :
    (b.linesIn r).1.Nodup ∧ ∀ k ∈ (b.linesIn r).1, b.canon (k * 128) = k * 128 := by
  have sub := linesIn_sublist b r
  refine ⟨(nodup_keys ok.rises).sublist sub, fun k hk => ?_⟩
  obtain ⟨p, hp, rfl⟩ := List.mem_map.1 (sub.subset hk)
  exact ok.canon p hp

/-- Acts of the issuing core on one line after the other are acts of one core. -/
theorem foldl_ownCore {f : State → Nat → Nat → State} (hf : ∀ u c k, MemoryOnly u (f u c k)) (ks : List Nat) (s : State) :
    ks.foldl (fun u k => f u u.cur.core k) s = ks.foldl (fun u k => f u s.cur.core k) s := by
  induction ks generalizing s with
  | nil => rfl
  | cons k r ih =>
    have same := (hf s s.cur.core k).cur
    rw [List.foldl_cons, ih, same, List.foldl_cons]

theorem effClean_delays (hl : b.live = true) (r : RangeSel) :
    Delays (b.cleanLines b.cur.core (b.linesIn r).1) (effClean r b) (1 + Config.latency b.free) := by
  have path := memoryOnly_cleanLines b b.cur.core (b.linesIn r).1
  have late := (Delays.notBefore (path.live.trans hl) (1 + Config.latency b.free)).draw (b.free + 1)
  unfold effClean
  rw [foldl_ownCore memoryOnly_cleanLine]
  exact late

/-- The path without the lines of a range, and the home slices without its host lines (R244, R271). -/
def State.without (b : State) (r : RangeSel) : State :=
  let v := (b.linesIn r).1.foldl (fun u k => u.dropLine b.cur.core k) b
  { v with hostL2 := v.hostL2.filter (fun p => !((b.linesIn r).2 p.1)) }

theorem memoryOnly_without (b : State) (r : RangeSel) : MemoryOnly b (b.without r) :=
  (MemoryOnly.foldl (fun u k => memoryOnly_dropLine u b.cur.core k) (b.linesIn r).1 b).trans (.of_mem _ _ _ _)

theorem effInval_delays (hl : b.live = true) (r : RangeSel) : Delays (b.without r) (effInval r b) (1 + Config.latency (b.without r).free) := by
  have late := (Delays.notBefore ((memoryOnly_without b r).live.trans hl) (1 + Config.latency (b.without r).free)).draw ((b.without r).free + 1)
  unfold effInval
  dsimp only
  rw [foldl_ownCore memoryOnly_dropLine]
  exact late

theorem guard_clean (g : Guard) (r : RangeSel) : (opInfo (.clean g r)).guard = g := by cases r <;> rfl
theorem guard_inval (g : Guard) (r : RangeSel) : (opInfo (.inval g r)).guard = g := by cases r <;> rfl

theorem clean_cleans (ha : s.act g ≠ 0) (h : s.issues (.clean g r) = true) : Yields (.clean g r) s (fun t =>
    s.curCore.pclk + 1 ≤ (s.slotIn t).next ∧ ∀ k ∈ ((s.begun (.clean g r)).linesIn r).1,
      (∀ l, kget k (s.coreIn t).lines = some l → l.dirty = List.replicate 128 false) ∧ (s.linesOk s.cur.core → HomeBytes s t s.cur.core k)) := by
  obtain ⟨hb, -⟩ := begun_of_hold h rfl
  refine yields_of_delays rfl h (by rwa [guard_clean]) rfl (memoryOnly_cleanLines _ _ _) (effClean_delays hb.live r)
    fun t mem board lines next => ⟨by rw [next]; omega, fun k hk => ⟨fun l hl => ?_, fun ok => ?_⟩⟩
  · rw [lines, ← hb.coreKey] at hl
    exact cleanAt_cleanLines hk _ l hl
  · have ok := linesOk_of (hb.linesOk.trans ok)
    rw [← hb.coreKey] at ok
    refine hb.homeBytes mem board fun l hl n hn hd => ?_
    rw [← hb.coreKey] at hl
    exact cleanLines_stand ok (ok.linesIn r).1 hk hl hn hd

theorem inval_drops (ha : s.act g ≠ 0) (h : s.issues (.inval g r) = true) : Yields (.inval g r) s (fun t =>
    s.curCore.pclk + 1 ≤ (s.slotIn t).next ∧ ∀ k ∈ ((s.begun (.inval g r)).linesIn r).1,
      kget k (s.coreIn t).lines = none ∧ (s.linesOk s.cur.core → HomeBytes s t s.cur.core k)) := by
  obtain ⟨hb, -⟩ := begun_of_hold h rfl
  refine yields_of_delays rfl h (by rwa [guard_inval]) rfl (memoryOnly_without _ r) (effInval_delays hb.live r)
    fun t mem board lines next => ⟨by rw [next]; omega, fun k hk => ⟨?_, fun ok => ?_⟩⟩
  · rw [lines, ← hb.coreKey, Option.eq_none_iff_forall_ne_some]
    exact fun l hl => (foldl_dropLine_lines _ _ _ _ (mem_of_kget hl)).2 hk
  · have ok := linesOk_of (hb.linesOk.trans ok)
    rw [← hb.coreKey] at ok
    obtain ⟨once, canon⟩ := ok.linesIn r
    refine hb.homeBytes mem board fun l hl n hn hd => ?_
    rw [← hb.coreKey] at hl
    have stands := (dropLines_stand ok once canon).1 k hk l hl n hn hd
    exact ⟨stands.byte, stands.free⟩

/-! ### PREF (R270) -/

variable {an : AReg} {vo : VSrc} {disp : BitVec 16} {l2 : Bool}

/-- PREF is held back by the request slots alone, and else leaves the state to the start of its issue (R277). -/
theorem holdPref_keeps (x : AccOp) (s : State) (free : (holdPref x s).1 = false) : (holdPref x s).2 = s :=
  if_neg (of_decide_eq_false free)

/-- A line is asked for, into the core's path or into its home slice alone. -/
def State.prefetch (l2 : Bool) (u : State) (l : Nat × Nat) : State :=
  if l2 then (u.homeRead (l.1 * 128) 128 l.2).2 else (u.loadG u.cur.core u.curGrp.launch (l.1 * 128) 1 0 l.2).2

theorem memoryOnly_prefetch (l2 : Bool) (u : State) (l : Nat × Nat) : MemoryOnly u (u.prefetch l2 l) := by
  cases l2 with
  | false => exact memoryOnly_loadG ..
  | true => exact memoryOnly_homeRead ..

/-- Something has been read beside the issuing group, and no byte of memory has changed where nothing waits to go home from its core. -/
structure Fetched (s t : State) : Prop extends Aside s t where
  writes : WritesNone s.cur.core s t

namespace Fetched

theorem refl (s : State) : Fetched s s := ⟨.refl s, .refl _ s⟩
theorem trans (a : Fetched s t) (b : Fetched t u) : Fetched s u := ⟨a.toAside.trans b.toAside, a.writes.trans (a.cur ▸ b.writes)⟩

theorem foldl {α : Type} {f : State → α → State} (hf : ∀ u x, Fetched u (f u x)) (l : List α) (s : State) : Fetched s (l.foldl f s) :=
  List.foldlRecOn (motive := Fetched s) l f (.refl s) fun u hu x _ => hu.trans (hf u x)

theorem prefetch (l2 : Bool) (u : State) (l : Nat × Nat) : Fetched u (u.prefetch l2 l) := by
  refine ⟨.of_memory (memoryOnly_prefetch l2 u l), ?_⟩
  cases l2 with
  | false => exact .loadG ..
  | true => exact .homeRead ..

theorem takeWalkF (u : State) (root va : Nat) : Fetched u (u.takeWalkF u.cur.core root va) :=
  ⟨.modC u _ fun _ => rfl, .sameLines u u.cur.core _ fun _ => rfl⟩

theorem holdSlots (u : State) (g : Nat) (l : List (Nat × Nat)) : Fetched u (u.holdSlots u.cur.core g l) :=
  ⟨aside_holdSlots rfl g l, .holdSlots u u.cur.core g l⟩

end Fetched

/-- What PREF has read: its lines are there, and the walks that it asked for are over. -/
def State.prefetched (b : State) (x : AccOp) (l2 : Bool) : State :=
  (b.prefLines x).foldl (State.prefetch l2) (((b.noteX x).laneOffs x).foldl
    (fun u p => u.takeWalkF u.cur.core u.root ((aVb (b.curGrp.areg x.an.val) + p.2) % 2 ^ 56)) (b.noteX x))

/-- The sectors of lines with the ticks of the way to their homes (R277). -/
def State.lineSectors (u : State) (ls : List (Nat × Nat)) : List (Nat × Nat) :=
  ls.flatMap (fun l => (List.range 4).map (fun i => (l.1 * 4 + i, u.homeTicks (coreDie u.cur.core) (l.1 * 128))))

theorem effPref_eq (x : AccOp) (l2 : Bool) (b : State) : effPref x l2 b =
    (b.prefetched x l2).holdSlots (b.prefetched x l2).cur.core (b.prefetched x l2).cur.gid ((b.prefetched x l2).lineSectors (b.prefLines x)) := rfl

theorem fetched_prefetched (x : AccOp) (l2 : Bool) (b : State) : Fetched b (b.prefetched x l2) := by
  have missed : Fetched b (b.noteX x) := ⟨.of_memory (memoryOnly_noteMisses ..), .noteMisses ..⟩
  have walked := missed.trans (.foldl (fun u (p : Nat × Nat) => .takeWalkF u u.root ((aVb (b.curGrp.areg x.an.val) + p.2) % 2 ^ 56))
    ((b.noteX x).laneOffs x) _)
  exact walked.trans (.foldl (Fetched.prefetch l2) (b.prefLines x) _)

theorem fetched_effPref (x : AccOp) (l2 : Bool) (b : State) : Fetched b (effPref x l2 b) := by
  rw [effPref_eq]
  exact (fetched_prefetched x l2 b).trans (.holdSlots ..)

/-- A stream whose instruction acted beside its group has its registers as they were. -/
theorem sameRegisters_of_aside (hb : Begun s b) (aside : Aside b u) (d : Done s u t) : SameRegisters s t := by
  have grp : s.groupIn t = { b.curGrp with banks := (s.groupIn t).banks, mat := (s.groupIn t).mat } := by
    rw [← aside.grp]
    exact d.grp
  have slot : s.slotIn t = b.curSlot := d.slot.trans aside.curSlot_eq
  refine ⟨?_, by rw [slot, hb.mask], by rw [slot, hb.depth], by rw [slot, hb.fmt], by rw [slot, hb.wait], ?_⟩
  · rw [grp, hb.curGrp_eq]
  · rw [grp]
    exact hb.other

theorem pref_reads (ha : s.act g ≠ 0) (h : s.issues (.pref g l2 an vo disp) = true) : Yields (.pref g l2 an vo disp) s (fun t =>
    (s.exact = [] → (∀ p ∈ s.curCore.lines, ∀ k, p.2.dirty.getD k false = false) → t.mem = s.mem)
      ∧ SameRegisters s t ∧ (s.slotIn t).pc = s.succPc ∧ (s.slotIn t).next = s.succClk) := by
  have free := hold_keeps h ha (holdPref_keeps (probeOp g 1 an vo disp) s)
  obtain ⟨hb, hw⟩ := begun_of_hold h free
  have fetched := fetched_effPref (probeOp g 1 an vo disp) l2 (s.begun (.pref g l2 an vo disp))
  refine yields_of_done rfl h ha free rfl fetched.stays.onStream fun t d => ⟨fun sums clean => ?_, sameRegisters_of_aside hb fetched.toAside d,
    (branched_successor hw fetched.toAside d).1⟩
  rw [d.mem, ← hb.mem]
  refine (fetched.writes.still (by rw [hb.only]; exact sums) ?_).1
  unfold State.pathClean
  rw [hb.coreKey, hb.lines]
  exact clean

/-- Settles O24: FENCE, CLEAN and INVAL write back lines of the path and then delay the stream, and PREF only reads through the path. -/
theorem orderingResults : Obligations.OrderingResults := by
  unfold Obligations.OrderingResults
  exact fun s g l2 an vo disp r ha => ⟨fence_orders ha, clean_cleans ha, inval_drops ha, pref_reads ha⟩

end Sys2Proof.Machine
end

section

/-! SUPPORT. A copy channel whose next command was accepted as one that is to stop. -/

namespace Sys2Proof.Machine

theorem exec_copyComplete (core ch : Nat) (s : State) : exec (.copyComplete core ch) s = execCopyComplete core ch s := rfl

/-- A copy of one row between the accumulator buffers, with no raise. -/
def plainCopy : CopyOp := { src := .a, dst := .w, sx := 0, sy := 0, sz := 0, ch := 0, sem := 0, raise := false, remote := false }

/-- A command of group 0 of core 0 that runs it. -/
def copyCmd (id : Nat) (bad : Bool) : Cmd :=
  { id := id, op := .copy Guard.always plainCopy, core := 0, gcore := 0, gid := 0, slot := 0, args := [], act := 0, scope := 0, launch := 0,
    root := 0, priv := true, ident := 0, base := 0, start := 0, due := 0, bad := bad, data := [], page := none, ran := false, wall := 0,
    tick := 0, part := none, drop := [] }

/-- Channel 0 is past the one row of its command, and the next one is marked as stopped. -/
def pastItsRow : Channel := { Channel.start with q := [copyCmd 1 false, copyCmd 2 true], running := true, row := 1 }

/-- Core 0 with that channel and the group of its commands. -/
def copyEnds : State := { State.reset with cores := [(0, { Core.start 0 with groups := [(0, Group.start)], chans := [(0, pastItsRow)] })] }

/-- The queue of channel 0 after the completion: the mark of the command that begins has gone. -/
theorem copyEnds_queue : (match execCopyComplete 0 0 copyEnds with
    | .next t => (kget 0 (t.core 0).chans).map (·.q)
    | _ => none) = some [copyCmd 2 false] := by decide +kernel

/-- Refutes O28, in its clause on a completion: the command that follows is not the one that waited, since a command that begins loses
the marks which a save left on it (R276, R387). -/
theorem not_copyResults : ¬ Obligations.CopyResults := by
  unfold Obligations.CopyResults
  rintro ⟨-, running⟩
  obtain ⟨-, -, -, ends⟩ :=
    running copyEnds 0 0 pastItsRow (copyCmd 1 false) [copyCmd 2 true] Guard.always plainCopy rfl rfl rfl rfl rfl
  obtain ⟨t, ht, -, -, ⟨h', found, queue, -⟩, -⟩ := (ends (by decide) (by decide) rfl).2 (by decide) (by decide)
  rw [exec_copyComplete] at ht
  have follows := copyEnds_queue
  rw [ht] at follows
  simp only [found, Option.map_some, queue] at follows
  exact absurd follows (by decide)

end Sys2Proof.Machine
end

section

/-! SUPPORT. A shader core whose lines stand out of order, so that a look-up of line 0 stops at line 5; three lanes add into words of
lines 0, 5 and 0. -/

namespace Sys2Proof.Machine

/-- A bank that is awake. -/
def awakeBank : Bank := { st := .bright, wakeAt := none, dirty := false }

/-- The view that gives the lanes their offsets. -/
def offsetView : View := { dir := .h, m := 0, i := 0 }

/-- A line whose byte 4 is dirty, or none. -/
def dirtyFour (d : Bool) : Line :=
  { data := List.replicate 128 5, dirty := (List.replicate 128 false).set 4 d, since := none, lease := 0, writers := [] }

/-- A stream of three lanes on shader core 512, over one page at VA and PA 0, with offsets 4, 640 and 8: line 5 is listed before
line 0, which is dirty at byte 4. -/
def fallingLines : State :=
  let s := { State.reset with
    agenda := [], fresh := 2, launches := [(1, literalLaunch .shader)], dicts := [(0, literalDict .shader)], cores := [(512, Core.start 0)],
    quads := [(quadKey 512, { Quad.start 2 with power := .on })] }
  let s := s.startOn 1 0 0 none 512
  let s := s.modCore 512 (fun k => { k with tlb := [literalPage 1 0], lines := [(5, dirtyFour false), (0, dirtyFour true)] })
  let s := s.modGroup 512 0 (fun g => { g with
    banks := List.replicate 10 awakeBank, mat := [(vkey offsetView 0, 4), (vkey offsetView 1, 640), (vkey offsetView 2, 8)] })
  let s := s.modGroup 512 0 (fun g => g.modSlot 0 (fun p => { p with mask := 7 }))
  { s with cur := { Cur.none with core := 512 } }

/-- An exact add of zero into the word at each lane's offset. -/
def addFalling : Instr := .atomfAddX Guard.always (.const 0) 0 (.view offsetView) 0

/-- The lanes of that add. -/
def fallingLanes : List Lane := ((fallingLines.begun addFalling).plan (atomOp Guard.always false false 0 (.view offsetView) 0)).lanes

/-- The second lane drops line 5, whereupon the third finds line 0 and drops it: its dirty byte closes word 4. -/
theorem addFalling_closes : (match exec addFalling fallingLines with
    | .next t => fallingLanes.all (fun l => (kget (fallingLines.canon l.pa) t.exact).isSome)
    | _ => true) = false := by decide +kernel

/-- Refutes O23, in its clause on the sums that stay open: it asks of the cores' lines only that they cover no word open before, and
where a core's lines are not rising, a line found late writes its dirty bytes over a word that the same instruction opened. -/
theorem not_floatAtomicResults : ¬ Obligations.FloatAtomicResults := by
  unfold Obligations.FloatAtomicResults
  intro results
  obtain ⟨-, sums, -⟩ :=
    results fallingLines Guard.always false (.const 0) offsetView 0 (.view offsetView) 0 (by decide +kernel)
  obtain ⟨t, ht, -, stays⟩ := sums (by decide +kernel)
  have aligned : ∀ l ∈ fallingLanes, fallingLines.canon l.pa % 4 = 0 := by decide +kernel
  have closed := addFalling_closes
  rw [show exec addFalling fallingLines = .next t from ht] at closed
  have unopened : ∀ w, (kget w fallingLines.exact).isSome = false := fun w => rfl
  refine absurd (List.all_eq_true.mpr (stays (fun c w h => ?_) aligned)) (Bool.eq_false_iff.mp closed)
  rw [unopened w] at h
  cases h

end Sys2Proof.Machine
end

section

/-! The lanes of an access that passes its checks (R253-R256): which lanes a plan keeps, where they lie, and what their checks say (O16). -/

namespace Sys2Proof.Machine

variable {s : State} {x : AccOp}

/-! ### Marks -/

/-- The lowest mark so far, with one more mark. -/
def lowerMark (a : Option Mark) (x : Mark) : Option Mark := match a with
  | none => some x
  | some y => if x.j < y.j then some x else some y

theorem isSome_lowerMark (a : Option Mark) (x : Mark) : (lowerMark a x).isSome := by
  cases a with
  | none => rfl
  | some y =>
    rw [lowerMark]
    split <;> rfl

theorem isSome_foldl_lowerMark (m : List Mark) {a : Option Mark} (ha : a.isSome) : (m.foldl lowerMark a).isSome := by
  induction m generalizing a with
  | nil => exact ha
  | cons x r ih => exact ih (isSome_lowerMark a x)

theorem markChk_of_not_recording (hr : s.recordMode = false) (m : List Mark) : s.markChk m = (match m.foldl lowerMark none with
    | some y => Chk.trap (trapOf 0x09 3 0 y.j y.kind y.addr)
    | none => .ok) := by
  unfold State.markChk
  rw [hr]
  rfl

/-- Outside record mode a mark is a fault (R256). -/
theorem markChk_eq_ok (hr : s.recordMode = false) {m : List Mark} (h : s.markChk m = .ok) : m = [] := by
  cases m with
  | nil => rfl
  | cons x r =>
    obtain ⟨y, hy⟩ := Option.isSome_iff_exists.mp (isSome_foldl_lowerMark r (isSome_lowerMark none x))
    rw [markChk_of_not_recording hr, List.foldl_cons, hy] at h
    cases h

/-- Without marks every lane stays. -/
theorem filter_unmarked {l : List (Nat × Nat)} {m : List Mark} (hm : m = []) : l.filter (fun p => m.all (fun k => k.j != p.1)) = l := by
  rw [hm]
  exact List.filter_true l

theorem plan_of_buf (hx : x.sp ≠ .g) : s.plan x = s.planBuf x := by
  unfold State.plan
  rw [if_neg (by simpa using hx)]

theorem plan_of_g (hx : x.sp = .g) : s.plan x = s.planG x := by
  unfold State.plan
  rw [if_pos (by simpa using hx)]

/-! ### Accesses to a buffer or the shared window -/

/-- The room that an access to a buffer or to the shared window has (R254). -/
def State.bufRoom (s : State) (sp : Space) : Nat := if sp == .s then s.curUnit.shBytes else bufSize (spBuf sp)

/-- Where the acting lanes of an access to a buffer lie (R253). -/
def State.bufPlaces (s : State) (x : AccOp) : List (Nat × Nat) :=
  (s.laneOffs x).map (fun p => (p.1, (low32 (s.sr x.an.val)).toNat + p.2))

/-- The lane at a place. -/
def laneAt (p : Nat × Nat) : Lane := { j := p.1, va := p.2, pa := p.2, ty := 0, home := 0 }

/-- The first lane that leaves an accumulator buffer. -/
def State.bufLeaves (s : State) (x : AccOp) : Option (Nat × Nat) :=
  if x.sp == .s then none else (s.bufPlaces x).find? (fun p => s.bufRoom x.sp < p.2 + x.n)

/-- The mark of a lane of an access to a buffer. -/
def State.bufMark (s : State) (x : AccOp) (p : Nat × Nat) : Option Mark :=
  if p.2 % x.n != 0 then some { j := p.1, kind := 1, addr := p.2 }
  else if x.sp == .s && s.bufRoom x.sp < p.2 + x.n then some { j := p.1, kind := 2, addr := p.2 } else none

theorem planBuf_leaves {p : Nat × Nat} (h : s.bufLeaves x = some p) : (s.planBuf x).chk = .trap (trapOf 0x10 3 2 p.2 0 0) := by
  unfold State.planBuf
  dsimp only
  split
  next q hq => rw [Option.some.inj (h.symm.trans hq)]
  next hq => exact absurd (h.symm.trans hq) (by simp)

theorem planBuf_stays (h : s.bufLeaves x = none) :
    (∃ c, (s.planBuf x).chk = (s.markChk ((s.bufPlaces x).filterMap (s.bufMark x))).orElse c)
    ∧ (s.planBuf x).lanes
      = ((s.bufPlaces x).filter (fun p => ((s.bufPlaces x).filterMap (s.bufMark x)).all (fun m => m.j != p.1))).map laneAt := by
  unfold State.planBuf
  dsimp only
  split
  next q hq => exact absurd (h.symm.trans hq) (by simp)
  next => exact ⟨⟨_, rfl⟩, rfl⟩

/-- The lanes of an access to a buffer that passes its checks outside record mode are all the acting lanes, aligned and inside. -/
theorem planBuf_ok (hr : s.recordMode = false) (h : (s.planBuf x).chk = .ok) :
    (s.planBuf x).lanes = (s.bufPlaces x).map laneAt ∧ ∀ p ∈ s.bufPlaces x, p.2 % x.n = 0 ∧ p.2 + x.n ≤ s.bufRoom x.sp := by
  cases leaves : s.bufLeaves x with
  | some p => rw [planBuf_leaves leaves] at h; cases h
  | none =>
    obtain ⟨⟨c, hc⟩, lanes⟩ := planBuf_stays leaves
    rw [hc, Chk.orElse_eq_ok] at h
    have noMarks := markChk_eq_ok hr h.1
    refine ⟨by rw [lanes, filter_unmarked noMarks], fun p hp => ?_⟩
    have unmarked := List.filterMap_eq_nil_iff.mp noMarks p hp
    unfold State.bufMark at unmarked
    unfold State.bufLeaves at leaves
    by_cases shared : x.sp = .s
    · by_cases aligned : p.2 % x.n = 0 <;> simp_all
    · have inside : ∀ a b, (a, b) ∈ s.bufPlaces x → b + x.n ≤ s.bufRoom x.sp := by simpa [shared] using leaves
      exact ⟨by simpa [shared] using unmarked, inside p.1 p.2 hp⟩

/-! ### Accesses to memory -/

/-- The mark of a lane of a .g access before its translation. -/
def State.vaMark (s : State) (x : AccOp) (p : Nat × Nat) : Option Mark :=
  let v := aVb (s.curGrp.areg x.an.val) + p.2
  if v % x.n != 0 then some { j := p.1, kind := 1, addr := v } else if 2 ^ 56 < v + x.n then some { j := p.1, kind := 2, addr := v } else none

/-- The translations of lanes of a .g access. -/
def State.laneXs (s : State) (x : AccOp) (l : List (Nat × Nat)) : List LaneX := l.map (fun p => s.laneX (s.curGrp.areg x.an.val) x.n p.1 p.2)

/-- The lane that a translation gives, with its page's permissions. -/
def LaneX.found : LaneX → Option (Lane × Nat)
  | .ok q p => some (q, p)
  | _ => none

theorem laneX_ok {a : BitVec 192} {n j o m : Nat} {q : Lane} (h : s.laneX a n j o = .ok q m) :
    q.j = j ∧ q.va = aVb a + o
    ∧ (o + n ≤ aLimit a → q.pa = aPa a o ∧ q.ty = aType a ∧ q.home = aHome a ∧ m = aPerm a) := by
  unfold State.laneX at h
  dsimp only at h
  split at h
  · obtain ⟨rfl, rfl⟩ := LaneX.ok.inj h
    exact ⟨rfl, rfl, fun _ => ⟨rfl, rfl, rfl, rfl⟩⟩
  next beyond =>
    split at h
    · cases h
    · cases h
    · cases h
    · obtain ⟨rfl, rfl⟩ := LaneX.ok.inj h
      exact ⟨rfl, rfl, fun within => absurd within beyond⟩

/-- The lanes of a .g access without a mark before translation. -/
def State.unmarked (s : State) (x : AccOp) : List (Nat × Nat) :=
  (s.laneOffs x).filter (fun p => ((s.laneOffs x).filterMap (s.vaMark x)).all (fun m => m.j != p.1))

/-- What the translations of a .g access that passes its checks are. -/
structure Translated (s : State) (x : AccOp) (t : List LaneX) : Prop where
  wants : t.filterMap (fun r => match r with | .want v => some v | _ => none) = []
  absent : t.findSome? (fun r => match r with | .absent v => some v | _ => none) = none
  fault : t.findSome? (fun r => match r with | .fault f => some f | _ => none) = none
  denied : s.markChk (((t.filterMap LaneX.found).filter (fun q => !(permits q.2 x.acc s.priv))).map
    (fun q => { j := q.1.j, kind := 3, addr := q.1.va })) = .ok

theorem planG_passes (h : (s.planG x).chk = .ok) :
    s.markChk ((s.laneOffs x).filterMap (s.vaMark x)) = .ok ∧ Translated s x (s.laneXs x (s.unmarked x))
    ∧ (s.planG x).lanes
      = (((s.laneXs x (s.unmarked x)).filterMap LaneX.found).filter (fun q => permits q.2 x.acc s.priv)).map Prod.fst := by
  revert h
  unfold State.planG
  dsimp only
  split
  next marks =>
    split
    · intro h; cases h
    next wants =>
      split
      · intro h; cases h
      next absent =>
        split
        · intro h; cases h
        next fault => exact fun h => ⟨marks, ⟨List.isEmpty_iff.mp (Bool.not_eq_eq_eq_not.mp (Bool.eq_false_iff.mpr wants)), absent, fault, h⟩, rfl⟩
  next other => exact fun h => absurd h other

theorem Translated.found {t : List LaneX} (h : Translated s x t) : ∀ r ∈ t, ∃ q m, r = .ok q m := by
  intro r hr
  cases r with
  | ok q m => exact ⟨q, m, rfl⟩
  | want v => exact absurd (List.filterMap_eq_nil_iff.mp h.wants _ hr) (by simp)
  | absent v => exact absurd (List.findSome?_eq_none_iff.mp h.absent _ hr) (by simp)
  | fault f => exact absurd (List.findSome?_eq_none_iff.mp h.fault _ hr) (by simp)

theorem Translated.permits {t : List LaneX} (h : Translated s x t) (hr : s.recordMode = false) :
    ∀ q ∈ t.filterMap LaneX.found, permits q.2 x.acc s.priv = true := by
  have all := markChk_eq_ok hr h.denied
  simpa [List.filter_eq_nil_iff] using all

/-- A .g access that passes its checks outside record mode has no marks, and every lane is translated and permitted. -/
theorem planG_ok (hr : s.recordMode = false) (h : (s.planG x).chk = .ok) :
    (s.laneOffs x).filterMap (s.vaMark x) = [] ∧ Translated s x (s.laneXs x (s.laneOffs x))
    ∧ (s.planG x).lanes = ((s.laneXs x (s.laneOffs x)).filterMap LaneX.found).map Prod.fst := by
  obtain ⟨marks, translated, lanes⟩ := planG_passes h
  have noMarks := markChk_eq_ok hr marks
  have unmarked : s.unmarked x = s.laneOffs x := filter_unmarked noMarks
  rw [unmarked] at translated lanes
  exact ⟨noMarks, translated, by rw [lanes, List.filter_eq_self.mpr (translated.permits hr)]⟩

/-- Lanes that are all translated keep their order and their addresses. -/
theorem map_found {l : List (Nat × Nat)} (h : ∀ r ∈ s.laneXs x l, ∃ q m, r = .ok q m) :
    (((s.laneXs x l).filterMap LaneX.found).map Prod.fst).map (fun q => (q.j, q.va))
      = l.map (fun p => (p.1, aVb (s.curGrp.areg x.an.val) + p.2)) := by
  induction l with
  | nil => rfl
  | cons p l ih =>
    obtain ⟨q, m, hq⟩ : ∃ q m, s.laneX (s.curGrp.areg x.an.val) x.n p.1 p.2 = .ok q m := h _ List.mem_cons_self
    obtain ⟨hj, hva, -⟩ := laneX_ok hq
    have rest := ih (fun r hr => h r (List.mem_cons_of_mem _ hr))
    rw [State.laneXs, List.map_cons, hq]
    exact congrArg₂ List.cons (Prod.ext hj hva) rest

/-- The lane of a translation is one of the lanes at their offsets. -/
theorem of_mem_found {l : List (Nat × Nat)} {q : Lane × Nat} (h : q ∈ (s.laneXs x l).filterMap LaneX.found) :
    ∃ p ∈ l, s.laneX (s.curGrp.areg x.an.val) x.n p.1 p.2 = .ok q.1 q.2 := by
  obtain ⟨r, hr, found⟩ := List.mem_filterMap.mp h
  obtain ⟨p, hp, rfl⟩ := List.mem_map.mp hr
  refine ⟨p, hp, ?_⟩
  revert found
  cases s.laneX (s.curGrp.areg x.an.val) x.n p.1 p.2 with
  | ok q' m => exact fun found => by rw [← Option.some.inj found]
  | absent v => exact nofun
  | fault t => exact nofun
  | want v => exact nofun

theorem mem_laneOffs {p : Nat × Nat} : p ∈ s.laneOffs x ↔ p.1 ∈ lanesOf (s.act x.g) ∧ p.2 = s.laneOff x p.1 := by
  simp only [State.laneOffs, List.mem_map]
  constructor
  · rintro ⟨j, hj, rfl⟩
    exact ⟨hj, rfl⟩
  · rintro ⟨hj, ho⟩
    exact ⟨p.1, hj, by rw [← ho]⟩

/-! ### The obligation -/

theorem buffer_addresses (hx : x.sp ≠ .g) (hr : s.recordMode = false) (h : (s.plan x).chk = .ok) :
    (s.plan x).lanes.map (fun l => (l.j, l.va))
      = (lanesOf (s.act x.g)).map (fun j => (j, (s.sr x.an.val).toNat % 2 ^ 32 + s.laneOff x j))
    ∧ ∀ j ∈ lanesOf (s.act x.g), ((s.sr x.an.val).toNat % 2 ^ 32 + s.laneOff x j) % x.n = 0
        ∧ (s.sr x.an.val).toNat % 2 ^ 32 + s.laneOff x j + x.n ≤ (if x.sp = .s then s.curUnit.shBytes else bufSize (spBuf x.sp)) := by
  rw [plan_of_buf hx] at h ⊢
  obtain ⟨lanes, inside⟩ := planBuf_ok hr h
  have base : (low32 (s.sr x.an.val)).toNat = (s.sr x.an.val).toNat % 2 ^ 32 := by simp [low32]
  constructor
  · rw [lanes]
    simp [State.bufPlaces, State.laneOffs, laneAt, low32, Function.comp_def]
  · intro j hj
    have := inside _ (List.mem_map_of_mem (mem_laneOffs (p := (j, s.laneOff x j)).mpr ⟨hj, rfl⟩))
    simpa [State.bufRoom, base] using this

theorem memory_addresses (hx : x.sp = .g) (hr : s.recordMode = false) (h : (s.plan x).chk = .ok) :
    let a := s.curGrp.areg x.an.val
    (s.plan x).lanes.map (fun l => (l.j, l.va)) = (lanesOf (s.act x.g)).map (fun j => (j, aVb a + s.laneOff x j))
    ∧ (∀ j ∈ lanesOf (s.act x.g), (aVb a + s.laneOff x j) % x.n = 0 ∧ aVb a + s.laneOff x j + x.n ≤ 2 ^ 56)
    ∧ ∀ l ∈ (s.plan x).lanes, s.laneOff x l.j + x.n ≤ aLimit a →
        l.pa = aPa a (s.laneOff x l.j) ∧ l.ty = aType a ∧ l.home = aHome a ∧ permits (aPerm a) x.acc s.priv = true := by
  intro a
  rw [plan_of_g hx] at h ⊢
  obtain ⟨noMarks, translated, lanes⟩ := planG_ok hr h
  rw [lanes]
  refine ⟨?_, fun j hj => ?_, fun l hl within => ?_⟩
  · rw [map_found translated.found]
    simp [State.laneOffs, a]
  · have unmarked := List.filterMap_eq_nil_iff.mp noMarks _ (mem_laneOffs (p := (j, s.laneOff x j)).mpr ⟨hj, rfl⟩)
    unfold State.vaMark at unmarked
    by_cases aligned : (aVb a + s.laneOff x j) % x.n = 0 <;> simp_all [a]
  · obtain ⟨q, hq, rfl⟩ := List.mem_map.mp hl
    obtain ⟨p, hp, ok⟩ := of_mem_found hq
    obtain ⟨hj, -, fast⟩ := laneX_ok ok
    rw [hj, ← (mem_laneOffs.mp hp).2] at within ⊢
    obtain ⟨pa, ty, home, perm⟩ := fast within
    exact ⟨pa, ty, home, perm ▸ translated.permits hr q hq⟩

/-- Settles O16: outside record mode a plan without a fault has no mark, so that it keeps every acting lane where its offset puts it. -/
theorem accessAddresses : Obligations.AccessAddresses := by
  unfold Obligations.AccessAddresses
  exact ⟨fun s x hx _ hr h => buffer_addresses hx hr h, fun s x hx _ hr h => memory_addresses hx hr h⟩

end Sys2Proof.Machine
end

section

/-! SUPPORT. An access as its lanes act (R253-R258): the states between its start and its landings, and the landings of sectors. -/

namespace Sys2Proof.Machine

variable {s b u v w t : State} {x : AccOp}

/-! ### A state in the middle of an access -/

/-- The access of b has acted in part: memory, lines, TLB and counters of the cores may be others, of its group only the records of its
lanes and whether it has left the package. -/
structure Served (b u : State) : Prop where
  rest : u = { b with mem := u.mem, hostL2 := u.hostL2, exact := u.exact, cores := u.cores }
  live : u.live = true
  grp : u.curGrp = { b.curGrp with faultMask := u.curGrp.faultMask, laneRecs := u.curGrp.laneRecs, far := u.curGrp.far }
  core : u.curCore = { b.curCore with groups := u.curCore.groups, lines := u.curCore.lines, badL1 := u.curCore.badL1, tlb := u.curCore.tlb,
                                      perf := u.curCore.perf, perfClk := u.curCore.perfClk }

namespace Served

theorem refl (hl : b.live = true) : Served b b := ⟨rfl, hl, rfl, rfl⟩
theorem trans (h : Served b u) (k : Served u v) : Served b v :=
  ⟨by rw [k.rest, h.rest], k.live, by rw [k.grp, h.grp], by rw [k.core, h.core]⟩

theorem of_memory (hl : b.live = true) (h : MemoryOnly b u) : Served b u := by
  refine ⟨h.rest, h.live.trans hl, by rw [h.curGrp], ?_⟩
  rw [memoryOnly_curCore h]

theorem memory (h : Served b u) (k : MemoryOnly u v) : Served b v := h.trans (of_memory h.live k)

/-- A change of the group that its access may make. -/
theorem modG (hl : b.live = true) (f : Group → Group)
    (hf : ∀ g, f g = { g with faultMask := (f g).faultMask, laneRecs := (f g).laneRecs, far := (f g).far }) : Served b (b.modG f) := by
  refine ⟨rfl, live_modG b f hl, ?_, ?_⟩
  · rw [curGrp_modG b f hl]
    exact hf _
  · rw [curCore_modG b f hl]
    rfl

/-- Lanes that are marked leave their records with the group alone (R256). -/
theorem recordMarks (hl : b.live = true) (m : List Mark) : Served b (b.recordMarks m) := by
  refine modG hl _ fun g => ?_
  refine List.foldlRecOn (motive := fun x : Group => x = { g with faultMask := x.faultMask, laneRecs := x.laneRecs, far := x.far }) m _ rfl
    fun x hx k _ => ?_
  dsimp only
  rw [hx]

theorem markFar (hl : b.live = true) (pa : Nat) : Served b (b.markFar pa) := by
  unfold State.markFar
  split
  · exact modG hl _ fun _ => rfl
  · exact refl hl

theorem cur (h : Served b u) : u.cur = b.cur := by rw [h.rest]
theorem canon (h : Served b u) (pa : Nat) : u.canon pa = b.canon pa := by
  unfold State.canon
  rw [h.rest]
theorem clk (h : Served b u) : u.curCore.clk = b.curCore.clk := by rw [h.core]
theorem pclk (h : Served b u) : u.curCore.pclk = b.curCore.pclk := by rw [h.core]
theorem buf (h : Served b u) : u.curCore.buf = b.curCore.buf := by rw [h.core]
theorem curUnit (h : Served b u) : u.curUnit = b.curUnit := by
  unfold State.curUnit Core.unit
  rw [h.core, h.grp]
theorem ctrs (h : Served b u) : u.curGrp.ctrs = b.curGrp.ctrs := by rw [h.grp]
theorem bufAt (h : Served b u) (sp : Space) (a : Nat) : u.bufAt sp a = b.bufAt sp a := by
  unfold State.bufAt
  rw [h.curUnit]
theorem onStream (h : Served b u) : OnStream b u := ⟨h.cur, fun _ => h.live, by rw [h.grp]; exact ⟨rfl, rfl, rfl⟩⟩

end Served

/-- The state in which the lanes of an access act: its misses are noted and its marked lanes are recorded. -/
def State.marked (b : State) (x : AccOp) : State := (b.noteX x).recordMarks (b.plan x).marks

theorem served_marked (hl : b.live = true) (x : AccOp) : Served b (b.marked x) := by
  have noted := Served.of_memory hl (memoryOnly_noteMisses b b.cur.core b.root (b.slowVas x))
  exact noted.trans (.recordMarks noted.live _)

theorem bufNat_congr {c d : Core} (h : d.buf = c.buf) (k off n : Nat) : d.bufNat k off n = c.bufNat k off n := by
  unfold Core.bufNat Core.bufRead Core.bufByte
  rw [h]

theorem Begun.bufAt (hb : Begun s b) (sp : Space) (a : Nat) : b.bufAt sp a = s.bufAt sp a := by
  unfold State.bufAt
  rw [hb.shBase]
theorem Begun.buf (hb : Begun s b) : b.curCore.buf = s.curCore.buf := by rw [hb.core]
theorem Begun.ctrs (hb : Begun s b) : b.curGrp.ctrs = s.curGrp.ctrs := by rw [hb.curGrp_eq]

/-- A lane's place in its buffer. -/
theorem bufAt_eq (s : State) (sp : Space) (a : Nat) : s.bufAt sp a = if sp = .s then s.curUnit.shBase * 16384 + a else a := by
  unfold State.bufAt
  by_cases h : sp = .s <;> simp [h]

/-! ### Landings (R258) -/

/-- What a counted answer leaves: the group's counter n has risen by k, its core has the answers `a` on their way. -/
structure CountedAnswers (v w : State) (n k : Nat) (a : List Sector) : Prop where
  onStream : OnStream v w
  live : w.live = true
  ctrs : w.curGrp.ctrs = v.curGrp.ctrs.set n (v.curGrp.ctrs.getD n 0 + k)
  mem : w.mem = v.mem
  exact : w.exact = v.exact
  core : w.curCore = { v.curCore with groups := w.curCore.groups, sectors := v.curCore.sectors ++ a }

theorem counted_ctrUp (hl : v.live = true) (n k : Nat) : CountedAnswers v (v.ctrUp n k) n k [] := by
  refine ⟨onStream_modG hl _ fun _ => ⟨rfl, rfl, rfl⟩, live_modG v _ hl, ?_, rfl, rfl, ?_⟩
  · unfold State.ctrUp
    rw [curGrp_modG v _ hl]
    rfl
  · unfold State.ctrUp
    rw [curCore_modG v _ hl, List.append_nil]
    rfl

theorem curCore_later (hl : v.live = true) (lat wall : Nat) (ctr : Option Nat) (pa n : Nat) (bad : Bool) (ws : List Wr) :
    (v.later lat wall ctr pa n bad ws).curCore = v.curCore.expect (v.answerAt lat wall ctr pa n bad ws) := curCore_modC v _ (live_parts hl).1

/-- Another answer is on its way. -/
theorem CountedAnswers.later {n k : Nat} {a : List Sector} (h : CountedAnswers v w n k a) (lat wall : Nat) (ctr : Option Nat) (pa slots : Nat) (bad : Bool)
    (ws : List Wr) : ∃ f, CountedAnswers v (w.later lat wall ctr pa slots bad ws) n k (a ++ [f])
      ∧ f.gid = v.cur.gid ∧ f.ctr = ctr ∧ f.writes = ws ∧ v.curCore.clk + lat ≤ f.due := by
  have aside := aside_later w lat wall ctr pa slots bad ws
  refine ⟨w.answerAt lat wall ctr pa slots bad ws w.curCore.clk,
    ⟨h.onStream.trans aside.stays.onStream, aside.live h.live, ?_, h.mem, h.exact, ?_⟩, ?_, rfl, rfl, ?_⟩
  · rw [aside.grp, h.ctrs]
  · rw [curCore_later h.live, h.core]
    unfold Core.expect
    dsimp only
    rw [List.append_assoc]
  · exact congrArg Cur.gid h.onStream.cur
  · rw [h.core]
    exact Nat.le_add_right _ _

/-- The landing of one sector (R258). -/
def State.landSector (s0 : State) (own : Nat → Bool) (l : List (Lane × List Wr)) (s : State) (k : Nat) : State :=
  s.later 1 (if own k then 0 else s.homeTicks (coreDie s.cur.core) (k * 32)) (some 0) (k * 32) 1
    (if own k then s0.badFor s.cur.core (k * 32) 32 else s0.badAt (k * 32) 32).isSome
    ((l.filter (fun p => p.1.pa / 32 == k)).flatMap Prod.snd)

theorem landSectors_eq (v s0 : State) (own : Nat → Bool) (l : List (Lane × List Wr)) : v.landSectors s0 own l =
    ((l.map (fun p => p.1.pa / 32)).eraseDups).foldl (State.landSector s0 own l)
      (v.ctrUp 0 ((l.map (fun p => p.1.pa / 32)).eraseDups).length) := rfl

/-- f is the landing of sector k for lanes with their writes. -/
def LandsSector (v : State) (l : List (Lane × List Wr)) (k : Nat) (f : Sector) : Prop :=
  f.gid = v.cur.gid ∧ f.ctr = some 0 ∧ f.writes = (l.filter (fun p => p.1.pa / 32 == k)).flatMap Prod.snd ∧ v.curCore.clk + 1 ≤ f.due

theorem CountedAnswers.landSectors {s0 : State} {own : Nat → Bool} {l : List (Lane × List Wr)} {n : Nat} (ks : List Nat) :
    ∀ {w : State} {a : List Sector}, CountedAnswers v w 0 n a →
      ∃ fs, CountedAnswers v (ks.foldl (State.landSector s0 own l) w) 0 n (a ++ fs) ∧ ∀ k ∈ ks, ∃ f ∈ fs, LandsSector v l k f := by
  induction ks with
  | nil => exact fun h => ⟨[], by simpa using h, nofun⟩
  | cons k ks ih =>
    intro w a h
    obtain ⟨f, next, landing⟩ := h.later 1 (if own k then 0 else w.homeTicks (coreDie w.cur.core) (k * 32)) (some 0) (k * 32) 1
      (if own k then s0.badFor w.cur.core (k * 32) 32 else s0.badAt (k * 32) 32).isSome
      ((l.filter (fun p => p.1.pa / 32 == k)).flatMap Prod.snd)
    obtain ⟨fs, rest, landed⟩ := ih next
    refine ⟨f :: fs, by rw [List.append_cons]; exact rest, fun i hi => ?_⟩
    rcases List.mem_cons.mp hi with rfl | hi
    · exact ⟨f, List.mem_cons_self, landing⟩
    · obtain ⟨g, hg, lands⟩ := landed i hi
      exact ⟨g, List.mem_cons_of_mem _ hg, lands⟩

/-- Values of lanes come back in one landing per sector, and counter 0 has risen by their number (R258). -/
theorem counted_landSectors (hl : v.live = true) (s0 : State) (own : Nat → Bool) (l : List (Lane × List Wr)) :
    ∃ fs, CountedAnswers v (v.landSectors s0 own l) 0 ((l.map (fun p => p.1.pa / 32)).eraseDups).length fs
      ∧ ∀ p ∈ l, ∃ f ∈ fs, f.gid = v.cur.gid ∧ f.ctr = some 0 ∧ v.curCore.clk + 1 ≤ f.due ∧ ∀ w ∈ p.2, w ∈ f.writes := by
  rw [landSectors_eq]
  obtain ⟨fs, answered, landed⟩ := (counted_ctrUp hl 0 _).landSectors (s0 := s0) (own := own) (l := l)
    ((l.map (fun p => p.1.pa / 32)).eraseDups)
  refine ⟨fs, answered, fun p hp => ?_⟩
  obtain ⟨f, hf, gid, ctr, writes, due⟩ := landed (p.1.pa / 32) (List.mem_eraseDups.mpr (List.mem_map_of_mem hp))
  refine ⟨f, hf, gid, ctr, due, fun w hw => ?_⟩
  rw [writes]
  exact List.mem_flatMap.mpr ⟨p, List.mem_filter.mpr ⟨hp, by simp⟩, hw⟩

theorem CountedAnswers.mem_sectors {n k : Nat} {a : List Sector} (h : CountedAnswers v w n k a) {f : Sector} (hf : f ∈ a) : f ∈ w.curCore.sectors := by
  rw [h.core]
  exact List.mem_append_right _ hf

/-- The issuing group's counters after an access that has counted its answers. -/
theorem CountedAnswers.ctrsIn {n k : Nat} {a : List Sector} (h : CountedAnswers v w n k a) (hb : Begun s b) (hv : Served b v) (d : Done s w t) :
    (s.groupIn t).ctrs = s.curGrp.ctrs.set n (s.curGrp.ctrs.getD n 0 + k) := by
  rw [d.grp]
  show w.curGrp.ctrs = _
  rw [h.ctrs, hv.ctrs, hb.ctrs]

end Sys2Proof.Machine
end

section

/-! Loads (R257, R258, R260): the landings of LD and LDX from the buffers, the shared window and memory (O17, O18). -/

namespace Sys2Proof.Machine

variable {s b u t : State} {x : AccOp}

/-! ### Holds -/

/-- A load that is not held leaves the state as it is. -/
theorem holdLoad_free (h : (holdLoad x s).1 = false) : (holdLoad x s).2 = s := by
  unfold holdLoad State.countHold at *
  dsimp only at *
  obtain ⟨counted, unreserved⟩ := Bool.or_eq_false_iff.mp h
  rw [unreserved]
  refine ite_cond_eq_false _ _ (by simp) |>.trans (if_neg ?_)
  cases hs : s.slotHold x (s.plan x) with
  | false => exact Bool.false_ne_true
  | true =>
    have space : (x.sp == .g) = true := by
      unfold State.slotHold at hs
      exact (Bool.and_eq_true_iff.mp hs).1
    rw [space, if_pos rfl, hs, Bool.or_true] at counted
    cases counted

/-! ### Loads of a buffer or the shared window (R257) -/

/-- The load of either form. -/
def loadInstr (row : Bool) (g : Guard) (sp : Space) (sz : Size) (sx : Bool) (vd : View) (an : AReg) (vo : VSrc) (disp : BitVec 16) : Instr :=
  if row then .ld g sp sz sx vd an vo disp else .ldx g sp sz sx vd an vo disp

section
variable {g : Guard} {sp : Space} {sz : Size} {sx row : Bool} {vd : View} {an : AReg} {vo : VSrc} {disp : BitVec 16}

theorem load_sem (row : Bool) : (loadInstr row g sp sz sx vd an vo disp).isSlot = true
    ∧ (opInfo (loadInstr row g sp sz sx vd an vo disp)).guard = g
    ∧ (semOf (soloSlot (loadInstr row g sp sz sx vd an vo disp)) (loadInstr row g sp sz sx vd an vo disp)).hold = holdLoad (loadOp g sp sz an vo disp row)
    ∧ (semOf (soloSlot (loadInstr row g sp sz sx vd an vo disp)) (loadInstr row g sp sz sx vd an vo disp)).eff
      = effLoad (loadOp g sp sz an vo disp row) sx vd := by
  cases row <;> exact ⟨rfl, rfl, rfl, rfl⟩

/-- A load that issues acts on the state in which it began. -/
theorem load_yields {P : State → Prop} (h : s.issues (loadInstr row g sp sz sx vd an vo disp) = true) (ha : s.act g ≠ 0)
    (hP : ∀ b, s.begun (loadInstr row g sp sz sx vd an vo disp) = b → Begun s b → ∃ u, effLoad (loadOp g sp sz an vo disp row) sx vd b = u
      ∧ OnStream b u ∧ ∀ t, Done s u t → P t) :
    Yields (loadInstr row g sp sz sx vd an vo disp) s P := by
  obtain ⟨slot, guard, hold, eff⟩ := load_sem (g := g) (sp := sp) (sz := sz) (sx := sx) (vd := vd) (an := an) (vo := vo) (disp := disp) row
  have acts : s.act (opInfo (loadInstr row g sp sz sx vd an vo disp)).guard ≠ 0 := by rwa [guard]
  have free := hold_keeps h acts (by rw [hold]; exact holdLoad_free)
  obtain ⟨u, hu, hs, hP⟩ := hP _ rfl (begun_of_hold h free).1
  exact yields_of_done slot h acts free ((congrFun eff _).trans hu) hs hP

end

/-- The value that a load of a buffer gives lane p. -/
def State.loadVal (s : State) (x : AccOp) (sx : Bool) (p : Lane) : Nat :=
  extendTo x.n sx (s.curCore.bufNat (spBuf x.sp) (s.bufAt x.sp p.va) x.n)

theorem loadVal_marked (hb : Begun s b) (x : AccOp) (sx : Bool) : (b.marked x).loadVal x sx = s.loadVal x sx := by
  have marked := served_marked hb.live x
  funext p
  unfold State.loadVal
  rw [marked.bufAt, hb.bufAt, bufNat_congr (marked.buf.trans hb.buf)]

theorem effLoad_shared {sx : Bool} {vd : View} (hx : x.sp = .s) (lanes : (b.plan x).lanes ≠ []) : effLoad x sx vd b =
    ((b.marked x).ctrUp 0 1).later 20 0 (some 0) 0 0 false
      ((b.plan x).lanes.flatMap (fun p => laneWrites vd x.n p.j ((b.marked x).loadVal x sx p))) := by
  have some : (b.plan x).lanes.isEmpty = false := by simpa using lanes
  have notG : (x.sp == .g) = false := by rw [hx]; rfl
  have isS : (x.sp == .s) = true := by rw [hx]; rfl
  unfold effLoad
  dsimp only
  rw [notG, isS, some]
  rfl

/-- Lanes of four bytes write one word each. -/
theorem laneWrites_word (l : List Lane) (vd : View) (f : Lane → Nat) :
    l.flatMap (fun p => laneWrites vd 4 p.j (f p)) = l.map (fun p => .m (vkey vd p.j) (BitVec.ofNat 32 (f p))) := List.map_eq_flatMap.symm

theorem effLoad_buffer {sx : Bool} {vd : View} (hg : x.sp ≠ .g) (hs : x.sp ≠ .s) : effLoad x sx vd b =
    ((b.marked x).emit 3 8 ((b.plan x).lanes.map (fun p => .m (vkey vd p.j) (BitVec.ofNat 32 ((b.marked x).loadVal x sx p))))).emit 3 8
      (if x.n = 8 then
        (b.plan x).lanes.map (fun p => .m (vkey (vnext vd 1) p.j) (BitVec.ofNat 32 ((b.marked x).loadVal x sx p / 2 ^ 32))) else []) := by
  have notG : (x.sp == .g) = false := by simpa using hg
  have notS : (x.sp == .s) = false := by simpa using hs
  unfold effLoad
  dsimp only
  simp only [notG, notS, laneWrites_word, Bool.false_eq_true, if_false]
  rfl

/-! ### Results of a buffer (R71, R257) -/

/-- A core has sent a result of group g, issued in clk p, that lands lam clk later. -/
def Core.Sent (c : Core) (g p lam : Nat) (ws : List Wr) : Prop := ∃ f ∈ c.inflight, f.gid = g ∧ f.issued = p ∧ f.due = p + lam ∧ f.writes = ws

theorem sent_of_emit (hl : u.live = true) (n lam : Nat) {ws : List Wr} (hw : ws ≠ []) :
    (u.emit n lam ws).curCore.Sent u.cur.gid u.curCore.pclk lam ws := by
  rw [emit_core u n lam ws hl hw]
  exact ⟨_, List.mem_append_right _ (List.mem_singleton_self _), rfl, rfl, rfl, rfl⟩

/-- Another result leaves what was sent on its way. -/
theorem Core.Sent.emit {g p lam : Nat} {ws : List Wr} (h : u.curCore.Sent g p lam ws) (hl : u.live = true) (n m : Nat) (vs : List Wr) :
    (u.emit n m vs).curCore.Sent g p lam ws := by
  by_cases none : vs = []
  · rw [none, emit_nil]
    exact h
  · rw [emit_core u n m vs hl none]
    obtain ⟨f, hf, rest⟩ := h
    exact ⟨f, List.mem_append_left _ hf, rest⟩

theorem pclk_emit (hl : u.live = true) (n lam : Nat) {ws : List Wr} (hw : ws ≠ []) : (u.emit n lam ws).curCore.pclk = u.curCore.pclk := by
  rw [emit_core u n lam ws hl hw]

theorem Done.lands {lam : Nat} {ws : List Wr} (d : Done s u t) (h : u.curCore.Sent s.cur.gid s.curCore.pclk lam ws) : Lands s t lam ws := by
  obtain ⟨f, hf, gid, issued, due, writes⟩ := h
  have inflight : (s.coreIn t).inflight = u.curCore.inflight := by rw [d.core]
  exact ⟨f, by rw [← inflight] at hf; exact hf, gid, by exact_mod_cast issued, by exact_mod_cast due, writes⟩

section
variable {g : Guard} {sp : Space} {sz : Size} {sx row : Bool} {vd : View} {an : AReg} {vo : VSrc} {disp : BitVec 16}

theorem buffer_load (h : s.issues (loadInstr row g sp sz sx vd an vo disp) = true) (ha : s.act g ≠ 0) (notG : sp ≠ .g) (notS : sp ≠ .s) :
    let x := loadOp g sp sz an vo disp row
    let l := ((s.begun (loadInstr row g sp sz sx vd an vo disp)).plan x).lanes
    l ≠ [] → Yields (loadInstr row g sp sz sx vd an vo disp) s (fun t =>
      Lands s t 8 (l.map (fun p => .m (vkey vd p.j) (BitVec.ofNat 32 (s.loadVal x sx p))))
      ∧ (x.n = 8 → Lands s t 8 (l.map (fun p => .m (vkey (vnext vd 1) p.j) (BitVec.ofNat 32 (s.loadVal x sx p / 2 ^ 32)))))) := by
  intro x l lanes
  refine load_yields h ha fun b hbegun hb => ?_
  rw [show l = (b.plan x).lanes by rw [← hbegun]] at lanes ⊢
  have eff := effLoad_buffer (b := b) (sx := sx) (vd := vd) (x := x) notG notS
  rw [loadVal_marked hb] at eff
  have marked := served_marked hb.live x
  have words : (b.plan x).lanes.map (fun p => Wr.m (vkey vd p.j) (BitVec.ofNat 32 (s.loadVal x sx p))) ≠ [] := by simpa using lanes
  have gid : (b.marked x).cur.gid = s.cur.gid := by rw [marked.cur, hb.groupKey]
  have pclk : (b.marked x).curCore.pclk = s.curCore.pclk := marked.pclk.trans hb.pclk
  have sent := sent_of_emit marked.live 3 8 words
  have first := aside_emit (b.marked x) 3 8 ((b.plan x).lanes.map (fun p => Wr.m (vkey vd p.j) (BitVec.ofNat 32 (s.loadVal x sx p))))
  have clk := pclk_emit marked.live 3 8 words
  generalize (b.marked x).emit 3 8 _ = v at eff sent first clk
  have lv := first.live marked.live
  rw [gid, pclk] at sent
  refine ⟨_, eff, (marked.onStream.trans first.stays.onStream).trans (aside_emit v 3 8 _).stays.onStream,
    fun t d => ⟨d.lands (sent.emit lv 3 8 _), fun wide => ?_⟩⟩
  rw [if_pos wide] at d
  have upper := sent_of_emit lv 3 8 (ws := (b.plan x).lanes.map fun p => Wr.m (vkey (vnext vd 1) p.j) (BitVec.ofNat 32 (s.loadVal x sx p / 2 ^ 32)))
    (by simpa using lanes)
  rw [first.cur, gid, clk, pclk] at upper
  exact d.lands upper

theorem shared_load (h : s.issues (loadInstr row g .s sz sx vd an vo disp) = true) (ha : s.act g ≠ 0) :
    let x := loadOp g .s sz an vo disp row
    let l := ((s.begun (loadInstr row g .s sz sx vd an vo disp)).plan x).lanes
    l ≠ [] → Yields (loadInstr row g .s sz sx vd an vo disp) s (fun t =>
      (s.groupIn t).ctrs = s.curGrp.ctrs.set 0 (s.curGrp.ctrs.getD 0 0 + 1)
      ∧ ∃ f ∈ (s.coreIn t).sectors, f.gid = s.cur.gid ∧ f.writes = l.flatMap (fun p => laneWrites vd x.n p.j (s.loadVal x sx p))
          ∧ f.ctr = some 0 ∧ s.curCore.clk + 20 ≤ f.due) := by
  intro x l lanes
  refine load_yields h ha fun b hbegun hb => ?_
  rw [show l = (b.plan x).lanes by rw [← hbegun]] at lanes ⊢
  have eff := effLoad_shared (b := b) (sx := sx) (vd := vd) (x := x) rfl lanes
  rw [loadVal_marked hb] at eff
  have marked := served_marked hb.live x
  obtain ⟨f, counted, gid, ctr, writes, due⟩ := (counted_ctrUp marked.live 0 1).later 20 0 (some 0) 0 0 false
    ((b.plan x).lanes.flatMap (fun p => laneWrites vd x.n p.j (s.loadVal x sx p)))
  rw [marked.cur, hb.groupKey] at gid
  rw [marked.clk, hb.clk] at due
  refine ⟨_, eff, marked.onStream.trans counted.onStream, fun t d => ⟨counted.ctrsIn hb marked d, f, ?_, gid, writes, ctr, due⟩⟩
  rw [d.sectors]
  exact counted.mem_sectors (List.mem_singleton_self f)

end

/-- Settles O17: a load acts where its lanes read, in the state as it was before the issue, and sends what it reads: as results of the
buffer's latency, or as one counted landing. -/
theorem bufferLoadResults : Obligations.BufferLoadResults := by
  unfold Obligations.BufferLoadResults
  intro s g sp sz sx row vd an vo disp i x b l at_ val ws h ha notG lanes
  have values (p : Lane) : val p = s.loadVal x sx p := congrArg (fun a => extendTo x.n sx (s.curCore.bufNat (spBuf sp) a x.n)) (bufAt_eq s sp p.va).symm
  refine ⟨fun notS => ?_, fun shared => ?_⟩
  · simp only [values]
    exact buffer_load h ha notG notS lanes
  · subst shared
    simp only [ws, values]
    exact shared_load h ha lanes

/-! ### Loads of memory (R257, R258) -/

theorem memoryOnly_readLanes (n : Nat) (l : List Lane) (s : State) : MemoryOnly s (s.readLanes n l).2 := by
  induction l generalizing s with
  | nil => exact .refl s
  | cons p r ih => exact (memoryOnly_loadG s _ _ _ _ _ _).trans (ih _)

/-- Every lane is read, in order. -/
theorem readLanes_lanes (n : Nat) (l : List Lane) (s : State) : (s.readLanes n l).1.map Prod.fst = l := by
  induction l generalizing s with
  | nil => rfl
  | cons p r ih => exact congrArg (p :: ·) (ih _)

section
variable {g : Guard} {sz : Size} {sx row : Bool} {vd : View} {an : AReg} {vo : VSrc} {disp : BitVec 16}

theorem memory_load (h : s.issues (loadInstr row g .g sz sx vd an vo disp) = true) (ha : s.act g ≠ 0) :
    let x := loadOp g .g sz an vo disp row
    let b := s.begun (loadInstr row g .g sz sx vd an vo disp)
    Yields (loadInstr row g .g sz sx vd an vo disp) s (fun t =>
      (s.groupIn t).ctrs = s.curGrp.ctrs.set 0 (s.curGrp.ctrs.getD 0 0 + (sectorsOf (b.plan x).lanes).length)
      ∧ ∀ q ∈ ((b.marked x).readLanes x.n (b.plan x).lanes).1, ∃ f ∈ (s.coreIn t).sectors, f.gid = s.cur.gid ∧ f.ctr = some 0
          ∧ s.curCore.clk + 1 ≤ f.due ∧ ∀ w ∈ laneWrites vd x.n q.1.j (extendTo x.n sx q.2), w ∈ f.writes) := by
  intro x b
  refine load_yields h ha fun b hbegun hb => ?_
  subst hbegun
  have marked := served_marked hb.live x
  have read := marked.memory (memoryOnly_readLanes x.n (b.plan x).lanes (b.marked x))
  let out := ((b.marked x).readLanes x.n (b.plan x).lanes).1.map (fun q => (q.1, laneWrites vd x.n q.1.j (extendTo x.n sx q.2)))
  have sectors : (out.map (fun p => p.1.pa / 32)).eraseDups = sectorsOf (b.plan x).lanes := by
    unfold sectorsOf
    rw [← readLanes_lanes x.n (b.plan x).lanes (b.marked x), List.map_map, List.map_map]
    rfl
  obtain ⟨fs, counted, landed⟩ := counted_landSectors read.live (b.marked x) ((b.marked x).servedHere (b.plan x).lanes) out
  rw [sectors] at counted
  refine ⟨_, rfl, read.onStream.trans counted.onStream, fun t d => ⟨counted.ctrsIn hb read d, fun q hq => ?_⟩⟩
  obtain ⟨f, hf, gid, ctr, due, writes⟩ := landed _ (List.mem_map_of_mem hq)
  rw [read.cur, hb.groupKey] at gid
  rw [read.clk, hb.clk] at due
  refine ⟨f, ?_, gid, ctr, due, writes⟩
  rw [d.sectors]
  exact counted.mem_sectors hf

end

/-- Settles O18: the lanes are read one after the other, each as its core reads it, and come back in one counted landing per sector. -/
theorem globalLoadResults : Obligations.GlobalLoadResults := by
  unfold Obligations.GlobalLoadResults
  intro s g sz sx row vd an vo disp i x b p r h ha
  exact memory_load h ha

end Sys2Proof.Machine
end

section

/-! SUPPORT. Bytes that stand in memory and in buffers after a write (R213, R234), and the buffers at the end of an issue (R118). -/

namespace Sys2Proof.Machine

variable {s b u v t : State}

/-! ### Memory -/

/-- Two bytes of a short range have their homes apart. -/
theorem canon_inj {a i j : Nat} (hi : i < 4398046511104) (hj : j < 4398046511104) (h : s.canon (a + i) = s.canon (a + j)) : i = j := by
  unfold State.canon podPkg podOff at h
  norm_num at h
  split at h <;> split at h <;> omega

/-- Bytes written to memory are read there. -/
theorem byte_putBytes_same {pa : Nat} {l : List Byte} (h : s.memOk = true) (hn : l.length < 4398046511104) {i : Nat} (hi : i < l.length) :
    (s.putBytes pa l).byte (pa + i) = l.getD i 0 := by
  induction l generalizing s pa i with
  | nil => cases hi
  | cons v r ih =>
    have written : ({ s.putByte pa v with hostL2 := kmod (pa / 128) (fun l => l.set (pa % 128) v) (s.putByte pa v).hostL2 } : State).memOk = true :=
      putByte_memOk pa v h
    have shorter : r.length < 4398046511104 := Nat.lt_of_succ_lt hn
    unfold State.putBytes
    cases i with
    | zero =>
      refine (byte_putBytes_other written fun j hj e => ?_).trans (byte_putByte_same pa v h)
      have := canon_inj (a := pa) (i := 0) (j := 1 + j) (by omega) (by simp only [List.length_cons] at hn; omega) (by rw [← Nat.add_assoc]; exact e)
      omega
    | succ j =>
      rw [show pa + (j + 1) = pa + 1 + j by omega, ih written shorter (Nat.lt_of_succ_lt_succ hi)]
      rfl

/-- With no open sum there is nothing to settle. -/
theorem settleRange_of_closed (h : s.exact = []) (pa n : Nat) : s.settleRange pa n = s := by
  unfold State.settleRange State.openWords
  rw [h]
  rfl

theorem byte_of_mem (hm : u.mem = v.mem) (hc : ∀ a, u.canon a = v.canon a) (a : Nat) : u.byte a = v.byte a := by
  unfold State.byte
  rw [hm, hc]

theorem mem_markFar (s : State) (pa : Nat) : (s.markFar pa).mem = s.mem := by
  unfold State.markFar
  split <;> rfl

theorem canon_markFar (s : State) (pa a : Nat) : (s.markFar pa).canon a = s.canon a := by
  unfold State.markFar
  split <;> rfl

theorem byte_markFar (s : State) (pa a : Nat) : (s.markFar pa).byte a = s.byte a := byte_of_mem (mem_markFar s pa) (canon_markFar s pa) a

/-! ### Buffers at the end of an issue -/

/-- Where the tail darkens no scratch bank, the buffers are as the slots left them. -/
theorem buf_finish (hb : Begun s b) (hs : OnStream b u) (hd : s.dueTrap = none) (hh : b.cur.hand = none) (keeps : fld s.cur.tail 12 2 ≠ 2) :
    (s.coreIn u.finish).buf = u.curCore.buf := by
  have hl := hs.live hb.live
  have tail : u.cur.tail = s.cur.tail := by rw [hs.cur, hb.only]
  obtain ⟨f, finish, moved⟩ := finish_calm u hl (hs.dueTrap.trans (hb.dueTrap.trans hd)) (hs.cur ▸ hh)
  obtain ⟨-, -, -, -, -, buf⟩ := moved u.curCore
  have core : s.coreIn u.finish = f u.curCore := by
    rw [finish]
    show (u.modC f).core s.cur.core = _
    rw [← hb.coreKey, ← hs.cur]
    exact curCore_modC u f (live_parts hl).1
  rw [core]
  exact buf (by rw [tail]; simpa using keeps)

/-- The rule of a lone instruction, for answers that tell of the buffers too. -/
theorem yields_of_done_buf {i : Instr} {P : State → Prop} (hi : i.isSlot = true) (h : s.issues i = true)
    (ha : s.act (opInfo i).guard ≠ 0) (hh : ((semOf (soloSlot i) i).hold s).2 = s)
    (hu : (semOf (soloSlot i) i).eff (s.begun i) = u) (hs : OnStream (s.begun i) u)
    (hP : ∀ t, Done s u t → (fld s.cur.tail 12 2 ≠ 2 → (s.coreIn t).buf = u.curCore.buf) → P t) : Yields i s P := by
  have hb := (begun_of_hold h hh).1
  refine ⟨_, exec_of_issues i s hi h, hP _ ?_ ?_⟩ <;> rw [gated_eff hb ha, hu]
  · exact done_finish hb hs (issues_parts h).2.1 (begun_hand s i)
  · exact buf_finish hb hs (issues_parts h).2.1 (begun_hand s i)

end Sys2Proof.Machine
end

section

/-! Atomics (R234, R262, R263): what one lane reads and rewrites, the lanes of ATOM in order, and its landings (O22). -/

namespace Sys2Proof.Machine

variable {s b u v t : State} {x : AccOp}

/-! ### One lane -/

theorem beforeAtomic_of_none {c pa : Nat} (h : kget (s.canon pa / 128) (s.core c).lines = none) : s.beforeAtomic c pa = s := by
  unfold State.beforeAtomic
  dsimp only
  rw [h]
  rfl

theorem rmw_memory (closed : s.exact = []) {l : Lane} (absent : kget (s.canon l.pa / 128) s.curCore.lines = none) (n : Nat) (f : Nat → Nat) :
    s.rmw .g n l f = (s.nat l.pa n, (s.putBytes l.pa (leBytes n (f (s.nat l.pa n)))).markFar l.pa) := by
  unfold State.rmw
  dsimp only
  rw [beforeAtomic_of_none absent, settleRange_of_closed closed]
  rfl

/-- An atomic in memory reads its word and leaves the new value there, and no other byte changes. -/
theorem rmw_memory_bytes (ok : s.memOk = true) {n : Nat} (hn : n ≤ 8) {l : Lane} {f : Nat → Nat} {r : Nat × State}
    (hr : r = (s.nat l.pa n, (s.putBytes l.pa (leBytes n (f (s.nat l.pa n)))).markFar l.pa)) :
    r.1 = s.nat l.pa n ∧ (∀ k, k < n → r.2.byte (l.pa + k) = (leBytes n (f (s.nat l.pa n))).getD k 0)
    ∧ ∀ a, (∀ k, k < n → s.canon (l.pa + k) ≠ s.canon a) → r.2.byte a = s.byte a := by
  subst hr
  have len := leBytes_length n (f (s.nat l.pa n))
  refine ⟨rfl, fun k hk => ?_, fun a apart => ?_⟩
  · rw [byte_markFar, byte_putBytes_same ok (by omega) (by omega)]
  · rw [byte_markFar, byte_putBytes_other ok fun i hi => (apart i (len ▸ hi)).symm]

/-- An atomic in the shared window reads its word and leaves the new value there. -/
theorem rmw_shared_bytes (hl : s.live = true) (canonical : swf (0 : Byte) s.curCore.buf = true) (n : Nat) (l : Lane) (f : Nat → Nat) :
    (s.rmw .s n l f).1 = s.curCore.bufNat 4 (s.curUnit.shBase * 16384 + l.va) n
    ∧ (∀ k, k < n → (s.rmw .s n l f).2.curCore.bufByte 4 (s.curUnit.shBase * 16384 + l.va + k)
        = (leBytes n (f (s.rmw .s n l f).1)).getD k 0)
    ∧ (s.rmw .s n l f).2.mem = s.mem := by
  have read : (s.rmw .s n l f).1 = s.curCore.bufNat 4 (s.curUnit.shBase * 16384 + l.va) n := rfl
  have core : (s.rmw .s n l f).2.curCore = s.curCore.bufWrite 4 (s.curUnit.shBase * 16384 + l.va) (leBytes n (f (s.rmw .s n l f).1)) :=
    curCore_modC s _ (live_parts hl).1
  refine ⟨read, fun k hk => ?_, rfl⟩
  rw [core]
  exact bufByte_bufWrite 4 _ canonical (by rwa [leBytes_length])

/-! ### Lanes in order -/

theorem memoryOnly_beforeAtomic (s : State) (c pa : Nat) : MemoryOnly s (s.beforeAtomic c pa) := by
  unfold State.beforeAtomic
  dsimp only
  split
  · exact memoryOnly_dropLine ..
  · exact .refl s

theorem groups_bufWrite (c : Core) (k off : Nat) (l : List Byte) : (c.bufWrite k off l).groups = c.groups := by
  rw [rotRan_bufWrite k l off c]

theorem onStream_rmw (hl : s.live = true) (sp : Space) (n : Nat) (l : Lane) (f : Nat → Nat) : OnStream s (s.rmw sp n l f).2 := by
  unfold State.rmw
  split
  · have settled := (memoryOnly_beforeAtomic s s.cur.core l.pa).trans (memoryOnly_settleRange _ l.pa n)
    have put := Served.of_memory hl (settled.trans (memoryOnly_putBytes _ l.pa
      (leBytes n (f (((s.beforeAtomic s.cur.core l.pa).settleRange l.pa n).nat l.pa n)))))
    exact (put.trans (.markFar put.live l.pa)).onStream
  · exact (Aside.modC s _ fun c => groups_bufWrite ..).stays.onStream

theorem onStream_atomLanes (sp : Space) (n : Nat) (f : Nat → Nat → Nat) (l : List Lane) {s : State} (hl : s.live = true) :
    OnStream s (s.atomLanes sp n f l).2 := by
  induction l generalizing s with
  | nil => exact .refl s
  | cons p r ih =>
    unfold State.atomLanes
    split
    · exact ih hl
    · have acted := onStream_rmw hl sp n p (f p.j)
      exact acted.trans (ih (acted.live hl))

/-- Every lane acts, in order. -/
theorem atomLanes_lanes (sp : Space) (n : Nat) (f : Nat → Nat → Nat) (l : List Lane) (s : State) : (s.atomLanes sp n f l).1.map Prod.fst = l := by
  induction l generalizing s with
  | nil => rfl
  | cons p r ih =>
    unfold State.atomLanes
    split <;> exact congrArg (p :: ·) (ih _)

/-! ### ATOM -/

/-- The lanes of an ATOM as they act. -/
def State.atoms (b : State) (x : AccOp) (op : Nat) (vd : View) : List (Lane × Nat) × State :=
  (b.marked x).atomLanes x.sp x.n
    (fun j old => atomNew op x.n old (b.atomData vd x.n 0 j) (b.atomData vd x.n (if x.n = 8 then 2 else 1) j)) (b.plan x).lanes

/-- The old values of an ATOM are on their way (R262). -/
structure SendsOld (r : List (Lane × Nat) × State) (n : Nat) (vd : View) (u : State) : Prop where
  onStream : OnStream r.2 u
  mem : u.mem = r.2.mem
  buf : u.curCore.buf = r.2.curCore.buf
  lands : ∀ q ∈ r.1, ∃ f ∈ u.curCore.sectors, f.gid = r.2.cur.gid ∧ f.ctr = some 0 ∧ ∀ w ∈ laneWrites vd n q.1.j q.2, w ∈ f.writes

theorem effAtom_sends (hl : b.live = true) (x : AccOp) (op : Nat) (vd : View) :
    SendsOld (b.atoms x op vd) x.n vd (effAtom x op vd b) := by
  have lv : (b.atoms x op vd).2.live = true := (onStream_atomLanes _ _ _ _ (served_marked hl x).live).live (served_marked hl x).live
  have lanes : (b.atoms x op vd).1.map Prod.fst = (b.plan x).lanes := atomLanes_lanes ..
  have eff : effAtom x op vd b = (
      let r := b.atoms x op vd
      let out := r.1.map (fun q => (q.1, laneWrites vd x.n q.1.j q.2))
      if x.sp == .g then r.2.landSectors (b.marked x) (fun _ => false) out
      else if (b.plan x).lanes.isEmpty then r.2
      else (r.2.ctrUp 0 1).later 20 0 (some 0) 0 0 false (out.flatMap Prod.snd)) := rfl
  rw [eff, ← lanes]
  generalize b.atoms x op vd = r at lv
  dsimp only
  split
  · obtain ⟨fs, counted, landed⟩ :=
      counted_landSectors lv (b.marked x) (fun _ => false) (r.1.map (fun q => (q.1, laneWrites vd x.n q.1.j q.2)))
    refine ⟨counted.onStream, counted.mem, by rw [counted.core], fun q hq => ?_⟩
    obtain ⟨f, hf, gid, ctr, -, writes⟩ := landed _ (List.mem_map_of_mem hq)
    exact ⟨f, counted.mem_sectors hf, gid, ctr, writes⟩
  split
  next none =>
    have empty : r.1 = [] := by simpa using none
    exact ⟨.refl _, rfl, rfl, by rw [empty]; exact nofun⟩
  · obtain ⟨f, counted, gid, ctr, writes, -⟩ := (counted_ctrUp lv 0 1).later 20 0 (some 0) 0 0 false
      ((r.1.map (fun q => (q.1, laneWrites vd x.n q.1.j q.2))).flatMap Prod.snd)
    refine ⟨counted.onStream, counted.mem, by rw [counted.core], fun q hq => ⟨f, counted.mem_sectors (List.mem_singleton_self f), gid, ctr, ?_⟩⟩
    rw [writes]
    exact fun w hw => List.mem_flatMap.mpr ⟨_, List.mem_map_of_mem hq, hw⟩

theorem atom_results {g : Guard} {shared b64 : Bool} {op : Fin 10} {vd : View} {an : AReg} {vo : VSrc} {disp : BitVec 16}
    (h : s.issues (.atom g shared b64 op vd an vo disp) = true) (ha : s.act g ≠ 0) (keeps : fld s.cur.tail 12 2 ≠ 2) :
    let x := atomOp g shared b64 an vo disp
    let r := (s.begun (.atom g shared b64 op vd an vo disp)).atoms x op.val vd
    Yields (.atom g shared b64 op vd an vo disp) s (fun t => t.mem = r.2.mem ∧ (s.coreIn t).buf = r.2.curCore.buf
      ∧ ∀ q ∈ r.1, ∃ f ∈ (s.coreIn t).sectors, f.gid = s.cur.gid ∧ f.ctr = some 0 ∧ ∀ w ∈ laneWrites vd x.n q.1.j q.2, w ∈ f.writes) := by
  intro x r
  have free := hold_keeps h ha holdLoad_free
  have hb := (begun_of_hold h free).1
  have acted : OnStream _ r.2 := (served_marked hb.live x).onStream.trans (onStream_atomLanes _ _ _ _ (served_marked hb.live x).live)
  have sends : SendsOld r x.n vd (effAtom x op.val vd _) := effAtom_sends hb.live x op.val vd
  refine yields_of_done_buf rfl h ha free rfl (acted.trans sends.onStream) fun t d buf => ⟨d.mem.trans sends.mem, (buf keeps).trans sends.buf, ?_⟩
  intro q hq
  obtain ⟨f, hf, gid, ctr, writes⟩ := sends.lands q hq
  rw [acted.cur, hb.groupKey] at gid
  exact ⟨f, by rw [d.sectors]; exact hf, gid, ctr, writes⟩

/-- Settles O22: the lanes of ATOM act one after the other on what the lower ones left, and a lane's word alone changes. -/
theorem atomicResults : Obligations.AtomicResults := by
  unfold Obligations.AtomicResults
  refine ⟨?_, fun s n l f closed hn => ⟨fun ok absent => ?_, fun hl canonical => ?_⟩⟩
  · intro s g shared b64 op vd an vo disp i x b p k r h ha keeps
    have results := atom_results h ha keeps
    cases b64 <;> exact results
  · exact rmw_memory_bytes ok (by omega) (rmw_memory closed absent n f)
  · exact rmw_shared_bytes hl canonical n l f

end Sys2Proof.Machine
end

section

/-! SUPPORT. Stores into scratch buffers (R117, R261): the banks that a store wakes, the bytes that it leaves or sends on their way, and
the lanes of an access in their order. -/

namespace Sys2Proof.Machine

variable {s b u v t : State} {x : AccOp}

/-! ### Entries that are not the default -/

section
variable {α : Type} [DecidableEq α] {d w : α}

/-- An entry that is not the default is found where it was put, in any table. -/
theorem sget_sset_ne_default (hw : w ≠ d) (k : Nat) (m : Sparse α) : sget d k (sset d k w m) = w := by
  induction m with
  | nil => simp [sset, sget, hw]
  | cons p r ih =>
    obtain ⟨k', w'⟩ := p
    unfold sset
    rcases Nat.lt_trichotomy k k' with below | rfl | above
    · simp [below, hw, sget]
    · simp [hw, sget]
    · rw [if_neg (by omega), if_neg (by omega), sget, if_neg (by omega), if_neg (by omega), ih]

/-- It leaves the other keys alone. -/
theorem sget_sset_ne_default_other (hw : w ≠ d) {j k : Nat} (ne : j ≠ k) (m : Sparse α) : sget d j (sset d k w m) = sget d j m := by
  induction m with
  | nil => simp [sset, sget, hw, ne]
  | cons p r ih =>
    obtain ⟨k', w'⟩ := p
    unfold sset
    rcases Nat.lt_trichotomy k k' with below | rfl | above
    · rw [if_pos below, if_neg hw, sget, if_neg ne]
      split
      next lt => rw [sget, if_neg (by omega), if_pos (by omega)]
      · rfl
    · rw [if_neg (by omega), if_pos rfl, if_neg hw, sget, sget, if_neg ne, if_neg ne]
    · rw [if_neg (by omega), if_neg (by omega), sget, sget, ih]

end

/-! ### Banks (R117) -/

theorem sleeps_iff {b : Bank} : b.sleeps = true ↔ (b.st == .bright) = false ∧ b.wakeAt = none := by
  unfold Bank.sleeps
  simp

/-- A wake of a bank that sleeps. -/
theorem wake_of_sleeps {b : Bank} (h : b.sleeps = true) (n lat : Nat) :
    b.wake n lat = { st := .dim, wakeAt := some (n + lat), dirty := b.dirty || b.st == .dark } := by
  obtain ⟨dim, still⟩ := sleeps_iff.mp h
  unfold Bank.wake
  rw [dim, still]
  rfl

theorem wake_ne_start {b : Bank} (h : b.sleeps = true) (n lat : Nat) : b.wake n lat ≠ Bank.start := by
  rw [wake_of_sleeps h]
  exact fun e => nomatch congrArg Bank.st e

/-- Every scratch bank is as awake as before, and its wake ends when it would have ended. -/
structure BanksKept (c d : Core) : Prop where
  clk : d.clk = c.clk
  ready : ∀ k, (d.sbank k).ready = (c.sbank k).ready
  ends : ∀ k, (d.sbank k).wakeEnd d.clk 40 = (c.sbank k).wakeEnd c.clk 40

namespace BanksKept

variable {c d e : Core}

theorem refl (c : Core) : BanksKept c c := ⟨rfl, fun _ => rfl, fun _ => rfl⟩
theorem trans (a : BanksKept c d) (b : BanksKept d e) : BanksKept c e :=
  ⟨b.clk.trans a.clk, fun k => (b.ready k).trans (a.ready k), fun k => (b.ends k).trans (a.ends k)⟩
theorem of_scratch (hc : d.clk = c.clk) (hs : d.scratch = c.scratch) : BanksKept c d := by
  have same (k : Nat) : d.sbank k = c.sbank k := by
    unfold Core.sbank
    rw [hs]
  exact ⟨hc, fun k => by rw [same], fun k => by rw [same, hc]⟩

/-- A bank that changes neither its readiness nor its wake's end. -/
theorem setSbank (c : Core) (i : Nat) {w : Bank} (hw : w ≠ Bank.start) (ready : w.ready = (c.sbank i).ready)
    (ends : w.wakeEnd c.clk 40 = (c.sbank i).wakeEnd c.clk 40) : BanksKept c (c.setSbank i w) := by
  have same : (c.setSbank i w).sbank i = w := sget_sset_ne_default hw i c.scratch
  have other {k : Nat} (ne : k ≠ i) : (c.setSbank i w).sbank k = c.sbank k := sget_sset_ne_default_other hw ne c.scratch
  refine ⟨rfl, fun k => ?_, fun k => ?_⟩
  · by_cases h : k = i
    · rw [h, same, ready]
    · rw [other h]
  · by_cases h : k = i
    · rw [h, same]
      exact ends
    · rw [other h]
      rfl

theorem wakeScratch (c : Core) (i : Nat) : BanksKept c (c.wakeScratch i) := by
  unfold Core.wakeScratch
  split
  next sleeps =>
    obtain ⟨dim, still⟩ := sleeps_iff.mp sleeps
    refine (setSbank c i (wake_ne_start sleeps c.clk 40) ?_ ?_).trans (of_scratch rfl rfl) <;> rw [wake_of_sleeps sleeps]
    · unfold Bank.ready
      rw [dim]
      rfl
    · unfold Bank.wakeEnd
      rw [still]
      rfl
  · exact refl c

theorem wakeScratches (l : List Nat) (c : Core) : BanksKept c (l.foldl Core.wakeScratch c) :=
  List.foldlRecOn (motive := BanksKept c) l _ (refl c) fun _ h i _ => h.trans (wakeScratch _ i)

theorem bufPut (c : Core) (k off : Nat) (v : Byte) : BanksKept c (c.bufPut k off v) := by
  have woken := wakeScratch c (bufBase k + off / 65536)
  unfold Core.bufPut
  dsimp only
  generalize c.wakeScratch (bufBase k + off / 65536) = d at woken
  refine (woken.trans (setSbank d _ (w := { d.sbank (bufBase k + off / 65536) with dirty := true }) ?_ rfl rfl)).trans (of_scratch rfl rfl)
  exact fun h => nomatch congrArg Bank.dirty h

theorem bufWrite (k : Nat) (l : List Byte) : ∀ (off : Nat) (c : Core), BanksKept c (c.bufWrite k off l) := by
  induction l with
  | nil => exact fun _ c => refl c
  | cons v r ih => exact fun off c => (bufPut c k off v).trans (ih (off + 1) _)

end BanksKept

theorem sbank_wakeScratch_same {c : Core} {i : Nat} (sleeps : (c.sbank i).sleeps = true) :
    (c.wakeScratch i).sbank i = (c.sbank i).wake c.clk 40 := by
  unfold Core.wakeScratch
  rw [if_pos sleeps]
  exact sget_sset_ne_default (wake_ne_start sleeps c.clk 40) i c.scratch

theorem wakeAt_wakeScratch {c : Core} {i : Nat} (asleep : (c.sbank i).ready = false) :
    ((c.wakeScratch i).sbank i).wakeAt = some ((c.sbank i).wakeEnd c.clk 40) := by
  cases under : (c.sbank i).wakeAt with
  | some n =>
    have awake : (c.sbank i).sleeps = false := by simp [Bank.sleeps, under]
    unfold Core.wakeScratch
    rw [awake, if_neg Bool.false_ne_true, under]
    simp [Bank.wakeEnd, under]
  | none =>
    have sleeps := sleeps_iff.mpr ⟨by simpa [Bank.ready, under] using asleep, under⟩
    rw [sbank_wakeScratch_same sleeps, wake_of_sleeps sleeps]
    simp [Bank.wakeEnd, under]

/-- A wake under way goes on. -/
theorem wakeAt_wakeScratch_kept {c : Core} {i n : Nat} (j : Nat) (h : (c.sbank i).wakeAt = some n) :
    ((c.wakeScratch j).sbank i).wakeAt = some n := by
  unfold Core.wakeScratch
  split
  next sleeps =>
    have ne : i ≠ j := by
      rintro rfl
      simp [Bank.sleeps, h] at sleeps
    have same : (c.setSbank j ((c.sbank j).wake c.clk 40)).sbank i = c.sbank i :=
      sget_sset_ne_default_other (wake_ne_start sleeps c.clk 40) ne c.scratch
    exact (congrArg Bank.wakeAt same).trans h
  · exact h

/-- Once its wake has been asked for, a bank that is not ready has its end set. -/
theorem wakeAt_of_wakes {i : Nat} (l : List Nat) (hi : i ∈ l) {c : Core} (asleep : (c.sbank i).ready = false) :
    ((l.foldl Core.wakeScratch c).sbank i).wakeAt = some ((c.sbank i).wakeEnd c.clk 40) := by
  induction l generalizing c with
  | nil => cases hi
  | cons j r ih =>
    rcases List.mem_cons.mp hi with rfl | hr
    · exact List.foldlRecOn (motive := fun d : Core => (d.sbank i).wakeAt = some ((c.sbank i).wakeEnd c.clk 40)) r _ (wakeAt_wakeScratch asleep)
        fun d hd j _ => wakeAt_wakeScratch_kept j hd
    · have kept := BanksKept.wakeScratch c j
      rw [List.foldl_cons, ih hr ((kept.ready i).trans asleep), kept.ends i]

/-! ### Bytes -/

theorem sget_bufWrite_other {c : Core} {k off n : Nat} (l : List Byte) (h : swf (0 : Byte) c.buf = true)
    (out : n < bufKey k off ∨ bufKey k off + l.length ≤ n) : sget (0 : Byte) n (c.bufWrite k off l).buf = sget 0 n c.buf := by
  induction l generalizing c off with
  | nil => rfl
  | cons v r ih =>
    have len : (v :: r).length = r.length + 1 := rfl
    have next : bufKey k (off + 1) = bufKey k off + 1 := (Nat.add_assoc _ _ _).symm
    refine (ih (swf_bufPut k off v h) (by omega)).trans ?_
    rw [bufPut_buf]
    exact sget_sset_other 0 (by omega) _ _ h

/-! ### One store (R117, R261) -/

/-- The greatest of some numbers and a start is one of them. -/
theorem foldl_max_attained {α : Type} (f : α → Nat) (l : List α) (a : Nat) :
    l.foldl (fun a p => max a (f p)) a = a ∨ ∃ p ∈ l, l.foldl (fun a p => max a (f p)) a = f p := by
  induction l generalizing a with
  | nil => exact .inl rfl
  | cons x r ih =>
    rcases ih (max a (f x)) with start | ⟨p, hp, later⟩
    · rcases max_choice a (f x) with left | right
      · exact .inl (start.trans left)
      · exact .inr ⟨x, List.mem_cons_self, start.trans right⟩
    · exact .inr ⟨p, List.mem_cons_of_mem _ hp, later⟩

/-- The banks under n bytes of a buffer that are not ready. -/
def Core.sleepers (c : Core) (k off n : Nat) : List Nat := (spanBanks k off n).filter (fun i => !(c.sbank i).ready)

theorem mem_sleepers {c : Core} {k off n i : Nat} : i ∈ c.sleepers k off n ↔ i ∈ spanBanks k off n ∧ (c.sbank i).ready = false := by
  simp [Core.sleepers]

/-- What a store that finds a bank asleep sends on its way. -/
def Core.storeSector (c : Core) (id g k off : Nat) (v : List Byte) : Sector :=
  let bs := c.sleepers k off v.length
  { id := id, due := bs.foldl (fun a i => max a (((bs.foldl Core.wakeScratch c).sbank i).wakeAt.getD 0)) (c.clk + 1), gid := g,
    writes := ((List.range v.length).zip v).map (fun p => Wr.b (bufKey k (off + p.1)) p.2), pc := 0, pa := 0, bad := false,
    ctr := none, slots := 0, arr := c.clk, fixed := true, wall := 0, tick := 0 }

/-- A core with a store: its bytes stand where every bank is ready; else the banks wake, and the store is on its way. -/
def Core.stores (c : Core) (id g k off : Nat) (v : List Byte) : Core :=
  let bs := c.sleepers k off v.length
  if bs.isEmpty then c.bufWrite k off v
  else { (bs.foldl Core.wakeScratch c) with sectors := (bs.foldl Core.wakeScratch c).sectors ++ [c.storeSector id g k off v] }

theorem kmod_agree {α : Type} {k : Nat} {f g : α → α} {m : Sparse α} (h : ∀ v, kget k m = some v → f v = g v) : kmod k f m = kmod k g m := by
  unfold kmod
  cases found : kget k m with
  | none => rfl
  | some v => exact congrArg (kset k · m) (h v found)

/-- Two changes of a core that agree on it come to the same. -/
theorem modCore_agree {c : Nat} {f g : Core → Core} (h : f (s.core c) = g (s.core c)) : s.modCore c f = s.modCore c g := by
  refine congrArg (fun m : Sparse Core => { s with cores := m }) (kmod_agree fun k found => ?_)
  unfold State.core at h
  rwa [found] at h

theorem bufStore_eq (u : State) (g k off : Nat) (v : List Byte) :
    ∃ n, u.bufStore u.cur.core g k off v = { u.modC (·.stores u.fresh g k off v) with fresh := n } := by
  unfold State.bufStore
  dsimp only
  split
  next awake =>
    refine ⟨u.fresh, modCore_agree ?_⟩
    unfold Core.stores
    exact (if_pos awake).symm
  next asleep =>
    refine ⟨u.fresh + 1, congrArg (fun w : State => { w with fresh := u.fresh + 1 }) (modCore_agree ?_)⟩
    unfold Core.stores
    exact (if_neg asleep).symm

theorem curCore_bufStore (hl : u.live = true) (g k off : Nat) (v : List Byte) :
    (u.bufStore u.cur.core g k off v).curCore = u.curCore.stores u.fresh g k off v := by
  obtain ⟨n, eq⟩ := bufStore_eq u g k off v
  rw [eq]
  exact curCore_modC u _ (live_parts hl).1

/-- What a store leaves of its core. -/
structure StoresKept (c d : Core) : Prop where
  groups : d.groups = c.groups
  units : d.units = c.units
  banks : BanksKept c d
  sectors : ∀ f ∈ c.sectors, f ∈ d.sectors

theorem StoresKept.trans {c d e : Core} (a : StoresKept c d) (b : StoresKept d e) : StoresKept c e :=
  ⟨b.groups.trans a.groups, b.units.trans a.units, a.banks.trans b.banks, fun f h => b.sectors f (a.sectors f h)⟩

theorem storesKept_of_ran {c d : Core} (h : RotRan c d) (banks : BanksKept c d) : StoresKept c d :=
  ⟨h.groups, by rw [h], banks, fun f hf => by rw [h]; exact hf⟩

theorem storesKept_stores (c : Core) (id g k off : Nat) (v : List Byte) : StoresKept c (c.stores id g k off v) := by
  unfold Core.stores
  dsimp only
  split
  · exact storesKept_of_ran (rotRan_bufWrite k v off c) (.bufWrite k v off c)
  · have ran : RotRan c ((c.sleepers k off v.length).foldl Core.wakeScratch c) :=
      RotRan.foldl (core := fun d => d) (f := Core.wakeScratch) rotRan_wakeScratch (c.sleepers k off v.length) c
    have woken := storesKept_of_ran ran (.wakeScratches _ c)
    exact woken.trans ⟨rfl, rfl, .of_scratch rfl rfl, fun f hf => List.mem_append_left _ hf⟩

theorem stores_of_ready {c : Core} {id g k off : Nat} {v : List Byte} (ready : ∀ i ∈ spanBanks k off v.length, (c.sbank i).ready = true) :
    c.stores id g k off v = c.bufWrite k off v := by
  have none : c.sleepers k off v.length = [] := List.filter_eq_nil_iff.mpr fun i hi => by simp [ready i hi]
  unfold Core.stores
  rw [none]
  rfl

/-- A store that finds a bank asleep is on its way until the last wake ends. -/
theorem stores_of_asleep {c : Core} {id g k off i : Nat} {v : List Byte} (hi : i ∈ spanBanks k off v.length) (asleep : (c.sbank i).ready = false) :
    ∃ f ∈ (c.stores id g k off v).sectors, f.gid = g ∧ f.fixed = true ∧ c.clk + 1 ≤ f.due ∧ (c.sbank i).wakeEnd c.clk 40 ≤ f.due
      ∧ (f.due = c.clk + 1 ∨ ∃ m ∈ spanBanks k off v.length, f.due = (c.sbank m).wakeEnd c.clk 40)
      ∧ f.writes = ((List.range v.length).zip v).map (fun p => Wr.b (bufKey k (off + p.1)) p.2) := by
  have mem : i ∈ c.sleepers k off v.length := mem_sleepers.mpr ⟨hi, asleep⟩
  have ends {m : Nat} (hm : m ∈ c.sleepers k off v.length) :
      (((c.sleepers k off v.length).foldl Core.wakeScratch c).sbank m).wakeAt.getD 0 = (c.sbank m).wakeEnd c.clk 40 := by
    rw [wakeAt_of_wakes _ hm (mem_sleepers.mp hm).2]
    rfl
  have least := le_foldl_max (fun i => (((c.sleepers k off v.length).foldl Core.wakeScratch c).sbank i).wakeAt.getD 0)
    (c.sleepers k off v.length) (c.clk + 1)
  refine ⟨c.storeSector id g k off v, ?_, rfl, rfl, least.1, ends mem ▸ least.2 i mem, ?_, rfl⟩
  · unfold Core.stores
    dsimp only
    rw [if_neg (by simpa using List.ne_nil_of_mem mem)]
    exact List.mem_append_right _ (List.mem_singleton_self _)
  · refine (foldl_max_attained _ _ _).imp_right fun ⟨m, hm, due⟩ => ⟨m, (mem_sleepers.mp hm).1, due.trans (ends hm)⟩

/-! ### The lanes of an access in their order (R253) -/

theorem lanesOf_ascending (m : W32) : (lanesOf m).Pairwise (· < ·) := List.pairwise_lt_range.filter _

theorem laneOffs_ascending (s : State) (x : AccOp) : (s.laneOffs x).Pairwise (fun p q => p.1 < q.1) :=
  (lanesOf_ascending _).map _ fun _ _ h => h

theorem bufPlaces_ascending (s : State) (x : AccOp) : (s.bufPlaces x).Pairwise (fun p q => p.1 < q.1) :=
  (laneOffs_ascending s x).map _ fun _ _ h => h

/-- A lane that leaves its buffer keeps every lane from acting. -/
theorem planBuf_lanes_of_leaves {p : Nat × Nat} (h : s.bufLeaves x = some p) : (s.planBuf x).lanes = [] := by
  unfold State.planBuf
  dsimp only
  split
  · rfl
  next hq => exact absurd (h.symm.trans hq) (by simp)

theorem planBuf_ascending (s : State) (x : AccOp) : (s.planBuf x).lanes.Pairwise (fun p q => p.j < q.j) := by
  cases leaves : s.bufLeaves x with
  | some p =>
    rw [planBuf_lanes_of_leaves leaves]
    exact .nil
  | none =>
    rw [(planBuf_stays leaves).2]
    exact ((bufPlaces_ascending s x).filter _).map _ fun _ _ h => h

/-- A .g access acts with the lanes that are translated and permitted, or with none. -/
theorem planG_lanes (s : State) (x : AccOp) : (s.planG x).lanes = []
    ∨ (s.planG x).lanes = (((s.laneXs x (s.unmarked x)).filterMap LaneX.found).filter (fun q => permits q.2 x.acc s.priv)).map Prod.fst := by
  unfold State.planG
  dsimp only
  split
  · split
    · exact .inl rfl
    split
    · exact .inl rfl
    split
    · exact .inl rfl
    · exact .inr rfl
  · exact .inl rfl

theorem found_eq_some {r : LaneX} {q : Lane × Nat} (h : r.found = some q) : r = .ok q.1 q.2 := by
  cases r with
  | ok q' m => rw [← Option.some.inj h]
  | absent v => cases h
  | fault t => cases h
  | want v => cases h

theorem planG_ascending (s : State) (x : AccOp) : (s.planG x).lanes.Pairwise (fun p q => p.j < q.j) := by
  rcases planG_lanes s x with none | some
  · rw [none]
    exact .nil
  · rw [some, State.laneXs, List.filterMap_map]
    have unmarked : (s.unmarked x).Pairwise (fun p q => p.1 < q.1) := (laneOffs_ascending s x).filter _
    refine ((unmarked.filterMap _ fun p p' below q hq q' hq' => ?_).filter _).map (S := fun p q : Lane => p.j < q.j) Prod.fst fun _ _ h => h
    rw [(laneX_ok (found_eq_some hq)).1, (laneX_ok (found_eq_some hq')).1]
    exact below

theorem plan_ascending (s : State) (x : AccOp) : (s.plan x).lanes.Pairwise (fun p q => p.j < q.j) := by
  by_cases hx : x.sp = .g
  · rw [plan_of_g hx]
    exact planG_ascending s x
  · rw [plan_of_buf hx]
    exact planBuf_ascending s x

end Sys2Proof.Machine
end

section

/-! Stores to a buffer or to the shared window (R117, R261): lanes in ascending order, each at once or on its way (O20). -/

namespace Sys2Proof.Machine

variable {s b u v t : State} {x : AccOp}

/-! ### Holds and misses -/

/-- A store that is not held leaves the state as it is. -/
theorem holdStore_free (h : (holdStore x s).1 = false) : (holdStore x s).2 = s := by
  unfold holdStore at *
  dsimp only at *
  obtain ⟨unreserved, room⟩ := Bool.or_eq_false_iff.mp h
  rw [unreserved, room]
  rfl

/-- An access to a buffer looks nothing up. -/
theorem noteX_of_buf (hx : x.sp ≠ .g) : b.noteX x = b := by
  have none : b.slowVas x = [] := by
    unfold State.slowVas
    exact List.filterMap_eq_nil_iff.mpr fun p _ => by simp [hx]
  unfold State.noteX
  rw [none]
  rfl

theorem marked_mem_of_buf (hx : x.sp ≠ .g) : (b.marked x).mem = b.mem := by
  unfold State.marked
  rw [noteX_of_buf hx]
  rfl

/-! ### Data (R261) -/

/-- What a source reads. -/
structure SourcesKept (b u : State) : Prop where
  cur : u.cur = b.cur
  grp : u.curGrp.sregs = b.curGrp.sregs ∧ u.curGrp.mat = b.curGrp.mat ∧ u.curGrp.pool = b.curGrp.pool

theorem SourcesKept.src (h : SourcesKept b u) (n : Nat) (y : VSrc) (j : Nat) : u.src n y j = b.src n y j := by
  obtain ⟨sregs, mat, pool⟩ := h.grp
  unfold State.src State.sr Group.elem Group.sreg
  rw [h.cur, sregs, mat, pool]

theorem SourcesKept.srcHi (h : SourcesKept b u) (n : Nat) (y : VSrc) (j : Nat) : u.srcHi n y j = b.srcHi n y j := by
  unfold State.srcHi
  split
  · rfl
  · exact h.src n _ j

theorem SourcesKept.storeData (h : SourcesKept b u) (n : Nat) (vd : VSrc) (j : Nat) : u.storeData n vd j = b.storeData n vd j := by
  unfold State.storeData
  rw [h.src, h.srcHi]

theorem Served.sources (h : Served b u) : SourcesKept b u := ⟨h.cur, by rw [h.grp]; exact ⟨rfl, rfl, rfl⟩⟩
theorem Aside.sources (h : Aside b u) : SourcesKept b u := ⟨h.cur, by rw [h.grp]; exact ⟨rfl, rfl, rfl⟩⟩
theorem SourcesKept.trans (h : SourcesKept b u) (k : SourcesKept u v) : SourcesKept b v := by
  obtain ⟨s1, m1, p1⟩ := h.grp
  obtain ⟨s2, m2, p2⟩ := k.grp
  exact ⟨k.cur.trans h.cur, s2.trans s1, m2.trans m1, p2.trans p1⟩

/-! ### One lane -/

/-- What the lanes of a store to a buffer leave. -/
structure Storing (b v : State) : Prop where
  onStream : OnStream b v
  live : v.live = true
  sources : SourcesKept b v
  unit : v.curUnit = b.curUnit
  mem : v.mem = b.mem
  banks : BanksKept b.curCore v.curCore
  sectors : ∀ f ∈ b.curCore.sectors, f ∈ v.curCore.sectors

namespace Storing

theorem refl (hl : b.live = true) : Storing b b := ⟨.refl b, hl, ⟨rfl, rfl, rfl, rfl⟩, rfl, rfl, .refl _, fun _ h => h⟩
theorem trans (h : Storing b u) (k : Storing u v) : Storing b v :=
  ⟨h.onStream.trans k.onStream, k.live, h.sources.trans k.sources, k.unit.trans h.unit, k.mem.trans h.mem, h.banks.trans k.banks,
    fun f hf => k.sectors f (h.sectors f hf)⟩

theorem marked (hl : b.live = true) (hx : x.sp ≠ .g) : Storing b (b.marked x) := by
  have served := served_marked hl x
  refine ⟨served.onStream, served.live, served.sources, served.curUnit, marked_mem_of_buf hx, .of_scratch served.clk ?_, fun f hf => ?_⟩
  · rw [served.core]
  · rw [served.core]
    exact hf

theorem bufStore (hl : v.live = true) (g k off : Nat) (l : List Byte) : Storing v (v.bufStore v.cur.core g k off l) := by
  have core := curCore_bufStore hl g k off l
  have kept := storesKept_stores v.curCore v.fresh g k off l
  obtain ⟨n, eq⟩ := bufStore_eq v g k off l
  have aside : Aside v (v.bufStore v.cur.core g k off l) := by
    rw [eq]
    exact (Aside.modC v _ fun c => (storesKept_stores c v.fresh g k off l).groups).trans (.of_cores rfl rfl)
  refine ⟨aside.stays.onStream, aside.live hl, aside.sources, ?_, by rw [eq]; rfl, core ▸ kept.banks, core ▸ kept.sectors⟩
  unfold State.curUnit Core.unit
  rw [aside.grp, core, kept.units]

theorem bufAt (h : Storing b v) (sp : Space) (a : Nat) : v.bufAt sp a = b.bufAt sp a := by
  unfold State.bufAt
  rw [h.unit]

end Storing

/-- The bytes that lane p stores. -/
def State.storedBytes (b : State) (x : AccOp) (vd : VSrc) (p : Lane) : List Byte := leBytes x.n (b.storeData x.n vd p.j)

theorem storedBytes_length (b : State) (x : AccOp) (vd : VSrc) (p : Lane) : (b.storedBytes x vd p).length = x.n := leBytes_length ..

/-- The store of lane p to a buffer. -/
def State.storeLane (x : AccOp) (vd : VSrc) (v : State) (p : Lane) : State :=
  v.bufStore v.cur.core v.cur.gid (spBuf x.sp) (v.bufAt x.sp p.va) (v.storedBytes x vd p)

theorem effStore_buffer {vd : VSrc} (hx : x.sp ≠ .g) : effStore x vd b = (b.plan x).lanes.foldl (State.storeLane x vd) (b.marked x) := by
  have notG : (x.sp == .g) = false := by simpa using hx
  unfold effStore State.sendSectors
  simp only [notG, Bool.false_eq_true, if_false]
  rfl

section
variable {vd : VSrc} (h : Storing b v)
include h

theorem storing_storeLane (p : Lane) : Storing v (v.storeLane x vd p) := .bufStore h.live ..

theorem curCore_storeLane (p : Lane) : (v.storeLane x vd p).curCore =
    v.curCore.stores v.fresh b.cur.gid (spBuf x.sp) (b.bufAt x.sp p.va) (b.storedBytes x vd p) := by
  unfold State.storeLane State.storedBytes
  rw [curCore_bufStore h.live, h.bufAt, h.sources.storeData, h.sources.cur]

theorem storing_lanes (l : List Lane) : Storing v (l.foldl (State.storeLane x vd) v) :=
  List.foldlRecOn (motive := Storing v) l _ (.refl h.live) fun _ k p _ => k.trans (storing_storeLane k p)

end

/-! ### Lanes in order -/

/-- Where lane p of an access to a buffer begins. -/
def State.laneKey (b : State) (x : AccOp) (p : Lane) : Nat := bufKey (spBuf x.sp) (b.bufAt x.sp p.va)

/-- The banks under lane p. -/
def State.laneSpan (b : State) (x : AccOp) (p : Lane) : List Nat := spanBanks (spBuf x.sp) (b.bufAt x.sp p.va) x.n

section
variable {vd : VSrc}

/-- A lane whose banks are ready leaves its bytes. -/
theorem buf_storeLane (h : Storing b v) {p : Lane} (ready : ∀ k ∈ b.laneSpan x p, (b.curCore.sbank k).ready = true) :
    (v.storeLane x vd p).curCore.buf = (v.curCore.bufWrite (spBuf x.sp) (b.bufAt x.sp p.va) (b.storedBytes x vd p)).buf := by
  rw [curCore_storeLane h, stores_of_ready]
  intro i hi
  rw [storedBytes_length] at hi
  rw [h.banks.ready]
  exact ready i hi

/-- Lanes whose banks are ready leave every byte outside them alone. -/
theorem sget_storeLanes_other (l : List Lane) (h : Storing b v) (canonical : swf (0 : Byte) v.curCore.buf = true)
    (ready : ∀ p ∈ l, ∀ k ∈ b.laneSpan x p, (b.curCore.sbank k).ready = true) {k : Nat}
    (out : ∀ p ∈ l, k < b.laneKey x p ∨ b.laneKey x p + x.n ≤ k) :
    sget (0 : Byte) k (l.foldl (State.storeLane x vd) v).curCore.buf = sget 0 k v.curCore.buf := by
  induction l generalizing v with
  | nil => rfl
  | cons p r ih =>
    obtain ⟨readyP, readyR⟩ := List.forall_mem_cons.mp ready
    obtain ⟨outP, outR⟩ := List.forall_mem_cons.mp out
    have stored := buf_storeLane (vd := vd) h readyP
    refine (ih (h.trans (storing_storeLane h p)) (stored ▸ swf_bufWrite _ _ _ canonical) readyR outR).trans ?_
    rw [stored]
    exact sget_bufWrite_other _ canonical (by rwa [storedBytes_length])

/-- A lane's bytes stand unless a higher lane stores over them. -/
theorem sget_storeLanes_same (l : List Lane) (ascending : l.Pairwise (fun p q => p.j < q.j)) (h : Storing b v)
    (canonical : swf (0 : Byte) v.curCore.buf = true) (ready : ∀ p ∈ l, ∀ k ∈ b.laneSpan x p, (b.curCore.sbank k).ready = true) {p : Lane} (hp : p ∈ l)
    (apart : ∀ q ∈ l, p.j < q.j → b.laneKey x q + x.n ≤ b.laneKey x p ∨ b.laneKey x p + x.n ≤ b.laneKey x q) {n : Nat} (hn : n < x.n) :
    sget (0 : Byte) (b.laneKey x p + n) (l.foldl (State.storeLane x vd) v).curCore.buf = (b.storedBytes x vd p).getD n 0 := by
  induction l generalizing v with
  | nil => cases hp
  | cons q r ih =>
    obtain ⟨readyQ, readyR⟩ := List.forall_mem_cons.mp ready
    obtain ⟨apartQ, apartR⟩ := List.forall_mem_cons.mp apart
    obtain ⟨first, rest⟩ := List.pairwise_cons.mp ascending
    have stored := buf_storeLane (vd := vd) h readyQ
    have next := h.trans (storing_storeLane (x := x) (vd := vd) h q)
    have kept : swf (0 : Byte) (v.storeLane x vd q).curCore.buf = true := stored ▸ swf_bufWrite _ _ _ canonical
    rcases List.mem_cons.mp hp with rfl | hr
    · have out : ∀ q ∈ r, b.laneKey x p + n < b.laneKey x q ∨ b.laneKey x q + x.n ≤ b.laneKey x p + n := by
        intro q hq
        have := apartR q hq (first q hq)
        omega
      rw [List.foldl_cons, sget_storeLanes_other r next kept readyR out, stored]
      have here := bufByte_bufWrite (spBuf x.sp) (b.bufAt x.sp p.va) (l := b.storedBytes x vd p) canonical (i := n) (by rwa [storedBytes_length])
      unfold Core.bufByte bufKey at here
      unfold State.laneKey bufKey
      rw [Nat.add_assoc]
      exact here
    · exact ih rest next kept readyR hr apartR

/-- A lane that finds a bank asleep is on its way. -/
theorem sector_storeLanes (l : List Lane) (h : Storing b v) {p : Lane} (hp : p ∈ l) {k : Nat} (hk : k ∈ b.laneSpan x p)
    (asleep : (b.curCore.sbank k).ready = false) :
    ∃ f ∈ (l.foldl (State.storeLane x vd) v).curCore.sectors, f.gid = b.cur.gid ∧ f.fixed = true ∧ b.curCore.clk + 1 ≤ f.due
      ∧ (b.curCore.sbank k).wakeEnd b.curCore.clk 40 ≤ f.due
      ∧ (f.due = b.curCore.clk + 1 ∨ ∃ m ∈ b.laneSpan x p, f.due = (b.curCore.sbank m).wakeEnd b.curCore.clk 40)
      ∧ f.writes = ((List.range x.n).zip (b.storedBytes x vd p)).map (fun q => Wr.b (b.laneKey x p + q.1) q.2) := by
  induction l generalizing v with
  | nil => cases hp
  | cons q r ih =>
    have stored := storing_storeLane (x := x) (vd := vd) h q
    rcases List.mem_cons.mp hp with rfl | hr
    · have len := storedBytes_length b x vd p
      obtain ⟨f, hf, gid, fixed, later, ends, due, writes⟩ := stores_of_asleep (c := v.curCore) (id := v.fresh) (g := b.cur.gid)
        (k := spBuf x.sp) (off := b.bufAt x.sp p.va) (v := b.storedBytes x vd p) (i := k) (by rw [len]; exact hk) ((h.banks.ready k).trans asleep)
      rw [← curCore_storeLane h] at hf
      refine ⟨f, (storing_lanes (h.trans stored) r).sectors f hf, gid, fixed, h.banks.clk ▸ later, h.banks.ends k ▸ ends, ?_, ?_⟩
      · rw [len] at due
        rw [← h.banks.clk]
        refine due.imp_right fun ⟨m, hm, e⟩ => ⟨m, hm, ?_⟩
        rw [e, h.banks.ends m, h.banks.clk]
      · rw [writes, len]
        refine List.map_congr_left fun q _ => ?_
        unfold State.laneKey bufKey
        rw [Nat.add_assoc]
    · exact ih (h.trans stored) hr

end

/-! ### The obligation -/

/-- The store of either form. -/
def storeInstr (row : Bool) (g : Guard) (sp : Space) (sz : Size) (vd : VSrc) (an : AReg) (vo : VSrc) (disp : BitVec 16) : Instr :=
  if row then .st g sp sz vd an vo disp else .stx g sp sz vd an vo disp

section
variable {g : Guard} {sp : Space} {sz : Size} {row : Bool} {vd : VSrc} {an : AReg} {vo : VSrc} {disp : BitVec 16}

theorem store_sem (row : Bool) : (storeInstr row g sp sz vd an vo disp).isSlot = true
    ∧ (opInfo (storeInstr row g sp sz vd an vo disp)).guard = g
    ∧ (semOf (soloSlot (storeInstr row g sp sz vd an vo disp)) (storeInstr row g sp sz vd an vo disp)).hold = holdStore (storeOp g sp sz an vo disp row)
    ∧ (semOf (soloSlot (storeInstr row g sp sz vd an vo disp)) (storeInstr row g sp sz vd an vo disp)).eff
      = effStore (storeOp g sp sz an vo disp row) vd := by
  cases row <;> exact ⟨rfl, rfl, rfl, rfl⟩

/-- A store that issues acts on the state in which it began. -/
theorem store_yields {P : State → Prop} (h : s.issues (storeInstr row g sp sz vd an vo disp) = true) (ha : s.act g ≠ 0)
    (hP : ∀ b, s.begun (storeInstr row g sp sz vd an vo disp) = b → Begun s b → ∃ u, effStore (storeOp g sp sz an vo disp row) vd b = u
      ∧ OnStream b u ∧ ∀ t, Done s u t → (fld s.cur.tail 12 2 ≠ 2 → (s.coreIn t).buf = u.curCore.buf) → P t) :
    Yields (storeInstr row g sp sz vd an vo disp) s P := by
  obtain ⟨slot, guard, hold, eff⟩ := store_sem (g := g) (sp := sp) (sz := sz) (vd := vd) (an := an) (vo := vo) (disp := disp) row
  have acts : s.act (opInfo (storeInstr row g sp sz vd an vo disp)).guard ≠ 0 := by rwa [guard]
  have free := hold_keeps h acts (by rw [hold]; exact holdStore_free)
  obtain ⟨u, hu, hs, hP⟩ := hP _ rfl (begun_of_hold h free).1
  exact yields_of_done_buf slot h acts free ((congrFun eff _).trans hu) hs hP

/-- What the lanes of a store to a buffer leave of the buffers, and what is on its way. -/
theorem buffer_store (h : s.issues (storeInstr row g sp sz vd an vo disp) = true) (ha : s.act g ≠ 0) (notG : sp ≠ .g)
    (canonical : swf (0 : Byte) s.curCore.buf = true) (keeps : fld s.cur.tail 12 2 ≠ 2) :
    let x := storeOp g sp sz an vo disp row
    let b := s.begun (storeInstr row g sp sz vd an vo disp)
    let l := (b.plan x).lanes
    Yields (storeInstr row g sp sz vd an vo disp) s (fun t => t.mem = s.mem
      ∧ ((∀ p ∈ l, ∀ k ∈ b.laneSpan x p, (s.curCore.sbank k).ready = true) →
          (∀ k, (∀ p ∈ l, k < b.laneKey x p ∨ b.laneKey x p + x.n ≤ k) → sget (0 : Byte) k (s.coreIn t).buf = sget (0 : Byte) k s.curCore.buf)
          ∧ ∀ p ∈ l, (∀ q ∈ l, p.j < q.j → b.laneKey x q + x.n ≤ b.laneKey x p ∨ b.laneKey x p + x.n ≤ b.laneKey x q) →
              ∀ n, n < x.n → sget (0 : Byte) (b.laneKey x p + n) (s.coreIn t).buf = (b.storedBytes x vd p).getD n 0)
      ∧ ∀ p ∈ l, ∀ k ∈ b.laneSpan x p, (s.curCore.sbank k).ready = false →
          ∃ f ∈ (s.coreIn t).sectors, f.gid = s.cur.gid ∧ f.fixed = true ∧ s.curCore.clk + 1 ≤ f.due
            ∧ (s.curCore.sbank k).wakeEnd s.curCore.clk 40 ≤ f.due
            ∧ (f.due = s.curCore.clk + 1 ∨ ∃ m ∈ b.laneSpan x p, f.due = (s.curCore.sbank m).wakeEnd s.curCore.clk 40)
            ∧ f.writes = ((List.range x.n).zip (b.storedBytes x vd p)).map (fun q => Wr.b (b.laneKey x p + q.1) q.2)) := by
  intro x b l
  refine store_yields h ha fun b' hbegun hb => ?_
  obtain rfl : b = b' := hbegun
  have marked : Storing b (b.marked x) := .marked hb.live notG
  have buf : (b.marked x).curCore.buf = s.curCore.buf := (served_marked hb.live x).buf.trans hb.buf
  have bank (k : Nat) : b.curCore.sbank k = s.curCore.sbank k := by
    unfold Core.sbank
    rw [hb.core]
  have clk : b.curCore.clk = s.curCore.clk := hb.clk
  have gid : b.cur.gid = s.cur.gid := hb.groupKey
  have stored := marked.trans (storing_lanes (x := x) (vd := vd) marked l)
  refine ⟨_, effStore_buffer notG, stored.onStream, fun t d left => ⟨?_, fun ready => ?_, fun p hp k hk asleep => ?_⟩⟩
  · rw [d.mem, stored.mem, hb.mem]
  · simp only [← bank] at ready
    rw [left keeps, ← buf]
    exact ⟨fun k out => sget_storeLanes_other l marked (buf ▸ canonical) ready out,
      fun p hp apart n hn => sget_storeLanes_same l (plan_ascending b x) marked (buf ▸ canonical) ready hp apart hn⟩
  · rw [← bank] at asleep
    have sent := sector_storeLanes (vd := vd) l marked hp hk asleep
    rw [gid, clk] at sent
    simp only [bank] at sent
    rw [d.sectors]
    exact sent

end

/-- Settles O20: each lane stores in order, at once where its banks are ready, since a wake that another lane asks for changes neither
which banks are ready nor when a wake ends. -/
theorem bufferStoreResults : Obligations.BufferStoreResults := by
  unfold Obligations.BufferStoreResults
  intro s g sp sz row vd an vo disp i x b l key h ha notG canonical keeps
  obtain ⟨t, ht, mem, bright, asleep⟩ := buffer_store h ha notG canonical keeps
  refine ⟨t, ht, mem, bright, fun p hp k hk dark => ?_⟩
  obtain ⟨f, hf, gid, fixed, later, ends, due, writes⟩ := asleep p hp k hk dark
  exact ⟨f, hf, gid, fixed, later, fun _ => ⟨ends, due⟩, writes⟩

end Sys2Proof.Machine
end

section

/-! SUPPORT. What keeps a core's lines and memory as they are, and where an access acts: in the core's own path or at the home (R207, R212). -/

namespace Sys2Proof.Machine

variable {s b u v t : State} {x : AccOp}

/-! ### Lines and memory that stay -/

/-- Cores alone have changed, and none of their lines. -/
structure LinesKept (s t : State) : Prop where
  rest : t = { s with cores := t.cores }
  lines : ∀ d, (t.core d).lines = (s.core d).lines

namespace LinesKept

theorem refl (s : State) : LinesKept s s := ⟨rfl, fun _ => rfl⟩
theorem trans (h : LinesKept s t) (k : LinesKept t u) : LinesKept s u := ⟨by rw [k.rest, h.rest], fun d => (k.lines d).trans (h.lines d)⟩

theorem modCore (s : State) (c : Nat) (f : Core → Core) (hf : ∀ k, (f k).lines = k.lines) : LinesKept s (s.modCore c f) := by
  refine ⟨rfl, fun d => ?_⟩
  rcases core_modCore_or s c d f with ⟨-, e⟩ | e <;> rw [e]
  exact hf _

theorem bump (s : State) (c e n : Nat) : LinesKept s (s.bump c e n) := by
  unfold State.bump
  dsimp only
  split
  · exact refl s
  · exact modCore s c _ fun _ => rfl

theorem noteMisses (s : State) (c root : Nat) (vas : List Nat) : LinesKept s (s.noteMisses c root vas) := by
  unfold State.noteMisses
  dsimp only
  refine List.foldlRecOn (motive := LinesKept s) _ _ (refl s) fun u h p _ => h.trans ?_
  split
  · exact refl u
  split
  · exact (bump u c 8 1).trans (modCore _ c _ fun _ => rfl)
  · exact bump u c 8 1

theorem modG (s : State) (f : Group → Group) : LinesKept s (s.modG f) := modCore s _ _ fun _ => rfl
theorem markFar (s : State) (pa : Nat) : LinesKept s (s.markFar pa) := by
  unfold State.markFar
  split
  · exact modG s _
  · exact refl s
theorem noteBad (s : State) (c k : Nat) : LinesKept s (s.noteBad c k) := modCore s c _ fun _ => rfl

theorem marked (b : State) (x : AccOp) : LinesKept b (b.marked x) := (noteMisses b _ _ _).trans (modG _ _)

theorem mem (h : LinesKept s t) : t.mem = s.mem := by rw [h.rest]
theorem exact (h : LinesKept s t) : t.exact = s.exact := by rw [h.rest]
theorem canon (h : LinesKept s t) (a : Nat) : t.canon a = s.canon a := by
  unfold State.canon
  rw [h.rest]
theorem curLines (h : LinesKept s t) : t.curCore.lines = s.curCore.lines := by
  have cur : t.cur = s.cur := by rw [h.rest]
  unfold State.curCore
  rw [cur, h.lines]

end LinesKept

/-- Request slots are held beside memory (R277). -/
theorem holdSlots_memory (s : State) (d g : Nat) (l : List (Nat × Nat)) :
    (s.holdSlots d g l).mem = s.mem ∧ (∀ a, (s.holdSlots d g l).canon a = s.canon a) ∧ ((s.holdSlots d g l).core d).lines = (s.core d).lines := by
  induction l generalizing s with
  | nil => exact ⟨rfl, fun _ => rfl, rfl⟩
  | cons p r ih =>
    obtain ⟨mem, canon, lines⟩ := ih (s.holdSlot d g p)
    rw [holdSlots_cons]
    refine ⟨mem, canon, lines.trans ?_⟩
    exact (LinesKept.modCore s d (·.sends (s.requestAt d g p)) fun _ => rfl).lines d

/-! ### Windows (R212) -/

/-- The windows of a core's units: where each begins and how long it is. -/
def Core.windows (c : Core) : List (Nat × Nat) := c.units.map (fun p => (p.2.shBase, p.2.shUnits))

theorem l1Banks_of_windows {c d : Core} (h : d.windows = c.windows) : d.l1Banks = c.l1Banks := by
  have counted (c : Core) : c.l1Banks = (List.range 6).countP (fun b => !(c.windows.any (fun w => w.1 < 4 * b + 4 && 4 * b < w.1 + w.2))) := by
    unfold Core.windows
    simp only [List.any_map]
    rfl
  rw [counted, counted, h]

/-- A record changed in place leaves what is read of each record. -/
theorem map_kmod {α β : Type} (f : α → α) (g : α → β) (hf : ∀ v, g (f v) = g v) (k : Nat) (m : Sparse α) :
    (kmod k f m).map (fun p => g p.2) = m.map (fun p => g p.2) := by
  have put (v : α) : ∀ m : Sparse α, kget k m = some v → (kset k (f v) m).map (fun p => g p.2) = m.map (fun p => g p.2) := by
    intro m
    induction m with
    | nil => exact fun h => nomatch h
    | cons p r ih =>
      obtain ⟨k', v'⟩ := p
      unfold kget kset
      intro h
      by_cases same : k = k'
      · rw [if_pos same] at h
        subst same
        rw [if_neg (lt_irrefl k), if_pos rfl, ← Option.some.inj h]
        exact congrArg (· :: _) (hf v')
      · rw [if_neg same] at h
        split at h
        · cases h
        next below =>
          rw [if_neg below, if_neg same]
          exact congrArg (g v' :: ·) (ih h)
  unfold kmod
  split
  next v found => exact put v m found
  · rfl

theorem windows_modUnit (c : Core) (u : Nat) (f : WUnit → WUnit) (hf : ∀ w, ((f w).shBase, (f w).shUnits) = (w.shBase, w.shUnits)) :
    (c.modUnit u f).windows = c.windows := map_kmod f (fun w => (w.shBase, w.shUnits)) hf u c.units

/-- The issuing core has the windows that it had. -/
def SameWindows (s t : State) : Prop := t.cur.core = s.cur.core ∧ t.curCore.windows = s.curCore.windows

namespace SameWindows

theorem refl (s : State) : SameWindows s s := ⟨rfl, rfl⟩
theorem trans (h : SameWindows s t) (k : SameWindows t u) : SameWindows s u := ⟨k.1.trans h.1, k.2.trans h.2⟩

theorem modC (s : State) (f : Core → Core) (hf : ∀ k, (f k).windows = k.windows) : SameWindows s (s.modC f) := by
  refine ⟨rfl, ?_⟩
  show ((s.modCore s.cur.core f).core s.cur.core).windows = (s.core s.cur.core).windows
  rcases core_modCore_or s s.cur.core s.cur.core f with ⟨-, e⟩ | e <;> rw [e]
  exact hf _

theorem bump (s : State) (c e n : Nat) : SameWindows s (s.bump c e n) := by
  obtain ⟨p, q, core⟩ := bump_core s c e n s.cur.core
  have cur : (s.bump c e n).cur = s.cur := by
    unfold State.bump
    dsimp only
    split <;> rfl
  refine ⟨by rw [cur], ?_⟩
  show ((s.bump c e n).core (s.bump c e n).cur.core).windows = _
  rw [cur, core]
  rfl

theorem moveOn (s : State) (l : List SlotI) : SameWindows s (s.moveOn l) := by
  have woken : SameWindows s (s.wakeBanks l) := modC s _ fun k => by
    unfold Core.windows
    rw [wakeRegs_units]
  unfold State.moveOn
  refine .trans ?_ (modC _ _ fun _ => rfl)
  exact woken.trans (modC _ _ fun _ => rfl)

theorem pops (l : List (Nat × Nat)) (s : State) : SameWindows s (l.foldl State.pop1 s) := by
  refine List.foldlRecOn (motive := SameWindows s) l _ (refl s) fun u h p _ => h.trans ?_
  exact modC u _ fun k => windows_modUnit k _ _ fun _ => rfl

theorem bundle (s : State) (p : List (Nat × List W32)) (q : Option (Nat × Nat)) (v : List (Nat × Nat)) :
    SameWindows s { s with cur := { s.cur with pops := p, hand := q, views := v } } := ⟨rfl, rfl⟩

/-- The start of an issue leaves every window where it is. -/
theorem start (s : State) (l : List SlotI) : SameWindows s (s.start l) := by
  have counted := (((moveOn s l).trans (bump _ s.cur.core 2 1)).trans
    (bump _ s.cur.core 3 (l.filter (fun p => (p.1 == 1 || p.1 == 2) && s.acts p.2)).length)).trans
    (bump _ s.cur.core 4 (l.filter (fun p => p.1 == 3 && s.acts p.2)).length)
  have viewed := counted.trans (bundle _ [] none (viewsOf l))
  exact viewed.trans (pops (popsOf l) _)

end SameWindows

/-! ### Own path or home (log 3) -/

theorem sameWindows_begun {i : Instr} (hh : ((semOf (soloSlot i) i).hold s).2 = s) : SameWindows s (s.begun i) := by
  have hold : ((soloSem i).hold s).2 = s := by
    unfold soloSem Sem.gated
    dsimp only
    split
    · exact hh
    · rfl
  unfold State.begun
  rw [hold]
  exact .start s _

/-- Accesses of the issuing core act where they would have acted. -/
structure SamePath (s v : State) : Prop where
  core : v.cur.core = s.cur.core
  scope : v.scope = s.scope
  banks : v.curCore.l1Banks = s.curCore.l1Banks

namespace SamePath

theorem ownPath (h : SamePath s v) (ty : Nat) : v.ownPath v.cur.core v.scope ty = s.ownPath s.cur.core s.scope ty := by
  have banks : (v.core v.cur.core).l1Banks = (s.core s.cur.core).l1Banks := h.banks
  unfold State.ownPath Core.hasL1
  rw [banks, h.scope, h.core]
theorem served (h : SamePath s u) (k : Served u v) : SamePath s v := by
  refine ⟨by rw [k.cur, h.core], ?_, ?_⟩
  · rw [← h.scope]
    unfold State.scope
    rw [k.cur]
  · rw [← h.banks]
    unfold Core.l1Banks
    rw [k.core]

theorem begun (hb : Begun s b) (hw : SameWindows s b) : SamePath s b := ⟨hb.coreKey, hb.scope, l1Banks_of_windows hw.2⟩

end SamePath

end Sys2Proof.Machine
end

section

/-! Stores to memory (R207, R261): lanes in ascending order, at the home or in the core's own path (O21). -/

namespace Sys2Proof.Machine

variable {s b u v t : State} {x : AccOp} {vd : VSrc}

/-! ### One store at the home -/

theorem lineOpen_of_closed (h : s.exact = []) (k : Nat) : s.lineOpen k = false := by
  unfold State.lineOpen
  rw [h]
  rfl

/-- A store at the home changes the copy that the core may keep. -/
def Core.patches (c : Core) (pa : Nat) (v : List Byte) : Core := { c with lines := kmod (pa / 128) (fun l => l.put (pa % 128) v false) c.lines }

theorem storeG_home {c launch pa scope ty : Nat} (far : s.ownPath c scope ty = false) (closed : s.exact = []) (l : List Byte) :
    s.storeG c launch pa l scope ty = (s.putBytes (s.canon pa) l).modCore c (·.patches (s.canon pa) l) := by
  unfold State.storeG
  dsimp only
  rw [far, Bool.false_and, if_neg Bool.false_ne_true]
  unfold State.homeWrite
  rw [settleRange_of_closed closed]
  rfl

/-- The store of lane p to memory. -/
def State.storeWord (x : AccOp) (vd : VSrc) (v : State) (p : Lane) : State :=
  (v.storeG v.cur.core v.curGrp.launch p.pa (v.storedBytes x vd p) v.scope p.ty).markFar p.pa

theorem effStore_memory (hx : x.sp = .g) : effStore x vd b =
    ((b.plan x).lanes.foldl (State.storeWord x vd) (b.marked x)).sendSectors x (b.plan x).lanes := by
  have isG : (x.sp == .g) = true := by rw [hx]; rfl
  unfold effStore
  simp only [isG, if_true]
  rfl

theorem served_storeWord (hl : v.live = true) (x : AccOp) (vd : VSrc) (p : Lane) : Served v (v.storeWord x vd p) := by
  have stored := Served.of_memory hl (memoryOnly_storeG v v.cur.core v.curGrp.launch p.pa (v.storedBytes x vd p) v.scope p.ty)
  exact stored.trans (.markFar stored.live p.pa)

theorem served_storeWords (l : List Lane) (hl : v.live = true) (x : AccOp) (vd : VSrc) : Served v (l.foldl (State.storeWord x vd) v) :=
  List.foldlRecOn (motive := Served v) l _ (.refl hl) fun _ h p _ => h.trans (served_storeWord h.live x vd p)

theorem Served.storedBytes (h : Served b v) (x : AccOp) (vd : VSrc) (p : Lane) : v.storedBytes x vd p = b.storedBytes x vd p := by
  unfold State.storedBytes
  rw [h.sources.storeData]

/-! ### Lanes at the home -/

/-- The lanes of a store have acted at their homes in part: no sum is open, and memory is canonical. -/
structure AtHome (s b v : State) : Prop where
  served : Served b v
  path : SamePath s v
  canon : ∀ a, v.canon a = s.canon a
  closed : v.exact = []
  ok : v.memOk = true

theorem storeWord_home (h : AtHome s b v) {p : Lane} (far : s.ownPath s.cur.core s.scope p.ty = false) :
    AtHome s b (v.storeWord x vd p) ∧ ∀ a, (v.storeWord x vd p).byte a = (v.putBytes (s.canon p.pa) (b.storedBytes x vd p)).byte a := by
  have served := served_storeWord h.served.live x vd p
  have stored : v.storeWord x vd p =
      ((v.putBytes (s.canon p.pa) (b.storedBytes x vd p)).modCore v.cur.core (·.patches (s.canon p.pa) (b.storedBytes x vd p))).markFar p.pa := by
    unfold State.storeWord
    rw [storeG_home ((h.path.ownPath p.ty).trans far) h.closed, h.canon, h.served.storedBytes]
  have marked := LinesKept.markFar
    ((v.putBytes (s.canon p.pa) (b.storedBytes x vd p)).modCore v.cur.core (·.patches (s.canon p.pa) (b.storedBytes x vd p))) p.pa
  refine ⟨⟨h.served.trans served, h.path.served served, fun a => (served.canon a).trans (h.canon a), ?_, ?_⟩, fun a => ?_⟩
  · rw [stored, marked.exact]
    exact (putBytes_exact v _ _).trans h.closed
  · have put := putBytes_memOk (s.canon p.pa) (b.storedBytes x vd p) h.ok
    unfold State.memOk at put ⊢
    rw [stored, marked.mem]
    exact put
  · rw [stored]
    exact byte_markFar _ _ a

/-- Lanes at their homes leave every other byte alone. -/
theorem byte_storeWords_other (l : List Lane) (h : AtHome s b v) (far : ∀ p ∈ l, s.ownPath s.cur.core s.scope p.ty = false) {a : Nat}
    (out : ∀ p ∈ l, ∀ n, n < x.n → s.canon (s.canon p.pa + n) ≠ s.canon a) :
    (l.foldl (State.storeWord x vd) v).byte a = v.byte a := by
  induction l generalizing v with
  | nil => rfl
  | cons p r ih =>
    obtain ⟨farP, farR⟩ := List.forall_mem_cons.mp far
    obtain ⟨outP, outR⟩ := List.forall_mem_cons.mp out
    obtain ⟨next, byte⟩ := storeWord_home (x := x) (vd := vd) h farP
    refine (ih next farR outR).trans ((byte a).trans (byte_putBytes_other h.ok fun i hi => ?_))
    rw [h.canon, h.canon]
    exact (outP i (by rwa [storedBytes_length] at hi)).symm

/-- A lane's bytes stand at their home unless a higher lane stores over them. -/
theorem byte_storeWords_same (l : List Lane) (ascending : l.Pairwise (fun p q => p.j < q.j)) (h : AtHome s b v) (hn : x.n ≤ 8)
    (far : ∀ p ∈ l, s.ownPath s.cur.core s.scope p.ty = false) {p : Lane} (hp : p ∈ l)
    (apart : ∀ q ∈ l, p.j < q.j → ∀ n m, n < x.n → m < x.n → s.canon (s.canon p.pa + n) ≠ s.canon (s.canon q.pa + m)) {n : Nat} (hi : n < x.n) :
    (l.foldl (State.storeWord x vd) v).byte (s.canon p.pa + n) = (b.storedBytes x vd p).getD n 0 := by
  induction l generalizing v with
  | nil => cases hp
  | cons q r ih =>
    obtain ⟨farQ, farR⟩ := List.forall_mem_cons.mp far
    obtain ⟨-, apartR⟩ := List.forall_mem_cons.mp apart
    obtain ⟨first, rest⟩ := List.pairwise_cons.mp ascending
    obtain ⟨next, byte⟩ := storeWord_home (x := x) (vd := vd) h farQ
    rcases List.mem_cons.mp hp with rfl | hr
    · have len := storedBytes_length b x vd p
      rw [List.foldl_cons, byte_storeWords_other r next farR fun q hq m hm => (apartR q hq (first q hq) n m hi hm).symm, byte]
      exact byte_putBytes_same h.ok (by omega) (by omega)
    · exact ih rest next farR hr apartR

/-! ### One store in the core's own path -/

/-- With no open sum a read at the home keeps memory and lines. -/
theorem homeRead_of_closed (h : s.exact = []) (pa n ty : Nat) : ∃ m, (s.homeRead pa n ty).2 = { s with hostL2 := m } := by
  unfold State.homeRead
  rw [settleRange_of_closed h]
  dsimp only
  split
  · split
    · exact ⟨_, rfl⟩
    · exact ⟨_, rfl⟩
  · exact ⟨_, rfl⟩

theorem length_kset_le {α : Type} (k : Nat) (v : α) (m : Sparse α) : (kset k v m).length ≤ m.length + 1 := by
  induction m with
  | nil => exact le_refl 1
  | cons p r ih =>
    unfold kset
    split
    · exact le_refl _
    split
    · exact Nat.le_succ _
    · exact Nat.succ_le_succ ih

/-- A line added where there is room drops none. -/
theorem addLine_of_room {c k : Nat} {l : Line} (hc : (kget c s.cores).isSome = true)
    (room : (s.core c).lines.length + 1 ≤ (s.core c).lineRoom (isShader c)) :
    s.addLine c k l = s.modCore c (fun d => { d with lines := kset k l d.lines }) := by
  have core : (s.modCore c (fun d => { d with lines := kset k l d.lines })).core c = { s.core c with lines := kset k l (s.core c).lines } :=
    core_modCore_same s c _ hc
  unfold State.addLine
  dsimp only
  rw [core]
  exact if_pos ((length_kset_le k l _).trans room)

/-- A state from which a store puts a line into its core's path: memory and lines are as before. -/
structure ReadsIn (v w : State) (c : Nat) : Prop where
  memory : MemoryOnly v w
  mem : w.mem = v.mem
  exact : w.exact = v.exact
  lines : (w.core c).lines = (v.core c).lines

theorem readsIn_of_kept {c : Nat} (hm : MemoryOnly v w) (h : LinesKept v w) : ReadsIn v w c := ⟨hm, h.mem, h.exact, h.lines c⟩

/-- The line that a store in the core's own path writes to, and the state in which it has it: its copy, else on a shader core what
stands at the home. -/
def State.lineFor (s : State) (c k ty : Nat) : Line × State :=
  match kget k (s.core c).lines with
  | some l => (l, if isShader c then s.bump c 5 1 else s)
  | none =>
    let r := if isShader c then (((s.bump c 6 1).noteBad c k).homeRead (k * 128) 128 ty) else (List.replicate 128 0, s)
    ({ data := r.1, dirty := List.replicate 128 false, since := none, lease := (s.core c).clk + 4096, writers := [] }, r.2)

/-- A line with bytes of a launch written to it. -/
def Line.stored (l : Line) (clk launch off : Nat) (v : List Byte) : Line :=
  { l.put off v true with
    since := (match l.since with | none => some clk | some t => some t),
    writers := if l.writers.contains launch then l.writers else l.writers ++ [launch] }

theorem storeG_own {c launch pa scope ty : Nat} (own : s.ownPath c scope ty = true) (shut : s.lineOpen (s.canon pa / 128) = false) (v : List Byte) :
    s.storeG c launch pa v scope ty = (s.lineFor c (s.canon pa / 128) ty).2.addLine c (s.canon pa / 128)
      ((s.lineFor c (s.canon pa / 128) ty).1.stored (s.core c).clk launch (s.canon pa % 128) v) := by
  unfold State.storeG
  dsimp only
  rw [own, shut]
  rfl

theorem readsIn_lineFor {c k ty : Nat} (shader : isShader c = true) (closed : v.exact = []) : ReadsIn v (v.lineFor c k ty).2 c := by
  unfold State.lineFor
  split
  · rw [if_pos shader]
    exact readsIn_of_kept (memoryOnly_bump v c 5 1) (.bump v c 5 1)
  · rw [if_pos shader]
    have noted := (LinesKept.bump v c 6 1).trans (.noteBad _ c k)
    obtain ⟨m, read⟩ := homeRead_of_closed (noted.exact.trans closed) (k * 128) 128 ty
    refine ⟨(((memoryOnly_bump v c 6 1).trans (memoryOnly_noteBad _ _ _)).trans (memoryOnly_homeRead _ _ _ _)), ?_, ?_, ?_⟩ <;>
      dsimp only <;> rw [read]
    · exact noted.mem
    · exact noted.exact
    · exact noted.lines c

/-! ### Lanes in the core's own path -/

/-- The lanes of a store have acted in their core's own path in part: memory is as it was. -/
structure InPath (s b v : State) : Prop where
  served : Served b v
  path : SamePath s v
  canon : ∀ a, v.canon a = s.canon a
  closed : v.exact = []
  mem : v.mem = b.mem

theorem storeWord_path (h : InPath s b v) (shader : s.onShader = true) {p : Lane} (own : s.ownPath s.cur.core s.scope p.ty = true)
    (room : v.curCore.lines.length + 1 ≤ s.curCore.lineRoom true) :
    InPath s b (v.storeWord x vd p) ∧ ∃ l, (v.storeWord x vd p).curCore.lines = kset (s.canon p.pa / 128) l v.curCore.lines := by
  have served := served_storeWord h.served.live x vd p
  have onShader : isShader v.cur.core = true := by
    rw [h.path.core]
    exact shader
  have put := storeG_own (launch := v.curGrp.launch) (pa := p.pa) ((h.path.ownPath p.ty).trans own) (lineOpen_of_closed h.closed _) (v.storedBytes x vd p)
  have read := readsIn_lineFor (k := v.canon p.pa / 128) (ty := p.ty) onShader h.closed
  generalize (v.lineFor v.cur.core (v.canon p.pa / 128) p.ty).2 = w at put read
  generalize Line.stored _ _ _ _ _ = l at put
  have units : (w.core v.cur.core).l1Banks = v.curCore.l1Banks := by
    unfold Core.l1Banks
    rw [read.memory.core]
    rfl
  have present : (kget v.cur.core w.cores).isSome = true := (read.memory.here _).trans (live_parts h.served.live).1
  have added := addLine_of_room (k := v.canon p.pa / 128) (l := l) present (by
    rw [read.lines, onShader]
    unfold Core.lineRoom
    rw [units, h.path.banks]
    exact room)
  have core := core_modCore_same w v.cur.core (fun d => { d with lines := kset (v.canon p.pa / 128) l d.lines }) present
  rw [← added, ← put] at core
  have marked := LinesKept.markFar (v.storeG v.cur.core v.curGrp.launch p.pa (v.storedBytes x vd p) v.scope p.ty) p.pa
  have cur : (v.storeWord x vd p).cur.core = v.cur.core := by rw [served.cur]
  refine ⟨⟨h.served.trans served, h.path.served served, fun a => (served.canon a).trans (h.canon a), ?_, ?_⟩, l, ?_⟩
  · exact marked.exact.trans (by rw [put, added]; exact read.exact.trans h.closed)
  · exact marked.mem.trans (by rw [put, added]; exact read.mem.trans h.mem)
  · show ((v.storeWord x vd p).core (v.storeWord x vd p).cur.core).lines = _
    rw [cur, ← h.canon]
    refine (marked.lines v.cur.core).trans ?_
    rw [core]
    exact congrArg (kset (v.canon p.pa / 128) l) read.lines

/-- Where there is room for their lines, lanes in the core's own path leave memory alone and their lines stay. -/
theorem storeWords_path (l : List Lane) (h : InPath s b v) (shader : s.onShader = true) (own : ∀ p ∈ l, s.ownPath s.cur.core s.scope p.ty = true)
    (room : v.curCore.lines.length + l.length ≤ s.curCore.lineRoom true) :
    InPath s b (l.foldl (State.storeWord x vd) v)
    ∧ (∀ k, (kget k v.curCore.lines).isSome = true → (kget k (l.foldl (State.storeWord x vd) v).curCore.lines).isSome = true)
    ∧ ∀ p ∈ l, (kget (s.canon p.pa / 128) (l.foldl (State.storeWord x vd) v).curCore.lines).isSome = true := by
  induction l generalizing v with
  | nil => exact ⟨h, fun _ k => k, nofun⟩
  | cons p r ih =>
    obtain ⟨ownP, ownR⟩ := List.forall_mem_cons.mp own
    rw [List.length_cons] at room
    obtain ⟨next, y, lines⟩ := storeWord_path (x := x) (vd := vd) h shader ownP (by omega)
    have longer := length_kset_le (s.canon p.pa / 128) y v.curCore.lines
    obtain ⟨done, kept, stay⟩ := ih next ownR (by rw [lines]; omega)
    have here : (kget (s.canon p.pa / 128) (v.storeWord x vd p).curCore.lines).isSome = true := by rw [lines, kget_kset_same]; rfl
    refine ⟨done, fun k hk => kept k ?_, List.forall_mem_cons.mpr ⟨kept _ here, stay⟩⟩
    by_cases same : k = s.canon p.pa / 128
    · rw [same]
      exact here
    · rw [lines, kget_kset_other same]
      exact hk

/-! ### The obligation -/

section
variable {g : Guard} {sz : Size} {row : Bool} {an : AReg} {vo : VSrc} {disp : BitVec 16}

/-- The request slots of a store's sectors leave memory and lines alone. -/
theorem sendSectors_keeps (u : State) (x : AccOp) (l : List Lane) : OnStream u (u.sendSectors x l) ∧ (u.sendSectors x l).mem = u.mem
    ∧ (∀ a, (u.sendSectors x l).canon a = u.canon a) ∧ (u.sendSectors x l).curCore.lines = u.curCore.lines := by
  unfold State.sendSectors
  split
  · obtain ⟨mem, canon, lines⟩ := holdSlots_memory u u.cur.core u.cur.gid ((sectorsOf l).map (fun k => (k, u.homeTicks (coreDie u.cur.core) (k * 32))))
    have aside := aside_holdSlots (s := u) rfl u.cur.gid ((sectorsOf l).map (fun k => (k, u.homeTicks (coreDie u.cur.core) (k * 32))))
    refine ⟨aside.stays.onStream, mem, canon, ?_⟩
    unfold State.curCore
    rw [aside.cur]
    exact lines
  · exact ⟨.refl u, rfl, fun _ => rfl, rfl⟩

/-- What a store to memory answers: its lanes have acted in order. -/
theorem memory_store {P : State → Prop} (h : s.issues (storeInstr row g .g sz vd an vo disp) = true) (ha : s.act g ≠ 0)
    (hP : ∀ b, s.begun (storeInstr row g .g sz vd an vo disp) = b → Begun s b → SamePath s b → ∀ t,
      let v := (b.plan (storeOp g .g sz an vo disp row)).lanes.foldl (State.storeWord (storeOp g .g sz an vo disp row) vd)
        (b.marked (storeOp g .g sz an vo disp row))
      t.mem = v.mem → (∀ a, t.canon a = v.canon a) → (s.coreIn t).lines = v.curCore.lines → P t) :
    Yields (storeInstr row g .g sz vd an vo disp) s P := by
  obtain ⟨-, guard, hold, -⟩ := store_sem (g := g) (sp := .g) (sz := sz) (vd := vd) (an := an) (vo := vo) (disp := disp) row
  have acts : s.act (opInfo (storeInstr row g .g sz vd an vo disp)).guard ≠ 0 := by rwa [guard]
  have free := hold_keeps h acts (by rw [hold]; exact holdStore_free)
  refine store_yields h ha fun b hbegun hb => ?_
  have path : SamePath s b := .begun hb (hbegun ▸ sameWindows_begun free)
  have marked := served_marked hb.live (storeOp g .g sz an vo disp row)
  have stored := marked.trans (served_storeWords (b.plan (storeOp g .g sz an vo disp row)).lanes marked.live (storeOp g .g sz an vo disp row) vd)
  obtain ⟨on, mem, canon, lines⟩ := sendSectors_keeps _ (storeOp g .g sz an vo disp row) (b.plan (storeOp g .g sz an vo disp row)).lanes
  refine ⟨_, effStore_memory rfl, stored.onStream.trans on, fun t d _ => hP b hbegun hb path t (d.mem.trans mem) (fun a => ?_) (d.lines.trans lines)⟩
  rw [← canon]
  unfold State.canon
  rw [d.rest]

theorem Begun.exact (hb : Begun s b) : b.exact = s.exact := by rw [hb.only]
theorem Begun.canon (hb : Begun s b) (a : Nat) : b.canon a = s.canon a := by
  unfold State.canon
  rw [hb.only]

theorem bytes_le_eight (sz : Size) : sz.bytes ≤ 8 := by cases sz <;> decide

theorem home_store (h : s.issues (storeInstr row g .g sz vd an vo disp) = true) (ha : s.act g ≠ 0) (ok : s.memOk = true) (closed : s.exact = []) :
    let x := storeOp g .g sz an vo disp row
    let b := s.begun (storeInstr row g .g sz vd an vo disp)
    let l := (b.plan x).lanes
    (∀ p ∈ l, s.ownPath s.cur.core s.scope p.ty = false) → Yields (storeInstr row g .g sz vd an vo disp) s (fun t =>
      (∀ a, (∀ p ∈ l, ∀ n, n < x.n → s.canon (s.canon p.pa + n) ≠ s.canon a) → t.byte a = s.byte a)
      ∧ ∀ p ∈ l, (∀ q ∈ l, p.j < q.j → ∀ n m, n < x.n → m < x.n → s.canon (s.canon p.pa + n) ≠ s.canon (s.canon q.pa + m)) →
          ∀ n, n < x.n → t.byte (s.canon p.pa + n) = (b.storedBytes x vd p).getD n 0) := by
  intro x b l far
  refine memory_store h ha fun b' hbegun hb path t mem canon _ => ?_
  obtain rfl : b = b' := hbegun
  have marked := served_marked hb.live x
  have kept := LinesKept.marked b x
  have memory : (b.marked x).mem = s.mem := kept.mem.trans hb.mem
  have same (a : Nat) : (b.marked x).canon a = s.canon a := (kept.canon a).trans (hb.canon a)
  have begins : AtHome s b (b.marked x) := by
    refine ⟨marked, path.served marked, same, (kept.exact.trans hb.exact).trans closed, ?_⟩
    unfold State.memOk
    rw [memory]
    exact ok
  have small : x.n ≤ 8 := bytes_le_eight sz
  have byte (a : Nat) : t.byte a = (l.foldl (State.storeWord x vd) (b.marked x)).byte a := byte_of_mem mem canon a
  refine ⟨fun a out => ?_, fun p hp apart n hn => ?_⟩
  · rw [byte, byte_storeWords_other l begins far out]
    exact byte_of_mem memory same a
  · rw [byte]
    exact byte_storeWords_same l (plan_ascending b x) begins small far hp apart hn

theorem path_store (h : s.issues (storeInstr row g .g sz vd an vo disp) = true) (ha : s.act g ≠ 0) (shader : s.onShader = true) (closed : s.exact = []) :
    let l := ((s.begun (storeInstr row g .g sz vd an vo disp)).plan (storeOp g .g sz an vo disp row)).lanes
    (∀ p ∈ l, s.ownPath s.cur.core s.scope p.ty = true) → s.curCore.lines.length + l.length ≤ s.curCore.lineRoom true →
    Yields (storeInstr row g .g sz vd an vo disp) s (fun t => t.mem = s.mem
      ∧ ∀ p ∈ l, (kget (s.canon p.pa / 128) (s.coreIn t).lines).isSome = true) := by
  intro l own room
  refine memory_store h ha fun b hbegun hb path t mem canon lines => ?_
  subst hbegun
  have marked := served_marked hb.live (storeOp g .g sz an vo disp row)
  have kept := LinesKept.marked (s.begun (storeInstr row g .g sz vd an vo disp)) (storeOp g .g sz an vo disp row)
  have begins : InPath s (s.begun (storeInstr row g .g sz vd an vo disp)) _ := ⟨marked, path.served marked,
    fun a => (kept.canon a).trans (hb.canon a), (kept.exact.trans hb.exact).trans closed, kept.mem⟩
  have held : ((s.begun (storeInstr row g .g sz vd an vo disp)).marked (storeOp g .g sz an vo disp row)).curCore.lines = s.curCore.lines := by
    rw [kept.curLines]
    unfold State.curCore
    rw [hb.coreKey]
    exact hb.lines
  obtain ⟨done, -, stay⟩ := storeWords_path (x := storeOp g .g sz an vo disp row) (vd := vd) l begins shader own (by rw [held]; exact room)
  exact ⟨(mem.trans done.mem).trans hb.mem, fun p hp => by rw [lines]; exact stay p hp⟩

end

/-- Settles O21: lanes that act at the home write their bytes there in order; lanes that act in the core's own path leave them in its
lines, of which none makes room. -/
theorem storeResults : Obligations.StoreResults := by
  unfold Obligations.StoreResults
  refine ⟨?_, ?_⟩
  · intro s g sz row vd an vo disp i x b l key h ha ok closed far
    exact home_store h ha ok closed far
  · intro s g sz row vd an vo disp i l h ha shader closed own room
    exact path_store h ha shader closed own room

end Sys2Proof.Machine
end

section

/-! SUPPORT. A line of memory that holds what was stored (R216, R232): it keeps it while sums near it settle and its dirty bytes go home. -/

namespace Sys2Proof.Machine

variable {s t u w x : State}

/-! ### Addresses of a line -/

/-- An address next to a line has its home in the line only where it lies in it. -/
theorem canon_near {k a o : Nat} (ho : o < 128) (below : k * 128 < a + 4) (above : a < k * 128 + 132)
    (h : s.canon a = k * 128 + o) : a = k * 128 + o := by
  unfold State.canon podPkg podOff at h
  norm_num at h
  split at h <;> omega

theorem canon_canon (pa : Nat) : s.canon (s.canon pa) = s.canon pa := by
  unfold State.canon podPkg podOff
  norm_num
  repeat' split
  all_goals omega

/-- The line of a canonical address is canonical. -/
theorem canon_line_of (pa : Nat) : s.canon (s.canon pa / 128 * 128) = s.canon pa / 128 * 128 := by
  unfold State.canon podPkg podOff
  norm_num
  repeat' split
  all_goals omega

/-! ### Settling (R216) -/

theorem settle1_exact_of_rising (h : srising s.exact = true) (w : Nat) : (s.settle1 w).exact = kdel w s.exact := by
  unfold State.settle1
  split
  next absent =>
    refine (List.filter_eq_self.2 fun p hp => bne_iff_ne.2 fun hw => ?_).symm
    rw [← hw, kget_of_mem h hp] at absent
    cases absent
  · rfl

theorem settle1_rising (h : srising s.exact = true) (w : Nat) : srising (s.settle1 w).exact = true := by
  rw [settle1_exact_of_rising h]
  exact srising_filter _ h

/-- A word that settles is open no more. -/
theorem settleList_exact (l : List Nat) (h : srising s.exact = true) :
    srising (l.foldl State.settle1 s).exact = true ∧ ∀ p ∈ (l.foldl State.settle1 s).exact, p ∈ s.exact ∧ p.1 ∉ l := by
  induction l generalizing s with
  | nil => exact ⟨h, fun p hp => ⟨hp, List.not_mem_nil⟩⟩
  | cons w r ih =>
    obtain ⟨rises, left⟩ := ih (settle1_rising h w)
    refine ⟨rises, fun p hp => ?_⟩
    obtain ⟨hp, hr⟩ := left p hp
    rw [settle1_exact_of_rising h, mem_kdel] at hp
    exact ⟨hp.1, by simp [hp.2, hr]⟩

theorem settle1_byte (h : s.memOk = true) {w a : Nat} (apart : ∀ i, i < 4 → s.canon a ≠ s.canon (w + i)) : (s.settle1 w).byte a = s.byte a := by
  unfold State.settle1
  split
  · rfl
  · exact byte_putBytes_other h fun i hi => apart i (by rwa [leBytes_length] at hi)

/-! ### A line that holds -/

/-- The bytes v stand in canonical line k from offset off, and no open sum touches them. -/
structure LineHolds (x : State) (k off : Nat) (v : List Byte) : Prop where
  line : x.canon (k * 128) = k * 128
  fits : off + v.length ≤ 128
  ok : x.memOk = true
  rises : srising x.exact = true
  bytes : ∀ j, j < v.length → x.byte (k * 128 + off + j) = v.getD j 0
  clear : ∀ q ∈ x.exact, ¬ (q.1 < k * 128 + off + v.length ∧ k * 128 + off < q.1 + 4)

namespace LineHolds

variable {k off : Nat} {v : List Byte}

theorem canon_byte (h : LineHolds x k off v) {j : Nat} (hj : j < v.length) : x.canon (k * 128 + off + j) = k * 128 + off + j := by
  have fits := h.fits
  rw [Nat.add_assoc]
  exact canon_line h.line (by omega)

/-- Lines and counters of cores are no part of memory. -/
theorem modCore (h : LineHolds x k off v) (c : Nat) (f : Core → Core) : LineHolds (x.modCore c f) k off v :=
  ⟨h.line, h.fits, h.ok, h.rises, h.bytes, h.clear⟩

theorem kept (h : LineHolds x k off v) (e : LinesKept x t) : LineHolds t k off v := by
  rw [e.rest]
  exact ⟨h.line, h.fits, h.ok, h.rises, h.bytes, h.clear⟩

/-- A word near the line settles beside what the line holds. -/
theorem settle1 (h : LineHolds x k off v) {w : Nat} (below : k * 128 < w + 4) (above : w < k * 128 + 128) : LineHolds (x.settle1 w) k off v := by
  have fits := h.fits
  have canon := canon_of_memory (memoryOnly_settle1 x w)
  refine ⟨(canon _).trans h.line, fits, settle1_memOk w h.ok, settle1_rising h.rises w, fun j hj => ?_, fun q hq => ?_⟩
  · cases found : kget w x.exact with
    | none =>
      unfold State.settle1
      rw [found]
      exact h.bytes j hj
    | some e =>
      have clear := h.clear _ (mem_of_kget found)
      refine (settle1_byte h.ok fun i hi same => ?_).trans (h.bytes j hj)
      rw [h.canon_byte hj, Nat.add_assoc] at same
      have := canon_near (by omega) (by omega) (by omega) same.symm
      omega
  · rw [settle1_exact_of_rising h.rises, mem_kdel] at hq
    exact h.clear q hq.1

theorem settleList (h : LineHolds x k off v) (l : List Nat) (near : ∀ w ∈ l, k * 128 < w + 4 ∧ w < k * 128 + 128) :
    LineHolds (l.foldl State.settle1 x) k off v := by
  induction l generalizing x with
  | nil => exact h
  | cons w r ih =>
    obtain ⟨⟨below, above⟩, nearR⟩ := List.forall_mem_cons.mp near
    exact ih (h.settle1 below above) nearR

/-- Sums that touch a range of the line settle beside what the line holds. -/
theorem settleRange (h : LineHolds x k off v) {o n : Nat} (hn : o + n ≤ 128) (ho : o < 128) : LineHolds (x.settleRange (k * 128 + o) n) k off v := by
  refine h.settleList _ fun w hw => ?_
  obtain ⟨p, hp, rfl⟩ := List.mem_map.mp hw
  have touches := (List.mem_filter.mp hp).2
  rw [canon_line h.line ho] at touches
  simp only [Bool.and_eq_true, decide_eq_true_eq] at touches
  omega

/-- A byte of the line goes home that agrees with what the line holds. -/
theorem homeWrite (h : LineHolds x k off v) {i : Nat} (hi : i < 128) {b : Byte} (agrees : ∀ j, j < v.length → i = off + j → b = v.getD j 0) :
    LineHolds (x.homeWrite (k * 128 + i) [b]) k off v := by
  have settled := h.settleRange (o := i) (n := 1) (by omega) hi
  have canon := canon_of_memory (memoryOnly_putBytes (x.settleRange (k * 128 + i) 1) (k * 128 + i) [b])
  have exact_ := putBytes_exact (x.settleRange (k * 128 + i) 1) (k * 128 + i) [b]
  refine ⟨(canon _).trans settled.line, h.fits, putBytes_memOk _ _ settled.ok, exact_ ▸ settled.rises, fun j hj => ?_, fun q hq => ?_⟩
  · by_cases same : i = off + j
    · rw [← agrees j hj same, show k * 128 + off + j = k * 128 + i by omega]
      exact byte_putByte_same (k * 128 + i) b settled.ok
    · refine (byte_putByte_other b settled.ok ?_).trans (settled.bytes j hj)
      rw [settled.canon_byte hj, canon_line settled.line hi]
      omega
  · exact settled.clear q (by rwa [← exact_])

/-- The dirty bytes of a copy that agrees with what the line holds go home. -/
theorem writeDirty (h : LineHolds x k off v) {l : Line} (agrees : ∀ j, j < v.length → l.data.getD (off + j) 0 = v.getD j 0) (is : List Nat)
    (hi : ∀ i ∈ is, i < 128) : LineHolds (x.writeDirty k l is) k off v := by
  induction is generalizing x with
  | nil => exact h
  | cons i r ih =>
    obtain ⟨hi, hr⟩ := List.forall_mem_cons.mp hi
    rw [writeDirty_cons]
    refine ih ?_ hr
    rw [writeDirty_one]
    split
    · exact h.homeWrite hi fun j hj same => by rw [same, agrees j hj]
    · exact h

/-- A copy that agrees with what the line holds is dropped. -/
theorem dropLine (h : LineHolds x k off v) {c : Nat} {l : Line} (found : kget k (x.core c).lines = some l)
    (agrees : ∀ j, j < v.length → l.data.getD (off + j) 0 = v.getD j 0) : LineHolds (x.dropLine c k) k off v := by
  rw [dropLine_of_some found]
  exact ((h.writeDirty agrees _ fun i hi => List.mem_range.mp hi).modCore c _).modCore c _

end LineHolds

/-! ### Reads at the home (R232) -/

/-- A list is read place by place. -/
theorem map_range_eq {v : List Byte} {f : Nat → Byte} (h : ∀ i, i < v.length → f i = v.getD i 0) : (List.range v.length).map f = v := by
  refine List.ext_getElem (by simp) fun i hi hv => ?_
  rw [List.getElem_map, List.getElem_range, h i hv, List.getD_eq_getElem _ _ hv]

theorem regionOf_eq_two {a : Nat} : regionOf a = some 2 ↔ 281474976710656 ≤ a ∧ a < 562949953421312 := by
  unfold regionOf
  norm_num
  repeat' split
  all_goals simp
  all_goals omega

theorem homeRead_of_region {pa : Nat} (h : regionOf pa ≠ some 2) (n ty : Nat) : (s.homeRead pa n ty).1 = (s.settleRange pa n).bytes pa n := by
  have elsewhere : (regionOf pa == some 2) = false := by simpa using h
  unfold State.homeRead
  dsimp only
  rw [elsewhere]
  rfl

theorem LineHolds.read {k off : Nat} {v : List Byte} (h : LineHolds x k off v) (ho : off < 128) (region : regionOf (k * 128 + off) ≠ some 2) (ty : Nat) :
    (x.homeRead (k * 128 + off) v.length ty).1 = v := by
  rw [homeRead_of_region region]
  exact map_range_eq (h.settleRange h.fits ho).bytes

/-- A whole line is read at its home. -/
theorem LineHolds.readLine {k off : Nat} {v : List Byte} (h : LineHolds x k off v) (region : regionOf (k * 128) ≠ some 2) (ty : Nat) {i : Nat}
    (hi : i < v.length) : (x.homeRead (k * 128) 128 ty).1.getD (off + i) 0 = v.getD i 0 := by
  have fits := h.fits
  have settled := h.settleRange (o := 0) (n := 128) (le_refl _) (by decide)
  rw [homeRead_of_region region]
  unfold State.bytes
  rw [List.getD_eq_getElem _ _ (by simp; omega), List.getElem_map, List.getElem_range, ← Nat.add_assoc]
  exact settled.bytes i hi

/-! ### Bytes put into a copy -/

/-- One byte put into a line. -/
def Line.putAt (off : Nat) (v : List Byte) (d : Bool) (l : Line) (i : Nat) : Line :=
  { l with data := l.data.set (off + i) (v.getD i 0), dirty := l.dirty.set (off + i) d }

theorem put_eq (l : Line) (off : Nat) (v : List Byte) (d : Bool) : l.put off v d = (List.range v.length).foldl (Line.putAt off v d) l := rfl

/-- A whole line. -/
structure Line.Whole (l : Line) : Prop where
  data : l.data.length = 128
  dirty : l.dirty.length = 128

/-- The first n bytes of v stand in a line, all dirty or all clean. -/
structure Line.Has (l : Line) (off : Nat) (v : List Byte) (d : Bool) (n : Nat) : Prop where
  whole : l.Whole
  data : ∀ i, i < n → l.data.getD (off + i) 0 = v.getD i 0
  dirty : ∀ i, i < n → l.dirty.getD (off + i) false = d

theorem getD_set_same {α : Type} {l : List α} {i : Nat} (h : i < l.length) (a d : α) : (l.set i a).getD i d = a := by
  simp [List.getD_eq_getElem?_getD, h]

theorem getD_set_other {α : Type} (l : List α) {i j : Nat} (h : i ≠ j) (a d : α) : (l.set i a).getD j d = l.getD j d := by
  simp [List.getD_eq_getElem?_getD, h]

theorem Line.Has.putAt {l : Line} {off n : Nat} {v : List Byte} {d : Bool} (h : l.Has off v d n) (hn : off + n < 128) :
    (Line.putAt off v d l n).Has off v d (n + 1) := by
  have place (i : Nat) (hi : i < n + 1) : i = n ∨ i < n ∧ off + n ≠ off + i := by omega
  refine ⟨⟨(List.length_set ..).trans h.whole.data, (List.length_set ..).trans h.whole.dirty⟩, fun i hi => ?_, fun i hi => ?_⟩
  · rcases place i hi with rfl | ⟨below, apart⟩
    · exact getD_set_same (by rw [h.whole.data]; exact hn) _ _
    · exact (getD_set_other _ apart _ _).trans (h.data i below)
  · rcases place i hi with rfl | ⟨below, apart⟩
    · exact getD_set_same (by rw [h.whole.dirty]; exact hn) _ _
    · exact (getD_set_other _ apart _ _).trans (h.dirty i below)

/-- Bytes put into a whole line stand there. -/
theorem has_put {l : Line} (hl : l.Whole) {off : Nat} {v : List Byte} (hv : off + v.length ≤ 128) (d : Bool) : (l.put off v d).Has off v d v.length := by
  rw [put_eq]
  have first (n : Nat) (hn : n ≤ v.length) : ((List.range n).foldl (Line.putAt off v d) l).Has off v d n := by
    induction n with
    | zero => exact ⟨hl, nofun, nofun⟩
    | succ n ih =>
      rw [List.range_succ, List.foldl_append]
      exact (ih (by omega)).putAt (by omega)
  exact first v.length (le_refl _)

end Sys2Proof.Machine
end

section

/-! A core reads back what it stored within a line (R232, R257, R261), at the home or in its own path (O19). -/

namespace Sys2Proof.Machine

variable {s t u w x : State}

/-! ### What a store leaves open -/

/-- No sum has opened. -/
def NoneOpened (s t : State) : Prop := ∀ q ∈ t.exact, q ∈ s.exact

namespace NoneOpened

theorem refl (s : State) : NoneOpened s s := fun _ h => h
theorem trans (h : NoneOpened s t) (k : NoneOpened t u) : NoneOpened s u := fun q hq => h q (k q hq)
theorem of_exact (h : t.exact = s.exact) : NoneOpened s t := fun _ hq => h ▸ hq

theorem settleRange (s : State) (pa n : Nat) : NoneOpened s (s.settleRange pa n) := by
  refine List.foldlRecOn (motive := NoneOpened s) _ _ (refl s) fun u h w _ => h.trans ?_
  unfold State.settle1
  split
  · exact refl u
  · exact fun q hq => (mem_kdel.mp hq).1

theorem homeWrite (s : State) (pa : Nat) (v : List Byte) : NoneOpened s (s.homeWrite pa v) :=
  (settleRange s pa v.length).trans (of_exact (putBytes_exact _ _ _))

theorem homeRead (s : State) (pa n ty : Nat) : NoneOpened s (s.homeRead pa n ty).2 := by
  have settled := settleRange s pa n
  unfold State.homeRead
  dsimp only
  split
  · split
    · exact settled
    · exact settled
  · exact settled

theorem writeDirty (s : State) (k : Nat) (l : Line) (is : List Nat) : NoneOpened s (s.writeDirty k l is) := by
  induction is generalizing s with
  | nil => exact refl s
  | cons i r ih =>
    rw [writeDirty_cons]
    refine .trans ?_ (ih _)
    rw [writeDirty_one]
    split
    · exact homeWrite s _ _
    · exact refl s

theorem dropLine (s : State) (c k : Nat) : NoneOpened s (s.dropLine c k) := by
  cases found : kget k (s.core c).lines with
  | none =>
    rw [dropLine_of_none found]
    exact of_exact rfl
  | some l =>
    rw [dropLine_of_some found]
    exact (writeDirty s k l _).trans (of_exact rfl)

theorem addLine (s : State) (c k : Nat) (l : Line) : NoneOpened s (s.addLine c k l) := by
  unfold State.addLine
  dsimp only
  split
  · exact refl s
  split
  · exact refl s
  · exact (of_exact rfl).trans (dropLine _ c _)

theorem lineFor (s : State) (c k ty : Nat) : NoneOpened s (s.lineFor c k ty).2 := by
  unfold State.lineFor
  split
  · dsimp only
    split
    · exact of_exact (LinesKept.bump s c 5 1).exact
    · exact refl s
  · dsimp only
    split
    · exact (of_exact ((LinesKept.bump s c 6 1).trans (.noteBad _ c k)).exact).trans (homeRead _ _ _ _)
    · exact refl s

theorem lineOpen (h : NoneOpened s t) {k : Nat} (shut : s.lineOpen k = false) : t.lineOpen k = false := by
  unfold State.lineOpen at *
  rw [List.any_eq_false] at *
  exact fun q hq => shut q (h q hq)

end NoneOpened

theorem memoryOnly_lineFor (s : State) (c k ty : Nat) : MemoryOnly s (s.lineFor c k ty).2 := by
  unfold State.lineFor
  split
  · dsimp only
    split
    · exact memoryOnly_bump s c 5 1
    · exact .refl s
  · dsimp only
    split
    · exact ((memoryOnly_bump s c 6 1).trans (memoryOnly_noteBad _ _ _)).trans (memoryOnly_homeRead _ _ _ _)
    · exact .refl s

theorem homeRead_length (s : State) (pa n ty : Nat) : (s.homeRead pa n ty).1.length = n := by
  unfold State.homeRead
  dsimp only
  split
  · split <;> simp
  · simp [State.bytes]

/-- The line that a store writes to is whole. -/
theorem whole_lineFor {c k : Nat} (held : ∀ l, kget k (s.core c).lines = some l → l.data.length = 128 ∧ l.dirty.length = 128) (ty : Nat) :
    (s.lineFor c k ty).1.Whole := by
  unfold State.lineFor
  split
  next l found => exact ⟨(held l found).1, (held l found).2⟩
  · dsimp only
    split
    · exact ⟨homeRead_length .., List.length_replicate⟩
    · exact ⟨List.length_replicate, List.length_replicate⟩

/-! ### A line in its core's path -/

/-- A line stays under its key when another goes. -/
theorem kget_kdel_of_some {α : Type} {j k : Nat} (ne : j ≠ k) {v : α} {m : Sparse α} (h : kget j m = some v) : kget j (kdel k m) = some v := by
  induction m with
  | nil => cases h
  | cons p r ih =>
    obtain ⟨k', v'⟩ := p
    unfold kget at h
    rw [kdel_cons]
    by_cases here : j = k'
    · rw [if_pos here] at h
      rw [if_neg (by omega), kget, if_pos here]
      exact h
    · rw [if_neg here] at h
      split at h
      · cases h
      next below =>
        split
        · exact ih h
        · rw [kget, if_neg here, if_neg below]
          exact ih h

/-- A line that is added is there, whatever line makes room for it. -/
theorem kget_addLine {c k : Nat} {l : Line} (hc : (kget c s.cores).isSome = true) : kget k ((s.addLine c k l).core c).lines = some l := by
  have core : (s.modCore c (fun d => { d with lines := kset k l d.lines })).core c = { s.core c with lines := kset k l (s.core c).lines } :=
    core_modCore_same s c _ hc
  have added : kget k ((s.modCore c (fun d => { d with lines := kset k l d.lines })).core c).lines = some l := by
    rw [core]
    exact kget_kset_same ..
  unfold State.addLine
  dsimp only
  split
  · exact added
  split
  · exact added
  next k' rest others =>
    have other : k' ≠ k := by
      have listed : k' ∈ k' :: rest := List.mem_cons_self
      rw [← others] at listed
      simpa using (List.mem_filter.mp listed).2
    rw [dropLine_lines]
    exact kget_kdel_of_some other.symm added

theorem ownPath_of_memory (h : MemoryOnly s t) (c scope ty : Nat) : t.ownPath c scope ty = s.ownPath c scope ty := by
  unfold State.ownPath Core.hasL1 Core.l1Banks
  rw [h.core c]

/-! ### Reads -/

/-- A shader core reads its copy. -/
theorem loadG_copy {c launch pa n scope ty : Nat} {l : Line} (own : t.ownPath c scope ty = true) (shader : isShader c = true)
    (shut : t.lineOpen (t.canon pa / 128) = false) (found : kget (t.canon pa / 128) (t.core c).lines = some l) :
    (t.loadG c launch pa n scope ty).1 = (List.range n).map (fun i => l.data.getD (t.canon pa % 128 + i) 0) := by
  unfold State.loadG
  dsimp only
  rw [own, shader, shut, found]
  rfl

/-- Without a copy it reads the line at the home. -/
theorem loadG_miss {c launch pa n scope ty : Nat} (own : t.ownPath c scope ty = true) (shader : isShader c = true)
    (shut : t.lineOpen (t.canon pa / 128) = false) (absent : kget (t.canon pa / 128) (t.core c).lines = none) :
    (t.loadG c launch pa n scope ty).1 = (List.range n).map
      (fun i => ((t.bump c 6 1).homeRead (t.canon pa / 128 * 128) 128 ty).1.getD (t.canon pa % 128 + i) 0) := by
  unfold State.loadG
  dsimp only
  rw [own, shader, shut, absent]
  rfl

theorem loadG_home {c launch pa n scope ty : Nat} (away : (t.ownPath c scope ty && isShader c && !(t.lineOpen (t.canon pa / 128))) = false) :
    t.loadG c launch pa n scope ty = t.readHome c (t.canon pa) n ty := by
  unfold State.loadG
  dsimp only
  rw [away]
  rfl

/-- A tile reads its dirty bytes from its copy and the others at the home. -/
theorem readHome_tile {c pa n ty : Nat} {l : Line} (tile : isShader c = false) (found : kget (pa / 128) (t.core c).lines = some l) :
    (t.readHome c pa n ty).1 = (List.range n).map
      (fun i => if l.dirty.getD (pa % 128 + i) false then l.data.getD (pa % 128 + i) 0 else (t.homeRead pa n ty).1.getD i 0) := by
  unfold State.readHome
  rw [found, tile]
  rfl

/-! ### A store that acts at the home -/

section
variable {c launch pa scope ty : Nat} {v : List Byte}

/-- What a store at the home leaves there. -/
theorem lineHolds_homeWrite (ok : s.memOk = true) (rises : srising s.exact = true) (fits : s.canon pa % 128 + v.length ≤ 128) :
    LineHolds (s.homeWrite (s.canon pa) v) (s.canon pa / 128) (s.canon pa % 128) v := by
  have place : s.canon pa / 128 * 128 + s.canon pa % 128 = s.canon pa := Nat.div_add_mod' _ _
  obtain ⟨risesAfter, left⟩ := settleList_exact (s.openWords (s.canon (s.canon pa)) v.length) rises
  have settledOk : (s.settleRange (s.canon pa) v.length).memOk = true := settleRange_memOk _ _ ok
  have exact_ : (s.homeWrite (s.canon pa) v).exact = (s.settleRange (s.canon pa) v.length).exact := putBytes_exact ..
  refine ⟨?_, fits, putBytes_memOk _ _ settledOk, exact_ ▸ risesAfter, fun j hj => ?_, fun q hq touch => ?_⟩
  · rw [canon_of_memory (memoryOnly_homeWrite s (s.canon pa) v)]
    exact canon_line_of pa
  · rw [place]
    exact byte_putBytes_same settledOk (by omega) hj
  · rw [exact_] at hq
    rw [place] at touch
    obtain ⟨here, shut⟩ := left q hq
    refine shut (List.mem_map_of_mem (List.mem_filter.mpr ⟨here, ?_⟩))
    rw [canon_canon]
    simpa using touch

/-- The state after a store at the home. -/
theorem storeG_away (away : (s.ownPath c scope ty && !(s.lineOpen (s.canon pa / 128))) = false) :
    s.storeG c launch pa v scope ty = (s.homeWrite (s.canon pa) v).modCore c (·.patches (s.canon pa) v) := by
  unfold State.storeG
  dsimp only
  rw [away]
  rfl

/-- The copy that a core keeps of a line that it has stored to at the home. -/
theorem copy_of_storeG (away : (s.ownPath c scope ty && !(s.lineOpen (s.canon pa / 128))) = false) (hc : (kget c s.cores).isSome = true)
    (held : ∀ l, kget (s.canon pa / 128) (s.core c).lines = some l → l.data.length = 128 ∧ l.dirty.length = 128)
    (fits : s.canon pa % 128 + v.length ≤ 128) {l : Line}
    (found : kget (s.canon pa / 128) ((s.storeG c launch pa v scope ty).core c).lines = some l) : l.Has (s.canon pa % 128) v false v.length := by
  have cores := homeWrite_cores s (s.canon pa) v
  have lines : ((s.homeWrite (s.canon pa) v).core c).lines = (s.core c).lines := by
    unfold State.core
    rw [cores]
  have core : (s.storeG c launch pa v scope ty).core c = ((s.homeWrite (s.canon pa) v).core c).patches (s.canon pa) v := by
    rw [storeG_away away]
    exact core_modCore_same _ c _ (by rw [cores]; exact hc)
  rw [core, Core.patches, kget_kmod_same, lines] at found
  obtain ⟨l0, before, rfl⟩ := Option.map_eq_some_iff.mp found
  exact has_put ⟨(held l0 before).1, (held l0 before).2⟩ fits false

/-- What was stored at the home is read back, from the copy that the core keeps or at the home. -/
theorem reads_back_home (ok : s.memOk = true) (rises : srising s.exact = true) (hc : (kget c s.cores).isSome = true)
    (fits : s.canon pa % 128 + v.length ≤ 128) (region : regionOf (s.canon pa) ≠ some 2)
    (held : ∀ l, kget (s.canon pa / 128) (s.core c).lines = some l → l.data.length = 128 ∧ l.dirty.length = 128)
    (away : (s.ownPath c scope ty && !(s.lineOpen (s.canon pa / 128))) = false) :
    ((s.storeG c launch pa v scope ty).loadG c launch pa v.length scope ty).1 = v := by
  have copy (l : Line) := copy_of_storeG (launch := launch) (l := l) away hc held fits
  have memory := memoryOnly_storeG s c launch pa v scope ty
  have place : s.canon pa / 128 * 128 + s.canon pa % 128 = s.canon pa := Nat.div_add_mod' _ _
  have inLine : s.canon pa % 128 < 128 := Nat.mod_lt _ (by decide)
  have holds : LineHolds (s.storeG c launch pa v scope ty) (s.canon pa / 128) (s.canon pa % 128) v := by
    rw [storeG_away away]
    exact (lineHolds_homeWrite ok rises fits).modCore c _
  have canon := canon_of_memory memory pa
  generalize s.storeG c launch pa v scope ty = t at copy holds canon
  have home (u : State) (h : LineHolds u (s.canon pa / 128) (s.canon pa % 128) v) : (u.homeRead (s.canon pa) v.length ty).1 = v := by
    have read := h.read inLine (by rwa [place]) ty
    rwa [place] at read
  cases path : t.ownPath c scope ty && isShader c && !(t.lineOpen (t.canon pa / 128)) with
  | true =>
    obtain ⟨⟨own, shader⟩, shut⟩ := (Bool.and_eq_true_iff.mp path).imp_left Bool.and_eq_true_iff.mp
    have shut : t.lineOpen (t.canon pa / 128) = false := by simpa using shut
    cases found : kget (t.canon pa / 128) (t.core c).lines with
    | some l =>
      rw [loadG_copy own shader shut found, canon]
      rw [canon] at found
      exact map_range_eq (copy l found).data
    | none =>
      rw [loadG_miss own shader shut found, canon]
      refine map_range_eq fun i hi => (holds.kept (.bump t c 6 1)).readLine (fun same => region ?_) ty hi
      rw [regionOf_eq_two] at same ⊢
      omega
  | false =>
    rw [loadG_home path, canon]
    cases found : kget (s.canon pa / 128) (t.core c).lines with
    | none =>
      unfold State.readHome
      rw [found]
      exact home t holds
    | some l =>
      have has := copy l found
      cases shader : isShader c with
      | true =>
        unfold State.readHome
        rw [found]
        dsimp only
        rw [if_pos shader]
        exact home _ (holds.dropLine found has.data)
      | false =>
        rw [readHome_tile shader found, home t holds]
        refine map_range_eq fun i hi => ?_
        rw [has.data i hi]
        exact ite_self _

/-! ### A store in the core's own path -/

/-- What was stored in the core's own path is read back from its line. -/
theorem reads_back_path (hc : (kget c s.cores).isSome = true) (fits : s.canon pa % 128 + v.length ≤ 128)
    (held : ∀ l, kget (s.canon pa / 128) (s.core c).lines = some l → l.data.length = 128 ∧ l.dirty.length = 128)
    (own : s.ownPath c scope ty = true) (shut : s.lineOpen (s.canon pa / 128) = false) :
    ((s.storeG c launch pa v scope ty).loadG c launch pa v.length scope ty).1 = v := by
  have memory := memoryOnly_storeG s c launch pa v scope ty
  have put := storeG_own (launch := launch) own shut v
  have has := has_put (whole_lineFor held ty) fits true
  have present : (kget c (s.lineFor c (s.canon pa / 128) ty).2.cores).isSome = true := ((memoryOnly_lineFor s c (s.canon pa / 128) ty).here c).trans hc
  have found := kget_addLine (k := s.canon pa / 128) (l := (s.lineFor c (s.canon pa / 128) ty).1.stored (s.core c).clk launch (s.canon pa % 128) v) present
  have opened := (NoneOpened.lineFor s c (s.canon pa / 128) ty).trans (.addLine _ c (s.canon pa / 128)
    ((s.lineFor c (s.canon pa / 128) ty).1.stored (s.core c).clk launch (s.canon pa % 128) v))
  rw [← put] at found opened
  have canon := canon_of_memory memory pa
  have own := (ownPath_of_memory memory c scope ty).trans own
  generalize s.storeG c launch pa v scope ty = t at found opened canon own
  have shut : t.lineOpen (t.canon pa / 128) = false := canon ▸ opened.lineOpen shut
  cases shader : isShader c with
  | true =>
    rw [loadG_copy own shader shut (canon ▸ found), canon]
    exact map_range_eq has.data
  | false =>
    rw [loadG_home (by rw [shader, Bool.and_false, Bool.false_and]), canon, readHome_tile shader found]
    refine map_range_eq fun i hi => ?_
    have dirty := has.dirty i hi
    exact (if_pos dirty).trans (has.data i hi)

end

/-- Settles O19: a store in the core's own path leaves its bytes dirty in a line that no other line's going home takes away; a store at
the home leaves them there, and no sum that touches them stays open, so that neither a copy that goes home nor a sum that settles later
changes them. -/
theorem coreReadsItsStore : Obligations.CoreReadsItsStore := by
  unfold Obligations.CoreReadsItsStore
  intro s c launch pa scope ty v ok rises hc fits region held
  cases path : s.ownPath c scope ty && !(s.lineOpen (s.canon pa / 128)) with
  | true =>
    obtain ⟨own, shut⟩ := Bool.and_eq_true_iff.mp path
    exact reads_back_path hc fits held own (by simpa using shut)
  | false => exact reads_back_home ok rises hc fits region held path

end Sys2Proof.Machine
end
